-- ==== Sys2Proof/Word.lean ====
section
/-! DEFINITION. The word types of the device: bytes, 32-bit instruction words and 64-bit registers. -/

namespace Sys2Proof

/-- One byte of memory or scratchpad (R3). -/
abbrev Byte := BitVec 8

/-- One 64-bit register or address (R40). -/
abbrev Word := BitVec 64

/-- One 32-bit instruction word (R3). -/
abbrev IWord := BitVec 32

end Sys2Proof
end

