-- ==== Sys2Proof/Machine/Bits.lean ====
section
/-! DEFINITION. Bit-field, extension and byte-order helpers of the pseudocode (R3, R8), written over natural numbers
and 64-bit words, the total maps the state is made of, and the byte maps. -/

namespace Sys2Proof.Machine

/-- The bit range x[lo+n-1:lo] of a natural number. -/
def bitsOf (x lo n : Nat) : Nat := (x >>> lo) % 2 ^ n

/-- One bit of a natural number. -/
def bitOf (x i : Nat) : Bool := (x >>> i) % 2 == 1

/-- Sext(x, n) of R8 on a 64-bit word. -/
def sextW (x : Word) (n : Nat) : Word := (x.setWidth n).signExtend 64

/-- Zext(x, n) of R8 on a 64-bit word. -/
def zextW (x : Word) (n : Nat) : Word := (x.setWidth n).setWidth 64

/-- x[n-1:0] read as a signed integer. -/
def sintOf (x n : Nat) : Int :=
  let v := x % 2 ^ n
  if n ≠ 0 ∧ 2 ^ (n - 1) ≤ v then (v : Int) - (2 ^ n : Nat) else (v : Int)

/-- The two's complement bits of an integer in n bits (wrapping, R134). -/
def wrapInt (v : Int) (n : Nat) : Nat := (v % ((2 ^ n : Nat) : Int)).toNat

/-- The word of a natural number modulo 2^64. -/
def wordOf (x : Nat) : Word := BitVec.ofNat 64 x

/-- The little-endian bytes of the low 8n bits of x (R3). -/
def bytesOf : Nat → Nat → List Byte
  | 0, _ => []
  | n + 1, x => BitVec.ofNat 8 x :: bytesOf n (x / 256)

/-- The number whose little-endian bytes are given (R3). -/
def natOfBytes : List Byte → Nat
  | [] => 0
  | b :: bs => b.toNat + 256 * natOfBytes bs

/-- A field of n bytes at an offset of some bytes: what runs past their end reads as zero. -/
def descNum (d : List Byte) (off n : Nat) : Nat := natOfBytes ((d.drop off).take n)

/-- Replace bits [lo+n-1:lo] of x by the low n bits of v. -/
def insertBits (x lo n v : Nat) : Nat :=
  x - (bitsOf x lo n) * 2 ^ lo + (v % 2 ^ n) * 2 ^ lo

/-- The number of one bits among the low n bits. -/
def popCount : Nat → Nat → Nat
  | 0, _ => 0
  | n + 1, x => x % 2 + popCount n (x / 2)

/-- Indices below n whose bit is set, rising. -/
def setBits (n x : Nat) : List Nat := (List.range n).filter (fun i => bitOf x i)

/-- Rounded-up division. -/
def ceilDiv (a b : Nat) : Nat := (a + b - 1) / b

/-- A total map over natural numbers: entries by rising key, absent keys read a default given by the reader. -/
abbrev AMap (α : Type) := List (Nat × α)

/-- The value of a key, or none. -/
def AMap.find {α : Type} : AMap α → Nat → Option α
  | [], _ => none
  | (j, v) :: m, k => if j = k then some v else AMap.find m k

/-- The value of a key, or the default. -/
def AMap.get {α : Type} (d : α) (m : AMap α) (k : Nat) : α := (AMap.find m k).getD d

/-- Put a value at a key, keeping keys rising. -/
def AMap.put {α : Type} : AMap α → Nat → α → AMap α
  | [], k, v => [(k, v)]
  | (j, w) :: m, k, v =>
    if k < j then (k, v) :: (j, w) :: m
    else if k = j then (k, v) :: m
    else (j, w) :: AMap.put m k v

/-- Remove a key. -/
def AMap.del {α : Type} (m : AMap α) (k : Nat) : AMap α := m.filter (fun e => e.1 != k)

/-- Every key strictly above a bound and rising. -/
def AMap.risingFrom {α : Type} : Nat → AMap α → Bool
  | _, [] => true
  | b, (k, _) :: m => decide (b < k) && AMap.risingFrom k m

/-- Keys strictly rising. -/
def AMap.rising {α : Type} : AMap α → Bool
  | [] => true
  | (k, _) :: m => AMap.risingFrom k m

/-! ## Byte maps -/

/-- One byte of a byte map: an unlisted address reads zero (log 12). -/
def Memory.read (m : List Host.Cell) (a : Nat) : Byte := AMap.get 0#8 m a

/-- Write one byte, keeping the canonical form: writing zero removes the entry. -/
def Memory.write (m : List Host.Cell) (a : Nat) (b : Byte) : List Host.Cell :=
  if b = 0#8 then AMap.del m a else AMap.put m a b

/-- The canonical form: addresses rising and no zero byte listed. -/
def Memory.wf (m : List Host.Cell) : Bool := AMap.rising m && m.all (fun e => e.2 != 0#8)

/-- The n bytes from an address. -/
def Memory.readN (m : List Host.Cell) : Nat → Nat → List Byte
  | _, 0 => []
  | a, n + 1 => Memory.read m a :: Memory.readN m (a + 1) n

/-- Write bytes from an address. -/
def Memory.writeN (m : List Host.Cell) : Nat → List Byte → List Host.Cell
  | _, [] => m
  | a, b :: bs => Memory.writeN (Memory.write m a b) (a + 1) bs

/-- A little-endian number of n bytes (R3). -/
def Memory.num (m : List Host.Cell) (a n : Nat) : Nat := natOfBytes (Memory.readN m a n)

/-- Write a number as n little-endian bytes (R3). -/
def Memory.putNum (m : List Host.Cell) (a n v : Nat) : List Host.Cell := Memory.writeN m a (bytesOf n v)

end Sys2Proof.Machine
end

