-- ==== Sys2Proof/Machine/Float.lean ====
section
/-! DEFINITION. Number formats, rounding and e2m1x blocks (R122 to R136), on exact dyadic values. -/

namespace Sys2Proof.Machine

/-- The type codes of R122. -/
inductive Ty where
  | f64 | f32 | f16 | bf16 | e4m3 | e5m2 | e2m1x
  | i8 | i16 | i32 | i64 | n8 | n16 | n32 | n64
  deriving DecidableEq, Repr

/-- The type of a 4-bit code; 0x7 is reserved (R122). -/
def tyOfCode (c : BitVec 4) : Option Ty :=
  match c.toNat with
  | 0 => some .f64 | 1 => some .f32 | 2 => some .f16 | 3 => some .bf16
  | 4 => some .e4m3 | 5 => some .e5m2 | 6 => some .e2m1x
  | 8 => some .i8 | 9 => some .i16 | 10 => some .i32 | 11 => some .i64
  | 12 => some .n8 | 13 => some .n16 | 14 => some .n32 | 15 => some .n64
  | _ => none

/-- Width in bits of one element (R122). -/
def tyBits : Ty → Nat
  | .f64 | .i64 | .n64 => 64
  | .f32 | .i32 | .n32 => 32
  | .f16 | .bf16 | .i16 | .n16 => 16
  | .e4m3 | .e5m2 | .i8 | .n8 => 8
  | .e2m1x => 4

/-- Width in bytes of one scalar element (R122); a block format has none. -/
def tyBytes (t : Ty) : Nat := tyBits t / 8

/-- The scalar float types. -/
def tyIsFloat : Ty → Bool
  | .f64 | .f32 | .f16 | .bf16 | .e4m3 | .e5m2 => true
  | _ => false

/-- The integer types. -/
def tyIsInt : Ty → Bool
  | .i8 | .i16 | .i32 | .i64 | .n8 | .n16 | .n32 | .n64 => true
  | _ => false

/-- The signed integer types. -/
def tyIsSigned : Ty → Bool
  | .i8 | .i16 | .i32 | .i64 => true
  | _ => false

/-- Layout of a binary float type (R123). -/
structure FloatFormat where
  ebits : Nat
  fbits : Nat
  bias : Nat
  hasInf : Bool
  deriving DecidableEq, Repr

/-- The layout of each scalar float type (R123); other types are given f32's and never reach it. -/
def floatFormat : Ty → FloatFormat
  | .f64 => ⟨11, 52, 1023, true⟩
  | .f16 => ⟨5, 10, 15, true⟩
  | .bf16 => ⟨8, 7, 127, true⟩
  | .e4m3 => ⟨4, 3, 7, false⟩
  | .e5m2 => ⟨5, 2, 15, true⟩
  | _ => ⟨8, 23, 127, true⟩

/-- The five sticky flags NV, DZ, OF, UF, NX, from high to low (R137). -/
abbrev Flags := BitVec 5

/-- Invalid operation (R137). -/
def flagNV : Flags := 16#5
/-- Division by zero (R137). -/
def flagDZ : Flags := 8#5
/-- Overflow (R137). -/
def flagOF : Flags := 4#5
/-- Underflow (R137). -/
def flagUF : Flags := 2#5
/-- Inexact (R137). -/
def flagNX : Flags := 1#5

/-- A float operand's value: a NaN, an infinity, or the exact number (-1)^neg * man * 2^exp. -/
inductive FVal where
  | nan (signalling : Bool)
  | inf (neg : Bool)
  | fin (neg : Bool) (man : Nat) (exp : Int)
  deriving DecidableEq, Repr

/-- Sign bit of a float pattern. -/
def floatSign (t : Ty) (x : Nat) : Bool := bitOf x (tyBits t - 1)

/-- The value of a float pattern (R123, R124: subnormals are kept). -/
def floatVal (t : Ty) (x : Nat) : FVal :=
  let f := floatFormat t
  let neg := floatSign t x
  let e := bitsOf x f.fbits f.ebits
  let m := bitsOf x 0 f.fbits
  if f.hasInf && e == 2 ^ f.ebits - 1 then
    if m == 0 then .inf neg else .nan (!(bitOf m (f.fbits - 1)))
  else if !f.hasInf && e == 2 ^ f.ebits - 1 && m == 2 ^ f.fbits - 1 then .nan false
  else if e == 0 then .fin neg m (1 - (f.bias : Int) - f.fbits)
  else .fin neg (m + 2 ^ f.fbits) ((e : Int) - f.bias - f.fbits)

/-- The default NaN of a type (R123). -/
def defaultNaN : Ty → Nat
  | .f64 => 0x7FF8000000000000
  | .f16 => 0x7E00
  | .bf16 => 0x7FC0
  | .e4m3 => 0x7F
  | .e5m2 => 0x7E
  | _ => 0x7FC00000

/-- A sign placed over a magnitude pattern. -/
def withSign (t : Ty) (neg : Bool) (m : Nat) : Nat := if neg then m + 2 ^ (tyBits t - 1) else m

/-- The signed zero of a type. -/
def floatZero (t : Ty) (neg : Bool) : Nat := withSign t neg 0

/-- The infinity of a type (R123). -/
def floatInf (t : Ty) (neg : Bool) : Nat :=
  let f := floatFormat t
  withSign t neg ((2 ^ f.ebits - 1) * 2 ^ f.fbits)

/-- The pattern of the largest finite magnitude (R123). -/
def floatMaxPat (t : Ty) : Nat :=
  let f := floatFormat t
  if f.hasInf then (2 ^ f.ebits - 1) * 2 ^ f.fbits - 1 else 2 ^ (f.ebits + f.fbits) - 2

/-- The largest finite value with a sign. -/
def floatMax (t : Ty) (neg : Bool) : Nat := withSign t neg (floatMaxPat t)

/-- The rounding modes of R129 after DYN has been resolved. -/
inductive RMode where
  | rne | rtz | rdn | rup | rna | sr
  deriving DecidableEq, Repr

/-- The mode of a code 0 to 5 (R129). -/
def rmodeOfCode (c : Nat) : Option RMode :=
  match c with
  | 0 => some .rne | 1 => some .rtz | 2 => some .rdn | 3 => some .rup | 4 => some .rna | 5 => some .sr
  | _ => none

/-- Whether a truncated magnitude t with remainder r of 2^s goes up; `v` is the draw of SR (R129, R131). -/
def roundsUp (rm : RMode) (neg : Bool) (t r s v : Nat) : Bool :=
  match rm with
  | .rne => decide (2 ^ s < 2 * r) || (decide (2 * r = 2 ^ s) && t % 2 == 1)
  | .rtz => false
  | .rdn => neg && r != 0
  | .rup => !neg && r != 0
  | .rna => decide (2 ^ s ≤ 2 * r) && r != 0
  | .sr => decide (v < r * 2 ^ 32 / 2 ^ s)

/-- man * 2^exp rounded onto multiples of 2^q: the multiple, whether it is inexact, whether it went up. -/
def roundGrid (rm : RMode) (neg : Bool) (man : Nat) (exp q : Int) (v : Nat) : Nat × Bool × Bool :=
  if q ≤ exp then (man <<< (exp - q).toNat, false, false)
  else
    let s := (q - exp).toNat
    let t := man >>> s
    let r := man % 2 ^ s
    let up := roundsUp rm neg t r s v
    (if up then t + 1 else t, r != 0, up)

/-- Whether m * 2^q exceeds the largest finite magnitude of a type. -/
def exceedsMax (t : Ty) (m : Nat) (q : Int) : Bool :=
  match floatVal t (floatMaxPat t) with
  | .fin _ mm me => if me ≤ q then decide (mm < m <<< (q - me).toNat) else decide (mm <<< (me - q).toNat < m)
  | _ => false

/-- The result of an overflow (R125, R130, R131); `away` says that an SR result went to the infinity. -/
def overflowResult (t : Ty) (rm : RMode) (sat away neg : Bool) : Nat :=
  if sat || t == .e4m3 then floatMax t neg
  else match rm with
    | .rne | .rna => floatInf t neg
    | .rtz => floatMax t neg
    | .rdn => if neg then floatInf t neg else floatMax t neg
    | .rup => if neg then floatMax t neg else floatInf t neg
    | .sr => if away then floatInf t neg else floatMax t neg

/-- Pack a rounded magnitude r * 2^q that the type holds. -/
def packFinite (t : Ty) (neg : Bool) (r : Nat) (q : Int) : Nat :=
  let f := floatFormat t
  let carry := decide (2 ^ (f.fbits + 1) ≤ r)
  let r' := if carry then r / 2 else r
  let q' := if carry then q + 1 else q
  if r' < 2 ^ f.fbits then withSign t neg r'
  else withSign t neg ((q' + f.fbits + f.bias).toNat * 2 ^ f.fbits + (r' - 2 ^ f.fbits))

/-- Round(x, t, rm) of R8 for the exact value (-1)^neg * man * 2^exp, with its flags (R124 tininess after rounding,
R125, R130, R131). -/
def roundFloat (t : Ty) (rm : RMode) (sat : Bool) (v : Nat) (neg : Bool) (man : Nat) (exp : Int) : Nat × Flags :=
  if man = 0 then (floatZero t neg, 0#5)
  else
    let f := floatFormat t
    let top : Int := (Nat.log2 man : Int) + exp
    let emin : Int := 1 - (f.bias : Int)
    let q := max top emin - f.fbits
    let (r, inexact, up) := roundGrid rm neg man exp q v
    if exceedsMax t r q then
      let away := up || exceedsMax t (if up then r - 1 else r) q
      (overflowResult t rm sat away neg, flagOF ||| flagNX)
    else
      let tiny :=
        if rm = .sr then decide (r < 2 ^ f.fbits)
        else
          let q2 := top - f.fbits
          decide ((roundGrid rm neg man exp q2 v).1 < 2 ^ (emin - q2).toNat)
      let fl : Flags := if inexact then (if top < emin ∧ tiny then flagUF ||| flagNX else flagNX) else 0#5
      (packFinite t neg r q, fl)

/-- An exact value rounded to an integer, and whether that is inexact (R136). -/
def roundToInt (rm : RMode) (v : Nat) (neg : Bool) (man : Nat) (exp : Int) : Int × Bool :=
  let (r, inexact, _) := roundGrid rm neg man exp 0 v
  (if neg then -(r : Int) else (r : Int), inexact)

/-- Minimum of an integer type. -/
def intMin (t : Ty) : Int := if tyIsSigned t then -((2 ^ (tyBits t - 1) : Nat) : Int) else 0

/-- Maximum of an integer type. -/
def intMax (t : Ty) : Int :=
  if tyIsSigned t then ((2 ^ (tyBits t - 1) : Nat) : Int) - 1 else ((2 ^ tyBits t : Nat) : Int) - 1

/-- The integer a pattern stands for. -/
def intVal (t : Ty) (x : Nat) : Int :=
  if tyIsSigned t then sintOf x (tyBits t) else ((x % 2 ^ tyBits t : Nat) : Int)

/-- An integer result: wrapped, or clamped with the saturation bit (R134). -/
def intResult (t : Ty) (sat : Bool) (v : Int) : Nat :=
  wrapInt (if sat then max (intMin t) (min (intMax t) v) else v) (tyBits t)

/-- Sum of two exact dyadics as a signed dyadic: sign, magnitude, exponent; the sign is true for a negative sum. -/
def addDyadic (n1 : Bool) (m1 : Nat) (e1 : Int) (n2 : Bool) (m2 : Nat) (e2 : Int) : Bool × Nat × Int :=
  let e := min e1 e2
  let a : Int := ((m1 <<< (e1 - e).toNat : Nat) : Int)
  let b : Int := ((m2 <<< (e2 - e).toNat : Nat) : Int)
  let s := (if n1 then -a else a) + (if n2 then -b else b)
  (decide (s < 0), s.natAbs, e)

/-- Order of two exact dyadics. -/
def cmpDyadic (n1 : Bool) (m1 : Nat) (e1 : Int) (n2 : Bool) (m2 : Nat) (e2 : Int) : Ordering :=
  let e := min e1 e2
  let a : Int := ((m1 <<< (e1 - e).toNat : Nat) : Int)
  let b : Int := ((m2 <<< (e2 - e).toNat : Nat) : Int)
  compare (if n1 then -a else a) (if n2 then -b else b)

/-- NV for a signalling NaN operand (R124). -/
def snanFlag : FVal → Flags
  | .nan true => flagNV
  | _ => 0#5

/-- The sign an exact zero sum takes: both operands' when equal, else minus only under RDN (IEEE 754, R185). -/
def zeroSumSign (rm : RMode) (n1 n2 : Bool) : Bool := if n1 = n2 then n1 else decide (rm = .rdn)

/-- An infinity in the destination; e4m3 has none and saturates with OF and NX (R125). -/
def infResult (t : Ty) (neg : Bool) : Nat × Flags :=
  if t = .e4m3 then (floatMax t neg, flagOF ||| flagNX) else (floatInf t neg, 0#5)

/-- x + y, exact and rounded once. -/
def addVal (t : Ty) (rm : RMode) (sat : Bool) (v : Nat) (x y : FVal) : Nat × Flags :=
  match x, y with
  | .nan s1, y => (defaultNaN t, (if s1 then flagNV else 0#5) ||| snanFlag y)
  | _, .nan s2 => (defaultNaN t, if s2 then flagNV else 0#5)
  | .inf n1, .inf n2 => if n1 = n2 then infResult t n1 else (defaultNaN t, flagNV)
  | .inf n1, .fin _ _ _ => infResult t n1
  | .fin _ _ _, .inf n2 => infResult t n2
  | .fin n1 m1 e1, .fin n2 m2 e2 =>
    let (n, m, e) := addDyadic n1 m1 e1 n2 m2 e2
    if m = 0 then (floatZero t (zeroSumSign rm n1 n2), 0#5) else roundFloat t rm sat v n m e

/-- The opposite value. -/
def negVal : FVal → FVal
  | .nan s => .nan s
  | .inf n => .inf (!n)
  | .fin n m e => .fin (!n) m e

/-- x * y, exact and rounded once. -/
def mulVal (t : Ty) (rm : RMode) (sat : Bool) (v : Nat) (x y : FVal) : Nat × Flags :=
  match x, y with
  | .nan s1, y => (defaultNaN t, (if s1 then flagNV else 0#5) ||| snanFlag y)
  | _, .nan s2 => (defaultNaN t, if s2 then flagNV else 0#5)
  | .inf n1, .inf n2 => infResult t (n1 != n2)
  | .inf n1, .fin n2 m2 _ => if m2 = 0 then (defaultNaN t, flagNV) else infResult t (n1 != n2)
  | .fin n1 m1 _, .inf n2 => if m1 = 0 then (defaultNaN t, flagNV) else infResult t (n1 != n2)
  | .fin n1 m1 e1, .fin n2 m2 e2 => roundFloat t rm sat v (n1 != n2) (m1 * m2) (e1 + e2)

/-- x * y + z, exact and rounded once. -/
def fmaVal (t : Ty) (rm : RMode) (sat : Bool) (v : Nat) (x y z : FVal) : Nat × Flags :=
  let nv := snanFlag x ||| snanFlag y ||| snanFlag z
  let invalidProduct := match x, y with
    | .inf _, .fin _ m _ => decide (m = 0)
    | .fin _ m _, .inf _ => decide (m = 0)
    | _, _ => false
  match x, y, z with
  | .nan _, _, _ => (defaultNaN t, nv)
  | _, .nan _, _ => (defaultNaN t, nv)
  | _, _, .nan _ => (defaultNaN t, nv ||| (if invalidProduct then flagNV else 0#5))
  | .fin n1 m1 e1, .fin n2 m2 e2, .fin n3 m3 e3 =>
    let (n, m, e) := addDyadic (n1 != n2) (m1 * m2) (e1 + e2) n3 m3 e3
    if m = 0 then (floatZero t (zeroSumSign rm (n1 != n2) n3), 0#5) else roundFloat t rm sat v n m e
  | .fin _ _ _, .fin _ _ _, .inf n3 => infResult t n3
  | x, y, z =>
    if invalidProduct then (defaultNaN t, flagNV)
    else
      let pn := match x, y with
        | .inf a, .inf b => a != b
        | .inf a, .fin b _ _ => a != b
        | .fin a _ _, .inf b => a != b
        | _, _ => false
      match z with
      | .inf n3 => if pn = n3 then infResult t pn else (defaultNaN t, flagNV)
      | _ => infResult t pn

/-- A quotient m1/m2 with at least `k` bits below the leading one and a sticky lowest bit: magnitude and exponent. -/
def divDyadic (m1 m2 k : Nat) : Nat × Int :=
  let s := k + Nat.log2 m2 + 1
  let n := m1 <<< s
  (2 * (n / m2) + (if n % m2 = 0 then 0 else 1), -(s : Int) - 1)

/-- x / y, rounded once; 128 bits of quotient and a sticky bit decide every rounding, SR's 32 bits included. -/
def divVal (t : Ty) (rm : RMode) (sat : Bool) (v : Nat) (x y : FVal) : Nat × Flags :=
  match x, y with
  | .nan s1, y => (defaultNaN t, (if s1 then flagNV else 0#5) ||| snanFlag y)
  | _, .nan s2 => (defaultNaN t, if s2 then flagNV else 0#5)
  | .inf _, .inf _ => (defaultNaN t, flagNV)
  | .inf n1, .fin n2 _ _ => infResult t (n1 != n2)
  | .fin n1 _ _, .inf n2 => (floatZero t (n1 != n2), 0#5)
  | .fin n1 m1 e1, .fin n2 m2 e2 =>
    if m2 = 0 then
      if m1 = 0 then (defaultNaN t, flagNV)
      else
        let (r, f) := infResult t (n1 != n2)
        (r, f ||| flagDZ)
    else if m1 = 0 then (floatZero t (n1 != n2), 0#5)
    else
      let (m, e) := divDyadic m1 m2 192
      roundFloat t rm sat v (n1 != n2) m (e + e1 - e2)

/-- The integer square root by bisection over `fuel` bits. -/
def isqrtGo : Nat → Nat → Nat → Nat
  | 0, _, r => r
  | k + 1, n, r =>
    let c := r + 2 ^ k
    if c * c ≤ n then isqrtGo k n c else isqrtGo k n r

/-- The integer square root. -/
def isqrt (n : Nat) : Nat := isqrtGo (Nat.log2 n / 2 + 1) n 0

/-- The square root of m * 2^e with at least 192 bits and a sticky lowest bit. -/
def sqrtDyadic (m : Nat) (e : Int) : Nat × Int :=
  let odd := e % 2 ≠ 0
  let m1 := if odd then 2 * m else m
  let e1 := if odd then e - 1 else e
  let n := m1 <<< 400
  let r := isqrt n
  (2 * r + (if r * r = n then 0 else 1), e1 / 2 - 200 - 1)

/-- The square root, rounded once. -/
def sqrtVal (t : Ty) (rm : RMode) (sat : Bool) (v : Nat) (x : FVal) : Nat × Flags :=
  match x with
  | .nan s => (defaultNaN t, if s then flagNV else 0#5)
  | .inf n => if n then (defaultNaN t, flagNV) else infResult t false
  | .fin n m e =>
    if m = 0 then (floatZero t n, 0#5)
    else if n then (defaultNaN t, flagNV)
    else
      let (r, q) := sqrtDyadic m e
      roundFloat t rm sat v false r q

/-- Whether any value of the source type can be inexact in the destination (R133, R192). -/
def canRound (dst src : Ty) : Bool :=
  if tyIsInt dst then tyIsFloat src
  else if tyIsInt src then
    let need := if tyIsSigned src then tyBits src - 1 else tyBits src
    !(decide (need ≤ (floatFormat dst).fbits + 1) && !exceedsMax dst (2 ^ need) 0)
  else if dst = src then false
  else
    let fd := floatFormat dst
    let fs := floatFormat src
    let below := decide (fs.fbits ≤ fd.fbits) &&
      decide ((1 - (fd.bias : Int) - fd.fbits) ≤ (1 - (fs.bias : Int) - fs.fbits))
    match floatVal src (floatMaxPat src) with
    | .fin _ m e => !(below && !exceedsMax dst m e)
    | _ => true

/-- A float operand converted to a float type (R136). -/
def convertFloat (t : Ty) (rm : RMode) (sat : Bool) (v : Nat) (x : FVal) : Nat × Flags :=
  match x with
  | .nan s => (defaultNaN t, if s then flagNV else 0#5)
  | .inf n => infResult t n
  | .fin n m e => roundFloat t rm sat v n m e

/-- A float operand converted to an integer type (R136): NaN gives 0 with NV, out of range clamps with NV. -/
def convertToInt (t : Ty) (rm : RMode) (v : Nat) (x : FVal) : Nat × Flags :=
  match x with
  | .nan _ => (0, flagNV)
  | .inf n => (wrapInt (if n then intMin t else intMax t) (tyBits t), flagNV)
  | .fin n m e =>
    let (r, inexact) := roundToInt rm v n m e
    if r < intMin t then (wrapInt (intMin t) (tyBits t), flagNV)
    else if intMax t < r then (wrapInt (intMax t) (tyBits t), flagNV)
    else (wrapInt r (tyBits t), if inexact then flagNX else 0#5)

/-- One conversion between two scalar types (R136, R192). -/
def convertVal (dst src : Ty) (rm : RMode) (sat : Bool) (v : Nat) (x : Nat) : Nat × Flags :=
  let rm := if canRound dst src then rm else .rne
  if tyIsInt src then
    let i := intVal src x
    if tyIsInt dst then (intResult dst sat i, 0#5)
    else roundFloat dst rm sat v (decide (i < 0)) i.natAbs 0
  else if tyIsInt dst then convertToInt dst rm v (floatVal src x)
  else convertFloat dst rm sat v (floatVal src x)

/-- The five comparison outcomes of R196's kind: unordered, or an order of values with equal zeros. -/
def compareVal (x y : FVal) : Option Ordering :=
  match x, y with
  | .nan _, _ => none
  | _, .nan _ => none
  | .inf a, .inf b => some (if a = b then .eq else if a then .lt else .gt)
  | .inf a, .fin _ _ _ => some (if a then .lt else .gt)
  | .fin _ _ _, .inf b => some (if b then .gt else .lt)
  | .fin n1 m1 e1, .fin n2 m2 e2 => some (cmpDyadic n1 m1 e1 n2 m2 e2)

/-! ## e2m1x blocks (R126 to R128) -/

/-- Twice the magnitude of the seven E2M1 codes (R126). -/
def e2m1Twice (c : Nat) : Nat :=
  match c % 8 with
  | 0 => 0 | 1 => 1 | 2 => 2 | 3 => 3 | 4 => 4 | 5 => 6 | 6 => 8 | _ => 12

/-- One block: 32 codes, the scale byte, the spare byte (R126). -/
structure Block where
  codes : List Nat
  scale : Nat
  spare : Nat
  deriving DecidableEq, Repr

/-- The exact value of element code c under a scale and a spare (R126, R127). -/
def blockElem (c scale spare : Nat) : FVal :=
  if scale = 0xFF then .nan false
  else
    let s : Int := (scale : Int) - 127
    if c % 16 = 8 then
      match floatVal .e4m3 spare with
      | .fin n m e => .fin n m (e + s)
      | _ => .nan false
    else .fin (decide (8 ≤ c % 16)) (e2m1Twice c) (s - 1)

/-- One element decoded into a scalar float type with RNE (R127); overflow gives an infinity or 448. -/
def decodeElem (t : Ty) (c scale spare : Nat) : Nat × Flags := convertFloat t .rne false 0 (blockElem c scale spare)

/-- The 18 bytes of a block in memory order (R126). -/
def blockOfBytes (bs : List Byte) : Block :=
  let nib := (bs.take 16).flatMap (fun b => [b.toNat % 16, b.toNat / 16])
  ⟨nib, ((bs.drop 16).head?.getD 0).toNat, ((bs.drop 17).head?.getD 0).toNat⟩

/-- The 16 code bytes of a block (R126). -/
def codeBytes : List Nat → List Byte
  | a :: b :: rest => BitVec.ofNat 8 (a + 16 * b) :: codeBytes rest
  | [a] => [BitVec.ofNat 8 a]
  | [] => []

/-- A block as its 18 bytes (R126). -/
def bytesOfBlock (b : Block) : List Byte :=
  codeBytes b.codes ++ [BitVec.ofNat 8 b.scale, BitVec.ofNat 8 b.spare]

/-- Exact candidates of the quantiser as (code, sign, man, exp), with the spare last when it counts (R128 step 5). -/
def quantCandidates (spare : Nat) : List (Nat × Bool × Nat × Int) :=
  let base := (List.range 8).map (fun c => (c, false, e2m1Twice c, (-1 : Int))) ++
    (List.range 7).map (fun c => (c + 9, true, e2m1Twice (c + 1), (-1 : Int)))
  if spare = 0 then base
  else match floatVal .e4m3 spare with
    | .fin n m e => base ++ [(8, n, m, e)]
    | _ => base

/-- Whether an exact magnitude is below or equal to another. -/
def magLe (m1 : Nat) (e1 : Int) (m2 : Nat) (e2 : Int) : Bool :=
  cmpDyadic false m1 e1 false m2 e2 != .gt

/-- The candidate of a sign nearest below or at a magnitude: the largest one (R128, R131: T). -/
def quantBelow (cs : List (Nat × Bool × Nat × Int)) (m : Nat) (e : Int) : Nat × Nat × Int :=
  cs.foldl (fun (best : Nat × Nat × Int) (c : Nat × Bool × Nat × Int) =>
    if magLe c.2.2.1 c.2.2.2 m e && magLe best.2.1 best.2.2 c.2.2.1 c.2.2.2
        && !(magLe c.2.2.1 c.2.2.2 best.2.1 best.2.2)
    then (c.1, c.2.2.1, c.2.2.2) else best) (0, 0, 0)

/-- The smallest candidate strictly above a magnitude, or none (R128, R131: A). -/
def quantAbove (cs : List (Nat × Bool × Nat × Int)) (m : Nat) (e : Int) : Option (Nat × Nat × Int) :=
  cs.foldl (fun (best : Option (Nat × Nat × Int)) (c : Nat × Bool × Nat × Int) =>
    if magLe c.2.2.1 c.2.2.2 m e then best
    else match best with
      | none => some (c.1, c.2.2.1, c.2.2.2)
      | some (_, bm, be) => if magLe bm be c.2.2.1 c.2.2.2 then best else some (c.1, c.2.2.1, c.2.2.2)) none

/-- One element y rounded to the candidates: its code and whether it is inexact (R128 steps 5 and 6). -/
def quantElem (spare : Nat) (rm : RMode) (v : Nat) (neg : Bool) (m : Nat) (e : Int) : Nat × Bool :=
  if m = 0 then (0, false)
  else
    let cs := (quantCandidates spare).filter (fun c => c.2.1 == neg && c.2.2.1 != 0)
    let (tc, tm, te) := quantBelow cs m e
    let exact := magLe m e tm te
    match quantAbove cs m e with
    | none => (tc, !exact)
    | some (ac, am, ae) =>
      if exact then (tc, false)
      else
        let (_, num, _) := addDyadic false m e true tm te
        let e0 := min (min e te) ae
        let up : Bool :=
          let x : Nat := m <<< (e - e0).toNat
          let t : Nat := tm <<< (te - e0).toNat
          let a : Nat := am <<< (ae - e0).toNat
          match rm with
          | .rtz => false
          | .rdn => neg
          | .rup => !neg
          | .rna => decide (a - x ≤ x - t)
          | .rne =>
            if a - x < x - t then true
            else if x - t < a - x then false
            else if ac % 2 = 0 ∧ tc % 2 = 0 then decide (ac ≠ 8)
            else decide (ac % 2 = 0)
          | .sr => decide (v < (x - t) * 2 ^ 32 / (a - t))
        (if up then ac else tc, num != 0)

/-- floor(log2) of a finite non-zero magnitude. -/
def dyadicTop (m : Nat) (e : Int) : Int := (Nat.log2 m : Int) + e

/-- The element of largest magnitude, the lower index on a tie (R128 step 4). -/
def largestMag : List (Bool × Nat × Int) → Bool × Nat × Int
  | [] => (false, 0, 0)
  | x :: xs => xs.foldl (fun b c => if magLe c.2.1 c.2.2 b.2.1 b.2.2 then b else c) x

/-- The quantiser over 32 values, one draw per element under SR, with its flags (R128). -/
def quantise (rm : RMode) (draws : List Nat) (xs : List FVal) : Block × Flags :=
  if xs.any (fun x => match x with | .fin _ _ _ => false | _ => true) then
    (⟨List.replicate 32 0, 0xFF, 0⟩, flagNV)
  else
    let vs := xs.map (fun x => match x with | .fin n m e => (n, m, e) | _ => (false, 0, 0))
    let big := largestMag vs
    if big.2.1 = 0 then (⟨List.replicate 32 0, 0, 0⟩, 0#5)
    else
      let raw := dyadicTop big.2.1 big.2.2 - 2
      let s := max (-127) (min 127 raw)
      let (sp, _) := roundFloat .e4m3 .rne false 0 big.1 big.2.1 (big.2.2 - s)
      let isE2m1 : Bool := match floatVal .e4m3 sp with
        | .fin _ m e => (List.range 8).any (fun c => cmpDyadic false m e false (e2m1Twice c) (-1) == .eq)
        | _ => false
      let spare := if isE2m1 then 0 else sp
      let rs := (vs.zip (draws ++ List.replicate 32 0)).map
        (fun x => quantElem spare rm x.2 x.1.1 x.1.2.1 (x.1.2.2 - s))
      let inexact := rs.any (fun r => r.2)
      let fl : Flags := (if inexact then flagNX else 0#5) |||
        (if inexact && decide (127 < raw) then flagOF else 0#5) |||
        (if inexact && decide (raw < -127) then flagUF else 0#5)
      (⟨rs.map (fun r => r.1), (s + 127).toNat, spare⟩, fl)

end Sys2Proof.Machine
end

