-- ==== Sys2Proof/Syntax.lean ====
section
/-! DEFINITION. The instructions: one constructor for each row of the opcode table. Native words carry their register
and immediate fields (R154), engine commands the fields of R155, nests the fields of R156, bead words those of R307,
bootstrap words those of R331, and the device's own events and front-end packets the names of what they act on. -/

namespace Sys2Proof

/-- The operand fields of a 64-bit engine command (R155). -/
structure EngCmd where
  x : BitVec 5
  y : BitVec 5
  z : BitVec 5
  f : BitVec 6
  p : BitVec 32
  deriving DecidableEq, Repr

/-- The fields of an `lnest` other than its vop (R156). -/
structure Nest where
  td : BitVec 4
  ta : BitVec 4
  tb : BitVec 4
  rm : BitVec 3
  sat : BitVec 1
  mp : BitVec 1
  me : BitVec 1
  bd : BitVec 5
  ba : BitVec 5
  bb : BitVec 5
  mb : BitVec 5
  red : BitVec 5
  cbd : BitVec 1
  cba : BitVec 1
  cbb : BitVec 1
  x0 : BitVec 12
  x1 : BitVec 12
  x2 : BitVec 12
  x3 : BitVec 12
  x4 : BitVec 12
  scd : BitVec 2
  sca : BitVec 2
  scb : BitVec 2
  sd0 : BitVec 8
  sd1 : BitVec 8
  sd2 : BitVec 8
  sd3 : BitVec 8
  sd4 : BitVec 8
  sa0 : BitVec 8
  sa1 : BitVec 8
  sa2 : BitVec 8
  sa3 : BitVec 8
  sa4 : BitVec 8
  sb0 : BitVec 8
  sb1 : BitVec 8
  sb2 : BitVec 8
  sb3 : BitVec 8
  sb4 : BitVec 8
  deriving DecidableEq, Repr

/-- The common fields of a front-end packet (R384). -/
structure PktHdr where
  soe : Bool
  clr : Bool
  wait : BitVec 64
  set : BitVec 64
  deriving DecidableEq, Repr

/-- The launch fields of R392; `resv` says that a reserved field was not zero. -/
structure LaunchBody where
  handle : Nat
  entry : Nat
  wm : Nat
  hm : Nat
  x0 : Nat
  y0 : Nat
  cmask : Nat
  nm : Nat
  prio : Nat
  mawm : Nat
  anypos : Bool
  wsb : Nat
  trape : Nat
  emule : Nat
  argp : Nat
  resv : Bool
  deriving DecidableEq, Repr

/-- The tested word of IF and WAITMEM (R397, R398). -/
structure CondBody where
  addr : Nat
  value : BitVec 64
  mask : BitVec 64
  cc : Nat
  deriving DecidableEq, Repr

/-- The body of STAGE (R404). -/
structure StageBody where
  sqin : Nat
  sqout : Nat
  ldesc : Nat
  maxg : Nat
  outn : Nat
  closeOut : Bool
  deriving DecidableEq, Repr

/-- The body of SHOOT (R402). -/
structure ShootBody where
  world : Nat
  va : Nat
  len : Nat
  big : Bool
  deriving DecidableEq, Repr

/-- The fields of a completed packet's STATUS (R386). -/
structure StatusInfo where
  code : Nat
  cause : Nat
  rank : Nat
  jidx : Nat
  deriving DecidableEq, Repr

/-- What failed a gang (R114, R386). -/
structure FailInfo where
  rank : Nat
  cause : Nat
  jidx : Nat
  deriving DecidableEq, Repr

/-- A unit that can be mapped out, by KIND and PHYS of R25. -/
structure UnitRef where
  kind : Nat
  phys : Nat
  deriving DecidableEq, Repr

/-- What the resident service fixes when it creates a queue (R380). -/
structure QueueSpec where
  world : Nat
  cls : Nat
  weight : Nat
  remote : Bool
  qcb : Nat
  deriving DecidableEq, Repr

/-- What the resident service fixes when it creates a world (R117, R412): the policy record, the page-table root, and where it lays
the record out for the world's threads to read. -/
structure WorldSpec where
  policy : BitVec 512
  root : Nat
  shown : Option Nat
  deriving DecidableEq, Repr

/-- A request arriving at this device's exports on a link, with the flits it comes in (R417, R418, R422). -/
structure FabricReq where
  port : Nat
  expix : Nat
  key : BitVec 64
  off : Nat
  len : Nat
  write : Bool
  data : List (BitVec 8)
  flits : List (List (BitVec 8))
  deriving DecidableEq, Repr

/-- What another device answers a request with: its bytes, and the flits they come in (R419, R422). -/
structure FabricReply where
  data : List (BitVec 8)
  flits : List (List (BitVec 8))
  deriving DecidableEq, Repr

/-- A format-window descriptor as the resident service writes it (R143), and where it lays it out for a world's threads to read. -/
structure WindowSpec where
  bits : BitVec 256
  shown : Option Nat
  deriving DecidableEq, Repr

/-- A command of a driver to a cipher engine: `first` is the transfer's first byte on its namespace, or of a packet that has
come the counter of its nonce; `data` is what it sends, or what has come and is to be decrypted (R420). -/
structure CipherCmd where
  net : Bool
  decrypt : Bool
  slot : Nat
  world : Nat
  first : Nat
  len : Nat
  data : List (BitVec 8)
  deriving DecidableEq, Repr

/-- A key slot's contents as the resident service installs them (R420). -/
structure KeySpec where
  net : Bool
  slot : Nat
  world : Nat
  key1 : BitVec 256
  key2 : BitVec 256
  salt : BitVec 32
  deriving DecidableEq, Repr

/-- A load of a native image (R374): the world, the base the resident service chooses should the preferred one not be free, the first of the free page
frames it gives the object, free frames for new page tables, and the image's bytes. -/
structure LoadSpec where
  world : Nat
  base : Nat
  frame : Nat
  tabs : List Nat
  image : List (BitVec 8)
  deriving DecidableEq, Repr

/-- The engine whose access waits for the resident service (R119). -/
inductive EngineRef where
  | vector (core : Nat)
  | matrix (sett : Nat)
  | copy (sett place : Nat)
  | sweep (core : Nat)
  | decl (core slot : Nat)
  | coll (g m : Nat)
  | bridge (q k : Nat)
  | inbound
  | clasp
  deriving DecidableEq, Repr

/-- The instructions and events of the device, one for each row of the opcode table. -/
inductive Instr where
  /-- ADD (R181). -/
  | add (d : BitVec 5) (a : BitVec 5) (b : BitVec 5)
  /-- SUB (R181). -/
  | sub (d : BitVec 5) (a : BitVec 5) (b : BitVec 5)
  /-- MUL (R181). -/
  | mul (d : BitVec 5) (a : BitVec 5) (b : BitVec 5)
  /-- MULH (R181). -/
  | mulh (d : BitVec 5) (a : BitVec 5) (b : BitVec 5)
  /-- MULHN (R181). -/
  | mulhn (d : BitVec 5) (a : BitVec 5) (b : BitVec 5)
  /-- DIV (R181). -/
  | div (d : BitVec 5) (a : BitVec 5) (b : BitVec 5)
  /-- DIVN (R181). -/
  | divn (d : BitVec 5) (a : BitVec 5) (b : BitVec 5)
  /-- REM (R181). -/
  | rem (d : BitVec 5) (a : BitVec 5) (b : BitVec 5)
  /-- REMN (R181). -/
  | remn (d : BitVec 5) (a : BitVec 5) (b : BitVec 5)
  /-- AND (R181). -/
  | and (d : BitVec 5) (a : BitVec 5) (b : BitVec 5)
  /-- OR (R181). -/
  | or (d : BitVec 5) (a : BitVec 5) (b : BitVec 5)
  /-- XOR (R181). -/
  | xor (d : BitVec 5) (a : BitVec 5) (b : BitVec 5)
  /-- ANDN (R181). -/
  | andn (d : BitVec 5) (a : BitVec 5) (b : BitVec 5)
  /-- SHL (R181). -/
  | shl (d : BitVec 5) (a : BitVec 5) (b : BitVec 5)
  /-- SHR (R181). -/
  | shr (d : BitVec 5) (a : BitVec 5) (b : BitVec 5)
  /-- SRA (R181). -/
  | sra (d : BitVec 5) (a : BitVec 5) (b : BitVec 5)
  /-- ROT (R181). -/
  | rot (d : BitVec 5) (a : BitVec 5) (b : BitVec 5)
  /-- MIN (R181). -/
  | min (d : BitVec 5) (a : BitVec 5) (b : BitVec 5)
  /-- MAX (R181). -/
  | max (d : BitVec 5) (a : BitVec 5) (b : BitVec 5)
  /-- MINN (R181). -/
  | minn (d : BitVec 5) (a : BitVec 5) (b : BitVec 5)
  /-- MAXN (R181). -/
  | maxn (d : BitVec 5) (a : BitVec 5) (b : BitVec 5)
  /-- CLZ (R181). -/
  | clz (d : BitVec 5) (a : BitVec 5)
  /-- CTZ (R181). -/
  | ctz (d : BitVec 5) (a : BitVec 5)
  /-- POPC (R181). -/
  | popc (d : BitVec 5) (a : BitVec 5)
  /-- SEL (R181). -/
  | sel (d : BitVec 5) (a : BitVec 5) (b : BitVec 5)
  /-- CMP_EQ (R181). -/
  | cmpEq (d : BitVec 5) (a : BitVec 5) (b : BitVec 5)
  /-- CMP_NE (R181). -/
  | cmpNe (d : BitVec 5) (a : BitVec 5) (b : BitVec 5)
  /-- CMP_LT (R181). -/
  | cmpLt (d : BitVec 5) (a : BitVec 5) (b : BitVec 5)
  /-- CMP_GE (R181). -/
  | cmpGe (d : BitVec 5) (a : BitVec 5) (b : BitVec 5)
  /-- CMP_LTN (R181). -/
  | cmpLtn (d : BitVec 5) (a : BitVec 5) (b : BitVec 5)
  /-- CMP_GEN (R181). -/
  | cmpGen (d : BitVec 5) (a : BitVec 5) (b : BitVec 5)
  /-- SXB (R181). -/
  | sxb (d : BitVec 5) (a : BitVec 5)
  /-- SXH (R181). -/
  | sxh (d : BitVec 5) (a : BitVec 5)
  /-- SXW (R181). -/
  | sxw (d : BitVec 5) (a : BitVec 5)
  /-- ZXB (R181). -/
  | zxb (d : BitVec 5) (a : BitVec 5)
  /-- ZXH (R181). -/
  | zxh (d : BitVec 5) (a : BitVec 5)
  /-- ZXW (R181). -/
  | zxw (d : BitVec 5) (a : BitVec 5)
  /-- ADDI (R183). -/
  | addi (d : BitVec 5) (a : BitVec 5) (i : BitVec 16)
  /-- ANDI (R183). -/
  | andi (d : BitVec 5) (a : BitVec 5) (i : BitVec 16)
  /-- ORI (R183). -/
  | ori (d : BitVec 5) (a : BitVec 5) (i : BitVec 16)
  /-- XORI (R183). -/
  | xori (d : BitVec 5) (a : BitVec 5) (i : BitVec 16)
  /-- SHI_SHL (R183). -/
  | shiShl (d : BitVec 5) (a : BitVec 5) (n : BitVec 6)
  /-- SHI_SHR (R183). -/
  | shiShr (d : BitVec 5) (a : BitVec 5) (n : BitVec 6)
  /-- SHI_SRA (R183). -/
  | shiSra (d : BitVec 5) (a : BitVec 5) (n : BitVec 6)
  /-- SHI_ROT (R183). -/
  | shiRot (d : BitVec 5) (a : BitVec 5) (n : BitVec 6)
  /-- CMPI_EQ (R183). -/
  | cmpiEq (d : BitVec 5) (a : BitVec 5) (i : BitVec 12)
  /-- CMPI_NE (R183). -/
  | cmpiNe (d : BitVec 5) (a : BitVec 5) (i : BitVec 12)
  /-- CMPI_LT (R183). -/
  | cmpiLt (d : BitVec 5) (a : BitVec 5) (i : BitVec 12)
  /-- CMPI_GE (R183). -/
  | cmpiGe (d : BitVec 5) (a : BitVec 5) (i : BitVec 12)
  /-- CMPI_LTN (R183). -/
  | cmpiLtn (d : BitVec 5) (a : BitVec 5) (i : BitVec 12)
  /-- CMPI_GEN (R183). -/
  | cmpiGen (d : BitVec 5) (a : BitVec 5) (i : BitVec 12)
  /-- LHI (R184). -/
  | lhi (d : BitVec 5) (i : BitVec 20)
  /-- PHI (R184). -/
  | phi (d : BitVec 5) (i : BitVec 20)
  /-- FADD (R186). -/
  | fadd (d : BitVec 5) (a : BitVec 5) (b : BitVec 5) (f : BitVec 3) (r : BitVec 3)
  /-- FSUB (R186). -/
  | fsub (d : BitVec 5) (a : BitVec 5) (b : BitVec 5) (f : BitVec 3) (r : BitVec 3)
  /-- FMUL (R186). -/
  | fmul (d : BitVec 5) (a : BitVec 5) (b : BitVec 5) (f : BitVec 3) (r : BitVec 3)
  /-- FDIV (R186). -/
  | fdiv (d : BitVec 5) (a : BitVec 5) (b : BitVec 5) (f : BitVec 3) (r : BitVec 3)
  /-- FSQRT (R186). -/
  | fsqrt (d : BitVec 5) (a : BitVec 5) (f : BitVec 3) (r : BitVec 3)
  /-- FMIN (R187). -/
  | fmin (d : BitVec 5) (a : BitVec 5) (b : BitVec 5) (f : BitVec 3)
  /-- FMAX (R187). -/
  | fmax (d : BitVec 5) (a : BitVec 5) (b : BitVec 5) (f : BitVec 3)
  /-- FSGN_COPY (R188). -/
  | fsgnCopy (d : BitVec 5) (a : BitVec 5) (b : BitVec 5) (f : BitVec 3)
  /-- FSGN_NEG (R188). -/
  | fsgnNeg (d : BitVec 5) (a : BitVec 5) (b : BitVec 5) (f : BitVec 3)
  /-- FSGN_XOR (R188). -/
  | fsgnXor (d : BitVec 5) (a : BitVec 5) (b : BitVec 5) (f : BitVec 3)
  /-- FCMP_EQ (R189). -/
  | fcmpEq (d : BitVec 5) (a : BitVec 5) (b : BitVec 5) (f : BitVec 3)
  /-- FCMP_LT (R189). -/
  | fcmpLt (d : BitVec 5) (a : BitVec 5) (b : BitVec 5) (f : BitVec 3)
  /-- FCMP_LE (R189). -/
  | fcmpLe (d : BitVec 5) (a : BitVec 5) (b : BitVec 5) (f : BitVec 3)
  /-- FCMP_UNORDERED (R189). -/
  | fcmpUnordered (d : BitVec 5) (a : BitVec 5) (b : BitVec 5) (f : BitVec 3)
  /-- FCLASS (R190). -/
  | fclass (d : BitVec 5) (a : BitVec 5) (f : BitVec 3)
  /-- FMA (R191). -/
  | fma (d : BitVec 5) (a : BitVec 5) (b : BitVec 5) (f : BitVec 3) (r : BitVec 3)
  /-- FMS (R191). -/
  | fms (d : BitVec 5) (a : BitVec 5) (b : BitVec 5) (f : BitVec 3) (r : BitVec 3)
  /-- FNMA (R191). -/
  | fnma (d : BitVec 5) (a : BitVec 5) (b : BitVec 5) (f : BitVec 3) (r : BitVec 3)
  /-- FCVT (R192). -/
  | fcvt (d : BitVec 5) (a : BitVec 5) (t : BitVec 4) (u : BitVec 4) (r : BitVec 3)
  /-- LD (R194). -/
  | ld (d : BitVec 5) (a : BitVec 5) (z : BitVec 2) (o : BitVec 12)
  /-- LD_SX (R194). -/
  | ldSx (d : BitVec 5) (a : BitVec 5) (z : BitVec 2) (o : BitVec 12)
  /-- LD_UP (R194). -/
  | ldUp (d : BitVec 5) (a : BitVec 5) (z : BitVec 2) (o : BitVec 12)
  /-- ST (R194). -/
  | st (s : BitVec 5) (a : BitVec 5) (z : BitVec 2) (o : BitVec 12)
  /-- ST_UP (R194). -/
  | stUp (s : BitVec 5) (a : BitVec 5) (z : BitVec 2) (o : BitVec 12)
  /-- LD_FE_KEEP (R96). -/
  | ldFeKeep (d : BitVec 5) (a : BitVec 5) (z : BitVec 2) (o : BitVec 12)
  /-- LD_FE_TAKE (R96). -/
  | ldFeTake (d : BitVec 5) (a : BitVec 5) (z : BitVec 2) (o : BitVec 12)
  /-- ST_FE_FILL (R96). -/
  | stFeFill (s : BitVec 5) (a : BitVec 5) (z : BitVec 2) (o : BitVec 12)
  /-- ST_FE_PUT (R96). -/
  | stFePut (s : BitVec 5) (a : BitVec 5) (z : BitVec 2) (o : BitVec 12)
  /-- ST_FE_CLEAR (R96). -/
  | stFeClear (a : BitVec 5) (z : BitVec 2) (o : BitVec 12)
  /-- DPREF (R199). -/
  | dpref (a : BitVec 5) (o : BitVec 12)
  /-- IPREF (R200). -/
  | ipref (a : BitVec 5) (o : BitVec 12)
  /-- AMO_ADD (R215). -/
  | amoAdd (d : BitVec 5) (a : BitVec 5) (b : BitVec 5) (z : BitVec 2)
  /-- AMO_AND (R215). -/
  | amoAnd (d : BitVec 5) (a : BitVec 5) (b : BitVec 5) (z : BitVec 2)
  /-- AMO_OR (R215). -/
  | amoOr (d : BitVec 5) (a : BitVec 5) (b : BitVec 5) (z : BitVec 2)
  /-- AMO_XOR (R215). -/
  | amoXor (d : BitVec 5) (a : BitVec 5) (b : BitVec 5) (z : BitVec 2)
  /-- AMO_MIN (R215). -/
  | amoMin (d : BitVec 5) (a : BitVec 5) (b : BitVec 5) (z : BitVec 2)
  /-- AMO_MAX (R215). -/
  | amoMax (d : BitVec 5) (a : BitVec 5) (b : BitVec 5) (z : BitVec 2)
  /-- AMO_MINN (R215). -/
  | amoMinn (d : BitVec 5) (a : BitVec 5) (b : BitVec 5) (z : BitVec 2)
  /-- AMO_MAXN (R215). -/
  | amoMaxn (d : BitVec 5) (a : BitVec 5) (b : BitVec 5) (z : BitVec 2)
  /-- AMO_SWAP (R215). -/
  | amoSwap (d : BitVec 5) (a : BitVec 5) (b : BitVec 5) (z : BitVec 2)
  /-- AMO_FADD_F32 (R215). -/
  | amoFaddF32 (d : BitVec 5) (a : BitVec 5) (b : BitVec 5)
  /-- AMO_FADD_F64 (R215). -/
  | amoFaddF64 (d : BitVec 5) (a : BitVec 5) (b : BitVec 5)
  /-- CAS (R216). -/
  | cas (d : BitVec 5) (a : BitVec 5) (b : BitVec 5) (z : BitVec 2)
  /-- RED_ADD (R217). -/
  | redAdd (a : BitVec 5) (b : BitVec 5) (z : BitVec 2)
  /-- RED_AND (R217). -/
  | redAnd (a : BitVec 5) (b : BitVec 5) (z : BitVec 2)
  /-- RED_OR (R217). -/
  | redOr (a : BitVec 5) (b : BitVec 5) (z : BitVec 2)
  /-- RED_XOR (R217). -/
  | redXor (a : BitVec 5) (b : BitVec 5) (z : BitVec 2)
  /-- RED_MIN (R217). -/
  | redMin (a : BitVec 5) (b : BitVec 5) (z : BitVec 2)
  /-- RED_MAX (R217). -/
  | redMax (a : BitVec 5) (b : BitVec 5) (z : BitVec 2)
  /-- RED_MINN (R217). -/
  | redMinn (a : BitVec 5) (b : BitVec 5) (z : BitVec 2)
  /-- RED_MAXN (R217). -/
  | redMaxn (a : BitVec 5) (b : BitVec 5) (z : BitVec 2)
  /-- ULOG_APP_ADD_F32 (R218). -/
  | ulogAppAddF32 (a : BitVec 5) (b : BitVec 5) (l : BitVec 4)
  /-- ULOG_APP_ADD_F64 (R218). -/
  | ulogAppAddF64 (a : BitVec 5) (b : BitVec 5) (l : BitVec 4)
  /-- ULOG_APP_ADD_I32 (R218). -/
  | ulogAppAddI32 (a : BitVec 5) (b : BitVec 5) (l : BitVec 4)
  /-- ULOG_APP_ADD_I64 (R218). -/
  | ulogAppAddI64 (a : BitVec 5) (b : BitVec 5) (l : BitVec 4)
  /-- ULOG_APP_MAX_F32 (R218). -/
  | ulogAppMaxF32 (a : BitVec 5) (b : BitVec 5) (l : BitVec 4)
  /-- ULOG_APP_MIN_F32 (R218). -/
  | ulogAppMinF32 (a : BitVec 5) (b : BitVec 5) (l : BitVec 4)
  /-- ULOG_APP_MAX_F64 (R218). -/
  | ulogAppMaxF64 (a : BitVec 5) (b : BitVec 5) (l : BitVec 4)
  /-- ULOG_APP_MIN_F64 (R218). -/
  | ulogAppMinF64 (a : BitVec 5) (b : BitVec 5) (l : BitVec 4)
  /-- ULOG_MERGE (R219). -/
  | ulogMerge (l : BitVec 4)
  /-- BR_EQ (R204). -/
  | brEq (a : BitVec 5) (b : BitVec 5) (disp : BitVec 12)
  /-- BR_NE (R204). -/
  | brNe (a : BitVec 5) (b : BitVec 5) (disp : BitVec 12)
  /-- BR_LT (R204). -/
  | brLt (a : BitVec 5) (b : BitVec 5) (disp : BitVec 12)
  /-- BR_GE (R204). -/
  | brGe (a : BitVec 5) (b : BitVec 5) (disp : BitVec 12)
  /-- BR_LTN (R204). -/
  | brLtn (a : BitVec 5) (b : BitVec 5) (disp : BitVec 12)
  /-- BR_GEN (R204). -/
  | brGen (a : BitVec 5) (b : BitVec 5) (disp : BitVec 12)
  /-- BR_Z (R204). -/
  | brZ (a : BitVec 5) (disp : BitVec 12)
  /-- BR_NZ (R204). -/
  | brNz (a : BitVec 5) (disp : BitVec 12)
  /-- JMP (R205). -/
  | jmp (disp : BitVec 26)
  /-- CALL (R206). -/
  | call (disp : BitVec 26)
  /-- JR (R206). -/
  | jr (a : BitVec 5)
  /-- CALLR (R206). -/
  | callr (a : BitVec 5)
  /-- RET (R206). -/
  | ret (a : BitVec 5)
  /-- CALLX (R207). -/
  | callx (a : BitVec 5) (i : BitVec 16)
  /-- WSWAP (R228). -/
  | wswap (d : BitVec 5) (a : BitVec 5)
  /-- SPAWN (R229). -/
  | spawn (d : BitVec 5) (a : BitVec 5) (b : BitVec 5)
  /-- WAKE (R230). -/
  | wake (d : BitVec 5) (a : BitVec 5)
  /-- MSG_SEND (R233). -/
  | msgSend (a : BitVec 5) (b : BitVec 5)
  /-- GBAR (R235). -/
  | gbar (i : BitVec 5)
  /-- SWTRAP (R232). -/
  | swtrap (h : BitVec 5) (l : BitVec 5)
  /-- DEAD (R231). -/
  | dead (a : BitVec 5)
  /-- GETS (R237). -/
  | gets (d : BitVec 5) (s : BitVec 12)
  /-- PUTS (R237). -/
  | puts (d : BitVec 5) (s : BitVec 12)
  /-- GETC (R238). -/
  | getc (d : BitVec 5) (c : BitVec 4)
  /-- PUTC (R238). -/
  | putc (d : BitVec 5) (c : BitVec 4)
  /-- CL_INIT (R224). -/
  | clInit (a : BitVec 5) (b : BitVec 5)
  /-- CL_ARM (R224). -/
  | clArm (a : BitVec 5) (b : BitVec 5)
  /-- CL_ADD (R224). -/
  | clAdd (a : BitVec 5) (b : BitVec 5)
  /-- CL_WAIT (R225). -/
  | clWait (d : BitVec 5) (a : BitVec 5) (b : BitVec 5)
  /-- CL_TEST (R224). -/
  | clTest (d : BitVec 5) (a : BitVec 5)
  /-- CB_DEF (R257). -/
  | cbDef (d : BitVec 5) (h : BitVec 5) (b : BitVec 5)
  /-- CB_FILL (R257). -/
  | cbFill (h : BitVec 5) (b : BitVec 5)
  /-- CB_DRAIN (R257). -/
  | cbDrain (h : BitVec 5) (b : BitVec 5)
  /-- CB_WFILL (R257). -/
  | cbWfill (h : BitVec 5) (b : BitVec 5)
  /-- CB_WFREE (R257). -/
  | cbWfree (h : BitVec 5) (b : BitVec 5)
  /-- CB_STAT (R257). -/
  | cbStat (d : BitVec 5) (h : BitVec 5)
  /-- METER_OUT (R346). -/
  | meterOut (core : Nat) (slot : Nat)
  /-- CAP_MEASUREMENT (R431). -/
  | capMeasurement (watts : Nat)
  /-- POWER_CAP_SET (R431). -/
  | powerCapSet (watts : Nat)
  /-- QUANTUM_EXPIRY (R49). -/
  | quantumExpiry (core : Nat) (slot : Nat)
  /-- MEMORY_RETURN (R34). -/
  | memoryReturn (core : Nat) (slot : Nat)
  /-- HOME_REQUEST_ARRIVAL (R103). -/
  | homeRequestArrival (id : Nat)
  /-- PARK_RELEASE (R37). -/
  | parkRelease (core : Nat) (slot : Nat)
  /-- FE_DEADLINE (R222). -/
  | feDeadline (core : Nat) (ws : Nat)
  /-- TRAP_ENTRY (R107). -/
  | trapEntry (core : Nat) (slot : Nat)
  /-- SERVICE_RESUME (R111). -/
  | serviceResume (core : Nat) (ws : Nat)
  /-- SERVICE_ESCALATE (R111). -/
  | serviceEscalate (core : Nat) (ws : Nat)
  /-- SWITCH_COMPLETE (R50). -/
  | switchComplete (core : Nat) (slot : Nat)
  /-- EMPTY_SLOT_FILL (R48). -/
  | emptySlotFill (core : Nat) (slot : Nat)
  /-- LINE_FILL (R202). -/
  | lineFill (core : Nat) (line : Nat)
  /-- GANG_RELEASE (R62). -/
  | gangRelease (g : Nat)
  /-- GBAR_RELEASE (R61). -/
  | gbarRelease (g : Nat) (id : Nat)
  /-- GANG_FAILURE (R114). -/
  | gangFailure (g : Nat) (f : FailInfo)
  /-- GANG_PREEMPT (R115). -/
  | gangPreempt (g : Nat)
  /-- GANG_RESUME (R116). -/
  | gangResume (g : Nat) (gx : Nat) (gy : Nat)
  /-- GANG_RETIRE (R236). -/
  | gangRetire (g : Nat)
  /-- UNIT_FAILURE (R22). -/
  | unitFailure (u : UnitRef)
  /-- SETTLEMENT_COMPLETE (R23). -/
  | settlementComplete (u : UnitRef)
  /-- JOURNAL_COALESCE_FLUSH (R427). -/
  | journalCoalesceFlush (u : UnitRef) (addr : Nat)
  /-- SRAM_SCRUB (R424). -/
  | sramScrub (core : Nat) (fixed : List Nat)
  /-- MEMORY_SCRUB (R424). -/
  | memoryScrub (fixed : List Nat)
  /-- SHOOTDOWN_COMPLETE (R121). -/
  | shootdownComplete (id : Nat)
  /-- NEST_START (R240). -/
  | nestStart (core : Nat)
  /-- NEST_COMPLETE (R240). -/
  | nestComplete (core : Nat)
  /-- MA_GRANT (R280). -/
  | maGrant (sett : Nat)
  /-- MA_COMMAND_START (R282). -/
  | maCommandStart (sett : Nat) (i : Nat)
  /-- MA_DRAIN_ROW (R290). -/
  | maDrainRow (sett : Nat)
  /-- MA_COMMAND_COMPLETE (R284). -/
  | maCommandComplete (sett : Nat) (i : Nat)
  /-- MA_JOB_AUTO_CLOSE (R285). -/
  | maJobAutoClose (core : Nat)
  /-- COPY_COMMAND_START (R292). -/
  | copyCommandStart (sett : Nat)
  /-- COPY_RUN_WRITTEN (R294). -/
  | copyRunWritten (sett : Nat) (place : Nat)
  /-- COPY_COMMAND_COMPLETE (R292). -/
  | copyCommandComplete (sett : Nat) (place : Nat)
  /-- COLLECTIVE_COMPLETE (R298). -/
  | collectiveComplete (g : Nat) (m : Nat)
  /-- BD_PASS_START (R320). -/
  | bdPassStart (core : Nat)
  /-- SWEEP_PASS (R313). -/
  | sweepPass (core : Nat)
  /-- BD_PASS_COMPLETE (R320). -/
  | bdPassComplete (core : Nat)
  /-- WIDX_OBSERVE (R382). -/
  | widxObserve (q : Nat)
  /-- STAGE_QUEUE_OBSERVE (R403). -/
  | stageQueueObserve (q : Nat) (k : Nat)
  /-- NOP (R399). -/
  | pktNop (q : Nat) (k : Nat) (h : PktHdr)
  /-- LAUNCH (R394). -/
  | pktLaunch (q : Nat) (k : Nat) (h : PktHdr) (b : LaunchBody)
  /-- LAUNCHI (R395). -/
  | pktLaunchi (q : Nat) (k : Nat) (h : PktHdr) (desc : Nat) (stride : BitVec 64)
  /-- LOOP (R396). -/
  | pktLoop (q : Nat) (k : Nat) (h : PktHdr) (count : Nat)
  /-- ENDLOOP (R396). -/
  | pktEndloop (q : Nat) (k : Nat) (h : PktHdr)
  /-- IF (R397). -/
  | pktIf (q : Nat) (k : Nat) (h : PktHdr) (b : CondBody) (skip : Nat)
  /-- WAITMEM (R398). -/
  | pktWaitmem (q : Nat) (k : Nat) (h : PktHdr) (b : CondBody) (tmo : Nat)
  /-- WAITMEM_POLL (R398). -/
  | waitmemPoll (q : Nat) (k : Nat)
  /-- WAITMEM_TIMEOUT (R398). -/
  | waitmemTimeout (q : Nat) (k : Nat)
  /-- SIGNAL (R400). -/
  | pktSignal (q : Nat) (k : Nat) (h : PktHdr) (target : Nat) (tset : BitVec 64)
  /-- COPY (R401). -/
  | pktCopy (q : Nat) (k : Nat) (h : PktHdr) (desc : Nat) (clasp : Nat)
  /-- STAGE (R405). -/
  | pktStage (q : Nat) (k : Nat) (h : PktHdr) (b : StageBody)
  /-- SHOOT (R402). -/
  | pktShoot (q : Nat) (k : Nat) (h : PktHdr) (b : ShootBody)
  /-- STAGE_LAUNCH (R405). -/
  | stageLaunch (q : Nat) (k : Nat)
  /-- PACKET_COMPLETE (R386). -/
  | packetComplete (q : Nat) (k : Nat) (r : StatusInfo)
  /-- STARVATION_GUARD (R391). -/
  | starvationGuard (q : Nat)
  /-- QUEUE_FAULT_RESOLVED (R383). -/
  | queueFaultResolved (q : Nat) (ok : Bool)
  /-- QUEUE_RESTART (R383). -/
  | queueRestart (q : Nat)
  /-- QUEUE_CREATE (R380). -/
  | queueCreate (b : QueueSpec)
  /-- SERVICE_TOKEN_SET (R387). -/
  | serviceTokenSet (q : Nat) (tset : BitVec 64)
  /-- REMOTE_PACKET (R408). -/
  | remotePacket (q : Nat) (bytes : BitVec 512)
  /-- WORLD_CREATE (R410). -/
  | worldCreate (b : WorldSpec)
  /-- WORLD_DESTROY (R415). -/
  | worldDestroy (w : Nat)
  /-- CORE_SCRUB (R414). -/
  | coreScrub (core : Nat) (w : Nat)
  /-- FABRIC_REQUEST (R418). -/
  | fabricRequest (b : FabricReq)
  /-- FABRIC_ANSWER (R419). -/
  | fabricAnswer (core : Nat) (slot : Nat) (ok : Bool) (data : FabricReply)
  /-- CIPHER_COMMAND (R420). -/
  | cipherCommand (b : CipherCmd)
  /-- KEY_SLOT_INSTALL (R420). -/
  | keySlotInstall (b : KeySpec)
  /-- KEY_SLOT_REVOKE (R421). -/
  | keySlotRevoke (net : Bool) (slot : Nat)
  /-- REVOKE_COMPLETE (R421). -/
  | revokeComplete (net : Bool) (slot : Nat)
  /-- LINK_AUTH_FAILURE (R422). -/
  | linkAuthFailure (link : Nat)
  /-- LINK_COUNTER_EXHAUSTION (R422). -/
  | linkCounterExhaustion (link : Nat)
  /-- TRANSLATION_REQUEST (R363). -/
  | translationRequest (w : Nat) (container : List (BitVec 8))
  /-- IMAGE_LOAD (R374). -/
  | imageLoad (b : LoadSpec)
  /-- IMAGE_UNLOAD (R379). -/
  | imageUnload (w : Nat) (handle : Nat)
  /-- QUOTE_REQUEST (R423). -/
  | quoteRequest (w : Nat) (nonce : BitVec 256)
  /-- JOURNAL_READ (R428). -/
  | journalRead (first : Nat) (count : Nat) (nonce : BitVec 256)
  /-- CONFIGURATION_RECORD (R22). -/
  | configurationRecord (verified : Bool) (out : List UnitRef)
  /-- BOOT (R430). -/
  | boot (verified : Bool)
  /-- LINK_REKEYED (R422). -/
  | linkRekeyed (link : Nat)
  /-- LINK_FLIT_FAILS_AFTER_RETRIES (R425). -/
  | linkFlitFailsAfterRetries (link : Nat)
  /-- ENGINE_FAULT_RESOLVED (R119). -/
  | engineFaultResolved (unit : EngineRef) (ok : Bool)
  /-- BD_DECL_COMPLETE (R319). -/
  | bdDeclComplete (core : Nat) (slot : Nat)
  /-- FORMAT_WINDOW_WRITE (R143). -/
  | formatWindowWrite (n : Nat) (desc : WindowSpec)
  /-- FABRIC_WINDOW_WRITE (R416). -/
  | fabricWindowWrite (w : Nat) (n : Nat) (desc : BitVec 256)
  /-- EXPORT_WRITE (R417). -/
  | exportWrite (n : Nat) (desc : BitVec 256)
  /-- YIELD (R227). -/
  | yield
  /-- SLEEP (R227). -/
  | sleep
  /-- HALT (R227). -/
  | halt
  /-- MSG_WAIT (R234). -/
  | msgWait
  /-- ERET (R109). -/
  | eret
  /-- MA_LDST (R287). -/
  | maLdst (c : EngCmd)
  /-- MA_SWAP (R289). -/
  | maSwap (c : EngCmd)
  /-- MA_ZERO (R289). -/
  | maZero (c : EngCmd)
  /-- MA_STREAM (R288). -/
  | maStream (c : EngCmd)
  /-- MA_DRAIN (R290). -/
  | maDrain (c : EngCmd)
  /-- MA_END (R289). -/
  | maEnd (c : EngCmd)
  /-- MA_WAIT (R291). -/
  | maWait (c : EngCmd)
  /-- DMA_CP (R295). -/
  | dmaCp (c : EngCmd)
  /-- DMA_GT (R296). -/
  | dmaGt (c : EngCmd)
  /-- DMA_SC (R296). -/
  | dmaSc (c : EngCmd)
  /-- DMA_COLL (R297). -/
  | dmaColl (c : EngCmd)
  /-- BD_DECL (R319). -/
  | bdDecl (c : EngCmd)
  /-- BD_PASS (R320). -/
  | bdPass (c : EngCmd)
  /-- BD_WAKE (R321). -/
  | bdWake (c : EngCmd)
  /-- BD_STAT (R322). -/
  | bdStat (c : EngCmd)
  /-- BD_FREE (R323). -/
  | bdFree (c : EngCmd)
  /-- VX_COPY (R263). -/
  | vxCopy (n : Nest)
  /-- VX_ADD (R261). -/
  | vxAdd (n : Nest)
  /-- VX_SUB (R261). -/
  | vxSub (n : Nest)
  /-- VX_MUL (R261). -/
  | vxMul (n : Nest)
  /-- VX_FMA (R261). -/
  | vxFma (n : Nest)
  /-- VX_MIN (R261). -/
  | vxMin (n : Nest)
  /-- VX_MAX (R261). -/
  | vxMax (n : Nest)
  /-- VX_ABS (R261). -/
  | vxAbs (n : Nest)
  /-- VX_NEG (R261). -/
  | vxNeg (n : Nest)
  /-- VX_DIV (R261). -/
  | vxDiv (n : Nest)
  /-- VX_CVT (R264). -/
  | vxCvt (n : Nest)
  /-- VX_SEL (R263). -/
  | vxSel (n : Nest)
  /-- VX_CMPEQ (R263). -/
  | vxCmpeq (n : Nest)
  /-- VX_CMPLT (R263). -/
  | vxCmplt (n : Nest)
  /-- VX_CMPLE (R263). -/
  | vxCmple (n : Nest)
  /-- VX_AND (R263). -/
  | vxAnd (n : Nest)
  /-- VX_OR (R263). -/
  | vxOr (n : Nest)
  /-- VX_XOR (R263). -/
  | vxXor (n : Nest)
  /-- VX_SHL (R263). -/
  | vxShl (n : Nest)
  /-- VX_SHR (R263). -/
  | vxShr (n : Nest)
  /-- VX_SRA (R263). -/
  | vxSra (n : Nest)
  /-- VX_QUANT (R264). -/
  | vxQuant (n : Nest)
  /-- VX_DEQUANT (R264). -/
  | vxDequant (n : Nest)
  /-- VX_RSUM (R265). -/
  | vxRsum (n : Nest)
  /-- VX_RMAX (R265). -/
  | vxRmax (n : Nest)
  /-- VX_RMIN (R265). -/
  | vxRmin (n : Nest)
  /-- VX_RARGMAX (R265). -/
  | vxRargmax (n : Nest)
  /-- VX_GATHER (R266). -/
  | vxGather (n : Nest)
  /-- VX_IOTA (R266). -/
  | vxIota (n : Nest)
  /-- VX_FILL (R266). -/
  | vxFill (n : Nest)
  /-- VX_EXP (R267). -/
  | vxExp (n : Nest)
  /-- VX_EXP2 (R267). -/
  | vxExp2 (n : Nest)
  /-- VX_EXPM1 (R267). -/
  | vxExpm1 (n : Nest)
  /-- VX_LOG (R267). -/
  | vxLog (n : Nest)
  /-- VX_LOG2 (R267). -/
  | vxLog2 (n : Nest)
  /-- VX_LOG1P (R267). -/
  | vxLog1p (n : Nest)
  /-- VX_SIN (R267). -/
  | vxSin (n : Nest)
  /-- VX_COS (R267). -/
  | vxCos (n : Nest)
  /-- VX_SINPI (R267). -/
  | vxSinpi (n : Nest)
  /-- VX_COSPI (R267). -/
  | vxCospi (n : Nest)
  /-- VX_TANH (R267). -/
  | vxTanh (n : Nest)
  /-- VX_SIGMOID (R267). -/
  | vxSigmoid (n : Nest)
  /-- VX_ERF (R267). -/
  | vxErf (n : Nest)
  /-- VX_ATAN (R267). -/
  | vxAtan (n : Nest)
  /-- VX_SQRT (R267). -/
  | vxSqrt (n : Nest)
  /-- VX_RSQRT (R267). -/
  | vxRsqrt (n : Nest)
  /-- VX_RCP (R267). -/
  | vxRcp (n : Nest)
  /-- VX_XA_EXP2 (R274). -/
  | vxXaExp2 (n : Nest)
  /-- VX_XA_LOG2 (R274). -/
  | vxXaLog2 (n : Nest)
  /-- VX_XA_RCP (R274). -/
  | vxXaRcp (n : Nest)
  /-- VX_XA_RSQRT (R274). -/
  | vxXaRsqrt (n : Nest)
  /-- VX_XA_TANH (R274). -/
  | vxXaTanh (n : Nest)
  /-- VX_XA_SIGMOID (R274). -/
  | vxXaSigmoid (n : Nest)
  /-- B_ADD (R307). -/
  | bAdd (d : BitVec 3) (s : BitVec 3) (t : BitVec 3) (i : BitVec 18)
  /-- B_SUB (R307). -/
  | bSub (d : BitVec 3) (s : BitVec 3) (t : BitVec 3) (i : BitVec 18)
  /-- B_MUL (R307). -/
  | bMul (d : BitVec 3) (s : BitVec 3) (t : BitVec 3) (i : BitVec 18)
  /-- B_MIN (R307). -/
  | bMin (d : BitVec 3) (s : BitVec 3) (t : BitVec 3) (i : BitVec 18)
  /-- B_MAX (R307). -/
  | bMax (d : BitVec 3) (s : BitVec 3) (t : BitVec 3) (i : BitVec 18)
  /-- B_AND (R307). -/
  | bAnd (d : BitVec 3) (s : BitVec 3) (t : BitVec 3) (i : BitVec 18)
  /-- B_OR (R307). -/
  | bOr (d : BitVec 3) (s : BitVec 3) (t : BitVec 3) (i : BitVec 18)
  /-- B_XOR (R307). -/
  | bXor (d : BitVec 3) (s : BitVec 3) (t : BitVec 3) (i : BitVec 18)
  /-- B_SHI_SHL (R307). -/
  | bShiShl (d : BitVec 3) (s : BitVec 3) (n : BitVec 6)
  /-- B_SHI_SHR (R307). -/
  | bShiShr (d : BitVec 3) (s : BitVec 3) (n : BitVec 6)
  /-- B_SHI_SRA (R307). -/
  | bShiSra (d : BitVec 3) (s : BitVec 3) (n : BitVec 6)
  /-- B_SHI_ROT (R307). -/
  | bShiRot (d : BitVec 3) (s : BitVec 3) (n : BitVec 6)
  /-- B_LI (R307). -/
  | bLi (d : BitVec 3) (i : BitVec 18)
  /-- B_CMP_EQ (R307). -/
  | bCmpEq (d : BitVec 3) (s : BitVec 3) (t : BitVec 3) (i : BitVec 15)
  /-- B_CMP_NE (R307). -/
  | bCmpNe (d : BitVec 3) (s : BitVec 3) (t : BitVec 3) (i : BitVec 15)
  /-- B_CMP_LT (R307). -/
  | bCmpLt (d : BitVec 3) (s : BitVec 3) (t : BitVec 3) (i : BitVec 15)
  /-- B_CMP_GE (R307). -/
  | bCmpGe (d : BitVec 3) (s : BitVec 3) (t : BitVec 3) (i : BitVec 15)
  /-- B_CMP_LTN (R307). -/
  | bCmpLtn (d : BitVec 3) (s : BitVec 3) (t : BitVec 3) (i : BitVec 15)
  /-- B_CMP_GEN (R307). -/
  | bCmpGen (d : BitVec 3) (s : BitVec 3) (t : BitVec 3) (i : BitVec 15)
  /-- B_SEL (R307). -/
  | bSel (d : BitVec 3) (s : BitVec 3) (t : BitVec 3)
  /-- B_FOP_FADD (R307). -/
  | bFopFadd (d : BitVec 3) (s : BitVec 3) (t : BitVec 3) (r : BitVec 3) (f : BitVec 1)
  /-- B_FOP_FMUL (R307). -/
  | bFopFmul (d : BitVec 3) (s : BitVec 3) (t : BitVec 3) (r : BitVec 3) (f : BitVec 1)
  /-- B_FOP_FMIN (R307). -/
  | bFopFmin (d : BitVec 3) (s : BitVec 3) (t : BitVec 3) (r : BitVec 3) (f : BitVec 1)
  /-- B_FOP_FMAX (R307). -/
  | bFopFmax (d : BitVec 3) (s : BitVec 3) (t : BitVec 3) (r : BitVec 3) (f : BitVec 1)
  /-- B_FOP_FMA (R307). -/
  | bFopFma (d : BitVec 3) (s : BitVec 3) (t : BitVec 3) (r : BitVec 3) (f : BitVec 1)
  /-- B_NB_DATA (R308). -/
  | bNbData (d : BitVec 3) (o : BitVec 16)
  /-- B_NB_CTX (R308). -/
  | bNbCtx (d : BitVec 3) (o : BitVec 16)
  /-- B_LD (R307). -/
  | bLd (d : BitVec 3) (s : BitVec 3) (z : BitVec 2) (i : BitVec 16)
  /-- B_ST (R307). -/
  | bSt (s : BitVec 3) (t : BitVec 3) (z : BitVec 2) (i : BitVec 16)
  /-- B_ST_PUT (R307). -/
  | bStPut (s : BitVec 3) (t : BitVec 3) (z : BitVec 2) (i : BitVec 16)
  /-- B_BR_NZ (R307). -/
  | bBrNz (s : BitVec 3) (p : BitVec 8)
  /-- B_BR_Z (R307). -/
  | bBrZ (s : BitVec 3) (p : BitVec 8)
  /-- B_JMP (R307). -/
  | bJmp (p : BitVec 8)
  /-- B_WAIT_NBDONE (R311). -/
  | bWaitNbdone (s : BitVec 3)
  /-- B_WAIT_NBPC (R311). -/
  | bWaitNbpc (s : BitVec 3) (p : BitVec 8)
  /-- B_WAIT_FULL (R311). -/
  | bWaitFull (s : BitVec 3)
  /-- B_WAIT_PHASE (R311). -/
  | bWaitPhase (s : BitVec 3) (i : BitVec 18)
  /-- B_WAIT_PASS (R311). -/
  | bWaitPass (s : BitVec 3)
  /-- B_WAIT_LOCAL (R311). -/
  | bWaitLocal (s : BitVec 3)
  /-- B_SLEEP (R307). -/
  | bSleep
  /-- B_WAKE (R314). -/
  | bWake (s : BitVec 3) (i : BitVec 18)
  /-- B_DONE (R307). -/
  | bDone
  /-- B_SETE (R307). -/
  | bSete (s : BitVec 3)
  /-- ZADD (R334). -/
  | zadd (d : BitVec 4) (a : BitVec 4) (b : BitVec 4)
  /-- ZSUB (R334). -/
  | zsub (d : BitVec 4) (a : BitVec 4) (b : BitVec 4)
  /-- ZMUL (R334). -/
  | zmul (d : BitVec 4) (a : BitVec 4) (b : BitVec 4)
  /-- ZMULH (R334). -/
  | zmulh (d : BitVec 4) (a : BitVec 4) (b : BitVec 4)
  /-- ZDIV (R334). -/
  | zdiv (d : BitVec 4) (a : BitVec 4) (b : BitVec 4)
  /-- ZDIVN (R334). -/
  | zdivn (d : BitVec 4) (a : BitVec 4) (b : BitVec 4)
  /-- ZREM (R334). -/
  | zrem (d : BitVec 4) (a : BitVec 4) (b : BitVec 4)
  /-- ZREMN (R334). -/
  | zremn (d : BitVec 4) (a : BitVec 4) (b : BitVec 4)
  /-- ZAND (R334). -/
  | zand (d : BitVec 4) (a : BitVec 4) (b : BitVec 4)
  /-- ZOR (R334). -/
  | zor (d : BitVec 4) (a : BitVec 4) (b : BitVec 4)
  /-- ZXOR (R334). -/
  | zxor (d : BitVec 4) (a : BitVec 4) (b : BitVec 4)
  /-- ZSHL (R334). -/
  | zshl (d : BitVec 4) (a : BitVec 4) (b : BitVec 4)
  /-- ZSHR (R334). -/
  | zshr (d : BitVec 4) (a : BitVec 4) (b : BitVec 4)
  /-- ZSRA (R334). -/
  | zsra (d : BitVec 4) (a : BitVec 4) (b : BitVec 4)
  /-- ZSLT (R334). -/
  | zslt (d : BitVec 4) (a : BitVec 4) (b : BitVec 4)
  /-- ZSLTN (R334). -/
  | zsltn (d : BitVec 4) (a : BitVec 4) (b : BitVec 4)
  /-- ZADDI (R334). -/
  | zaddi (d : BitVec 4) (a : BitVec 4) (i : BitVec 18)
  /-- ZANDI (R334). -/
  | zandi (d : BitVec 4) (a : BitVec 4) (i : BitVec 18)
  /-- ZORI (R334). -/
  | zori (d : BitVec 4) (a : BitVec 4) (i : BitVec 18)
  /-- ZXORI (R334). -/
  | zxori (d : BitVec 4) (a : BitVec 4) (i : BitVec 18)
  /-- ZSHLI (R334). -/
  | zshli (d : BitVec 4) (a : BitVec 4) (n : BitVec 6)
  /-- ZSHRI (R334). -/
  | zshri (d : BitVec 4) (a : BitVec 4) (n : BitVec 6)
  /-- ZSRAI (R334). -/
  | zsrai (d : BitVec 4) (a : BitVec 4) (n : BitVec 6)
  /-- ZHI (R334). -/
  | zhi (d : BitVec 4) (i : BitVec 22)
  /-- ZLDB (R335). -/
  | zldb (d : BitVec 4) (a : BitVec 4) (i : BitVec 18)
  /-- ZLDH (R335). -/
  | zldh (d : BitVec 4) (a : BitVec 4) (i : BitVec 18)
  /-- ZLDW (R335). -/
  | zldw (d : BitVec 4) (a : BitVec 4) (i : BitVec 18)
  /-- ZLDD (R335). -/
  | zldd (d : BitVec 4) (a : BitVec 4) (i : BitVec 18)
  /-- ZSTB (R335). -/
  | zstb (s : BitVec 4) (a : BitVec 4) (i : BitVec 18)
  /-- ZSTH (R335). -/
  | zsth (s : BitVec 4) (a : BitVec 4) (i : BitVec 18)
  /-- ZSTW (R335). -/
  | zstw (s : BitVec 4) (a : BitVec 4) (i : BitVec 18)
  /-- ZSTD (R335). -/
  | zstd (s : BitVec 4) (a : BitVec 4) (i : BitVec 18)
  /-- ZBEQ (R336). -/
  | zbeq (a : BitVec 4) (b : BitVec 4) (disp : BitVec 18)
  /-- ZBNE (R336). -/
  | zbne (a : BitVec 4) (b : BitVec 4) (disp : BitVec 18)
  /-- ZBLT (R336). -/
  | zblt (a : BitVec 4) (b : BitVec 4) (disp : BitVec 18)
  /-- ZBGE (R336). -/
  | zbge (a : BitVec 4) (b : BitVec 4) (disp : BitVec 18)
  /-- ZBLTN (R336). -/
  | zbltn (a : BitVec 4) (b : BitVec 4) (disp : BitVec 18)
  /-- ZBGEN (R336). -/
  | zbgen (a : BitVec 4) (b : BitVec 4) (disp : BitVec 18)
  /-- ZJAL (R336). -/
  | zjal (d : BitVec 4) (p : BitVec 22)
  /-- ZJALR (R336). -/
  | zjalr (d : BitVec 4) (a : BitVec 4) (i : BitVec 18)
  /-- ZSVC_READ_NST_RECORD (R354). -/
  | zsvcReadNstRecord
  /-- ZSVC_FUNCTION_BEGIN (R355). -/
  | zsvcFunctionBegin
  /-- ZSVC_FUNCTION_END (R355). -/
  | zsvcFunctionEnd
  /-- ZSVC_PROVENANCE_RECORD (R357). -/
  | zsvcProvenanceRecord
  /-- ZSVC_GROW_HEAP (R356). -/
  | zsvcGrowHeap
  /-- ZSVC_RELOCATION_RECORD (R358). -/
  | zsvcRelocationRecord
  /-- ZSVC_COMMIT (R359). -/
  | zsvcCommit
  /-- ZSVC_FAIL (R354). -/
  | zsvcFail
  /-- ZSVC_LOG (R361). -/
  | zsvcLog
  /-- ZHALT (R347). -/
  | zhalt
  /-- IDLE_ROTATION (R17). -/
  | idleRotation
  /-- THERMAL_ALARM (R431). -/
  | thermalAlarm
  /-- PTS_TICK (R70). -/
  | ptsTick
  /-- TIMESTAMP_REBASE (R74). -/
  | timestampRebase
  /-- RESIDENCY_REPORT (R407). -/
  | residencyReport
  /-- THERMAL_ALARM_CLEAR (R431). -/
  | thermalAlarmClear
  deriving DecidableEq, Repr

end Sys2Proof
end

