-- ==== Sys2Proof/WellFormed.lean ====
section
/-! DEFINITION. Which instructions are well-formed: the checks 3, 4 and 5 of R158 on operand values, the validity of a
bead word (R312), and the one-word limits of the front end's packets (R385). -/

namespace Sys2Proof

open Sys2Proof.Machine

/-- A register number that cb fields may hold (R252). -/
def cbOk (b : BitVec 1) (r : BitVec 5) : Bool := b == 0#1 || decide (r.toNat < 16)

/-- A type given by an allowed predicate (R122: code 0x7 is never allowed). -/
def tyIn (p : Ty → Bool) (c : BitVec 4) : Bool := match tyOfCode c with | some t => p t | none => false

/-- Types of class A: floats and integers (R258). -/
def tyClassA (t : Ty) : Bool := tyIsFloat t || tyIsInt t

/-- Types of class G: floats without f64 (R258). -/
def tyClassG (t : Ty) : Bool := tyIsFloat t && t != .f64

/-- Types of class X (R258). -/
def tyClassX (t : Ty) : Bool := t == .i32 || t == .i64 || t == .n32 || t == .n64

/-- Reduced level test (R156 RED). -/
def Nest.redAt (n : Nest) (l : Nat) : Bool := n.red.getLsbD l

/-- The extents of the five levels (R246). -/
def Nest.extents (n : Nest) : List Nat :=
  [n.x0.toNat + 1, n.x1.toNat + 1, n.x2.toNat + 1, n.x3.toNat + 1, n.x4.toNat + 1]

/-- A scale code's factor, 16 to the code (R156). -/
def scaleOf (c : BitVec 2) : Int := ((16 ^ c.toNat : Nat) : Int)

/-- The scaled strides of d, a and b by level, in elements (R156, R246). -/
def Nest.strides (n : Nest) (which : Nat) : List Int :=
  match which with
  | 0 => [n.sd0, n.sd1, n.sd2, n.sd3, n.sd4].map (fun s => s.toInt * scaleOf n.scd)
  | 1 => [n.sa0, n.sa1, n.sa2, n.sa3, n.sa4].map (fun s => s.toInt * scaleOf n.sca)
  | _ => [n.sb0, n.sb1, n.sb2, n.sb3, n.sb4].map (fun s => s.toInt * scaleOf n.scb)

/-- The iteration count N of R246. -/
def Nest.count (n : Nest) : Nat := n.extents.foldl (· * ·) 1

/-- The kinds of nest by their operands and allowed types (R259). -/
inductive VKind where
  | arith | fmaK | minmax | selK | unary | cvtK | cmpK | bits | shifts | quantK | dequantK
  | rsumK | rext | rargK | gatherK | iotaK | fillK | func | xaK
  deriving DecidableEq, Repr

/-- Whether a kind reads operand a. -/
def VKind.readsA : VKind → Bool
  | .iotaK | .fillK => false
  | _ => true

/-- Whether a kind reads operand b. -/
def VKind.readsB : VKind → Bool
  | .arith | .fmaK | .minmax | .selK | .cmpK | .bits | .shifts | .gatherK => true
  | _ => false

/-- Whether a kind reduces (R249). -/
def VKind.reduces : VKind → Bool
  | .rsumK | .rext | .rargK => true
  | _ => false

/-- The type combinations of R259. -/
def Nest.typesOk (n : Nest) (k : VKind) : Bool :=
  let f := tyIn tyIsFloat
  let i := tyIn tyIsInt
  let a := tyIn tyClassA
  match k with
  | .arith | .fmaK => (f n.td && f n.ta && f n.tb) || (i n.td && n.ta == n.td && n.tb == n.td)
  | .minmax | .selK => a n.td && n.ta == n.td && n.tb == n.td
  | .unary => a n.td && n.ta == n.td
  | .cvtK => a n.td && a n.ta
  | .cmpK => n.td == 0xC#4 && a n.ta && n.tb == n.ta
  | .bits => i n.td && n.ta == n.td && n.tb == n.td
  | .shifts => i n.td && n.ta == n.td && i n.tb
  | .quantK => n.td == 6#4 && f n.ta
  | .dequantK => f n.td && n.ta == 6#4
  | .rsumK => (f n.td && f n.ta && (n.td == 0#4 || n.ta != 0#4)) || (i n.td && i n.ta)
  | .rext => a n.td && n.ta == n.td
  | .rargK => tyIn tyClassX n.td && a n.ta
  | .gatherK => a n.td && n.ta == n.td && tyIn tyClassX n.tb
  | .iotaK | .fillK => a n.td
  | .func => f n.td && n.ta == n.td
  | .xaK => tyIn tyClassG n.td && n.ta == n.td

/-- Check 3 of R158 for a nest: the cases of R249 and R276. `sat` says that R260 allows SAT with the vop. -/
def Nest.fieldsOk (n : Nest) (k : VKind) (sat : Bool) : Bool :=
  let sd := n.strides 0
  let zeroA := n.sa0 == 0 && n.sa1 == 0 && n.sa2 == 0 && n.sa3 == 0 && n.sa4 == 0
  let zeroB := n.sb0 == 0 && n.sb1 == 0 && n.sb2 == 0 && n.sb3 == 0 && n.sb4 == 0
  cbOk n.cbd n.bd && cbOk n.cba n.ba && cbOk n.cbb n.bb &&
  decide (n.count ≤ 2 ^ 24) &&
  (k.reduces == (n.red != 0#5)) &&
  (List.range 5).all (fun l => !(n.redAt l) || (sd[l]?.getD 0) == 0) &&
  (n.me == 1#1 || (n.mp == 0#1 && n.mb == 0#5)) &&
  (k.readsA || (n.cba == 0#1 && zeroA && (n.ba == 0#5 || k == .fillK))) &&
  (k.readsB || (n.cbb == 0#1 && zeroB && n.bb == 0#5)) &&
  n.typesOk k &&
  (n.sat == 0#1 || sat) &&
  !(k == .dequantK && n.cba == 1#1) &&
  !((k == .quantK || k == .cmpK) && n.cbd == 1#1) &&
  !(k == .cmpK && sd.any (fun s => s != 0)) &&
  !(k == .quantK && (n.me == 1#1 || (n.x0.toNat + 1) % 32 != 0 || (sd[0]?.getD 0) != 1 ||
      (sd.drop 1).any (fun s => s % 32 != 0)))

/-- Checks 3 and 4 of R158 for a nest: 0, or the UNDEF sub-cause. -/
def Nest.undef (n : Nest) (k : VKind) (sat : Bool) : Nat :=
  if n.fieldsOk k sat = false then 2
  else if n.rm = 7#3 ∨ (k = .func ∧ n.rm = 5#3) then 5 else 0

/-- The kind of a nest vop and whether R260 allows SAT with it; none for an instruction that is no nest. -/
def vopKind : Instr → Option (Nest × VKind × Bool)
  | .vxCopy n => some (n, .unary, false)
  | .vxAdd n => some (n, .arith, true)
  | .vxSub n => some (n, .arith, true)
  | .vxMul n => some (n, .arith, true)
  | .vxFma n => some (n, .fmaK, true)
  | .vxMin n => some (n, .minmax, false)
  | .vxMax n => some (n, .minmax, false)
  | .vxAbs n => some (n, .unary, true)
  | .vxNeg n => some (n, .unary, true)
  | .vxDiv n => some (n, .arith, true)
  | .vxCvt n => some (n, .cvtK, true)
  | .vxSel n => some (n, .selK, false)
  | .vxCmpeq n => some (n, .cmpK, false)
  | .vxCmplt n => some (n, .cmpK, false)
  | .vxCmple n => some (n, .cmpK, false)
  | .vxAnd n => some (n, .bits, false)
  | .vxOr n => some (n, .bits, false)
  | .vxXor n => some (n, .bits, false)
  | .vxShl n => some (n, .shifts, false)
  | .vxShr n => some (n, .shifts, false)
  | .vxSra n => some (n, .shifts, false)
  | .vxQuant n => some (n, .quantK, false)
  | .vxDequant n => some (n, .dequantK, false)
  | .vxRsum n => some (n, .rsumK, true)
  | .vxRmax n => some (n, .rext, false)
  | .vxRmin n => some (n, .rext, false)
  | .vxRargmax n => some (n, .rargK, false)
  | .vxGather n => some (n, .gatherK, false)
  | .vxIota n => some (n, .iotaK, true)
  | .vxFill n => some (n, .fillK, false)
  | .vxExp n => some (n, .func, true)
  | .vxExp2 n => some (n, .func, true)
  | .vxExpm1 n => some (n, .func, true)
  | .vxLog n => some (n, .func, true)
  | .vxLog2 n => some (n, .func, true)
  | .vxLog1p n => some (n, .func, true)
  | .vxSin n => some (n, .func, true)
  | .vxCos n => some (n, .func, true)
  | .vxSinpi n => some (n, .func, true)
  | .vxCospi n => some (n, .func, true)
  | .vxTanh n => some (n, .func, true)
  | .vxSigmoid n => some (n, .func, true)
  | .vxErf n => some (n, .func, true)
  | .vxAtan n => some (n, .func, true)
  | .vxSqrt n => some (n, .func, true)
  | .vxRsqrt n => some (n, .func, true)
  | .vxRcp n => some (n, .func, true)
  | .vxXaExp2 n => some (n, .xaK, true)
  | .vxXaLog2 n => some (n, .xaK, true)
  | .vxXaRcp n => some (n, .xaK, true)
  | .vxXaRsqrt n => some (n, .xaK, true)
  | .vxXaTanh n => some (n, .xaK, true)
  | .vxXaSigmoid n => some (n, .xaK, true)
  | .add _ _ _ | .sub _ _ _ | .mul _ _ _ | .mulh _ _ _ | .mulhn _ _ _ | .div _ _ _
  | .divn _ _ _ | .rem _ _ _ | .remn _ _ _ | .and _ _ _ | .or _ _ _ | .xor _ _ _
  | .andn _ _ _ | .shl _ _ _ | .shr _ _ _ | .sra _ _ _ | .rot _ _ _ | .min _ _ _
  | .max _ _ _ | .minn _ _ _ | .maxn _ _ _ | .clz _ _ | .ctz _ _ | .popc _ _
  | .sel _ _ _ | .cmpEq _ _ _ | .cmpNe _ _ _ | .cmpLt _ _ _ | .cmpGe _ _ _ | .cmpLtn _ _ _
  | .cmpGen _ _ _ | .sxb _ _ | .sxh _ _ | .sxw _ _ | .zxb _ _ | .zxh _ _
  | .zxw _ _ | .addi _ _ _ | .andi _ _ _ | .ori _ _ _ | .xori _ _ _ | .shiShl _ _ _
  | .shiShr _ _ _ | .shiSra _ _ _ | .shiRot _ _ _ | .cmpiEq _ _ _ | .cmpiNe _ _ _ | .cmpiLt _ _ _
  | .cmpiGe _ _ _ | .cmpiLtn _ _ _ | .cmpiGen _ _ _ | .lhi _ _ | .phi _ _ | .fadd _ _ _ _ _
  | .fsub _ _ _ _ _ | .fmul _ _ _ _ _ | .fdiv _ _ _ _ _ | .fsqrt _ _ _ _ | .fmin _ _ _ _ | .fmax _ _ _ _
  | .fsgnCopy _ _ _ _ | .fsgnNeg _ _ _ _ | .fsgnXor _ _ _ _ | .fcmpEq _ _ _ _ | .fcmpLt _ _ _ _ | .fcmpLe _ _ _ _
  | .fcmpUnordered _ _ _ _ | .fclass _ _ _ | .fma _ _ _ _ _ | .fms _ _ _ _ _ | .fnma _ _ _ _ _ | .fcvt _ _ _ _ _
  | .ld _ _ _ _ | .ldSx _ _ _ _ | .ldUp _ _ _ _ | .st _ _ _ _ | .stUp _ _ _ _ | .ldFeKeep _ _ _ _
  | .ldFeTake _ _ _ _ | .stFeFill _ _ _ _ | .stFePut _ _ _ _ | .stFeClear _ _ _ | .dpref _ _ | .ipref _ _
  | .amoAdd _ _ _ _ | .amoAnd _ _ _ _ | .amoOr _ _ _ _ | .amoXor _ _ _ _ | .amoMin _ _ _ _ | .amoMax _ _ _ _
  | .amoMinn _ _ _ _ | .amoMaxn _ _ _ _ | .amoSwap _ _ _ _ | .amoFaddF32 _ _ _ | .amoFaddF64 _ _ _ | .cas _ _ _ _
  | .redAdd _ _ _ | .redAnd _ _ _ | .redOr _ _ _ | .redXor _ _ _ | .redMin _ _ _ | .redMax _ _ _
  | .redMinn _ _ _ | .redMaxn _ _ _ | .ulogAppAddF32 _ _ _ | .ulogAppAddF64 _ _ _ | .ulogAppAddI32 _ _ _ | .ulogAppAddI64 _ _ _
  | .ulogAppMaxF32 _ _ _ | .ulogAppMinF32 _ _ _ | .ulogAppMaxF64 _ _ _ | .ulogAppMinF64 _ _ _ | .ulogMerge _ | .brEq _ _ _
  | .brNe _ _ _ | .brLt _ _ _ | .brGe _ _ _ | .brLtn _ _ _ | .brGen _ _ _ | .brZ _ _
  | .brNz _ _ | .jmp _ | .call _ | .jr _ | .callr _ | .ret _
  | .callx _ _ | .yield | .sleep | .halt | .wswap _ _ | .spawn _ _ _
  | .wake _ _ | .msgSend _ _ | .msgWait | .gbar _ | .swtrap _ _ | .eret
  | .dead _ | .gets _ _ | .puts _ _ | .getc _ _ | .putc _ _ | .clInit _ _
  | .clArm _ _ | .clAdd _ _ | .clWait _ _ _ | .clTest _ _ | .cbDef _ _ _ | .cbFill _ _
  | .cbDrain _ _ | .cbWfill _ _ | .cbWfree _ _ | .cbStat _ _ | .maLdst _ | .maSwap _
  | .maZero _ | .maStream _ | .maDrain _ | .maEnd _ | .maWait _ | .dmaCp _
  | .dmaGt _ | .dmaSc _ | .dmaColl _ | .bdDecl _ | .bdPass _ | .bdWake _
  | .bdStat _ | .bdFree _ | .bAdd _ _ _ _ | .bSub _ _ _ _ | .bMul _ _ _ _ | .bMin _ _ _ _
  | .bMax _ _ _ _ | .bAnd _ _ _ _ | .bOr _ _ _ _ | .bXor _ _ _ _ | .bShiShl _ _ _ | .bShiShr _ _ _
  | .bShiSra _ _ _ | .bShiRot _ _ _ | .bLi _ _ | .bCmpEq _ _ _ _ | .bCmpNe _ _ _ _ | .bCmpLt _ _ _ _
  | .bCmpGe _ _ _ _ | .bCmpLtn _ _ _ _ | .bCmpGen _ _ _ _ | .bSel _ _ _ | .bFopFadd _ _ _ _ _ | .bFopFmul _ _ _ _ _
  | .bFopFmin _ _ _ _ _ | .bFopFmax _ _ _ _ _ | .bFopFma _ _ _ _ _ | .bNbData _ _ | .bNbCtx _ _ | .bLd _ _ _ _
  | .bSt _ _ _ _ | .bStPut _ _ _ _ | .bBrNz _ _ | .bBrZ _ _ | .bJmp _ | .bWaitNbdone _
  | .bWaitNbpc _ _ | .bWaitFull _ | .bWaitPhase _ _ | .bWaitPass _ | .bWaitLocal _ | .bSleep
  | .bWake _ _ | .bDone | .bSete _ | .zadd _ _ _ | .zsub _ _ _ | .zmul _ _ _
  | .zmulh _ _ _ | .zdiv _ _ _ | .zdivn _ _ _ | .zrem _ _ _ | .zremn _ _ _ | .zand _ _ _
  | .zor _ _ _ | .zxor _ _ _ | .zshl _ _ _ | .zshr _ _ _ | .zsra _ _ _ | .zslt _ _ _
  | .zsltn _ _ _ | .zaddi _ _ _ | .zandi _ _ _ | .zori _ _ _ | .zxori _ _ _ | .zshli _ _ _
  | .zshri _ _ _ | .zsrai _ _ _ | .zhi _ _ | .zldb _ _ _ | .zldh _ _ _ | .zldw _ _ _
  | .zldd _ _ _ | .zstb _ _ _ | .zsth _ _ _ | .zstw _ _ _ | .zstd _ _ _ | .zbeq _ _ _
  | .zbne _ _ _ | .zblt _ _ _ | .zbge _ _ _ | .zbltn _ _ _ | .zbgen _ _ _ | .zjal _ _
  | .zjalr _ _ _ | .zsvcReadNstRecord | .zsvcFunctionBegin | .zsvcFunctionEnd | .zsvcProvenanceRecord | .zsvcGrowHeap
  | .zsvcRelocationRecord | .zsvcCommit | .zsvcFail | .zsvcLog | .zhalt | .meterOut _ _
  | .idleRotation | .capMeasurement _ | .thermalAlarm | .powerCapSet _ | .ptsTick | .timestampRebase
  | .quantumExpiry _ _ | .memoryReturn _ _ | .homeRequestArrival _ | .parkRelease _ _ | .feDeadline _ _ | .trapEntry _ _
  | .serviceResume _ _ | .serviceEscalate _ _ | .switchComplete _ _ | .emptySlotFill _ _ | .lineFill _ _ | .gangRelease _
  | .gbarRelease _ _ | .gangFailure _ _ | .gangPreempt _ | .gangResume _ _ _ | .gangRetire _ | .unitFailure _
  | .settlementComplete _ | .journalCoalesceFlush _ _ | .sramScrub _ _ | .memoryScrub _ | .shootdownComplete _ | .nestStart _
  | .nestComplete _ | .maGrant _ | .maCommandStart _ _ | .maDrainRow _ | .maCommandComplete _ _ | .maJobAutoClose _
  | .copyCommandStart _ | .copyRunWritten _ _ | .copyCommandComplete _ _ | .collectiveComplete _ _ | .bdPassStart _ | .sweepPass _
  | .bdPassComplete _ | .widxObserve _ | .stageQueueObserve _ _ | .pktNop _ _ _ | .pktLaunch _ _ _ _ | .pktLaunchi _ _ _ _ _
  | .pktLoop _ _ _ _ | .pktEndloop _ _ _ | .pktIf _ _ _ _ _ | .pktWaitmem _ _ _ _ _ | .waitmemPoll _ _ | .waitmemTimeout _ _
  | .pktSignal _ _ _ _ _ | .pktCopy _ _ _ _ _ | .pktStage _ _ _ _ | .pktShoot _ _ _ _ | .stageLaunch _ _ | .packetComplete _ _ _
  | .starvationGuard _ | .queueFaultResolved _ _ | .queueRestart _ | .queueCreate _ | .serviceTokenSet _ _ | .remotePacket _ _
  | .residencyReport | .worldCreate _ | .worldDestroy _ | .coreScrub _ _ | .fabricRequest _ | .fabricAnswer _ _ _ _
  | .cipherCommand _ | .keySlotInstall _ | .keySlotRevoke _ _ | .revokeComplete _ _ | .linkAuthFailure _ | .linkCounterExhaustion _
  | .translationRequest _ _ | .imageLoad _ | .imageUnload _ _ | .quoteRequest _ _ | .journalRead _ _ _ | .configurationRecord _ _
  | .boot _ | .thermalAlarmClear | .linkRekeyed _ | .linkFlitFailsAfterRetries _ | .engineFaultResolved _ _ | .bdDeclComplete _ _
  | .formatWindowWrite _ _ | .fabricWindowWrite _ _ _ | .exportWrite _ _ => none

/-- A scalar float format of R161: 4 to 7 are reserved. -/
def fmtUndef (f r : BitVec 3) : Nat := if 4 ≤ f.toNat then 2 else if r = 7#3 then 5 else 0

/-- A float format alone (R161). -/
def fmtOnly (f : BitVec 3) : Nat := if 4 ≤ f.toNat then 2 else 0

/-- An atomic's size field (R162). -/
def sizeUndef (z : BitVec 2) : Nat := if 2 ≤ z.toNat then 2 else 0

/-- A type code that `fcvt` allows (R192). -/
def cvtTy (t : BitVec 4) : Bool := t != 6#4 && t != 7#4

/-- The selectors of R166 and whether `puts` may write them. -/
def selectorTable : List (Nat × Bool) :=
  [(0x000, false), (0x001, false), (0x002, false), (0x003, false), (0x004, false), (0x005, false), (0x006, false),
   (0x007, false), (0x008, false), (0x009, false), (0x010, true), (0x011, true), (0x012, true), (0x013, true),
   (0x014, true), (0x015, true), (0x016, true), (0x020, true), (0x021, true), (0x022, true), (0x023, true),
   (0x040, false), (0x050, false)]

/-- A selector `gets` may read (R166). -/
def selReadable (s : BitVec 12) : Bool := selectorTable.any (fun e => e.1 == s.toNat)

/-- A selector `puts` may write (R166). -/
def selWritable (s : BitVec 12) : Bool := selectorTable.any (fun e => e.1 == s.toNat && e.2)

/-- Fields of `ma.ldst` (R286, R287, R300). -/
def ldstUndef (c : EngCmd) : Nat :=
  let p := c.p.toNat
  let tb := BitVec.ofNat 4 (p >>> 28)
  let t := bitOf p 27
  let n := bitsOf p 16 8 + 1
  let row0 := bitsOf p 0 8
  let ok := c.z == 0 && c.f == 0 && bitsOf p 24 3 == 0 && !(bitOf p 15) &&
    (tb == 2#4 || tb == 3#4 || tb == 4#4 || tb == 5#4 || tb == 8#4 || tb == 6#4) &&
    !(tb == 6#4 && (!t || n % 8 != 0 || row0 % 8 != 0)) && decide (row0 + n ≤ 256)
  if ok then 0 else 2

/-- K-steps of one plane row for a stream type (R277). -/
def kStepsPerRow (t : BitVec 4) : Nat := if t = 6#4 then 4 else if t = 4#4 ∨ t = 5#4 ∨ t = 8#4 then 2 else 1

/-- Fields of `ma.stream` (R286, R288, R300). -/
def streamUndef (c : EngCmd) : Nat :=
  let p := c.p.toNat
  let ta := BitVec.ofNat 4 (p >>> 28)
  let k := bitsOf p 16 10 + 1
  let row0 := bitsOf p 0 8
  let q := kStepsPerRow ta
  let ok := c.z == 0 && decide (c.f.toNat < 2) && bitsOf p 26 2 == 0 && !(bitOf p 15) &&
    (ta == 2#4 || ta == 3#4 || ta == 4#4 || ta == 5#4 || ta == 8#4 || ta == 6#4) &&
    decide (row0 * q + k ≤ 256 * q) && !(q == 2 && k % 2 != 0) &&
    !(q == 4 && (k % 32 != 0 || (4 * row0) % 32 != 0))
  if ok then 0 else 2

/-- Fields of `ma.drain` (R286, R290, R300). -/
def drainUndef (c : EngCmd) : Nat :=
  let p := c.p.toNat
  let td := BitVec.ofNat 4 (p >>> 28)
  let rm := bitsOf p 25 3
  let sat := bitOf p 24
  let int := td == 10#4 || td == 8#4
  let ok := decide (c.f.toNat < 8) && bitsOf p 15 8 == 0 && !(bitOf p 7) &&
    !(bitOf c.f.toNat 2 && decide (16 ≤ c.x.toNat)) &&
    (td == 1#4 || td == 2#4 || td == 3#4 || td == 4#4 || int) &&
    !(sat && !(td == 3#4 || td == 2#4 || td == 8#4)) && !(int && rm != 0)
  if !ok then 2 else if rm = 7 then 5 else 0

/-- Commands with no operand (R286). -/
def bareUndef (c : EngCmd) : Nat := if c.x == 0 && c.y == 0 && c.z == 0 && c.f == 0 && c.p == 0 then 0 else 2

/-- Copy commands (R293, R300). -/
def dmaUndef (c : EngCmd) : Nat := if c.y == 0 && c.f == 0 && c.p == 0 then 0 else 2

/-- Bead commands other than `bd.pass` (R318, R327); `x` says that X is used. -/
def bdUndef (x : Bool) (c : EngCmd) : Nat :=
  if c.y == 0 && c.z == 0 && c.p == 0 && decide (c.f.toNat < 4) && (x || c.x == 0) then 0 else 2

/-- `bd.pass` (R318, R327). -/
def passUndef (c : EngCmd) : Nat :=
  if c.y == 0 && c.p == 0 && decide (c.f.toNat < 16) && (bitOf c.f.toNat 2 || c.z == 0) then 0 else 2

/-- A bead register that a bead word may write: not ix (R306, R312). -/
def beadDst (d : BitVec 3) : Nat := if d = 3#3 then 1 else 0

/-- The bead float op's destination and rounding mode (R312). -/
def beadFop (d r : BitVec 3) : Nat := if d = 3#3 ∨ 5 ≤ r.toNat then 1 else 0

/-- 0 for an instruction whose operand values the spec allows, else the first failing check of R158 as its UNDEF
sub-cause (a bead word's invalidity of R312 counts as 1). -/
def undefSub : Instr → Nat
  | .fadd _ _ _ f r => fmtUndef f r
  | .fsub _ _ _ f r => fmtUndef f r
  | .fmul _ _ _ f r => fmtUndef f r
  | .fdiv _ _ _ f r => fmtUndef f r
  | .fsqrt _ _ f r => fmtUndef f r
  | .fmin _ _ _ f => fmtOnly f
  | .fmax _ _ _ f => fmtOnly f
  | .fsgnCopy _ _ _ f => fmtOnly f
  | .fsgnNeg _ _ _ f => fmtOnly f
  | .fsgnXor _ _ _ f => fmtOnly f
  | .fcmpEq _ _ _ f => fmtOnly f
  | .fcmpLt _ _ _ f => fmtOnly f
  | .fcmpLe _ _ _ f => fmtOnly f
  | .fcmpUnordered _ _ _ f => fmtOnly f
  | .fclass _ _ f => fmtOnly f
  | .fma _ _ _ f r => fmtUndef f r
  | .fms _ _ _ f r => fmtUndef f r
  | .fnma _ _ _ f r => fmtUndef f r
  | .fcvt _ _ t u r => if !(cvtTy t && cvtTy u) then 2 else if r = 7#3 then 5 else 0
  | .ldUp d a _ _ => if d = a then 2 else 0
  | .amoAdd _ _ _ z => sizeUndef z
  | .amoAnd _ _ _ z => sizeUndef z
  | .amoOr _ _ _ z => sizeUndef z
  | .amoXor _ _ _ z => sizeUndef z
  | .amoMin _ _ _ z => sizeUndef z
  | .amoMax _ _ _ z => sizeUndef z
  | .amoMinn _ _ _ z => sizeUndef z
  | .amoMaxn _ _ _ z => sizeUndef z
  | .amoSwap _ _ _ z => sizeUndef z
  | .cas _ _ _ z => sizeUndef z
  | .redAdd _ _ z => sizeUndef z
  | .redAnd _ _ z => sizeUndef z
  | .redOr _ _ z => sizeUndef z
  | .redXor _ _ z => sizeUndef z
  | .redMin _ _ z => sizeUndef z
  | .redMax _ _ z => sizeUndef z
  | .redMinn _ _ z => sizeUndef z
  | .redMaxn _ _ z => sizeUndef z
  | .msgSend _ b => if 27 ≤ b.toNat then 2 else 0
  | .gbar i => if 4 ≤ i.toNat then 2 else 0
  | .gets _ s => if selReadable s then 0 else 3
  | .puts _ s => if selReadable s then 0 else 3
  | .cbDef _ h _ => if 16 ≤ h.toNat then 2 else 0
  | .cbFill h _ => if 16 ≤ h.toNat then 2 else 0
  | .cbDrain h _ => if 16 ≤ h.toNat then 2 else 0
  | .cbWfill h _ => if 16 ≤ h.toNat then 2 else 0
  | .cbWfree h _ => if 16 ≤ h.toNat then 2 else 0
  | .cbStat _ h => if 16 ≤ h.toNat then 2 else 0
  | .maLdst c => ldstUndef c
  | .maSwap c => bareUndef c
  | .maZero c => if c.x == 0 && c.y == 0 && c.z == 0 && decide (c.f.toNat < 2) && c.p == 0 then 0 else 2
  | .maStream c => streamUndef c
  | .maDrain c => drainUndef c
  | .maEnd c => bareUndef c
  | .maWait c => bareUndef c
  | .dmaCp c => dmaUndef c
  | .dmaGt c => dmaUndef c
  | .dmaSc c => dmaUndef c
  | .dmaColl c => dmaUndef c
  | .bdDecl c => bdUndef true c
  | .bdPass c => passUndef c
  | .bdWake c => bdUndef true c
  | .bdStat c => bdUndef true c
  | .bdFree c => bdUndef false c
  | .vxCopy n => n.undef .unary false
  | .vxAdd n => n.undef .arith true
  | .vxSub n => n.undef .arith true
  | .vxMul n => n.undef .arith true
  | .vxFma n => n.undef .fmaK true
  | .vxMin n => n.undef .minmax false
  | .vxMax n => n.undef .minmax false
  | .vxAbs n => n.undef .unary true
  | .vxNeg n => n.undef .unary true
  | .vxDiv n => n.undef .arith true
  | .vxCvt n => n.undef .cvtK true
  | .vxSel n => n.undef .selK false
  | .vxCmpeq n => n.undef .cmpK false
  | .vxCmplt n => n.undef .cmpK false
  | .vxCmple n => n.undef .cmpK false
  | .vxAnd n => n.undef .bits false
  | .vxOr n => n.undef .bits false
  | .vxXor n => n.undef .bits false
  | .vxShl n => n.undef .shifts false
  | .vxShr n => n.undef .shifts false
  | .vxSra n => n.undef .shifts false
  | .vxQuant n => n.undef .quantK false
  | .vxDequant n => n.undef .dequantK false
  | .vxRsum n => n.undef .rsumK true
  | .vxRmax n => n.undef .rext false
  | .vxRmin n => n.undef .rext false
  | .vxRargmax n => n.undef .rargK false
  | .vxGather n => n.undef .gatherK false
  | .vxIota n => n.undef .iotaK true
  | .vxFill n => n.undef .fillK false
  | .vxExp n => n.undef .func true
  | .vxExp2 n => n.undef .func true
  | .vxExpm1 n => n.undef .func true
  | .vxLog n => n.undef .func true
  | .vxLog2 n => n.undef .func true
  | .vxLog1p n => n.undef .func true
  | .vxSin n => n.undef .func true
  | .vxCos n => n.undef .func true
  | .vxSinpi n => n.undef .func true
  | .vxCospi n => n.undef .func true
  | .vxTanh n => n.undef .func true
  | .vxSigmoid n => n.undef .func true
  | .vxErf n => n.undef .func true
  | .vxAtan n => n.undef .func true
  | .vxSqrt n => n.undef .func true
  | .vxRsqrt n => n.undef .func true
  | .vxRcp n => n.undef .func true
  | .vxXaExp2 n => n.undef .xaK true
  | .vxXaLog2 n => n.undef .xaK true
  | .vxXaRcp n => n.undef .xaK true
  | .vxXaRsqrt n => n.undef .xaK true
  | .vxXaTanh n => n.undef .xaK true
  | .vxXaSigmoid n => n.undef .xaK true
  | .bAdd d _ _ _ => beadDst d
  | .bSub d _ _ _ => beadDst d
  | .bMul d _ _ _ => beadDst d
  | .bMin d _ _ _ => beadDst d
  | .bMax d _ _ _ => beadDst d
  | .bAnd d _ _ _ => beadDst d
  | .bOr d _ _ _ => beadDst d
  | .bXor d _ _ _ => beadDst d
  | .bShiShl d _ _ => beadDst d
  | .bShiShr d _ _ => beadDst d
  | .bShiSra d _ _ => beadDst d
  | .bShiRot d _ _ => beadDst d
  | .bLi d _ => beadDst d
  | .bCmpEq d _ _ _ => beadDst d
  | .bCmpNe d _ _ _ => beadDst d
  | .bCmpLt d _ _ _ => beadDst d
  | .bCmpGe d _ _ _ => beadDst d
  | .bCmpLtn d _ _ _ => beadDst d
  | .bCmpGen d _ _ _ => beadDst d
  | .bSel d _ _ => beadDst d
  | .bFopFadd d _ _ r _ => beadFop d r
  | .bFopFmul d _ _ r _ => beadFop d r
  | .bFopFmin d _ _ r _ => beadFop d r
  | .bFopFmax d _ _ r _ => beadFop d r
  | .bFopFma d _ _ r _ => beadFop d r
  | .bNbData d _ => beadDst d
  | .bNbCtx d _ => beadDst d
  | .bLd d _ _ _ => beadDst d
  | .add _ _ _ | .sub _ _ _ | .mul _ _ _ | .mulh _ _ _ | .mulhn _ _ _ | .div _ _ _
  | .divn _ _ _ | .rem _ _ _ | .remn _ _ _ | .and _ _ _ | .or _ _ _ | .xor _ _ _
  | .andn _ _ _ | .shl _ _ _ | .shr _ _ _ | .sra _ _ _ | .rot _ _ _ | .min _ _ _
  | .max _ _ _ | .minn _ _ _ | .maxn _ _ _ | .clz _ _ | .ctz _ _ | .popc _ _
  | .sel _ _ _ | .cmpEq _ _ _ | .cmpNe _ _ _ | .cmpLt _ _ _ | .cmpGe _ _ _ | .cmpLtn _ _ _
  | .cmpGen _ _ _ | .sxb _ _ | .sxh _ _ | .sxw _ _ | .zxb _ _ | .zxh _ _
  | .zxw _ _ | .addi _ _ _ | .andi _ _ _ | .ori _ _ _ | .xori _ _ _ | .shiShl _ _ _
  | .shiShr _ _ _ | .shiSra _ _ _ | .shiRot _ _ _ | .cmpiEq _ _ _ | .cmpiNe _ _ _ | .cmpiLt _ _ _
  | .cmpiGe _ _ _ | .cmpiLtn _ _ _ | .cmpiGen _ _ _ | .lhi _ _ | .phi _ _ | .ld _ _ _ _
  | .ldSx _ _ _ _ | .st _ _ _ _ | .stUp _ _ _ _ | .ldFeKeep _ _ _ _ | .ldFeTake _ _ _ _ | .stFeFill _ _ _ _
  | .stFePut _ _ _ _ | .stFeClear _ _ _ | .dpref _ _ | .ipref _ _ | .amoFaddF32 _ _ _ | .amoFaddF64 _ _ _
  | .ulogAppAddF32 _ _ _ | .ulogAppAddF64 _ _ _ | .ulogAppAddI32 _ _ _ | .ulogAppAddI64 _ _ _ | .ulogAppMaxF32 _ _ _ | .ulogAppMinF32 _ _ _
  | .ulogAppMaxF64 _ _ _ | .ulogAppMinF64 _ _ _ | .ulogMerge _ | .brEq _ _ _ | .brNe _ _ _ | .brLt _ _ _
  | .brGe _ _ _ | .brLtn _ _ _ | .brGen _ _ _ | .brZ _ _ | .brNz _ _ | .jmp _
  | .call _ | .jr _ | .callr _ | .ret _ | .callx _ _ | .yield
  | .sleep | .halt | .wswap _ _ | .spawn _ _ _ | .wake _ _ | .msgWait
  | .swtrap _ _ | .eret | .dead _ | .getc _ _ | .putc _ _ | .clInit _ _
  | .clArm _ _ | .clAdd _ _ | .clWait _ _ _ | .clTest _ _ | .bSt _ _ _ _ | .bStPut _ _ _ _
  | .bBrNz _ _ | .bBrZ _ _ | .bJmp _ | .bWaitNbdone _ | .bWaitNbpc _ _ | .bWaitFull _
  | .bWaitPhase _ _ | .bWaitPass _ | .bWaitLocal _ | .bSleep | .bWake _ _ | .bDone
  | .bSete _ | .zadd _ _ _ | .zsub _ _ _ | .zmul _ _ _ | .zmulh _ _ _ | .zdiv _ _ _
  | .zdivn _ _ _ | .zrem _ _ _ | .zremn _ _ _ | .zand _ _ _ | .zor _ _ _ | .zxor _ _ _
  | .zshl _ _ _ | .zshr _ _ _ | .zsra _ _ _ | .zslt _ _ _ | .zsltn _ _ _ | .zaddi _ _ _
  | .zandi _ _ _ | .zori _ _ _ | .zxori _ _ _ | .zshli _ _ _ | .zshri _ _ _ | .zsrai _ _ _
  | .zhi _ _ | .zldb _ _ _ | .zldh _ _ _ | .zldw _ _ _ | .zldd _ _ _ | .zstb _ _ _
  | .zsth _ _ _ | .zstw _ _ _ | .zstd _ _ _ | .zbeq _ _ _ | .zbne _ _ _ | .zblt _ _ _
  | .zbge _ _ _ | .zbltn _ _ _ | .zbgen _ _ _ | .zjal _ _ | .zjalr _ _ _ | .zsvcReadNstRecord
  | .zsvcFunctionBegin | .zsvcFunctionEnd | .zsvcProvenanceRecord | .zsvcGrowHeap | .zsvcRelocationRecord | .zsvcCommit
  | .zsvcFail | .zsvcLog | .zhalt | .meterOut _ _ | .idleRotation | .capMeasurement _
  | .thermalAlarm | .powerCapSet _ | .ptsTick | .timestampRebase | .quantumExpiry _ _ | .memoryReturn _ _
  | .homeRequestArrival _ | .parkRelease _ _ | .feDeadline _ _ | .trapEntry _ _ | .serviceResume _ _ | .serviceEscalate _ _
  | .switchComplete _ _ | .emptySlotFill _ _ | .lineFill _ _ | .gangRelease _ | .gbarRelease _ _ | .gangFailure _ _
  | .gangPreempt _ | .gangResume _ _ _ | .gangRetire _ | .unitFailure _ | .settlementComplete _ | .journalCoalesceFlush _ _
  | .sramScrub _ _ | .memoryScrub _ | .shootdownComplete _ | .nestStart _ | .nestComplete _ | .maGrant _
  | .maCommandStart _ _ | .maDrainRow _ | .maCommandComplete _ _ | .maJobAutoClose _ | .copyCommandStart _ | .copyRunWritten _ _
  | .copyCommandComplete _ _ | .collectiveComplete _ _ | .bdPassStart _ | .sweepPass _ | .bdPassComplete _ | .widxObserve _
  | .stageQueueObserve _ _ | .pktNop _ _ _ | .pktLaunch _ _ _ _ | .pktLaunchi _ _ _ _ _ | .pktLoop _ _ _ _ | .pktEndloop _ _ _
  | .pktIf _ _ _ _ _ | .pktWaitmem _ _ _ _ _ | .waitmemPoll _ _ | .waitmemTimeout _ _ | .pktSignal _ _ _ _ _ | .pktCopy _ _ _ _ _
  | .pktStage _ _ _ _ | .pktShoot _ _ _ _ | .stageLaunch _ _ | .packetComplete _ _ _ | .starvationGuard _ | .queueFaultResolved _ _
  | .queueRestart _ | .queueCreate _ | .serviceTokenSet _ _ | .remotePacket _ _ | .residencyReport | .worldCreate _
  | .worldDestroy _ | .coreScrub _ _ | .fabricRequest _ | .fabricAnswer _ _ _ _ | .cipherCommand _ | .keySlotInstall _
  | .keySlotRevoke _ _ | .revokeComplete _ _ | .linkAuthFailure _ | .linkCounterExhaustion _ | .translationRequest _ _ | .imageLoad _
  | .imageUnload _ _ | .quoteRequest _ _ | .journalRead _ _ _ | .configurationRecord _ _ | .boot _ | .thermalAlarmClear
  | .linkRekeyed _ | .linkFlitFailsAfterRetries _ | .engineFaultResolved _ _ | .bdDeclComplete _ _ | .formatWindowWrite _ _ | .fabricWindowWrite _ _ _
  | .exportWrite _ _ => 0

/-- An instruction whose operand values the spec allows. -/
def wellFormed (i : Instr) : Bool := undefSub i == 0

end Sys2Proof
end

