-- ==== Sys2Proof/Decode.lean ====
section
/-! DEFINITION. Decoding of native words, bootstrap words and bead words, total on any words and rejecting by the check
that fails (R158, R338, R312); after it the encoder, written from the same encoding tables. Definitions that build constructors
beyond the code generator's limit on constructor tags are noncomputable: the kernel evaluates them. -/

namespace Sys2Proof

open Sys2Proof.Machine

/-- What a decoder answers: an instruction, or the number of the failing check. For native words the number is the
UNDEF sub-cause of R158; for bootstrap words the BURROW_BOUNDS sub-cause of R345; for bead words 1. -/
inductive Decoded where
  | ok (i : Instr)
  | bad (sub : Nat)
  deriving DecidableEq, Repr

/-- Field d, s or the first B-format register, bits 25:21 (R154). -/
def fieldD (w : IWord) : BitVec 5 := w.extractLsb' 21 5
/-- Field a, bits 20:16 (R154). -/
def fieldA (w : IWord) : BitVec 5 := w.extractLsb' 16 5
/-- Field b, bits 15:11 (R154). -/
def fieldB (w : IWord) : BitVec 5 := w.extractLsb' 11 5
/-- The function field of format A, bits 10:0 (R154). -/
def fieldFn (w : IWord) : BitVec 11 := w.extractLsb' 0 11
/-- The 16-bit immediate (R154). -/
def fieldImm (w : IWord) : BitVec 16 := w.extractLsb' 0 16
/-- The size field of format M (R154). -/
def fieldSz (w : IWord) : BitVec 2 := w.extractLsb' 14 2
/-- The mode field of format M (R154). -/
def fieldMode (w : IWord) : BitVec 2 := w.extractLsb' 12 2
/-- The offset of format M and the displacement of format B (R154). -/
def fieldLow12 (w : IWord) : BitVec 12 := w.extractLsb' 0 12
/-- Field format of the floating-point groups (R161). -/
def fieldFmt (w : IWord) : BitVec 3 := w.extractLsb' 8 3
/-- Field rm of the floating-point groups (R161). -/
def fieldRm (w : IWord) : BitVec 3 := w.extractLsb' 0 3
/-- The major opcode, bits 31:26 (R153). -/
def major (w : IWord) : Nat := (w.extractLsb' 26 6).toNat

/-- Finish a decode: reserved bits first, then the checks on the operand values (R158 checks 3 to 5). -/
def finish (reservedZero : Bool) (i : Instr) : Decoded :=
  if !reservedZero then .bad 2
  else match undefSub i with
    | 0 => .ok i
    | n => .bad n

/-- Major 0x01 (R160). -/
def decodeAlu (w : IWord) : Decoded :=
  let d := fieldD w
  let a := fieldA w
  let b := fieldB w
  let hi := w.extractLsb' 6 5 == 0#5
  match (w.extractLsb' 0 6).toNat with
  | 0 => finish (hi) (.add d a b)
  | 1 => finish (hi) (.sub d a b)
  | 2 => finish (hi) (.mul d a b)
  | 3 => finish (hi) (.mulh d a b)
  | 4 => finish (hi) (.mulhn d a b)
  | 5 => finish (hi) (.div d a b)
  | 6 => finish (hi) (.divn d a b)
  | 7 => finish (hi) (.rem d a b)
  | 8 => finish (hi) (.remn d a b)
  | 9 => finish (hi) (.and d a b)
  | 10 => finish (hi) (.or d a b)
  | 11 => finish (hi) (.xor d a b)
  | 12 => finish (hi) (.andn d a b)
  | 13 => finish (hi) (.shl d a b)
  | 14 => finish (hi) (.shr d a b)
  | 15 => finish (hi) (.sra d a b)
  | 16 => finish (hi) (.rot d a b)
  | 17 => finish (hi) (.min d a b)
  | 18 => finish (hi) (.max d a b)
  | 19 => finish (hi) (.minn d a b)
  | 20 => finish (hi) (.maxn d a b)
  | 21 => finish (hi && b == 0#5) (.clz d a)
  | 22 => finish (hi && b == 0#5) (.ctz d a)
  | 23 => finish (hi && b == 0#5) (.popc d a)
  | 24 => finish (hi) (.sel d a b)
  | 32 => finish (hi) (.cmpEq d a b)
  | 33 => finish (hi) (.cmpNe d a b)
  | 34 => finish (hi) (.cmpLt d a b)
  | 35 => finish (hi) (.cmpGe d a b)
  | 36 => finish (hi) (.cmpLtn d a b)
  | 37 => finish (hi) (.cmpGen d a b)
  | 40 => finish (hi && b == 0#5) (.sxb d a)
  | 41 => finish (hi && b == 0#5) (.sxh d a)
  | 42 => finish (hi && b == 0#5) (.sxw d a)
  | 43 => finish (hi && b == 0#5) (.zxb d a)
  | 44 => finish (hi && b == 0#5) (.zxh d a)
  | 45 => finish (hi && b == 0#5) (.zxw d a)
  | _ => .bad 1

/-- Majors 0x02 to 0x07 (R157, R183). -/
def decodeImm (m : Nat) (w : IWord) : Decoded :=
  let d := fieldD w
  let a := fieldA w
  let i := fieldImm w
  match m with
  | 2 => .ok (.addi d a i)
  | 3 => .ok (.andi d a i)
  | 4 => .ok (.ori d a i)
  | 5 => .ok (.xori d a i)
  | 6 =>
    let z := w.extractLsb' 8 8 == 0#8
    let n := w.extractLsb' 0 6
    match (w.extractLsb' 6 2).toNat with
    | 0 => finish z (.shiShl d a n)
    | 1 => finish z (.shiShr d a n)
    | 2 => finish z (.shiSra d a n)
    | _ => finish z (.shiRot d a n)
  | _ =>
    let n := fieldLow12 w
    match (w.extractLsb' 12 4).toNat with
    | 0 => .ok (.cmpiEq d a n)
    | 1 => .ok (.cmpiNe d a n)
    | 2 => .ok (.cmpiLt d a n)
    | 3 => .ok (.cmpiGe d a n)
    | 4 => .ok (.cmpiLtn d a n)
    | 5 => .ok (.cmpiGen d a n)
    | _ => .bad 2

/-- Majors 0x0A to 0x0C (R161). -/
def decodeFp (m : Nat) (w : IWord) : Decoded :=
  let d := fieldD w
  let a := fieldA w
  let b := fieldB w
  let f := fieldFmt w
  let r := fieldRm w
  let op := (w.extractLsb' 3 5).toNat
  if m = 12 then finish (b == 0#5) (.fcvt d a (w.extractLsb' 7 4) (w.extractLsb' 3 4) r)
  else if m = 11 then
    match op with
    | 0 => finish true (.fma d a b f r)
    | 1 => finish true (.fms d a b f r)
    | 2 => finish true (.fnma d a b f r)
    | _ => .bad 1
  else
    match op with
    | 0 => finish true (.fadd d a b f r)
    | 1 => finish true (.fsub d a b f r)
    | 2 => finish true (.fmul d a b f r)
    | 3 => finish true (.fdiv d a b f r)
    | 4 => finish (b == 0#5) (.fsqrt d a f r)
    | 5 => finish (r == 0#3) (.fmin d a b f)
    | 6 => finish (r == 0#3) (.fmax d a b f)
    | 7 =>
      match r.toNat with
      | 0 => finish true (.fsgnCopy d a b f)
      | 1 => finish true (.fsgnNeg d a b f)
      | 2 => finish true (.fsgnXor d a b f)
      | _ => .bad 2
    | 8 =>
      match r.toNat with
      | 0 => finish true (.fcmpEq d a b f)
      | 1 => finish true (.fcmpLt d a b f)
      | 2 => finish true (.fcmpLe d a b f)
      | 3 => finish true (.fcmpUnordered d a b f)
      | _ => .bad 2
    | 9 => finish (b == 0#5 && r == 0#3) (.fclass d a f)
    | _ => .bad 1

/-- Majors 0x10 to 0x14 (R154, R157). -/
def decodeMem (m : Nat) (w : IWord) : Decoded :=
  let d := fieldD w
  let a := fieldA w
  let z := fieldSz w
  let off := fieldLow12 w
  let mode := (fieldMode w).toNat
  match m with
  | 16 =>
    match mode with
    | 0 => finish true (.ld d a z off)
    | 1 => finish true (.ldSx d a z off)
    | 2 => finish true (.ldUp d a z off)
    | _ => .bad 2
  | 17 =>
    match mode with
    | 0 => finish true (.st d a z off)
    | 2 => finish true (.stUp d a z off)
    | _ => .bad 2
  | 18 =>
    match mode with
    | 0 => finish true (.ldFeKeep d a z off)
    | 1 => finish true (.ldFeTake d a z off)
    | _ => .bad 2
  | 19 =>
    match mode with
    | 0 => finish true (.stFeFill d a z off)
    | 1 => finish true (.stFePut d a z off)
    | 2 => finish (d == 0#5) (.stFeClear a z off)
    | _ => .bad 2
  | _ =>
    match mode with
    | 0 => finish (d == 0#5 && z == 0#2) (.dpref a off)
    | 1 => finish (d == 0#5 && z == 0#2) (.ipref a off)
    | _ => .bad 2

/-- Major 0x15 (R162). -/
def decodeAmo (w : IWord) : Decoded :=
  let d := fieldD w
  let a := fieldA w
  let b := fieldB w
  let hi := w.extractLsb' 6 5 == 0#5
  let z := w.extractLsb' 4 2
  match (w.extractLsb' 0 4).toNat with
  | 0 => finish hi (.amoAdd d a b z)
  | 1 => finish hi (.amoAnd d a b z)
  | 2 => finish hi (.amoOr d a b z)
  | 3 => finish hi (.amoXor d a b z)
  | 4 => finish hi (.amoMin d a b z)
  | 5 => finish hi (.amoMax d a b z)
  | 6 => finish hi (.amoMinn d a b z)
  | 7 => finish hi (.amoMaxn d a b z)
  | 8 => finish hi (.amoSwap d a b z)
  | 9 => finish (hi && z == 0#2) (.amoFaddF32 d a b)
  | 10 => finish (hi && z == 1#2) (.amoFaddF64 d a b)
  | _ => .bad 1

/-- Major 0x17 (R162). -/
def decodeRed (w : IWord) : Decoded :=
  let a := fieldA w
  let b := fieldB w
  let hi := w.extractLsb' 6 5 == 0#5 && fieldD w == 0#5
  let z := w.extractLsb' 4 2
  match (w.extractLsb' 0 4).toNat with
  | 0 => finish hi (.redAdd a b z)
  | 1 => finish hi (.redAnd a b z)
  | 2 => finish hi (.redOr a b z)
  | 3 => finish hi (.redXor a b z)
  | 4 => finish hi (.redMin a b z)
  | 5 => finish hi (.redMax a b z)
  | 6 => finish hi (.redMinn a b z)
  | 7 => finish hi (.redMaxn a b z)
  | _ => .bad 1

/-- Major 0x18 (R162). -/
def decodeUlog (w : IWord) : Decoded :=
  let a := fieldA w
  let b := fieldB w
  let l := w.extractLsb' 0 4
  let op := (w.extractLsb' 5 4).toNat
  let hi := w.extractLsb' 9 2 == 0#2 && fieldD w == 0#5
  if w.getLsbD 4 then finish (hi && op == 0 && a == 0#5 && b == 0#5) (.ulogMerge l)
  else
    match op with
    | 0 => finish hi (.ulogAppAddF32 a b l)
    | 1 => finish hi (.ulogAppAddF64 a b l)
    | 2 => finish hi (.ulogAppAddI32 a b l)
    | 3 => finish hi (.ulogAppAddI64 a b l)
    | 4 => finish hi (.ulogAppMaxF32 a b l)
    | 5 => finish hi (.ulogAppMinF32 a b l)
    | 6 => finish hi (.ulogAppMaxF64 a b l)
    | 7 => finish hi (.ulogAppMinF64 a b l)
    | _ => .bad 1

/-- Majors 0x20 to 0x24 (R157, R162). -/
def decodeTransfer (m : Nat) (w : IWord) : Decoded :=
  let d := fieldD w
  let a := fieldA w
  let b := fieldB w
  match m with
  | 32 =>
    let disp := fieldLow12 w
    match (w.extractLsb' 12 4).toNat with
    | 0 => finish true (.brEq d a disp)
    | 1 => finish true (.brNe d a disp)
    | 2 => finish true (.brLt d a disp)
    | 3 => finish true (.brGe d a disp)
    | 4 => finish true (.brLtn d a disp)
    | 5 => finish true (.brGen d a disp)
    | 6 => finish (a == 0#5) (.brZ d disp)
    | 7 => finish (a == 0#5) (.brNz d disp)
    | _ => .bad 2
  | 33 => .ok (.jmp (w.extractLsb' 0 26))
  | 34 => .ok (.call (w.extractLsb' 0 26))
  | 35 =>
    let z := d == 0#5 && b == 0#5 && w.extractLsb' 2 9 == 0#9
    match (w.extractLsb' 0 2).toNat with
    | 0 => finish z (.jr a)
    | 1 => finish z (.callr a)
    | 2 => finish z (.ret a)
    | _ => .bad 1
  | _ => finish (d == 0#5) (.callx a (fieldImm w))

/-- Major 0x28 (R163, R226). -/
def decodeThread (w : IWord) : Decoded :=
  let d := fieldD w
  let a := fieldA w
  let b := fieldB w
  let zd := d == 0#5
  let za := a == 0#5
  let zb := b == 0#5
  match (fieldFn w).toNat with
  | 0 => finish (zd && za && zb) .yield
  | 1 => finish (zd && za && zb) .sleep
  | 2 => finish (zd && za && zb) .halt
  | 3 => finish zb (.wswap d a)
  | 4 => finish true (.spawn d a b)
  | 5 => finish zb (.wake d a)
  | 6 => finish zd (.msgSend a b)
  | 7 => finish (zd && za && zb) .msgWait
  | 8 => finish (zd && zb) (.gbar a)
  | 9 => finish zd (.swtrap a b)
  | 10 => finish (zd && za && zb) .eret
  | 11 => finish (zd && zb) (.dead a)
  | _ => .bad 1

/-- Majors 0x29 and 0x2A (R157). -/
def decodeRegs (m : Nat) (w : IWord) : Decoded :=
  let d := fieldD w
  let za := fieldA w == 0#5
  if m = 41 then
    let z := za && w.extractLsb' 12 3 == 0#3
    if w.getLsbD 15 then finish z (.puts d (fieldLow12 w)) else finish z (.gets d (fieldLow12 w))
  else
    let z := za && w.extractLsb' 4 11 == 0#11
    if w.getLsbD 15 then finish z (.putc d (w.extractLsb' 0 4)) else finish z (.getc d (w.extractLsb' 0 4))

/-- Majors 0x2B and 0x33 (R163, R223, R257). -/
def decodeClaspCb (m : Nat) (w : IWord) : Decoded :=
  let d := fieldD w
  let a := fieldA w
  let b := fieldB w
  let zd := d == 0#5
  let zb := b == 0#5
  let fn := (fieldFn w).toNat
  if m = 43 then
    match fn with
    | 0 => finish zd (.clInit a b)
    | 1 => finish zd (.clArm a b)
    | 2 => finish zd (.clAdd a b)
    | 3 => finish true (.clWait d a b)
    | 4 => finish zb (.clTest d a)
    | _ => .bad 1
  else
    match fn with
    | 0 => finish true (.cbDef d a b)
    | 1 => finish zd (.cbFill a b)
    | 2 => finish zd (.cbDrain a b)
    | 3 => finish zd (.cbWfill a b)
    | 4 => finish zd (.cbWfree a b)
    | 5 => finish zb (.cbStat d a)
    | _ => .bad 1

/-- The operand fields of a 64-bit engine command (R155). -/
def engCmd (w w1 : IWord) : EngCmd := ⟨fieldA w, fieldB w, w.extractLsb' 6 5, w.extractLsb' 0 6, w1⟩

/-- Majors 0x30 to 0x32 (R164). -/
noncomputable def decodeEngine (m : Nat) (w w1 : IWord) : Decoded :=
  let c := engCmd w w1
  let sub := (fieldD w).toNat
  match m with
  | 48 =>
    match sub with
    | 0 => finish true (.maLdst c)
    | 1 => finish true (.maSwap c)
    | 2 => finish true (.maZero c)
    | 3 => finish true (.maStream c)
    | 4 => finish true (.maDrain c)
    | 5 => finish true (.maEnd c)
    | 6 => finish true (.maWait c)
    | _ => .bad 1
  | 49 =>
    match sub with
    | 0 => finish true (.dmaCp c)
    | 1 => finish true (.dmaGt c)
    | 2 => finish true (.dmaSc c)
    | 3 => finish true (.dmaColl c)
    | _ => .bad 1
  | _ =>
    match sub with
    | 0 => finish true (.bdDecl c)
    | 1 => finish true (.bdPass c)
    | 2 => finish true (.bdWake c)
    | 3 => finish true (.bdStat c)
    | 4 => finish true (.bdFree c)
    | _ => .bad 1

/-- Byte `k` of a stride word, byte 0 the most significant (R156). -/
def strideByte (w : IWord) (k : Nat) : BitVec 8 := w.extractLsb' (24 - 8 * k) 8

/-- The fields of an `lnest` (R156). -/
def nestOf (w0 w1 w2 w3 w4 w5 w6 w7 : IWord) : Nest where
  td := w0.extractLsb' 14 4
  ta := w0.extractLsb' 10 4
  tb := w0.extractLsb' 6 4
  rm := w0.extractLsb' 3 3
  sat := w0.extractLsb' 2 1
  mp := w0.extractLsb' 1 1
  me := w0.extractLsb' 0 1
  bd := w1.extractLsb' 27 5
  ba := w1.extractLsb' 22 5
  bb := w1.extractLsb' 17 5
  mb := w1.extractLsb' 12 5
  red := w1.extractLsb' 7 5
  cbd := w1.extractLsb' 6 1
  cba := w1.extractLsb' 5 1
  cbb := w1.extractLsb' 4 1
  x0 := w2.extractLsb' 20 12
  x1 := w2.extractLsb' 8 12
  x2 := w2.extractLsb' 0 8 ++ w3.extractLsb' 28 4
  x3 := w3.extractLsb' 16 12
  x4 := w3.extractLsb' 4 12
  scd := w3.extractLsb' 2 2
  sca := w3.extractLsb' 0 2
  scb := w7.extractLsb' 6 2
  sd0 := strideByte w4 0
  sd1 := strideByte w4 1
  sd2 := strideByte w4 2
  sd3 := strideByte w4 3
  sd4 := strideByte w5 0
  sa0 := strideByte w5 1
  sa1 := strideByte w5 2
  sa2 := strideByte w5 3
  sa3 := strideByte w6 0
  sa4 := strideByte w6 1
  sb0 := strideByte w6 2
  sb1 := strideByte w6 3
  sb2 := strideByte w7 0
  sb3 := strideByte w7 1
  sb4 := strideByte w7 2

/-- The vop codes of R165. -/
noncomputable def vopInstr (vop : Nat) (n : Nest) : Option Instr :=
  match vop with
  | 0 => some (.vxCopy n)
  | 1 => some (.vxAdd n)
  | 2 => some (.vxSub n)
  | 3 => some (.vxMul n)
  | 4 => some (.vxFma n)
  | 5 => some (.vxMin n)
  | 6 => some (.vxMax n)
  | 7 => some (.vxAbs n)
  | 8 => some (.vxNeg n)
  | 9 => some (.vxDiv n)
  | 10 => some (.vxCvt n)
  | 11 => some (.vxSel n)
  | 12 => some (.vxCmpeq n)
  | 13 => some (.vxCmplt n)
  | 14 => some (.vxCmple n)
  | 15 => some (.vxAnd n)
  | 16 => some (.vxOr n)
  | 17 => some (.vxXor n)
  | 18 => some (.vxShl n)
  | 19 => some (.vxShr n)
  | 20 => some (.vxSra n)
  | 21 => some (.vxQuant n)
  | 22 => some (.vxDequant n)
  | 23 => some (.vxRsum n)
  | 24 => some (.vxRmax n)
  | 25 => some (.vxRmin n)
  | 26 => some (.vxRargmax n)
  | 27 => some (.vxGather n)
  | 28 => some (.vxIota n)
  | 29 => some (.vxFill n)
  | 64 => some (.vxExp n)
  | 65 => some (.vxExp2 n)
  | 66 => some (.vxExpm1 n)
  | 67 => some (.vxLog n)
  | 68 => some (.vxLog2 n)
  | 69 => some (.vxLog1p n)
  | 70 => some (.vxSin n)
  | 71 => some (.vxCos n)
  | 72 => some (.vxSinpi n)
  | 73 => some (.vxCospi n)
  | 74 => some (.vxTanh n)
  | 75 => some (.vxSigmoid n)
  | 76 => some (.vxErf n)
  | 77 => some (.vxAtan n)
  | 78 => some (.vxSqrt n)
  | 79 => some (.vxRsqrt n)
  | 80 => some (.vxRcp n)
  | 96 => some (.vxXaExp2 n)
  | 97 => some (.vxXaLog2 n)
  | 98 => some (.vxXaRcp n)
  | 99 => some (.vxXaRsqrt n)
  | 100 => some (.vxXaTanh n)
  | 101 => some (.vxXaSigmoid n)
  | _ => none

/-- Major 0x3C (R156, R276). -/
noncomputable def decodeNest (ws : List IWord) : Decoded :=
  match ws with
  | [w0, w1, w2, w3, w4, w5, w6, w7] =>
    match vopInstr (w0.extractLsb' 18 8).toNat (nestOf w0 w1 w2 w3 w4 w5 w6 w7) with
    | none => .bad 1
    | some i => finish (w1.extractLsb' 0 4 == 0#4 && w7.extractLsb' 0 6 == 0#6) i
  | _ => .bad 1

/-- Length in words of an instruction, from its major opcode alone (R153). -/
def lengthOf (w : IWord) : Nat :=
  let m := major w
  if m = 0x30 ∨ m = 0x31 ∨ m = 0x32 then 2 else if m = 0x3C then 8 else 1

/-- ILEN of the trap record (R153). -/
def ilenOf (w : IWord) : Nat :=
  let n := lengthOf w
  if n = 2 then 1 else if n = 8 then 2 else 0

/-- A native instruction of 1, 2 or 8 words: its first word and the words after it, in the order of checks of R158. -/
noncomputable def decodeNative (w : IWord) (rest : List IWord) : Decoded :=
  match major w with
  | 0 => .bad 4
  | 1 => decodeAlu w
  | 2 => decodeImm 2 w
  | 3 => decodeImm 3 w
  | 4 => decodeImm 4 w
  | 5 => decodeImm 5 w
  | 6 => decodeImm 6 w
  | 7 => decodeImm 7 w
  | 8 => finish (!w.getLsbD 20) (.lhi (fieldD w) (w.extractLsb' 0 20))
  | 9 => finish (!w.getLsbD 20) (.phi (fieldD w) (w.extractLsb' 0 20))
  | 10 => decodeFp 10 w
  | 11 => decodeFp 11 w
  | 12 => decodeFp 12 w
  | 16 => decodeMem 16 w
  | 17 => decodeMem 17 w
  | 18 => decodeMem 18 w
  | 19 => decodeMem 19 w
  | 20 => decodeMem 20 w
  | 21 => decodeAmo w
  | 22 => finish (w.extractLsb' 6 5 == 0#5 && w.extractLsb' 0 4 == 0#4)
      (.cas (fieldD w) (fieldA w) (fieldB w) (w.extractLsb' 4 2))
  | 23 => decodeRed w
  | 24 => decodeUlog w
  | 32 => decodeTransfer 32 w
  | 33 => decodeTransfer 33 w
  | 34 => decodeTransfer 34 w
  | 35 => decodeTransfer 35 w
  | 36 => decodeTransfer 36 w
  | 40 => decodeThread w
  | 41 => decodeRegs 41 w
  | 42 => decodeRegs 42 w
  | 43 => decodeClaspCb 43 w
  | 48 => decodeEngine 48 w (rest.head?.getD 0#32)
  | 49 => decodeEngine 49 w (rest.head?.getD 0#32)
  | 50 => decodeEngine 50 w (rest.head?.getD 0#32)
  | 51 => decodeClaspCb 51 w
  | 60 => decodeNest (w :: (rest ++ List.replicate 7 0#32).take 7)
  | 63 => .bad 4
  | _ => .bad 1

/-! ## Bootstrap words (R331, R332, R364) -/

/-- Field d, s or the first B register of a bootstrap word, bits 25:22 (R331). -/
def zD (w : IWord) : BitVec 4 := w.extractLsb' 22 4
/-- Field a or the second B register, bits 21:18 (R331). -/
def zA (w : IWord) : BitVec 4 := w.extractLsb' 18 4
/-- Field b, bits 17:14 (R331). -/
def zB (w : IWord) : BitVec 4 := w.extractLsb' 14 4
/-- The 18-bit immediate (R331). -/
def zImm (w : IWord) : BitVec 18 := w.extractLsb' 0 18

/-- A bootstrap word with its reserved bits zero, else BURROW_BOUNDS 0x05 (R338). -/
def zFinish (reservedZero : Bool) (i : Instr) : Decoded := if reservedZero then .ok i else .bad 5

/-- A bootstrap word (R332); illegal words give 5, a service above 8 gives 6 (R364). -/
noncomputable def decodeZbs (w : IWord) : Decoded :=
  let d := zD w
  let a := zA w
  let b := zB w
  let i := zImm w
  let fn0 := w.extractLsb' 0 14 == 0#14
  let sh0 := w.extractLsb' 6 12 == 0#12
  match major w with
  | 1 => zFinish fn0 (.zadd d a b)
  | 2 => zFinish fn0 (.zsub d a b)
  | 3 => zFinish fn0 (.zmul d a b)
  | 4 => zFinish fn0 (.zmulh d a b)
  | 5 => zFinish fn0 (.zdiv d a b)
  | 6 => zFinish fn0 (.zdivn d a b)
  | 7 => zFinish fn0 (.zrem d a b)
  | 8 => zFinish fn0 (.zremn d a b)
  | 9 => zFinish fn0 (.zand d a b)
  | 10 => zFinish fn0 (.zor d a b)
  | 11 => zFinish fn0 (.zxor d a b)
  | 12 => zFinish fn0 (.zshl d a b)
  | 13 => zFinish fn0 (.zshr d a b)
  | 14 => zFinish fn0 (.zsra d a b)
  | 15 => zFinish fn0 (.zslt d a b)
  | 16 => zFinish fn0 (.zsltn d a b)
  | 17 => .ok (.zaddi d a i)
  | 18 => .ok (.zandi d a i)
  | 19 => .ok (.zori d a i)
  | 20 => .ok (.zxori d a i)
  | 21 => zFinish sh0 (.zshli d a (w.extractLsb' 0 6))
  | 22 => zFinish sh0 (.zshri d a (w.extractLsb' 0 6))
  | 23 => zFinish sh0 (.zsrai d a (w.extractLsb' 0 6))
  | 24 => .ok (.zhi d (w.extractLsb' 0 22))
  | 25 => .ok (.zldb d a i)
  | 26 => .ok (.zldh d a i)
  | 27 => .ok (.zldw d a i)
  | 28 => .ok (.zldd d a i)
  | 29 => .ok (.zstb d a i)
  | 30 => .ok (.zsth d a i)
  | 31 => .ok (.zstw d a i)
  | 32 => .ok (.zstd d a i)
  | 33 => .ok (.zbeq d a i)
  | 34 => .ok (.zbne d a i)
  | 35 => .ok (.zblt d a i)
  | 36 => .ok (.zbge d a i)
  | 37 => .ok (.zbltn d a i)
  | 38 => .ok (.zbgen d a i)
  | 39 => .ok (.zjal d (w.extractLsb' 0 22))
  | 40 => .ok (.zjalr d a i)
  | 41 =>
    if d == 0#4 && a == 0#4 then
      match i.toNat with
      | 0 => .ok .zsvcReadNstRecord
      | 1 => .ok .zsvcFunctionBegin
      | 2 => .ok .zsvcFunctionEnd
      | 3 => .ok .zsvcProvenanceRecord
      | 4 => .ok .zsvcGrowHeap
      | 5 => .ok .zsvcRelocationRecord
      | 6 => .ok .zsvcCommit
      | 7 => .ok .zsvcFail
      | 8 => .ok .zsvcLog
      | _ => .bad 6
    else .bad 5
  | 42 => zFinish (w.extractLsb' 0 26 == 0#26) .zhalt
  | _ => .bad 5

/-! ## Bead words (R307, R312) -/

/-- The bead register field dst, bits 26:24 (R307). -/
def bD (w : IWord) : BitVec 3 := w.extractLsb' 24 3
/-- The bead register field src1, bits 23:21 (R307). -/
def bS (w : IWord) : BitVec 3 := w.extractLsb' 21 3
/-- The bead register field src2, bits 20:18 (R307). -/
def bT (w : IWord) : BitVec 3 := w.extractLsb' 18 3
/-- The 18-bit immediate of a bead word (R307). -/
def bImm (w : IWord) : BitVec 18 := w.extractLsb' 0 18

/-- The bead words by the names of their instructions (R307): a visit runs these alone (R305). -/
inductive BeadWord where
  | bAdd (d : BitVec 3) (s : BitVec 3) (t : BitVec 3) (i : BitVec 18)
  | bSub (d : BitVec 3) (s : BitVec 3) (t : BitVec 3) (i : BitVec 18)
  | bMul (d : BitVec 3) (s : BitVec 3) (t : BitVec 3) (i : BitVec 18)
  | bMin (d : BitVec 3) (s : BitVec 3) (t : BitVec 3) (i : BitVec 18)
  | bMax (d : BitVec 3) (s : BitVec 3) (t : BitVec 3) (i : BitVec 18)
  | bAnd (d : BitVec 3) (s : BitVec 3) (t : BitVec 3) (i : BitVec 18)
  | bOr (d : BitVec 3) (s : BitVec 3) (t : BitVec 3) (i : BitVec 18)
  | bXor (d : BitVec 3) (s : BitVec 3) (t : BitVec 3) (i : BitVec 18)
  | bShiShl (d : BitVec 3) (s : BitVec 3) (n : BitVec 6)
  | bShiShr (d : BitVec 3) (s : BitVec 3) (n : BitVec 6)
  | bShiSra (d : BitVec 3) (s : BitVec 3) (n : BitVec 6)
  | bShiRot (d : BitVec 3) (s : BitVec 3) (n : BitVec 6)
  | bLi (d : BitVec 3) (i : BitVec 18)
  | bCmpEq (d : BitVec 3) (s : BitVec 3) (t : BitVec 3) (i : BitVec 15)
  | bCmpNe (d : BitVec 3) (s : BitVec 3) (t : BitVec 3) (i : BitVec 15)
  | bCmpLt (d : BitVec 3) (s : BitVec 3) (t : BitVec 3) (i : BitVec 15)
  | bCmpGe (d : BitVec 3) (s : BitVec 3) (t : BitVec 3) (i : BitVec 15)
  | bCmpLtn (d : BitVec 3) (s : BitVec 3) (t : BitVec 3) (i : BitVec 15)
  | bCmpGen (d : BitVec 3) (s : BitVec 3) (t : BitVec 3) (i : BitVec 15)
  | bSel (d : BitVec 3) (s : BitVec 3) (t : BitVec 3)
  | bFopFadd (d : BitVec 3) (s : BitVec 3) (t : BitVec 3) (r : BitVec 3) (f : BitVec 1)
  | bFopFmul (d : BitVec 3) (s : BitVec 3) (t : BitVec 3) (r : BitVec 3) (f : BitVec 1)
  | bFopFmin (d : BitVec 3) (s : BitVec 3) (t : BitVec 3) (r : BitVec 3) (f : BitVec 1)
  | bFopFmax (d : BitVec 3) (s : BitVec 3) (t : BitVec 3) (r : BitVec 3) (f : BitVec 1)
  | bFopFma (d : BitVec 3) (s : BitVec 3) (t : BitVec 3) (r : BitVec 3) (f : BitVec 1)
  | bNbData (d : BitVec 3) (o : BitVec 16)
  | bNbCtx (d : BitVec 3) (o : BitVec 16)
  | bLd (d : BitVec 3) (s : BitVec 3) (z : BitVec 2) (i : BitVec 16)
  | bSt (s : BitVec 3) (t : BitVec 3) (z : BitVec 2) (i : BitVec 16)
  | bStPut (s : BitVec 3) (t : BitVec 3) (z : BitVec 2) (i : BitVec 16)
  | bBrNz (s : BitVec 3) (p : BitVec 8)
  | bBrZ (s : BitVec 3) (p : BitVec 8)
  | bJmp (p : BitVec 8)
  | bWaitNbdone (s : BitVec 3)
  | bWaitNbpc (s : BitVec 3) (p : BitVec 8)
  | bWaitFull (s : BitVec 3)
  | bWaitPhase (s : BitVec 3) (i : BitVec 18)
  | bWaitPass (s : BitVec 3)
  | bWaitLocal (s : BitVec 3)
  | bSleep
  | bWake (s : BitVec 3) (i : BitVec 18)
  | bDone
  | bSete (s : BitVec 3)
  deriving DecidableEq, Repr

/-- The instruction a bead word is. -/
noncomputable def BeadWord.instr : BeadWord → Instr
  | .bAdd d s t i => .bAdd d s t i
  | .bSub d s t i => .bSub d s t i
  | .bMul d s t i => .bMul d s t i
  | .bMin d s t i => .bMin d s t i
  | .bMax d s t i => .bMax d s t i
  | .bAnd d s t i => .bAnd d s t i
  | .bOr d s t i => .bOr d s t i
  | .bXor d s t i => .bXor d s t i
  | .bShiShl d s n => .bShiShl d s n
  | .bShiShr d s n => .bShiShr d s n
  | .bShiSra d s n => .bShiSra d s n
  | .bShiRot d s n => .bShiRot d s n
  | .bLi d i => .bLi d i
  | .bCmpEq d s t i => .bCmpEq d s t i
  | .bCmpNe d s t i => .bCmpNe d s t i
  | .bCmpLt d s t i => .bCmpLt d s t i
  | .bCmpGe d s t i => .bCmpGe d s t i
  | .bCmpLtn d s t i => .bCmpLtn d s t i
  | .bCmpGen d s t i => .bCmpGen d s t i
  | .bSel d s t => .bSel d s t
  | .bFopFadd d s t r f => .bFopFadd d s t r f
  | .bFopFmul d s t r f => .bFopFmul d s t r f
  | .bFopFmin d s t r f => .bFopFmin d s t r f
  | .bFopFmax d s t r f => .bFopFmax d s t r f
  | .bFopFma d s t r f => .bFopFma d s t r f
  | .bNbData d o => .bNbData d o
  | .bNbCtx d o => .bNbCtx d o
  | .bLd d s z i => .bLd d s z i
  | .bSt s t z i => .bSt s t z i
  | .bStPut s t z i => .bStPut s t z i
  | .bBrNz s p => .bBrNz s p
  | .bBrZ s p => .bBrZ s p
  | .bJmp p => .bJmp p
  | .bWaitNbdone s => .bWaitNbdone s
  | .bWaitNbpc s p => .bWaitNbpc s p
  | .bWaitFull s => .bWaitFull s
  | .bWaitPhase s i => .bWaitPhase s i
  | .bWaitPass s => .bWaitPass s
  | .bWaitLocal s => .bWaitLocal s
  | .bSleep => .bSleep
  | .bWake s i => .bWake s i
  | .bDone => .bDone
  | .bSete s => .bSete s

/-- The failing operand check of a bead word, or 0 (R307, R312). -/
def BeadWord.undef : BeadWord → Nat
  | .bAdd d _ _ _ => beadDst d
  | .bSub d _ _ _ => beadDst d
  | .bMul d _ _ _ => beadDst d
  | .bMin d _ _ _ => beadDst d
  | .bMax d _ _ _ => beadDst d
  | .bAnd d _ _ _ => beadDst d
  | .bOr d _ _ _ => beadDst d
  | .bXor d _ _ _ => beadDst d
  | .bShiShl d _ _ => beadDst d
  | .bShiShr d _ _ => beadDst d
  | .bShiSra d _ _ => beadDst d
  | .bShiRot d _ _ => beadDst d
  | .bLi d _ => beadDst d
  | .bCmpEq d _ _ _ => beadDst d
  | .bCmpNe d _ _ _ => beadDst d
  | .bCmpLt d _ _ _ => beadDst d
  | .bCmpGe d _ _ _ => beadDst d
  | .bCmpLtn d _ _ _ => beadDst d
  | .bCmpGen d _ _ _ => beadDst d
  | .bSel d _ _ => beadDst d
  | .bFopFadd d _ _ r _ => beadFop d r
  | .bFopFmul d _ _ r _ => beadFop d r
  | .bFopFmin d _ _ r _ => beadFop d r
  | .bFopFmax d _ _ r _ => beadFop d r
  | .bFopFma d _ _ r _ => beadFop d r
  | .bNbData d _ => beadDst d
  | .bNbCtx d _ => beadDst d
  | .bLd d _ _ _ => beadDst d
  | .bSt _ _ _ _ | .bStPut _ _ _ _ | .bBrNz _ _ | .bBrZ _ _ | .bJmp _ | .bWaitNbdone _
  | .bWaitNbpc _ _ | .bWaitFull _ | .bWaitPhase _ _ | .bWaitPass _ | .bWaitLocal _ | .bSleep
  | .bWake _ _ | .bDone | .bSete _ => 0

/-- A bead word (R307); an invalid word of R312 is none. Branch targets against PLEN are checked at declaration. -/
def beadWordOf (w : IWord) : Option BeadWord :=
  let d := bD w
  let s := bS w
  let t := bT w
  let i := bImm w
  let fin (ok : Bool) (x : BeadWord) : Option BeadWord := if ok && x.undef == 0 then some x else none
  match (w.extractLsb' 27 5).toNat with
  | 0 => fin true (.bAdd d s t i)
  | 1 => fin true (.bSub d s t i)
  | 2 => fin true (.bMul d s t i)
  | 3 => fin true (.bMin d s t i)
  | 4 => fin true (.bMax d s t i)
  | 5 => fin true (.bAnd d s t i)
  | 6 => fin true (.bOr d s t i)
  | 7 => fin true (.bXor d s t i)
  | 8 =>
    let z := t == 0#3 && w.extractLsb' 8 10 == 0#10
    let n := w.extractLsb' 0 6
    match (w.extractLsb' 6 2).toNat with
    | 0 => fin z (.bShiShl d s n)
    | 1 => fin z (.bShiShr d s n)
    | 2 => fin z (.bShiSra d s n)
    | _ => fin z (.bShiRot d s n)
  | 9 => fin (s == 0#3 && t == 0#3) (.bLi d i)
  | 10 =>
    let k := w.extractLsb' 0 15
    match (w.extractLsb' 15 3).toNat with
    | 0 => fin true (.bCmpEq d s t k)
    | 1 => fin true (.bCmpNe d s t k)
    | 2 => fin true (.bCmpLt d s t k)
    | 3 => fin true (.bCmpGe d s t k)
    | 4 => fin true (.bCmpLtn d s t k)
    | 5 => fin true (.bCmpGen d s t k)
    | _ => none
  | 11 => fin (i == 0#18) (.bSel d s t)
  | 12 =>
    let z := w.extractLsb' 7 11 == 0#11
    let r := w.extractLsb' 4 3
    let f := w.extractLsb' 0 1
    match (w.extractLsb' 1 3).toNat with
    | 0 => fin z (.bFopFadd d s t r f)
    | 1 => fin z (.bFopFmul d s t r f)
    | 2 => fin z (.bFopFmin d s t r f)
    | 3 => fin z (.bFopFmax d s t r f)
    | 4 => fin z (.bFopFma d s t r f)
    | _ => none
  | 13 =>
    let z := s == 0#3 && t == 0#3
    match (w.extractLsb' 16 2).toNat with
    | 0 => fin z (.bNbData d (fieldImm w))
    | 1 => fin z (.bNbCtx d (fieldImm w))
    | _ => none
  | 14 => fin (t == 0#3) (.bLd d s (w.extractLsb' 16 2) (fieldImm w))
  | 15 =>
    match d.toNat with
    | 0 => fin true (.bSt s t (w.extractLsb' 16 2) (fieldImm w))
    | 1 => fin true (.bStPut s t (w.extractLsb' 16 2) (fieldImm w))
    | _ => none
  | 16 =>
    let z := d == 0#3 && t == 0#3 && w.extractLsb' 9 9 == 0#9
    if w.getLsbD 8 then fin z (.bBrZ s (w.extractLsb' 0 8)) else fin z (.bBrNz s (w.extractLsb' 0 8))
  | 17 => fin (w.extractLsb' 8 19 == 0#19) (.bJmp (w.extractLsb' 0 8))
  | 18 =>
    let z := t == 0#3
    match d.toNat with
    | 0 => fin (z && i == 0#18) (.bWaitNbdone s)
    | 1 => fin (z && w.extractLsb' 8 10 == 0#10) (.bWaitNbpc s (w.extractLsb' 0 8))
    | 2 => fin (z && i == 0#18) (.bWaitFull s)
    | 3 => fin z (.bWaitPhase s i)
    | 4 => fin (z && i == 0#18) (.bWaitPass s)
    | 5 => fin (z && i == 0#18) (.bWaitLocal s)
    | _ => none
  | 19 => fin (w.extractLsb' 0 27 == 0#27) .bSleep
  | 20 => fin (d == 0#3 && t == 0#3) (.bWake s i)
  | 21 => fin (w.extractLsb' 0 27 == 0#27) .bDone
  | 22 => fin (d == 0#3 && t == 0#3 && i == 0#18) (.bSete s)
  | _ => none

/-- A bead word as an instruction (R307); an invalid word of R312 gives 1. -/
noncomputable def decodeBead (w : IWord) : Decoded :=
  match beadWordOf w with
  | some b => .ok b.instr
  | none => .bad 1

/-! ## The opcode table's words -/

/-- The instruction of a decode, if it gave one. -/
def Decoded.instr? : Decoded → Option Instr
  | .ok i => some i
  | .bad _ => none

/-- The words of a number, lowest first (R3). -/
def wordsOf : Nat → Nat → List IWord
  | 0, _ => []
  | k + 1, x => BitVec.ofNat 32 x :: wordsOf k (x / 2 ^ 32)

/-- The instruction our decoders read from the bits w, bit 0 the lowest bit of the first word. The three instruction
sets share 32-bit patterns: the native set is read first, then the bootstrap set, then the bead words. -/
noncomputable def decodeTableWord (nbits w : Nat) : Option Instr :=
  let w0 : IWord := BitVec.ofNat 32 w
  let rest := wordsOf 7 ((w % 2 ^ (max nbits 32)) / 2 ^ 32)
  match decodeNative w0 rest with
  | .ok i => some i
  | .bad _ =>
    match decodeZbs w0 with
    | .ok i => some i
    | .bad _ => (decodeBead w0).instr?

/-! ## The encoder -/

/-- Format A (R154). -/
def encA (m : BitVec 6) (d a b : BitVec 5) (fn : BitVec 11) : IWord := m ++ d ++ a ++ b ++ fn
/-- Format I (R154). -/
def encI (m : BitVec 6) (d a : BitVec 5) (imm : BitVec 16) : IWord := m ++ d ++ a ++ imm
/-- Format H (R154). -/
def encH (m : BitVec 6) (d : BitVec 5) (imm : BitVec 20) : IWord := m ++ d ++ 0#1 ++ imm
/-- Format M (R154). -/
def encM (m : BitVec 6) (d a : BitVec 5) (sz mode : BitVec 2) (off : BitVec 12) : IWord := m ++ d ++ a ++ sz ++ mode ++ off
/-- Format B (R154). -/
def encB (m : BitVec 6) (a b : BitVec 5) (cond : BitVec 4) (disp : BitVec 12) : IWord := m ++ a ++ b ++ cond ++ disp
/-- Format J (R154). -/
def encJ (m : BitVec 6) (disp : BitVec 26) : IWord := m ++ disp
/-- The two words of an engine command (R155). -/
def encE (m : BitVec 6) (sub : BitVec 5) (c : EngCmd) : List IWord := [m ++ sub ++ c.x ++ c.y ++ c.z ++ c.f, c.p]
/-- The eight words of an `lnest` (R156). -/
def encN (vop : BitVec 8) (n : Nest) : List IWord :=
  [0x3C#6 ++ vop ++ n.td ++ n.ta ++ n.tb ++ n.rm ++ n.sat ++ n.mp ++ n.me,
   n.bd ++ n.ba ++ n.bb ++ n.mb ++ n.red ++ n.cbd ++ n.cba ++ n.cbb ++ 0#4,
   n.x0 ++ n.x1 ++ n.x2.extractLsb' 4 8,
   n.x2.extractLsb' 0 4 ++ n.x3 ++ n.x4 ++ n.scd ++ n.sca,
   n.sd0 ++ n.sd1 ++ n.sd2 ++ n.sd3,
   n.sd4 ++ n.sa0 ++ n.sa1 ++ n.sa2,
   n.sa3 ++ n.sa4 ++ n.sb0 ++ n.sb1,
   n.sb2 ++ n.sb3 ++ n.sb4 ++ n.scb ++ 0#6]
/-- Bootstrap format R (R331). -/
def encZR (op : BitVec 6) (d a b : BitVec 4) : IWord := op ++ d ++ a ++ b ++ 0#14
/-- Bootstrap formats I and B (R331). -/
def encZI (op : BitVec 6) (d a : BitVec 4) (i : BitVec 18) : IWord := op ++ d ++ a ++ i
/-- Bootstrap formats U and J (R331). -/
def encZU (op : BitVec 6) (d : BitVec 4) (i : BitVec 22) : IWord := op ++ d ++ i
/-- A bead word (R307). -/
def encBd (op : BitVec 5) (d s t : BitVec 3) (i : BitVec 18) : IWord := op ++ d ++ s ++ t ++ i

/-- The words of an instruction; an event of the device, which no word encodes, has none. -/
def encode : Instr → List IWord
  | .add d a b => [encA 0x1#6 d a b 0x0#11]
  | .sub d a b => [encA 0x1#6 d a b 0x1#11]
  | .mul d a b => [encA 0x1#6 d a b 0x2#11]
  | .mulh d a b => [encA 0x1#6 d a b 0x3#11]
  | .mulhn d a b => [encA 0x1#6 d a b 0x4#11]
  | .div d a b => [encA 0x1#6 d a b 0x5#11]
  | .divn d a b => [encA 0x1#6 d a b 0x6#11]
  | .rem d a b => [encA 0x1#6 d a b 0x7#11]
  | .remn d a b => [encA 0x1#6 d a b 0x8#11]
  | .and d a b => [encA 0x1#6 d a b 0x9#11]
  | .or d a b => [encA 0x1#6 d a b 0xA#11]
  | .xor d a b => [encA 0x1#6 d a b 0xB#11]
  | .andn d a b => [encA 0x1#6 d a b 0xC#11]
  | .shl d a b => [encA 0x1#6 d a b 0xD#11]
  | .shr d a b => [encA 0x1#6 d a b 0xE#11]
  | .sra d a b => [encA 0x1#6 d a b 0xF#11]
  | .rot d a b => [encA 0x1#6 d a b 0x10#11]
  | .min d a b => [encA 0x1#6 d a b 0x11#11]
  | .max d a b => [encA 0x1#6 d a b 0x12#11]
  | .minn d a b => [encA 0x1#6 d a b 0x13#11]
  | .maxn d a b => [encA 0x1#6 d a b 0x14#11]
  | .clz d a => [encA 0x1#6 d a 0#5 0x15#11]
  | .ctz d a => [encA 0x1#6 d a 0#5 0x16#11]
  | .popc d a => [encA 0x1#6 d a 0#5 0x17#11]
  | .sel d a b => [encA 0x1#6 d a b 0x18#11]
  | .cmpEq d a b => [encA 0x1#6 d a b 0x20#11]
  | .cmpNe d a b => [encA 0x1#6 d a b 0x21#11]
  | .cmpLt d a b => [encA 0x1#6 d a b 0x22#11]
  | .cmpGe d a b => [encA 0x1#6 d a b 0x23#11]
  | .cmpLtn d a b => [encA 0x1#6 d a b 0x24#11]
  | .cmpGen d a b => [encA 0x1#6 d a b 0x25#11]
  | .sxb d a => [encA 0x1#6 d a 0#5 0x28#11]
  | .sxh d a => [encA 0x1#6 d a 0#5 0x29#11]
  | .sxw d a => [encA 0x1#6 d a 0#5 0x2A#11]
  | .zxb d a => [encA 0x1#6 d a 0#5 0x2B#11]
  | .zxh d a => [encA 0x1#6 d a 0#5 0x2C#11]
  | .zxw d a => [encA 0x1#6 d a 0#5 0x2D#11]
  | .addi d a i => [encI 0x2#6 d a i]
  | .andi d a i => [encI 0x3#6 d a i]
  | .ori d a i => [encI 0x4#6 d a i]
  | .xori d a i => [encI 0x5#6 d a i]
  | .shiShl d a n => [encI 0x6#6 d a (0x0#10 ++ n)]
  | .shiShr d a n => [encI 0x6#6 d a (0x1#10 ++ n)]
  | .shiSra d a n => [encI 0x6#6 d a (0x2#10 ++ n)]
  | .shiRot d a n => [encI 0x6#6 d a (0x3#10 ++ n)]
  | .cmpiEq d a i => [encI 0x7#6 d a (0x0#4 ++ i)]
  | .cmpiNe d a i => [encI 0x7#6 d a (0x1#4 ++ i)]
  | .cmpiLt d a i => [encI 0x7#6 d a (0x2#4 ++ i)]
  | .cmpiGe d a i => [encI 0x7#6 d a (0x3#4 ++ i)]
  | .cmpiLtn d a i => [encI 0x7#6 d a (0x4#4 ++ i)]
  | .cmpiGen d a i => [encI 0x7#6 d a (0x5#4 ++ i)]
  | .lhi d i => [encH 0x8#6 d i]
  | .phi d i => [encH 0x9#6 d i]
  | .fadd d a b f r => [encA 0xA#6 d a b (f ++ 0x0#5 ++ r)]
  | .fsub d a b f r => [encA 0xA#6 d a b (f ++ 0x1#5 ++ r)]
  | .fmul d a b f r => [encA 0xA#6 d a b (f ++ 0x2#5 ++ r)]
  | .fdiv d a b f r => [encA 0xA#6 d a b (f ++ 0x3#5 ++ r)]
  | .fsqrt d a f r => [encA 0xA#6 d a 0#5 (f ++ 0x4#5 ++ r)]
  | .fmin d a b f => [encA 0xA#6 d a b (f ++ 0x5#5 ++ 0x0#3)]
  | .fmax d a b f => [encA 0xA#6 d a b (f ++ 0x6#5 ++ 0x0#3)]
  | .fsgnCopy d a b f => [encA 0xA#6 d a b (f ++ 0x7#5 ++ 0x0#3)]
  | .fsgnNeg d a b f => [encA 0xA#6 d a b (f ++ 0x7#5 ++ 0x1#3)]
  | .fsgnXor d a b f => [encA 0xA#6 d a b (f ++ 0x7#5 ++ 0x2#3)]
  | .fcmpEq d a b f => [encA 0xA#6 d a b (f ++ 0x8#5 ++ 0x0#3)]
  | .fcmpLt d a b f => [encA 0xA#6 d a b (f ++ 0x8#5 ++ 0x1#3)]
  | .fcmpLe d a b f => [encA 0xA#6 d a b (f ++ 0x8#5 ++ 0x2#3)]
  | .fcmpUnordered d a b f => [encA 0xA#6 d a b (f ++ 0x8#5 ++ 0x3#3)]
  | .fclass d a f => [encA 0xA#6 d a 0#5 (f ++ 0x9#5 ++ 0x0#3)]
  | .fma d a b f r => [encA 0xB#6 d a b (f ++ 0x0#5 ++ r)]
  | .fms d a b f r => [encA 0xB#6 d a b (f ++ 0x1#5 ++ r)]
  | .fnma d a b f r => [encA 0xB#6 d a b (f ++ 0x2#5 ++ r)]
  | .fcvt d a t u r => [encA 0xC#6 d a 0#5 (t ++ u ++ r)]
  | .ld d a z o => [encM 0x10#6 d a z 0x0#2 o]
  | .ldSx d a z o => [encM 0x10#6 d a z 0x1#2 o]
  | .ldUp d a z o => [encM 0x10#6 d a z 0x2#2 o]
  | .st s a z o => [encM 0x11#6 s a z 0x0#2 o]
  | .stUp s a z o => [encM 0x11#6 s a z 0x2#2 o]
  | .ldFeKeep d a z o => [encM 0x12#6 d a z 0x0#2 o]
  | .ldFeTake d a z o => [encM 0x12#6 d a z 0x1#2 o]
  | .stFeFill s a z o => [encM 0x13#6 s a z 0x0#2 o]
  | .stFePut s a z o => [encM 0x13#6 s a z 0x1#2 o]
  | .stFeClear a z o => [encM 0x13#6 0#5 a z 0x2#2 o]
  | .dpref a o => [encM 0x14#6 0#5 a 0#2 0x0#2 o]
  | .ipref a o => [encM 0x14#6 0#5 a 0#2 0x1#2 o]
  | .amoAdd d a b z => [encA 0x15#6 d a b (0#5 ++ z ++ 0x0#4)]
  | .amoAnd d a b z => [encA 0x15#6 d a b (0#5 ++ z ++ 0x1#4)]
  | .amoOr d a b z => [encA 0x15#6 d a b (0#5 ++ z ++ 0x2#4)]
  | .amoXor d a b z => [encA 0x15#6 d a b (0#5 ++ z ++ 0x3#4)]
  | .amoMin d a b z => [encA 0x15#6 d a b (0#5 ++ z ++ 0x4#4)]
  | .amoMax d a b z => [encA 0x15#6 d a b (0#5 ++ z ++ 0x5#4)]
  | .amoMinn d a b z => [encA 0x15#6 d a b (0#5 ++ z ++ 0x6#4)]
  | .amoMaxn d a b z => [encA 0x15#6 d a b (0#5 ++ z ++ 0x7#4)]
  | .amoSwap d a b z => [encA 0x15#6 d a b (0#5 ++ z ++ 0x8#4)]
  | .amoFaddF32 d a b => [encA 0x15#6 d a b 0x9#11]
  | .amoFaddF64 d a b => [encA 0x15#6 d a b 0x1A#11]
  | .cas d a b z => [encA 0x16#6 d a b (0#5 ++ z ++ 0x0#4)]
  | .redAdd a b z => [encA 0x17#6 0#5 a b (0#5 ++ z ++ 0x0#4)]
  | .redAnd a b z => [encA 0x17#6 0#5 a b (0#5 ++ z ++ 0x1#4)]
  | .redOr a b z => [encA 0x17#6 0#5 a b (0#5 ++ z ++ 0x2#4)]
  | .redXor a b z => [encA 0x17#6 0#5 a b (0#5 ++ z ++ 0x3#4)]
  | .redMin a b z => [encA 0x17#6 0#5 a b (0#5 ++ z ++ 0x4#4)]
  | .redMax a b z => [encA 0x17#6 0#5 a b (0#5 ++ z ++ 0x5#4)]
  | .redMinn a b z => [encA 0x17#6 0#5 a b (0#5 ++ z ++ 0x6#4)]
  | .redMaxn a b z => [encA 0x17#6 0#5 a b (0#5 ++ z ++ 0x7#4)]
  | .ulogAppAddF32 a b l => [encA 0x18#6 0#5 a b (0x0#7 ++ l)]
  | .ulogAppAddF64 a b l => [encA 0x18#6 0#5 a b (0x2#7 ++ l)]
  | .ulogAppAddI32 a b l => [encA 0x18#6 0#5 a b (0x4#7 ++ l)]
  | .ulogAppAddI64 a b l => [encA 0x18#6 0#5 a b (0x6#7 ++ l)]
  | .ulogAppMaxF32 a b l => [encA 0x18#6 0#5 a b (0x8#7 ++ l)]
  | .ulogAppMinF32 a b l => [encA 0x18#6 0#5 a b (0xA#7 ++ l)]
  | .ulogAppMaxF64 a b l => [encA 0x18#6 0#5 a b (0xC#7 ++ l)]
  | .ulogAppMinF64 a b l => [encA 0x18#6 0#5 a b (0xE#7 ++ l)]
  | .ulogMerge l => [encA 0x18#6 0#5 0#5 0#5 (1#7 ++ l)]
  | .brEq a b disp => [encB 0x20#6 a b 0x0#4 disp]
  | .brNe a b disp => [encB 0x20#6 a b 0x1#4 disp]
  | .brLt a b disp => [encB 0x20#6 a b 0x2#4 disp]
  | .brGe a b disp => [encB 0x20#6 a b 0x3#4 disp]
  | .brLtn a b disp => [encB 0x20#6 a b 0x4#4 disp]
  | .brGen a b disp => [encB 0x20#6 a b 0x5#4 disp]
  | .brZ a disp => [encB 0x20#6 a 0#5 0x6#4 disp]
  | .brNz a disp => [encB 0x20#6 a 0#5 0x7#4 disp]
  | .jmp disp => [encJ 0x21#6 disp]
  | .call disp => [encJ 0x22#6 disp]
  | .jr a => [encA 0x23#6 0#5 a 0#5 0x0#11]
  | .callr a => [encA 0x23#6 0#5 a 0#5 0x1#11]
  | .ret a => [encA 0x23#6 0#5 a 0#5 0x2#11]
  | .callx a i => [encI 0x24#6 0#5 a i]
  | .yield => [encA 0x28#6 0#5 0#5 0#5 0x0#11]
  | .sleep => [encA 0x28#6 0#5 0#5 0#5 0x1#11]
  | .halt => [encA 0x28#6 0#5 0#5 0#5 0x2#11]
  | .wswap d a => [encA 0x28#6 d a 0#5 0x3#11]
  | .spawn d a b => [encA 0x28#6 d a b 0x4#11]
  | .wake d a => [encA 0x28#6 d a 0#5 0x5#11]
  | .msgSend a b => [encA 0x28#6 0#5 a b 0x6#11]
  | .msgWait => [encA 0x28#6 0#5 0#5 0#5 0x7#11]
  | .gbar i => [encA 0x28#6 0#5 i 0#5 0x8#11]
  | .swtrap h l => [encA 0x28#6 0#5 h l 0x9#11]
  | .eret => [encA 0x28#6 0#5 0#5 0#5 0xA#11]
  | .dead a => [encA 0x28#6 0#5 a 0#5 0xB#11]
  | .gets d s => [encI 0x29#6 d 0#5 (0x0#4 ++ s)]
  | .puts d s => [encI 0x29#6 d 0#5 (0x8#4 ++ s)]
  | .getc d c => [encI 0x2A#6 d 0#5 (0x0#12 ++ c)]
  | .putc d c => [encI 0x2A#6 d 0#5 (0x800#12 ++ c)]
  | .clInit a b => [encA 0x2B#6 0#5 a b 0x0#11]
  | .clArm a b => [encA 0x2B#6 0#5 a b 0x1#11]
  | .clAdd a b => [encA 0x2B#6 0#5 a b 0x2#11]
  | .clWait d a b => [encA 0x2B#6 d a b 0x3#11]
  | .clTest d a => [encA 0x2B#6 d a 0#5 0x4#11]
  | .cbDef d h b => [encA 0x33#6 d h b 0x0#11]
  | .cbFill h b => [encA 0x33#6 0#5 h b 0x1#11]
  | .cbDrain h b => [encA 0x33#6 0#5 h b 0x2#11]
  | .cbWfill h b => [encA 0x33#6 0#5 h b 0x3#11]
  | .cbWfree h b => [encA 0x33#6 0#5 h b 0x4#11]
  | .cbStat d h => [encA 0x33#6 d h 0#5 0x5#11]
  | .maLdst c => encE 0x30#6 0x0#5 c
  | .maSwap c => encE 0x30#6 0x1#5 c
  | .maZero c => encE 0x30#6 0x2#5 c
  | .maStream c => encE 0x30#6 0x3#5 c
  | .maDrain c => encE 0x30#6 0x4#5 c
  | .maEnd c => encE 0x30#6 0x5#5 c
  | .maWait c => encE 0x30#6 0x6#5 c
  | .dmaCp c => encE 0x31#6 0x0#5 c
  | .dmaGt c => encE 0x31#6 0x1#5 c
  | .dmaSc c => encE 0x31#6 0x2#5 c
  | .dmaColl c => encE 0x31#6 0x3#5 c
  | .bdDecl c => encE 0x32#6 0x0#5 c
  | .bdPass c => encE 0x32#6 0x1#5 c
  | .bdWake c => encE 0x32#6 0x2#5 c
  | .bdStat c => encE 0x32#6 0x3#5 c
  | .bdFree c => encE 0x32#6 0x4#5 c
  | .vxCopy n => encN 0x0#8 n
  | .vxAdd n => encN 0x1#8 n
  | .vxSub n => encN 0x2#8 n
  | .vxMul n => encN 0x3#8 n
  | .vxFma n => encN 0x4#8 n
  | .vxMin n => encN 0x5#8 n
  | .vxMax n => encN 0x6#8 n
  | .vxAbs n => encN 0x7#8 n
  | .vxNeg n => encN 0x8#8 n
  | .vxDiv n => encN 0x9#8 n
  | .vxCvt n => encN 0xA#8 n
  | .vxSel n => encN 0xB#8 n
  | .vxCmpeq n => encN 0xC#8 n
  | .vxCmplt n => encN 0xD#8 n
  | .vxCmple n => encN 0xE#8 n
  | .vxAnd n => encN 0xF#8 n
  | .vxOr n => encN 0x10#8 n
  | .vxXor n => encN 0x11#8 n
  | .vxShl n => encN 0x12#8 n
  | .vxShr n => encN 0x13#8 n
  | .vxSra n => encN 0x14#8 n
  | .vxQuant n => encN 0x15#8 n
  | .vxDequant n => encN 0x16#8 n
  | .vxRsum n => encN 0x17#8 n
  | .vxRmax n => encN 0x18#8 n
  | .vxRmin n => encN 0x19#8 n
  | .vxRargmax n => encN 0x1A#8 n
  | .vxGather n => encN 0x1B#8 n
  | .vxIota n => encN 0x1C#8 n
  | .vxFill n => encN 0x1D#8 n
  | .vxExp n => encN 0x40#8 n
  | .vxExp2 n => encN 0x41#8 n
  | .vxExpm1 n => encN 0x42#8 n
  | .vxLog n => encN 0x43#8 n
  | .vxLog2 n => encN 0x44#8 n
  | .vxLog1p n => encN 0x45#8 n
  | .vxSin n => encN 0x46#8 n
  | .vxCos n => encN 0x47#8 n
  | .vxSinpi n => encN 0x48#8 n
  | .vxCospi n => encN 0x49#8 n
  | .vxTanh n => encN 0x4A#8 n
  | .vxSigmoid n => encN 0x4B#8 n
  | .vxErf n => encN 0x4C#8 n
  | .vxAtan n => encN 0x4D#8 n
  | .vxSqrt n => encN 0x4E#8 n
  | .vxRsqrt n => encN 0x4F#8 n
  | .vxRcp n => encN 0x50#8 n
  | .vxXaExp2 n => encN 0x60#8 n
  | .vxXaLog2 n => encN 0x61#8 n
  | .vxXaRcp n => encN 0x62#8 n
  | .vxXaRsqrt n => encN 0x63#8 n
  | .vxXaTanh n => encN 0x64#8 n
  | .vxXaSigmoid n => encN 0x65#8 n
  | .bAdd d s t i => [encBd 0x0#5 d s t i]
  | .bSub d s t i => [encBd 0x1#5 d s t i]
  | .bMul d s t i => [encBd 0x2#5 d s t i]
  | .bMin d s t i => [encBd 0x3#5 d s t i]
  | .bMax d s t i => [encBd 0x4#5 d s t i]
  | .bAnd d s t i => [encBd 0x5#5 d s t i]
  | .bOr d s t i => [encBd 0x6#5 d s t i]
  | .bXor d s t i => [encBd 0x7#5 d s t i]
  | .bShiShl d s n => [encBd 0x8#5 d s 0#3 (0x0#12 ++ n)]
  | .bShiShr d s n => [encBd 0x8#5 d s 0#3 (0x1#12 ++ n)]
  | .bShiSra d s n => [encBd 0x8#5 d s 0#3 (0x2#12 ++ n)]
  | .bShiRot d s n => [encBd 0x8#5 d s 0#3 (0x3#12 ++ n)]
  | .bLi d i => [encBd 0x9#5 d 0#3 0#3 i]
  | .bCmpEq d s t i => [encBd 0xA#5 d s t (0x0#3 ++ i)]
  | .bCmpNe d s t i => [encBd 0xA#5 d s t (0x1#3 ++ i)]
  | .bCmpLt d s t i => [encBd 0xA#5 d s t (0x2#3 ++ i)]
  | .bCmpGe d s t i => [encBd 0xA#5 d s t (0x3#3 ++ i)]
  | .bCmpLtn d s t i => [encBd 0xA#5 d s t (0x4#3 ++ i)]
  | .bCmpGen d s t i => [encBd 0xA#5 d s t (0x5#3 ++ i)]
  | .bSel d s t => [encBd 0xB#5 d s t 0#18]
  | .bFopFadd d s t r f => [encBd 0xC#5 d s t (0#11 ++ r ++ 0x0#3 ++ f)]
  | .bFopFmul d s t r f => [encBd 0xC#5 d s t (0#11 ++ r ++ 0x1#3 ++ f)]
  | .bFopFmin d s t r f => [encBd 0xC#5 d s t (0#11 ++ r ++ 0x2#3 ++ f)]
  | .bFopFmax d s t r f => [encBd 0xC#5 d s t (0#11 ++ r ++ 0x3#3 ++ f)]
  | .bFopFma d s t r f => [encBd 0xC#5 d s t (0#11 ++ r ++ 0x4#3 ++ f)]
  | .bNbData d o => [encBd 0xD#5 d 0#3 0#3 (0x0#2 ++ o)]
  | .bNbCtx d o => [encBd 0xD#5 d 0#3 0#3 (0x1#2 ++ o)]
  | .bLd d s z i => [encBd 0xE#5 d s 0#3 (z ++ i)]
  | .bSt s t z i => [encBd 0xF#5 0x0#3 s t (z ++ i)]
  | .bStPut s t z i => [encBd 0xF#5 0x1#3 s t (z ++ i)]
  | .bBrNz s p => [encBd 0x10#5 0x0#3 s 0#3 (0x0#10 ++ p)]
  | .bBrZ s p => [encBd 0x10#5 0x0#3 s 0#3 (0x1#10 ++ p)]
  | .bJmp p => [encBd 0x11#5 0x0#3 0#3 0#3 (0#10 ++ p)]
  | .bWaitNbdone s => [encBd 0x12#5 0x0#3 s 0#3 0#18]
  | .bWaitNbpc s p => [encBd 0x12#5 0x1#3 s 0#3 (0#10 ++ p)]
  | .bWaitFull s => [encBd 0x12#5 0x2#3 s 0#3 0#18]
  | .bWaitPhase s i => [encBd 0x12#5 0x3#3 s 0#3 i]
  | .bWaitPass s => [encBd 0x12#5 0x4#3 s 0#3 0#18]
  | .bWaitLocal s => [encBd 0x12#5 0x5#3 s 0#3 0#18]
  | .bSleep => [encBd 0x13#5 0x0#3 0#3 0#3 0#18]
  | .bWake s i => [encBd 0x14#5 0x0#3 s 0#3 i]
  | .bDone => [encBd 0x15#5 0x0#3 0#3 0#3 0#18]
  | .bSete s => [encBd 0x16#5 0x0#3 s 0#3 0#18]
  | .zadd d a b => [encZR 0x1#6 d a b]
  | .zsub d a b => [encZR 0x2#6 d a b]
  | .zmul d a b => [encZR 0x3#6 d a b]
  | .zmulh d a b => [encZR 0x4#6 d a b]
  | .zdiv d a b => [encZR 0x5#6 d a b]
  | .zdivn d a b => [encZR 0x6#6 d a b]
  | .zrem d a b => [encZR 0x7#6 d a b]
  | .zremn d a b => [encZR 0x8#6 d a b]
  | .zand d a b => [encZR 0x9#6 d a b]
  | .zor d a b => [encZR 0xA#6 d a b]
  | .zxor d a b => [encZR 0xB#6 d a b]
  | .zshl d a b => [encZR 0xC#6 d a b]
  | .zshr d a b => [encZR 0xD#6 d a b]
  | .zsra d a b => [encZR 0xE#6 d a b]
  | .zslt d a b => [encZR 0xF#6 d a b]
  | .zsltn d a b => [encZR 0x10#6 d a b]
  | .zaddi d a i => [encZI 0x11#6 d a i]
  | .zandi d a i => [encZI 0x12#6 d a i]
  | .zori d a i => [encZI 0x13#6 d a i]
  | .zxori d a i => [encZI 0x14#6 d a i]
  | .zshli d a n => [encZI 0x15#6 d a (0#12 ++ n)]
  | .zshri d a n => [encZI 0x16#6 d a (0#12 ++ n)]
  | .zsrai d a n => [encZI 0x17#6 d a (0#12 ++ n)]
  | .zhi d i => [encZU 0x18#6 d i]
  | .zldb d a i => [encZI 0x19#6 d a i]
  | .zldh d a i => [encZI 0x1A#6 d a i]
  | .zldw d a i => [encZI 0x1B#6 d a i]
  | .zldd d a i => [encZI 0x1C#6 d a i]
  | .zstb s a i => [encZI 0x1D#6 s a i]
  | .zsth s a i => [encZI 0x1E#6 s a i]
  | .zstw s a i => [encZI 0x1F#6 s a i]
  | .zstd s a i => [encZI 0x20#6 s a i]
  | .zbeq a b disp => [encZI 0x21#6 a b disp]
  | .zbne a b disp => [encZI 0x22#6 a b disp]
  | .zblt a b disp => [encZI 0x23#6 a b disp]
  | .zbge a b disp => [encZI 0x24#6 a b disp]
  | .zbltn a b disp => [encZI 0x25#6 a b disp]
  | .zbgen a b disp => [encZI 0x26#6 a b disp]
  | .zjal d p => [encZU 0x27#6 d p]
  | .zjalr d a i => [encZI 0x28#6 d a i]
  | .zsvcReadNstRecord => [encZI 0x29#6 0#4 0#4 0x0#18]
  | .zsvcFunctionBegin => [encZI 0x29#6 0#4 0#4 0x1#18]
  | .zsvcFunctionEnd => [encZI 0x29#6 0#4 0#4 0x2#18]
  | .zsvcProvenanceRecord => [encZI 0x29#6 0#4 0#4 0x3#18]
  | .zsvcGrowHeap => [encZI 0x29#6 0#4 0#4 0x4#18]
  | .zsvcRelocationRecord => [encZI 0x29#6 0#4 0#4 0x5#18]
  | .zsvcCommit => [encZI 0x29#6 0#4 0#4 0x6#18]
  | .zsvcFail => [encZI 0x29#6 0#4 0#4 0x7#18]
  | .zsvcLog => [encZI 0x29#6 0#4 0#4 0x8#18]
  | .zhalt => [encZR 0x2A#6 0#4 0#4 0#4]
  | .meterOut _ _ | .idleRotation | .capMeasurement _ | .thermalAlarm | .powerCapSet _ | .ptsTick
  | .timestampRebase | .quantumExpiry _ _ | .memoryReturn _ _ | .homeRequestArrival _ | .parkRelease _ _ | .feDeadline _ _
  | .trapEntry _ _ | .serviceResume _ _ | .serviceEscalate _ _ | .switchComplete _ _ | .emptySlotFill _ _ | .lineFill _ _
  | .gangRelease _ | .gbarRelease _ _ | .gangFailure _ _ | .gangPreempt _ | .gangResume _ _ _ | .gangRetire _
  | .unitFailure _ | .settlementComplete _ | .journalCoalesceFlush _ _ | .sramScrub _ _ | .memoryScrub _ | .shootdownComplete _
  | .nestStart _ | .nestComplete _ | .maGrant _ | .maCommandStart _ _ | .maDrainRow _ | .maCommandComplete _ _
  | .maJobAutoClose _ | .copyCommandStart _ | .copyRunWritten _ _ | .copyCommandComplete _ _ | .collectiveComplete _ _ | .bdPassStart _
  | .sweepPass _ | .bdPassComplete _ | .widxObserve _ | .stageQueueObserve _ _ | .pktNop _ _ _ | .pktLaunch _ _ _ _
  | .pktLaunchi _ _ _ _ _ | .pktLoop _ _ _ _ | .pktEndloop _ _ _ | .pktIf _ _ _ _ _ | .pktWaitmem _ _ _ _ _ | .waitmemPoll _ _
  | .waitmemTimeout _ _ | .pktSignal _ _ _ _ _ | .pktCopy _ _ _ _ _ | .pktStage _ _ _ _ | .pktShoot _ _ _ _ | .stageLaunch _ _
  | .packetComplete _ _ _ | .starvationGuard _ | .queueFaultResolved _ _ | .queueRestart _ | .queueCreate _ | .serviceTokenSet _ _
  | .remotePacket _ _ | .residencyReport | .worldCreate _ | .worldDestroy _ | .coreScrub _ _ | .fabricRequest _
  | .fabricAnswer _ _ _ _ | .cipherCommand _ | .keySlotInstall _ | .keySlotRevoke _ _ | .revokeComplete _ _ | .linkAuthFailure _
  | .linkCounterExhaustion _ | .translationRequest _ _ | .imageLoad _ | .imageUnload _ _ | .quoteRequest _ _ | .journalRead _ _ _
  | .configurationRecord _ _ | .boot _ | .thermalAlarmClear | .linkRekeyed _ | .linkFlitFailsAfterRetries _ | .engineFaultResolved _ _
  | .bdDeclComplete _ _ | .formatWindowWrite _ _ | .fabricWindowWrite _ _ _ | .exportWrite _ _ => []

end Sys2Proof
end

