-- ==== Sys2Proof/Machine/Function.lean ====
section
/-! DEFINITION. The function unit (R267 to R269): correctly rounded elementary functions, computed with more than the
256 significant bits that decide every element, and the fast approximate family `xa.*` (R271 to R274). -/

namespace Sys2Proof.Machine

/-! ## Fixed-point arithmetic -/

/-- Fraction bits of the working precision. -/
def fnBits : Nat := 640

/-- One in fixed point. -/
def fxOne : Int := ((2 ^ fnBits : Nat) : Int)

/-- Product in fixed point. -/
def fxMul (a b : Int) : Int := a * b / fxOne

/-- Quotient in fixed point. -/
def fxDiv (a b : Int) : Int := if b = 0 then 0 else a * fxOne / b

/-- m * 2^e in fixed point. -/
def fxOf (m : Nat) (e : Int) : Int :=
  let k := e + fnBits
  if 0 ≤ k then ((m <<< k.toNat : Nat) : Int) else ((m >>> (-k).toNat : Nat) : Int)

/-- Terms of sum y^(2k+1)/(2k+1), with the given square of y. -/
def atanhGo : Nat → Int → Int → Nat → Int → Int
  | 0, _, _, _, acc => acc
  | n + 1, y2, pow, k, acc => atanhGo n y2 (fxMul pow y2) (k + 2) (acc + pow / (k : Int))

/-- The logarithm of a number from 3/4 to 3/2, by its artanh series. -/
def fxLog (m : Int) : Int :=
  let y := fxDiv (m - fxOne) (m + fxOne)
  2 * atanhGo 220 (fxMul y y) y 1 0

/-- ln 2. -/
def fxLn2 : Int := 2 * atanhGo 220 (fxOne / 9) (fxOne / 3) 1 0

/-- Terms of the arctangent of 1/n at a precision given by `one`. -/
def atanInvGo : Nat → Int → Int → Nat → Bool → Int → Int
  | 0, _, _, _, _, acc => acc
  | f + 1, n2, pow, k, neg, acc =>
    atanInvGo f n2 (pow / n2) (k + 2) (!neg) (if neg then acc - pow / (k : Int) else acc + pow / (k : Int))

/-- Pi with w fraction bits, by Machin's formula. -/
def piBits (w : Nat) : Int :=
  let one : Int := ((2 ^ w : Nat) : Int)
  16 * atanInvGo (w / 4 + 8) 25 (one / 5) 1 false 0 - 4 * atanInvGo (w / 15 + 8) 57121 (one / 239) 1 false 0

/-- Pi in fixed point. -/
def fxPi : Int := piBits fnBits

/-- Taylor terms of exp. -/
def expGo : Nat → Int → Int → Nat → Int → Int
  | 0, _, _, _, acc => acc
  | n + 1, r, term, k, acc => expGo n r (fxMul term r / (k : Int)) (k + 1) (acc + term)

/-- Repeated squaring. -/
def fxSquares : Nat → Int → Int
  | 0, x => x
  | n + 1, x => fxSquares n (fxMul x x)

/-- exp of a fixed-point number from 0 to 1. -/
def fxExp (r : Int) : Int := fxSquares 8 (expGo 70 (r / 256) fxOne 1 0)

/-- Taylor terms of sin and cos: each term is the last times -r2 over k (k + 1). -/
def trigGo : Nat → Int → Int → Nat → Int → Int
  | 0, _, _, _, acc => acc
  | n + 1, r2, term, k, acc => trigGo n r2 (-(fxMul term r2) / ((k * (k + 1) : Nat) : Int)) (k + 2) (acc + term)

/-- sin of a small fixed-point number. -/
def fxSin (r : Int) : Int := trigGo 80 (fxMul r r) r 2 0
/-- cos of a small fixed-point number. -/
def fxCos (r : Int) : Int := trigGo 80 (fxMul r r) fxOne 1 0
/-- sin(r)/r for a small fixed-point number. -/
def fxSinc (r : Int) : Int := trigGo 80 (fxMul r r) fxOne 2 0

/-- Square root in fixed point. -/
def fxSqrt (x : Int) : Int := ((isqrt (x.toNat * 2 ^ fnBits) : Nat) : Int)

/-- The arctangent of a number from 0 to 1: two halvings of the angle, then its series. -/
def fxAtan (y : Int) : Int :=
  let half (y : Int) : Int := fxDiv y (fxOne + fxSqrt (fxOne + fxMul y y))
  let z := half (half y)
  4 * atanhGo 260 (-(fxMul z z)) z 1 0

/-- Terms of the series of erf: each is the last times 2x^2 over 2n + 1. -/
def erfGo : Nat → Int → Int → Nat → Int → Int
  | 0, _, _, _, acc => acc
  | n + 1, x2, term, k, acc => erfGo n x2 (fxMul term (2 * x2) / ((2 * k + 1 : Nat) : Int)) (k + 1) (acc + term)

/-! ## Results and their rounding -/

/-- A computed value: a sign and a magnitude man * 2^exp, exact or with the true value just above that magnitude. -/
structure FnVal where
  neg : Bool
  man : Nat
  exp : Int
  sticky : Bool
  deriving DecidableEq, Repr

/-- Round a computed value once (R267). -/
def FnVal.round (t : Ty) (rm : RMode) (sat : Bool) (x : FnVal) : Nat × Flags :=
  if x.sticky then roundFloat t rm sat 0 x.neg (2 * x.man + 1) (x.exp - 1)
  else roundFloat t rm sat 0 x.neg x.man x.exp

/-- A fixed-point number scaled by 2^k. -/
def fxVal (neg : Bool) (v : Int) (k : Int) : FnVal := ⟨neg != decide (v < 0), v.natAbs, k - fnBits, true⟩

/-- A magnitude just below (toward zero) or just above m * 2^e. -/
def nearly (neg : Bool) (m : Nat) (e : Int) (below : Bool) : FnVal :=
  ⟨neg, if below then m * 2 ^ 100 - 1 else m * 2 ^ 100, e - 100, true⟩

/-- A value beyond every type's range, or below every type's subnormals. -/
def huge : FnVal := ⟨false, 1, 6000, true⟩
/-- A positive value below every type's subnormals. -/
def tiny : FnVal := ⟨false, 1, -6000, true⟩

/-- log2 of the magnitude of m * 2^e, rounded down. -/
def topOf (m : Nat) (e : Int) : Int := (Nat.log2 m : Int) + e

/-- e^x as a fixed-point number from 1 to 2 and a power of two, for a fixed-point x. -/
def expParts (x : Int) : Int × Int :=
  let n := x / fxLn2
  (fxExp (x - n * fxLn2), n)

/-- The signed fixed-point value of an operand of moderate size. -/
def fxSigned (neg : Bool) (m : Nat) (e : Int) : Int := if neg then -(fxOf m e) else fxOf m e

/-- exp of a finite non-zero x. -/
def fnExp (neg : Bool) (m : Nat) (e : Int) : FnVal :=
  if topOf m e < -70 then nearly false 1 0 neg
  else if 11 < topOf m e then (if neg then tiny else huge)
  else
    let p := expParts (fxSigned neg m e)
    fxVal false p.1 p.2

/-- exp2 of a finite non-zero x: exact at integers. -/
def fnExp2 (neg : Bool) (m : Nat) (e : Int) : FnVal :=
  if topOf m e < -70 then nearly false 1 0 neg
  else if 12 < topOf m e then (if neg then tiny else huge)
  else
    let x := fxSigned neg m e
    let n := x / fxOne
    let f := x - n * fxOne
    if f = 0 then ⟨false, 1, n, false⟩ else fxVal false (fxExp (fxMul f fxLn2)) n

/-- e^x - 1 of a fixed-point x, as a fixed-point number scaled by a power of two. -/
def expm1Parts (x : Int) : Int × Int :=
  let p := expParts x
  if 300 < p.2 then (p.1, p.2)
  else if 0 ≤ p.2 then (p.1 * ((2 ^ p.2.toNat : Nat) : Int) - fxOne, 0)
  else (p.1 / ((2 ^ (-p.2).toNat : Nat) : Int) - fxOne, 0)

/-- expm1 of a finite non-zero x. -/
def fnExpm1 (neg : Bool) (m : Nat) (e : Int) : FnVal :=
  if topOf m e < -70 then nearly neg m e neg
  else if 11 < topOf m e then (if neg then nearly true 1 0 true else huge)
  else if neg && decide (7 < topOf m e) then nearly true 1 0 true
  else
    let p := expm1Parts (fxSigned neg m e)
    fxVal false p.1 p.2

/-- The natural logarithm of m * 2^e as a fixed-point number. -/
def fxLogOf (m : Nat) (e : Int) : Int :=
  let top := topOf m e
  let f := fxOf m (e - top)
  if 3 * fxOne ≤ 2 * f then (top + 1) * fxLn2 + fxLog (f / 2) else top * fxLn2 + fxLog f

/-- 1 + x as a dyadic number, for a finite x above -1. -/
def onePlus (neg : Bool) (m : Nat) (e : Int) : Nat × Int :=
  let r := addDyadic false 1 0 neg m e
  (r.2.1, r.2.2)

/-- x reduced by the nearest multiple of pi/2: the multiple modulo 4 and the rest in fixed point. -/
def reducePi (neg : Bool) (m : Nat) (e : Int) : Nat × Int :=
  let extra := (max 0 (topOf m e + 8)).toNat
  let w := fnBits + extra
  let x : Int := (if 0 ≤ e + w then ((m <<< (e + w).toNat : Nat) : Int) else ((m >>> (-(e + w)).toNat : Nat) : Int))
  let x := if neg then -x else x
  let h := piBits w / 2
  let n := (x + h / 2) / h
  ((n % 4).toNat, (x - n * h) / ((2 ^ extra : Nat) : Int))

/-- sin (false) or cos (true) of a finite non-zero x. -/
def fnTrig (wantCos neg : Bool) (m : Nat) (e : Int) : FnVal :=
  if topOf m e < -70 then (if wantCos then nearly false 1 0 true else nearly neg m e true)
  else
    let p := reducePi neg m e
    let q := if wantCos then p.1 + 1 else p.1
    let v := if q % 2 = 0 then fxSin p.2 else fxCos p.2
    fxVal (decide (2 ≤ q % 4)) v 0

/-- x = n + f with f a dyadic number of magnitude at most 1/2: n modulo 2 and f. -/
def splitHalf (neg : Bool) (m : Nat) (e : Int) : Nat × Bool × Nat × Int :=
  if 0 ≤ e then ((m <<< e.toNat) % 2, neg, 0, 0)
  else
    let s := (-e).toNat
    let n := (m + 2 ^ s / 2) / 2 ^ s
    let r := addDyadic false m e true n 0
    (n % 2, neg != r.1, r.2.1, r.2.2)

/-- sin(pi f) for a non-zero dyadic f of magnitude at most 1/2, exact only at 1/2. -/
def sinPi (neg : Bool) (m : Nat) (e : Int) : FnVal :=
  if topOf m e = -1 then ⟨neg, 1, 0, false⟩
  else
    let s := fxSinc (fxMul fxPi (fxOf m e))
    ⟨neg, (fxMul fxPi s).toNat * m, e - fnBits, true⟩

/-- sinpi of a finite non-zero x (R268: integers give zeros of x's sign). -/
def fnSinpi (neg : Bool) (m : Nat) (e : Int) : FnVal :=
  let p := splitHalf neg m e
  if p.2.2.1 = 0 then ⟨neg, 0, 0, false⟩ else sinPi (p.2.1 != (p.1 == 1)) p.2.2.1 p.2.2.2

/-- cospi of a finite non-zero x (R268: half-integers give +0). -/
def fnCospi (m : Nat) (e : Int) : FnVal :=
  let p := splitHalf false m e
  let odd := p.1 == 1
  let fm := p.2.2.1
  let fe := p.2.2.2
  if fm = 0 then ⟨odd, 1, 0, false⟩
  else if topOf fm fe = -1 then ⟨false, 0, 0, false⟩
  else if topOf fm fe < -70 then nearly odd 1 0 true
  else if topOf fm fe < -2 then fxVal odd (fxCos (fxMul fxPi (fxOf fm fe))) 0
  else
    -- cos(pi f) = sin(pi (1/2 - |f|))
    let g := addDyadic false 1 (-1) true fm fe
    sinPi odd g.2.1 g.2.2

/-- tanh of a finite non-zero x. -/
def fnTanh (neg : Bool) (m : Nat) (e : Int) : FnVal :=
  if topOf m e < -70 then nearly neg m e true
  else if 5 ≤ topOf m e then nearly neg 1 0 true
  else
    let p := expm1Parts (2 * fxOf m e)
    fxVal neg (fxDiv p.1 (p.1 + 2 * fxOne)) 0

/-- sigmoid of a finite non-zero x. -/
def fnSigmoid (neg : Bool) (m : Nat) (e : Int) : FnVal :=
  if topOf m e < -70 then nearly false 1 (-1) neg
  else if 11 < topOf m e then (if neg then tiny else nearly false 1 0 true)
  else
    let p := expParts (-(fxOf m e))
    let d := fxOne + p.1 / ((2 ^ (-p.2).toNat : Nat) : Int)
    if neg then fxVal false (fxDiv p.1 d) p.2
    else if 6 ≤ topOf m e then nearly false 1 0 true
    else fxVal false (fxDiv fxOne d) 0

/-- erf of a finite non-zero x. -/
def fnErf (neg : Bool) (m : Nat) (e : Int) : FnVal :=
  if topOf m e < -400 then
    ⟨neg, (fxDiv (2 * fxOne) (fxSqrt fxPi)).toNat * m, e - fnBits, true⟩
  else if 3 ≤ topOf m e ∨ 6 * fxOne ≤ fxOf m e then nearly neg 1 0 true
  else
    let x := fxOf m e
    let x2 := fxMul x x
    let p := expParts (-x2)
    let g := fxMul (p.1 / ((2 ^ (-p.2).toNat : Nat) : Int)) (erfGo 700 x2 fxOne 1 0)
    ⟨neg, (fxMul (fxDiv (2 * fxOne) (fxSqrt fxPi)) g).toNat * m, e - fnBits, true⟩

/-- atan of a finite non-zero x. -/
def fnAtan (neg : Bool) (m : Nat) (e : Int) : FnVal :=
  if topOf m e < -70 then nearly neg m e true
  else if topOf m e < 0 then fxVal neg (fxAtan (fxOf m e)) 0
  else if 600 < topOf m e then fxVal neg (fxPi / 2 - 1) 0
  else fxVal neg (fxPi / 2 - fxAtan (fxDiv fxOne (fxOf m e))) 0

/-- 1/sqrt(m * 2^e) with a sticky bit. -/
def fnRsqrt (m : Nat) (e : Int) : FnVal :=
  let odd := e % 2 ≠ 0
  let m1 := if odd then 2 * m else m
  let e1 := if odd then e - 1 else e
  let k := 200 + Nat.log2 m1 / 2 + 1
  let n := 2 ^ (2 * k) / m1
  let r := isqrt n
  ⟨false, r, -(k : Int) - e1 / 2, !(r * r * m1 == 2 ^ (2 * k))⟩

/-- A special infinity: ±448 in e4m3, with the flags the special case states and no others (R268). -/
def specialInf (t : Ty) (neg : Bool) : Nat := if t = .e4m3 then floatMax t neg else floatInf t neg

/-! ## The functions (R267, R268) -/

/-- A function vop's result and flags by its vop code (R165): 0x40 exp to 0x50 rcp. -/
def fnEval (fn : Nat) (t : Ty) (rm : RMode) (sat : Bool) (x : Nat) : Nat × Flags :=
  let one (neg : Bool) : Nat × Flags := roundFloat t rm sat 0 neg 1 0
  let zero (neg : Bool) : Nat × Flags := (floatZero t neg, 0#5)
  let inf (neg : Bool) : Nat × Flags := (specialInf t neg, 0#5)
  let pole (neg : Bool) : Nat × Flags := (specialInf t neg, flagDZ)
  let bad : Nat × Flags := (defaultNaN t, flagNV)
  let out (v : FnVal) : Nat × Flags := v.round t rm sat
  match floatVal t x with
  | .nan sg => (defaultNaN t, if sg then flagNV else 0#5)
  | .inf n =>
    match fn with
    | 0x40 => if n then zero false else inf false
    | 0x41 => if n then zero false else inf false
    | 0x42 => if n then one true else inf false
    | 0x43 => if n then bad else inf false
    | 0x44 => if n then bad else inf false
    | 0x45 => if n then bad else inf false
    | 0x46 => bad
    | 0x47 => bad
    | 0x48 => bad
    | 0x49 => bad
    | 0x4A => one n
    | 0x4B => if n then zero false else one false
    | 0x4C => one n
    | 0x4D => out (fxVal n (fxPi / 2) 0)
    | 0x4E => if n then bad else inf false
    | 0x4F => if n then bad else zero false
    | _ => zero n
  | .fin n m e =>
    if m = 0 then
      match fn with
      | 0x40 => one false
      | 0x41 => one false
      | 0x42 => zero n
      | 0x43 => pole true
      | 0x44 => pole true
      | 0x45 => zero n
      | 0x46 => zero n
      | 0x47 => one false
      | 0x48 => zero n
      | 0x49 => one false
      | 0x4A => zero n
      | 0x4B => roundFloat t rm sat 0 false 1 (-1)
      | 0x4C => zero n
      | 0x4D => zero n
      | 0x4E => zero n
      | 0x4F => pole n
      | _ => pole n
    else
      match fn with
      | 0x40 => out (fnExp n m e)
      | 0x41 => out (fnExp2 n m e)
      | 0x42 => out (fnExpm1 n m e)
      | 0x43 =>
        if n then bad
        else if m = 2 ^ Nat.log2 m ∧ topOf m e = 0 then zero false
        else out (fxVal false (fxLogOf m e) 0)
      | 0x44 =>
        if n then bad
        else if m = 2 ^ Nat.log2 m then
          out ⟨decide (topOf m e < 0), (topOf m e).natAbs, 0, false⟩
        else out (fxVal false (fxDiv (fxLogOf m e) fxLn2) 0)
      | 0x45 =>
        if n && decide (0 ≤ topOf m e) then
          (if m = 2 ^ Nat.log2 m ∧ topOf m e = 0 then pole true else bad)
        else if topOf m e < -70 then out (nearly n m e (!n))
        else
          let p := onePlus n m e
          out (fxVal false (fxLogOf p.1 p.2) 0)
      | 0x46 => out (fnTrig false n m e)
      | 0x47 => out (fnTrig true n m e)
      | 0x48 => out (fnSinpi n m e)
      | 0x49 => out (fnCospi m e)
      | 0x4A => out (fnTanh n m e)
      | 0x4B => out (fnSigmoid n m e)
      | 0x4C => out (fnErf n m e)
      | 0x4D => out (fnAtan n m e)
      | 0x4E => if n then bad else sqrtVal t rm sat 0 (.fin n m e)
      | 0x4F => if n then bad else out (fnRsqrt m e)
      | _ => divVal t rm sat 0 (.fin false 1 0) (.fin n m e)

/-! ## The fast approximate family (R271 to R274) -/

/-- An exact dyadic value. -/
abbrev Dy := Bool × Nat × Int

/-- The dyadic value of a finite f32 pattern. -/
def dyOf (x : Nat) : Dy := match floatVal .f32 x with
  | .fin n m e => (n, m, e)
  | _ => (false, 0, 0)

/-- A dyadic value as an operand. -/
def Dy.val (x : Dy) : FVal := .fin x.1 x.2.1 x.2.2

/-- F(·): f32 RNE rounding of an exact value (R273). -/
def f32Round (x : Dy) : Nat := (roundFloat .f32 .rne false 0 x.1 x.2.1 x.2.2).1

/-- F(a × b + c): one fused f32 RNE operation (R273). -/
def f32Fma (a b c : FVal) : Nat := (fmaVal .f32 .rne false 0 a b c).1

/-- F(a × b) (R273). -/
def f32Mul (a b : FVal) : Nat := (mulVal .f32 .rne false 0 a b).1

/-- A value of an f32 pattern. -/
def fv (x : Nat) : FVal := floatVal .f32 x

/-- Horner steps p := F(p × f + c) (R273). -/
def horner (f : FVal) (p : Nat) (cs : List Nat) : Nat := cs.foldl (fun p c => f32Fma (fv p) f (fv c)) p

/-- floor of a dyadic value. -/
def dyFloor (x : Dy) : Int :=
  let (n, m, e) := x
  let v : Int := if n then -(m : Int) else m
  if 0 ≤ e then v * ((2 ^ e.toNat : Nat) : Int) else v / ((2 ^ (-e).toNat : Nat) : Int)

/-- Split(v) of R273: m as a dyadic value from 1 to 2 and the exponent. -/
def dySplit (x : Dy) : Dy × Int :=
  let top := topOf x.2.1 x.2.2
  ((false, x.2.1, x.2.2 - top), top)

/-- XE(z): exact result p × 2^n (R273). -/
def xaE (z : Dy) : Dy :=
  let n := dyFloor z
  let f := f32Round (addDyadic z.1 z.2.1 z.2.2 (decide (0 ≤ n)) n.natAbs 0)
  let p := horner (fv f) 0x3AAEC3FF [0x3C1D955B, 0x3D635847, 0x3E75FDF0, 0x3F317218, 0x3F800000]
  let d := dyOf p
  (d.1, d.2.1, d.2.2 + n)

/-- XL(x): exact y × LOG2E + e (R273). -/
def xaL (x : Dy) : Dy :=
  let (m, e) := dySplit x
  let rt2 := dyOf 0x3FB504F3
  let big := cmpDyadic m.1 m.2.1 m.2.2 rt2.1 rt2.2.1 rt2.2.2 == .gt
  let m := if big then (m.1, m.2.1, m.2.2 - 1) else m
  let e := if big then e + 1 else e
  let t := addDyadic m.1 m.2.1 m.2.2 true 1 0
  let tv : FVal := .fin t.1 t.2.1 t.2.2
  let p := horner tv 0xBE000000 [0x3E124925, 0xBE2AAAAB, 0x3E4CCCCD, 0xBE800000, 0x3EAAAAAB, 0xBF000000, 0x3F800000]
  let y := dyOf (f32Mul (fv p) tv)
  let l := dyOf 0x3FB8AA3B
  addDyadic (y.1 != l.1) (y.2.1 * l.2.1) (y.2.2 + l.2.2) (decide (e < 0)) e.natAbs 0

/-- One step of XR: q := F(−(m × y) + 1); y := F(y × q + y). -/
def xaRStep (m : FVal) (y : Nat) : Nat :=
  let q := f32Fma (negVal m) (fv y) (.fin false 1 0)
  f32Fma (fv y) (fv q) (fv y)

/-- XR(v) (R273). -/
def xaR (v : Dy) : Dy :=
  let (m, e) := dySplit v
  let mv : FVal := .fin m.1 m.2.1 m.2.2
  let y := f32Fma mv (fv 0xBEF0F0F1) (fv 0x3FB4B4B5)
  let d := dyOf (xaRStep mv (xaRStep mv (xaRStep mv y)))
  (d.1 != v.1, d.2.1, d.2.2 - e)

/-- One step of XS: q := F(y × y); q := F(−(h × q) + Q2); y := F(y × q). -/
def xaSStep (h : FVal) (y : Nat) : Nat :=
  let q := f32Mul (fv y) (fv y)
  let q := f32Fma (negVal h) (fv q) (fv 0x3FC00000)
  f32Mul (fv y) (fv q)

/-- XS(x) (R273). -/
def xaS (x : Dy) : Dy :=
  let (m, e) := dySplit x
  let odd := e % 2 ≠ 0
  let m : Dy := if odd then (m.1, m.2.1, m.2.2 + 1) else m
  let e := if odd then e - 1 else e
  let h : FVal := .fin m.1 m.2.1 (m.2.2 - 1)
  let y := f32Fma (.fin m.1 m.2.1 m.2.2) (fv 0xBE400000) (fv 0x3FA00000)
  let d := dyOf (xaSStep h (xaSStep h (xaSStep h (xaSStep h y))))
  (d.1, d.2.1, d.2.2 - e / 2)

/-- Whether a dyadic value is at least an integer. -/
def dyGe (x : Dy) (k : Int) : Bool := cmpDyadic x.1 x.2.1 x.2.2 (decide (k < 0)) k.natAbs 0 != .lt

/-- u of `xa.sigmoid` (R274): e^-x by exponent, with its two clamps; none stands for +∞. -/
def xaSigU (z : FVal) : Option Nat :=
  match z with
  | .inf n => if n then some 0 else none
  | .nan _ => some 0
  | .fin n m e =>
    if dyGe (n, m, e) 128 then none
    else if !(dyGe (n, m, e) (-150)) then some 0
    else some (f32Round (xaE (n, m, e)))

/-- An `xa.*` vop's result and flags by its vop code 0x60 to 0x65 (R274); v is the draw of SR. -/
def xaEval (fn : Nat) (t : Ty) (rm : RMode) (sat : Bool) (v : Nat) (x : Nat) : Nat × Flags :=
  let final (d : Dy) : Nat × Flags := roundFloat t rm sat v d.1 d.2.1 d.2.2
  let bad : Nat × Flags := (defaultNaN t, flagNV)
  match floatVal t x with
  | .nan sg => (defaultNaN t, if sg then flagNV else 0#5)
  | .inf n =>
    match fn with
    | 0x60 => if n then (floatZero t false, 0#5) else (specialInf t false, 0#5)
    | 0x61 => if n then bad else (specialInf t false, 0#5)
    | 0x62 => (floatZero t n, 0#5)
    | 0x63 => if n then bad else (floatZero t false, 0#5)
    | 0x64 => final (n, 1, 0)
    | _ => if n then (floatZero t false, 0#5) else final (xaR (false, 1, 0))
  | .fin n m e =>
    let d : Dy := (n, m, e)
    match fn with
    | 0x60 =>
      if dyGe d 128 then final (false, 1, 128)
      else if !(dyGe d (-150)) then final (false, 1, -151)
      else final (xaE d)
    | 0x61 => if m = 0 then (specialInf t true, flagDZ) else if n then bad else final (xaL d)
    | 0x62 => if m = 0 then (specialInf t n, flagDZ) else final (xaR d)
    | 0x63 => if m = 0 then (specialInf t n, flagDZ) else if n then bad else final (xaS d)
    | 0x64 =>
      let a : Dy := (false, m, e)
      if dyGe a 9 then final (n, 1, 0)
      else if m = 0 ∨ topOf m e < -12 then final d
      else
        let z := dyOf (f32Mul a.val (fv 0x4038AA3B))
        let u := f32Round (xaE z)
        let vv := dyOf (addVal .f32 .rne false 0 (fv u) (.fin false 1 0)).1
        let w := dyOf (f32Round (xaR vv))
        let r := addDyadic false 1 0 (!w.1) w.2.1 (w.2.2 + 1)
        final (r.1 != n, r.2.1, r.2.2)
    | _ =>
      let z := fv (f32Mul (negVal (.fin n m e)) (fv 0x3FB8AA3B))
      match xaSigU z with
      | none => (floatZero t false, 0#5)
      | some u =>
        match fv (addVal .f32 .rne false 0 (.fin false 1 0) (fv u)).1 with
        | .fin vn vm ve => final (xaR (vn, vm, ve))
        | _ => (floatZero t false, 0#5)

end Sys2Proof.Machine
end

