-- ==== Sys2Proof/Machine/Cipher.lean ====
section
/-! DEFINITION. AES-256 with its modes XTS and GCM, the ciphers of the storage and network ports and of the links (R420,
R422). The spec names the ciphers and leaves their definition to their standards; what is here is those standards', and the
byte orders of keys, nonces and data-unit numbers that the spec does not give are the model's (log 75). -/

namespace Sys2Proof.Machine

/-! ## The field of 256 elements -/

/-- Twice an element. -/
def gfTwice (a : Nat) : Nat := if a < 128 then 2 * a else (2 * a % 256) ^^^ 0x1B

/-- The product of two elements, from the first's bits. -/
def gfMul (a b : Nat) : Nat :=
  ((List.range 8).foldl (fun (p : Nat × Nat) i => (if bitOf a i then p.1 ^^^ p.2 else p.1, gfTwice p.2)) (0, b)).1

/-- The inverse of an element, and 0 of 0: its power 254. -/
def gfInv (a : Nat) : Nat := (List.range 253).foldl (fun x _ => gfMul x a) a

/-- A byte turned left by n bits. -/
def turnByte (a n : Nat) : Nat := (a * 2 ^ n % 256) ||| (a / 2 ^ (8 - n))

/-- The substitution of a byte: the affine image of its inverse. -/
def substitute (a : Nat) : Nat :=
  let b := gfInv a
  b ^^^ turnByte b 1 ^^^ turnByte b 2 ^^^ turnByte b 3 ^^^ turnByte b 4 ^^^ 0x63

/-- The substitution as a table. -/
def subTable : List Nat := (List.range 256).map substitute

/-- The table of the inverse substitution. -/
def unsubTable : List Nat := (List.range 256).map (fun v => subTable.findIdx (fun x => x == v))

/-- Substitute a byte by a table. -/
def byTable (t : List Nat) (b : Byte) : Byte := BitVec.ofNat 8 (t[b.toNat]?.getD 0)

/-! ## The block cipher (R420) -/

/-- Byte by byte the exclusive or of two lists, as long as the shorter. -/
def xorBytes (a b : List Byte) : List Byte := (a.zip b).map (fun p => p.1 ^^^ p.2)

/-- The next word of the key schedule, from the words so far. -/
def nextKeyWord (ws : List (List Byte)) (i : Nat) : List Byte :=
  let prev := ws[i - 1]?.getD []
  let sub (w : List Byte) := w.map (byTable subTable)
  let turn := if i % 8 = 0 then xorBytes (sub (prev.drop 1 ++ prev.take 1)) [BitVec.ofNat 8 (2 ^ (i / 8 - 1)), 0, 0, 0]
    else if i % 8 = 4 then sub prev else prev
  xorBytes (ws[i - 8]?.getD []) turn

/-- The sixty words of the key schedule of a key of 32 bytes. -/
def keyWords (key : List Byte) : List (List Byte) :=
  (List.range 52).foldl (fun ws i => ws ++ [nextKeyWord ws (8 + i)]) ((List.range 8).map (fun i => (key.drop (4 * i)).take 4))

/-- The fifteen round keys of a key, its least significant byte first. -/
def roundKeys (key : BitVec 256) : List (List Byte) :=
  let ws := keyWords (bytesOf 32 key.toNat)
  (List.range 15).map (fun r => ((ws.drop (4 * r)).take 4).flatten)

/-- Turn row r of a block by r places, to the left, or by 4 − r back. -/
def shiftRows (back : Bool) (b : List Byte) : List Byte :=
  (List.range 16).map (fun i => b[(i + (if back then 12 else 4) * (i % 4)) % 16]?.getD 0)

/-- Multiply each column by the circulant of four coefficients. -/
def mixColumns (k : List Nat) (b : List Byte) : List Byte :=
  (List.range 16).map (fun i =>
    BitVec.ofNat 8 ((List.range 4).foldl (fun x j =>
      x ^^^ gfMul (k[(4 + j - i % 4) % 4]?.getD 0) (b[i / 4 * 4 + j]?.getD 0).toNat) 0))

/-- Encrypt a block of 16 bytes. -/
def aesSeal (ks : List (List Byte)) (b : List Byte) : List Byte :=
  let last (b : List Byte) := shiftRows false (b.map (byTable subTable))
  let k (r : Nat) := ks[r]?.getD []
  let mid := (List.range 13).foldl (fun b r => xorBytes (mixColumns [2, 3, 1, 1] (last b)) (k (r + 1))) (xorBytes b (k 0))
  xorBytes (last mid) (k 14)

/-- Decrypt a block of 16 bytes. -/
def aesOpen (ks : List (List Byte)) (b : List Byte) : List Byte :=
  let first (b : List Byte) := (shiftRows true b).map (byTable unsubTable)
  let k (r : Nat) := ks[r]?.getD []
  let mid := (List.range 13).foldl (fun b r => mixColumns [14, 11, 13, 9] (xorBytes (first b) (k (13 - r)))) (xorBytes b (k 14))
  xorBytes (first mid) (k 0)

/-- Bytes in blocks of 16, the last filled up with zeros. -/
def blocksOf (m : List Byte) : List (List Byte) :=
  (List.range (ceilDiv m.length 16)).map (fun i =>
    let b := (m.drop (16 * i)).take 16
    b ++ List.replicate (16 - b.length) 0)

/-! ## XTS (R420) -/

/-- The tweak of the next block: twice this one in the field of 2^128 elements. -/
def nextTweak (t : List Byte) : List Byte :=
  let n := 2 * natOfBytes t
  bytesOf 16 (if n < 2 ^ 128 then n else (n - 2 ^ 128) ^^^ 0x87)

/-- Put blocks through a cipher, each under its own tweak. -/
def xtsBlocks (f : List Byte → List Byte) : List Byte → List (List Byte) → List Byte
  | _, [] => []
  | t, b :: r => xorBytes (f (xorBytes b t)) t ++ xtsBlocks f (nextTweak t) r

/-- Encrypt a data unit of whole blocks under two keys, its number as the tweak (R420). -/
def xtsSeal (key1 key2 : BitVec 256) (unit : Nat) (m : List Byte) : List Byte :=
  xtsBlocks (aesSeal (roundKeys key1)) (aesSeal (roundKeys key2) (bytesOf 16 unit)) (blocksOf m)

/-- Decrypt a data unit (R420). -/
def xtsOpen (key1 key2 : BitVec 256) (unit : Nat) (m : List Byte) : List Byte :=
  xtsBlocks (aesOpen (roundKeys key1)) (aesSeal (roundKeys key2) (bytesOf 16 unit)) (blocksOf m)

/-! ## GCM (R420, R422) -/

/-- A number of n bytes, the most significant first. -/
def bytesDown (n x : Nat) : List Byte := (bytesOf n x).reverse

/-- The number of bytes whose most significant comes first. -/
def numDown (m : List Byte) : Nat := natOfBytes m.reverse

/-- The product in the field of 2^128 elements whose first coefficient is the most significant bit. -/
def ghashMul (x y : Nat) : Nat :=
  ((List.range 128).foldl (fun (p : Nat × Nat) i =>
    (if bitOf x (127 - i) then p.1 ^^^ p.2 else p.1,
      if bitOf p.2 0 then (p.2 / 2) ^^^ (0xE1 * 2 ^ 120) else p.2 / 2)) (0, y)).1

/-- The hash of a sealed text, with its length in bits, under a block. -/
def ghash (h : Nat) (m : List Byte) : Nat :=
  (blocksOf m ++ [bytesDown 16 (8 * m.length)]).foldl (fun x b => ghashMul (x ^^^ numDown b) h) 0

/-- The counter block i of a nonce, most significant byte first. -/
def counterBlock (nonce : BitVec 96) (i : Nat) : List Byte := bytesDown 12 nonce.toNat ++ bytesDown 4 i

/-- A text under the stream of a nonce, which is its own inverse. -/
def gcmStream (ks : List (List Byte)) (nonce : BitVec 96) (m : List Byte) : List Byte :=
  xorBytes m ((List.range (ceilDiv m.length 16)).flatMap (fun i => aesSeal ks (counterBlock nonce (i + 2))))

/-- The 128-bit tag of a sealed text. -/
def gcmTag (ks : List (List Byte)) (nonce : BitVec 96) (c : List Byte) : List Byte :=
  xorBytes (aesSeal ks (counterBlock nonce 1)) (bytesDown 16 (ghash (numDown (aesSeal ks (List.replicate 16 0))) c))

/-- Seal a packet or a flit: its text, then the tag (R420, R422). -/
def gcmSeal (key : BitVec 256) (nonce : BitVec 96) (m : List Byte) : List Byte :=
  let ks := roundKeys key
  gcmStream ks nonce m ++ gcmTag ks nonce (gcmStream ks nonce m)

/-- Open a sealed text, where its tag is right (R420, R422). -/
def gcmOpen (key : BitVec 256) (nonce : BitVec 96) (c : List Byte) : Option (List Byte) :=
  let ks := roundKeys key
  let t := c.take (c.length - 16)
  if 16 ≤ c.length ∧ c.drop t.length = gcmTag ks nonce t then some (gcmStream ks nonce t) else none

end Sys2Proof.Machine
end

