-- ==== Sys2Proof/Config.lean ====
section
/-! DEFINITION. What the part fixes once, and the free values: constants with no body stand for values the spec leaves
open, so that no proof can see them. -/

namespace Sys2Proof.Config

open Sys2Proof.Machine

/-- Enabled setts of a full part (R14). -/
def settCount : Nat := 256
/-- Cores of one sett (R14). -/
def coresPerSett : Nat := 8
/-- Thread slots of one core (R14, R30). -/
def slotsPerCore : Nat := 16
/-- Scratchpad bytes of one core (R14). -/
def scratchBytes : Nat := 1048576
/-- L2 slices of a full package (R11, R14). -/
def l2Slices : Nat := 384
/-- Bytes behind one HBM channel: 96 GiB over 32 channels (R9, R14). -/
def channelBytes : Nat := 3 * 2 ^ 30
/-- HBM channels of a full package (R14). -/
def channelCount : Nat := 256

/-- The syndrome the journal records for an error (R426 SYND): the spec gives no value. Free. -/
opaque syndrome : Nat → Word
/-- The public identity key in the encoding of R428: 1,793 bytes. Free. -/
opaque identityKey : Nat → Byte
/-- The Falcon-1024 signature of the identity key over some bytes (R423, R428). Free. -/
opaque signature : List Byte → List Byte
/-- The digest the secure element keeps of a log of measurements (R423). Free. -/
opaque logDigest : List (BitVec 512) → BitVec 512
/-- The fabric device identifier (R407). Free. -/
opaque deviceId : BitVec 21
/-- The link that carries a fabric window's requests, by its descriptor (R416, R422): ports 0 to 15 are UALink, 16 to 23
Ultra Ethernet. Free. -/
opaque windowPort : BitVec 256 → Nat
/-- Flits that a request or an answer of n bytes takes on a link (R422). Free. -/
opaque flits : Nat → Nat
/-- The share of idle rotations the cap controller sets for a measured power under a limit (R17, R431). Free. -/
opaque idleShare : Nat → Nat → Nat
/-- Whether a dirty line of a failed L2 slice cannot be read any more (R23), by failure and line. Free. -/
opaque lineLost : Nat → Nat → Bool
/-- The digest of the boot image, of the firmware and of the resident service (R423). Free. -/
opaque bootDigest : Nat → BitVec 512
/-- What a service names as a salt or a fresh key at a re-key (R422). Free. -/
opaque freshKey : Nat → BitVec 256
/-- How many `red` requests of one core the mesh's injection queue takes (R89): the spec gives no figure. Free. -/
opaque meshQueue : Nat
/-- The words in which the n-th scan of a storage finds a corrected error (R424): where soft errors arise is open. Free. -/
opaque softErrors : Nat → List Nat
/-- Where an error arises (R424): a 64-bit word of a core's scratchpad, a register of a slot's bank, a 64-bit word of an L1 copy by
its line and its place there, one of a line of the instruction cache, one of memory, a flit on a link. -/
inductive Upset where
  | sram (core word : Nat)
  | bank (core slot reg : Nat)
  | copy (core line word : Nat)
  | text (core base word : Nat)
  | memory (word : Nat)
  | flit (link : Nat)
  deriving DecidableEq, Repr
/-- The errors of a cycle, each with whether its code corrects it (R424, R425): when and where errors arise is open (log 76).
Free. -/
opaque upsets : Nat → List (Upset × Bool)
/-- The watts of the n-th measurement of the rails (R431). Free. -/
opaque railPower : Nat → Nat
/-- The plaintext of the i-th flit of a message (R422): the flit layout is open. Free. -/
opaque flitText : List Byte → Nat → List Byte
/-- A value the spec leaves open, told apart by a counter the step advances. Free. -/
opaque freeValue : Nat → Word

/-- Whether an element fails the first phase of a function vop, by vop, type code, rounding mode and operand bits (R269):
a fixed function of the part that the spec does not give (log 25). -/
opaque secondPhase (vop type rm operand : Nat) : Bool

end Sys2Proof.Config
end

