-- ==== Sys2Proof/Machine/State.lean ====
section
/-! DEFINITION. The state of the device as plain data, the reasons a step can stop, and the state after reset. -/

namespace Sys2Proof.Machine

/-- A trap to be delivered to a handler (R104, R108). -/
structure Trap where
  cause : Nat
  sub : Nat
  faddr : Option Word
  eidx : Option Nat
  deriving DecidableEq, Repr

/-- Where a thread or engine access lands (R67, R69): a core's scratchpad, a physical address with its memory type
(0 normal, 1 alias, 2 uncached), or a fabric window. -/
inductive Loc where
  | spad (core off : Nat)
  | mem (pa mt : Nat)
  | fabric (win off : Nat)
  deriving DecidableEq, Repr

/-- What a request does at its home (R88 to R101, R212 to R233); `recall` withdraws a waiting one (R222). -/
inductive ReqOp where
  | load (n : Nat) (signed : Bool) (d : BitVec 5) (upd : Option (BitVec 5))
  | store (n : Nat) (v : Nat) (upd : Option (BitVec 5))
  | amo (op n v : Nat) (d : BitVec 5)
  | cas (n expect new : Nat) (d : BitVec 5)
  | red (op n v : Nat)
  | ulogApp (log op n v rank : Nat)
  | ulogMerge (log : Nat)
  | feLoad (take : Bool) (n : Nat) (d : BitVec 5)
  | feStore (mode n v : Nat)
  | clInit (exp : Nat)
  | clArm (exp : Nat)
  | clAdd (bytes : Nat)
  | clTest (d : BitVec 5)
  | clWait (d : BitVec 5) (phase : Nat)
  | send (payload : List Byte) (from_ : Nat)
  | wake (d : BitVec 5)
  | recall (id : Nat)
  deriving DecidableEq, Repr

/-- A request travelling to its home or waiting there (R103, R214). -/
structure Request where
  id : Nat
  core : Nat
  ws : Nat
  world : Nat
  arrive : Nat
  back : Nat
  stamp : Nat
  op : ReqOp
  va : Nat
  loc : Loc
  deadline : Option Nat
  deriving DecidableEq, Repr

/-- What a parked instruction will write when it completes (R34, R37): its result, then the base its form updates. -/
structure Answer where
  reg : Option (BitVec 5 × Word)
  upd : Option (BitVec 5 × Word)
  flags : Flags
  trap : Option Trap
  stamp : Nat
  advance : Bool
  deriving DecidableEq, Repr

/-- What a parked thread waits for (R34, R36, R111). A declaration waits for its program, whose words a fabric window's target
answers one by one (R83, R319). -/
inductive Park where
  | run
  | memory (due : Nat)
  | home (id : Nat)
  | answered (due : Nat) (a : Answer)
  | released (due : Nat) (a : Answer)
  | line (base : Nat)
  | service (cause addr : Nat) (epc : Word)
  | settle
  | cbFill (h k : Nat)
  | cbFree (h k : Nat)
  | maWait (last : Nat)
  | vqFull
  | mqFull
  | cqFull
  | footprint (off n : Nat)
  | flagsDrain (put : Bool) (r : BitVec 5)
  | gbar (id : Nat)
  | nest (id : Nat)
  | bdDecl (t due : Nat) (fault : Option Nat) (fab : List (Nat × List Byte)) (ask : Option Nat)
  | sqFull
  | meshFull
  | recalled (due : Nat)
  | bdPass (id : Nat)
  | bdFree (t : Nat)
  | fabric (win ea : Nat) (op : ReqOp)
  deriving DecidableEq, Repr

/-- A thread's instruction in flight, as the fetch latched it (R32, R147, R150): its line's header, word index, length and
first two words. -/
structure Issue where
  header : Word
  index : Nat
  len : Nat
  iw0 : IWord
  iw1 : IWord
  deriving DecidableEq, Repr

/-- The device's record of one workspace's task: its thread-scope state registers (R166), its state (R42), what it waits
for, and the cycle at which it last became ready (R48). The bytes of the workspace itself are scratchpad. -/
structure Task where
  tstate : Nat
  pc : Word
  pastEnd : Bool
  fresh : Bool
  flags : Flags
  rmode : BitVec 3
  ften : BitVec 6
  deadm : BitVec 32
  fewait : BitVec 32
  prio : BitVec 2
  trapv : Word
  emulv : Word
  seed : Word
  qrem : Nat
  gang : Option Nat
  park : Park
  lateTrap : Option Trap
  resume : Option Nat
  issue : Issue
  colls : Nat
  readyAt : Nat
  deriving DecidableEq, Repr

/-- A slot that is being switched (R46, R50): who leaves and in which state, who enters, when it ends, and the beats it
still takes once a detached nest no longer keeps the incoming workspace out (R244). -/
structure Switch where
  outgoing : Option (Nat × Nat)
  incoming : Option Nat
  done : Nat
  blocked : Option Nat
  deriving DecidableEq, Repr

/-- The per-slot fault register of R111. -/
structure FaultReg where
  cause : Nat
  addr : Nat
  epc : Word
  deriving DecidableEq, Repr

/-- A thread slot: its resident workspace and register bank (R30, R43, R44), with the registers that hold an uncorrectable
error (R424). -/
structure Slot where
  ws : Option Nat
  bank : AMap Word
  live : BitVec 32
  dirty : BitVec 32
  bad : BitVec 32
  nextAt : Nat
  switching : Option Switch
  faultReg : FaultReg
  burrow : Bool
  deriving DecidableEq, Repr

/-- A circular-buffer handle and its started windows, oldest first (R252, R253): first slot, slots, finished. -/
structure Handle where
  v : Bool
  base : Nat
  ssz : Nat
  nslot : Nat
  drainp : Nat
  filled : Nat
  pres : Nat
  cheld : Nat
  prods : List (Nat × Nat × Bool)
  cons : List (Nat × Nat × Bool)
  deriving DecidableEq, Repr

/-- A queued or running nest (R240): its issuer, its fields, the vop as an index of R165, the operands read at issue,
where it stands, the cycle before which it does not start, whether its accesses have been made, its start, its time
and the cycle of its completion (R275), and, of a nest whose accesses were made before it started, the scratchpad bytes they
changed: offset, old, new (R80, R245). -/
structure NestCmd where
  id : Nat
  slot : Nat
  ws : Nat
  vop : Nat
  n : Nest
  pc : Word
  based : Nat
  basea : Nat
  baseb : Nat
  basem : Nat
  fill : Word
  rm : Nat
  ften : BitVec 6
  attached : Bool
  started : Bool
  first : Nat
  wins : List (Nat × Nat × Nat)
  flags : Flags
  finished : Option (Option Trap)
  fault : Option (Nat × Nat)
  mask : Option (List Byte)
  maskStop : Option (Nat × Trap)
  fabData : AMap Nat
  fabWait : Option Nat
  ready : Nat
  ran : Bool
  start : Nat
  time : Nat
  due : Nat
  undo : List (Nat × Byte × Byte)
  deriving DecidableEq, Repr

/-- What the running nest has asked of other memories, the farthest of it, and its elements that need the second phase
(R270, R275; the cycles thread accesses take from it at the SRAM port are not counted, log 41), the bytes it has
replaced, by place, the values that bytes which elements share have for the Gets of units, by unit and Get, the shared bytes
the present unit has read, and whether the rest of the nest runs out (R248; log 2). -/
structure NestLog where
  lines : List Nat
  far : Nat
  second : Nat
  olds : List (Nat × Byte)
  chosen : List (Nat × Nat × Byte)
  gets : Nat
  whole : Bool
  deriving DecidableEq, Repr

/-- A nest that has asked for nothing yet. -/
def NestLog.reset : NestLog := ⟨[], 0, 0, [], [], 0, false⟩

/-- A queued array command (R284, R286): its issuer, kind 0 ldst to 5 end, fields, the operands read at issue, whether it
has started and when, the cycle its path is free again, the rows a drain has written, whether it may write, and the page
of its clasp that it waits for, its producer, the bytes it has written and not yet counted (R100), and the cycle at which
it is handed to the queue (R32). -/
structure MaCmd where
  id : Nat
  slot : Nat
  ws : Nat
  kind : Nat
  c : EngCmd
  base : Nat
  pitch : Nat
  clasp : Nat
  rm : Nat
  draw : Nat
  seed : Word
  rank : Nat
  stream : Nat
  world : Nat
  pc : Word
  stamp : Nat
  started : Bool
  start : Nat
  due : Nat
  rows : Nat
  bad : Bool
  fault : Option Nat
  win : Option (Nat × Nat)
  owed : Nat
  ready : Nat
  deriving DecidableEq, Repr

/-- A queued copy command (R292): its issuer, kind 0 cp to 3 coll, descriptor and clasp addresses. -/
structure CopyCmd where
  id : Nat
  core : Nat
  ws : Nat
  world : Nat
  pc : Word
  kind : Nat
  desc : Nat
  clasp : Nat
  stamp : Nat
  coll : Option (Nat × Nat)
  deriving DecidableEq, Repr

/-- A copy command in an engine place (R292, R294): its descriptor's bytes, the next piece, whether it must still set E,
whether it has stopped, its producer (handle, first slot), the address it waits for, what has come back through a
fabric window for its present piece, with the access that waits there (address, bytes, write), the bytes it has
written and not yet counted (R100), the cycle from which its next piece can be written (R299), the bytes it has
replaced, by place, the bytes that its runs are to write, settled by run and byte of the run (R295), and the index of its
present run (R296). -/
structure CopyRun where
  cmd : CopyCmd
  bytes : Option (List Byte)
  next : Nat
  bad : Bool
  done : Bool
  win : Option (Nat × Nat)
  fault : Option Nat
  fab : List (Nat × List Byte)
  fabWait : Option (Nat × Nat × Bool)
  owed : Nat
  due : Nat
  olds : List (Nat × Byte)
  fixed : List (Nat × Nat × Byte)
  index : Option (Nat × Nat)
  deriving DecidableEq, Repr

/-- A declared tensor (R301 to R303, R319, R322): `early` and `late` are the pending wakes of the next pass's start and of
a pass's end (R314), `bits` the skip map, bead k at bit k (R315). -/
structure Tensor where
  declared : Bool
  base : Nat
  skip : Nat
  dims : Nat × Nat × Nat
  window : Nat
  plen : Nat
  edgev : Word
  edgec : Word
  prog : List IWord
  pcnt : Nat
  early : List Nat
  late : List Nat
  flags : Flags
  bits : Nat
  flt : Bool
  qui : Bool
  alld : Bool
  ndone : Nat
  nact : Nat
  deriving DecidableEq, Repr

/-- A queued or running `bd.pass` (R320); `free` is the cycle its rebuild or its last pass ends (R326), `dead` says that its
task has been ended (R325). -/
structure PassCmd where
  id : Nat
  slot : Nat
  ws : Nat
  t : Nat
  left : Nat
  unlimited : Bool
  async : Bool
  qstop : Bool
  clasp : Nat
  world : Nat
  pc : Word
  stamp : Nat
  running : Bool
  stop : Option (Option Trap)
  free : Nat
  dead : Bool
  deriving DecidableEq, Repr

/-- The visit of one bead while its words run (R306, R313): the model's own working copy. -/
structure Visit where
  t : Nat
  k : Nat
  e : Word
  l : BitVec 32
  regs : AMap Word
  pc : Nat
  steps : Nat
  stop : Nat
  wk : Nat
  warg : Nat
  trap : Option Trap
  ran : Bool
  wakes : Nat
  accesses : Nat
  deriving DecidableEq, Repr

/-- An L1 line's copy (R70, R71): its world-memory bytes as last read or written, the lease end, the cycle from which it is
no longer used (R73), the page-table entry it was filled under, which a hit goes by (R120), and the 64-bit words of it, by their
numbers in memory, that hold an uncorrectable error (R425). -/
structure L1Line where
  rts : Nat
  til : Nat
  owned : Bool
  pte : Nat
  big : Bool
  pa : Nat
  data : List Byte
  bad : List Nat
  deriving DecidableEq, Repr

/-- A line an L2 or LLC slice holds (R14, R411, R413): its way, its world and its number, and in an L2 slice whether its
bytes there are newer than those behind it (R23). Its bytes are world memory's. -/
structure CacheLine where
  way : Nat
  world : Nat
  line : Nat
  dirty : Bool
  deriving DecidableEq, Repr

/-- A fetch line in the instruction cache: its address, header and 30 words (R147, R201), and which of its sixteen 64-bit
words hold an uncorrectable error (R112, R424). -/
structure ILine where
  base : Nat
  header : Word
  words : List IWord
  bad : List Nat
  deriving DecidableEq, Repr

/-- A cached translation (R120): its world, virtual page base, whether it is a 512 MiB page, the leaf entry; and from which
cycle its TLB holds it, when the walk is over. -/
structure TlbEntry where
  world : Nat
  vbase : Nat
  big : Bool
  pte : Nat
  held : Nat
  deriving DecidableEq, Repr

/-- A change a thread has made to a handle: the handle before and after it, and the cycle from which the core's other
slots see it (R38, R257). -/
structure HandleEdit where
  handle : Nat
  seen : Nat
  before : Handle
  after : Handle
  deriving DecidableEq, Repr

/-- One logical core: everything of R14's "Per core" table. `late` is the model's own: the time the acting thread's last
translation added (R120). -/
structure Core where
  world : Nat
  gang : Option Nat
  scratch : List Host.Cell
  full : List Nat
  spoison : List Nat
  hts : Nat
  ptsOff : Nat
  tq : BitVec 32
  tqNew : List (Nat × BitVec 32)
  lease : Nat
  commons : AMap Word
  commonsNew : List (Nat × Nat × Word)
  handles : AMap Handle
  edits : List HandleEdit
  slots : AMap Slot
  tasks : AMap Task
  ready : AMap (List Nat)
  feWait : List Request
  clWait : List Request
  sendWait : List Request
  l1 : AMap L1Line
  lmiss : List (Nat × Nat)
  icache : AMap (List ILine)
  ireq : List (Nat × Nat)
  tlb : List TlbEntry
  late : Nat
  hcache : List Nat
  vq : List NestCmd
  vlast : Nat
  nestLog : NestLog
  held : List NestCmd
  mq : List MaCmd
  jobOpen : Bool
  jobCmds : Nat
  jobCycles : Nat
  shadowTag : Nat
  activeTag : Nat
  accTag0 : Nat
  accTag1 : Nat
  cq : List CopyCmd
  tensors : AMap Tensor
  sq : List PassCmd
  visit : Option Visit
  scrubUntil : Nat
  scanDue : Nat
  deriving DecidableEq, Repr

/-- One sett's matrix array, copy engine and TLB (R277, R280, R292, R120). Tags: 0 empty, else 1 + the type code for a
stationary plane, 1 F or 2 I for an accumulator; `enter0` and `enter1` are the cycles from which a drain of each accumulator may start (R282). -/
structure Sett where
  planes : AMap Nat
  pairs : AMap Nat
  acc0 : AMap Nat
  acc1 : AMap Nat
  active : Nat
  tag0 : Nat
  tag1 : Nat
  atag0 : Nat
  atag1 : Nat
  pos : Nat
  grants : Nat
  granted : Option Nat
  freeAt : Nat
  enter0 : Nat
  enter1 : Nat
  jobBad : Bool
  places : AMap CopyRun
  lastCore : Nat
  tlb : List TlbEntry
  deriving DecidableEq, Repr

/-- A world-memory line's home state (R70). -/
structure HomeLine where
  wts : Nat
  rts : Nat
  owner : Option Nat
  watched : Nat
  deriving DecidableEq, Repr

/-- A handle-table entry with the object's layout (R374, R378). -/
structure ObjEntry where
  valid : Bool
  owner : Nat
  gen : Nat
  lo : Nat
  hi : Nat
  textEnd : Nat
  dataLo : Nat
  textLen : Nat
  frame : Nat
  entries : List Word
  etab : Nat
  deriving DecidableEq, Repr

/-- A record of an update log (R91, R94). -/
structure ULogRec where
  log : Nat
  addr : Nat
  value : Nat
  op : Nat
  rank : Nat
  seq : Nat
  slice : Nat
  spilled : Bool
  deriving DecidableEq, Repr

/-- A request that leaves through a fabric window (R416, R419, R422): which access of this device it is, its target, the link
and the sealed flits that carry it there; its data leaves in them alone (R420). -/
structure FabricOut where
  world : Nat
  win : Nat
  off : Nat
  n : Nat
  write : Bool
  dev : Nat
  port : Nat
  flits : List (List Byte)
  deriving DecidableEq, Repr

/-- What the resident service or a port reports outwards (R100, R110, R347, R369, R374, R407, R420, R423, R428). -/
inductive Report where
  | taskEnd (world core ws cause sub : Nat)
  | claspLost (world core pc clasp cause : Nat)
  | run (world : Nat) (committed : Bool) (cause sub : Nat) (pc faddr : Nat) (meter code : Nat) (log : List Byte)
      (dropped : Nat) (gens : AMap Nat)
  | rejected (world field : Nat)
  | image (world : Nat) (bytes : List Byte)
  | load (world handle gen reason : Nat) (rec_ : Option Nat) (field : Nat)
  | residency (dev : BitVec 21) (seq : Nat) (free : List Nat) (use : List (Nat × Nat × Nat))
  | cipher (slot status : Nat)
  | ciphered (net : Bool) (slot : Nat) (out : List (List Byte))
  | deciphered (net : Bool) (slot : Nat) (text : List (Option (List Byte)))
  | revoked (net : Bool) (slot : Nat)
  | quote (world : Nat) (items : List Byte) (sig : List Byte) (part : List Byte)
  | journal (entries : List Byte) (head ovf : Nat) (chain : List Byte) (sig : List Byte)
  | pageLost (world va : Nat)
  | fabricReq (b : FabricOut)
  | fabricAns (port : Nat) (ok : Bool) (flits : List (List Byte))
  | refusedWorld
  | worldMade (world : Nat)
  | queueMade (q : Nat)
  | queueRefused (world : Nat)
  | remoteRefused (q : Nat)
  deriving DecidableEq, Repr

/-- A world (R410 to R412); `ends` is the cycle at which the scrubs of its destruction are over (R415), and `ways` its L2 ways
(R413). -/
structure World where
  used : Bool
  policy : BitVec 512
  root : Nat
  m0 : Nat
  handles : AMap ObjEntry
  fwins : AMap (BitVec 256)
  ulogs : List ULogRec
  lost : List Nat
  tcache : List (BitVec 256 × List Byte)
  waiting : List (BitVec 256 × List Byte)
  attest : List (BitVec 512)
  dying : Bool
  ends : Option Nat
  ways : List Nat
  deriving DecidableEq, Repr

/-- A collective of a gang while members issue it and while it runs (R298): each member's command by rank, the address
it waits for, what has come back through fabric windows with the access that waits there, whether it must still set E,
the clasps whose pages the service has refused (R100), and the cycle of its completion, once it is known (R299). -/
structure Coll where
  m : Nat
  cmds : AMap CopyCmd
  running : Bool
  fault : Option Nat
  fab : List (Nat × List Byte)
  fabWait : Option (Nat × Nat × Nat × Bool)
  bad : Bool
  lost : List Nat
  due : Option Nat
  deriving DecidableEq, Repr

/-- A setting of E in the clasp of a command that has been stopped, which waits for the clasp's page (R100, R114). -/
structure Spoil where
  core : Nat
  world : Nat
  pc : Nat
  clasp : Nat
  stamp : Nat
  deriving DecidableEq, Repr

/-- A gang (R58 to R63, R115, R116). `phase`: 0 placed, 1 running, 2 pre-empted, 3 ended, 4 stopping for pre-emption;
`leaveAt` is then the cycle at which its threads' switches are over, once they have begun (R46). -/
structure Gang where
  phase : Nat
  world : Nat
  q : Nat
  k : Nat
  item : Option Nat
  gx : Nat
  gy : Nat
  w : Nat
  h : Nat
  mask : Nat
  n : Nat
  wsb : Nat
  cores : List Nat
  home : List Nat
  prio : Nat
  maw : Nat
  entry : Word
  trapv : Word
  emulv : Word
  args : List Word
  seed : Word
  stream : Word
  fewait : Nat
  tq : Nat
  releaseAt : Nat
  leaveAt : Option Nat
  arrivals : AMap (List Nat)
  arrPts : AMap Nat
  arrDue : AMap Nat
  colls : List Coll
  saved : List Core
  savedSett : List (Nat × Sett)
  failure : Option FailInfo
  translation : Bool
  deriving DecidableEq, Repr

/-- A window entry's state (R388). -/
inductive WState where
  | loaded | dispatched | done
  deriving DecidableEq, Repr

/-- A stage while it is dispatched (R405): its running gangs with their items, the items retired beyond FREED, the output
reservations it still owes back, the PROD and CLOSED it last observed, and what stops it. -/
structure StageRun where
  body : StageBody
  gangs : List (Nat × Nat)
  retired : List Nat
  owed : Nat
  seen : Nat × Bool
  stopped : Option StatusInfo
  deriving DecidableEq, Repr

/-- A packet in a queue's window (R388): whether it is ready now, and since when it first was (R391). -/
structure WEntry where
  k : Nat
  instr : Instr
  state : WState
  isReady : Bool
  readySince : Option Nat
  poll : Nat
  expire : Option Nat
  stage : Option StageRun
  copy : Option CopyRun
  status : Option StatusInfo
  deriving DecidableEq, Repr

/-- A front-end queue (R380, R381, R387, R396). STATE: 1 ACTIVE, 2 FAULT, 3 HALTED; `stuck` is the packet whose work stopped
it, and `owes` says that its control block could not be written yet (R383). -/
structure Queue where
  made : Bool
  world : Nat
  cls : Nat
  weight : Nat
  remote : Bool
  qcb : Nat
  ring : Nat
  log2n : Nat
  state : Nat
  reason : Nat
  faddr : Nat
  tokens : BitVec 64
  widx : Nat
  ridx : Nat
  readPos : Nat
  window : List WEntry
  loops : List (Nat × Nat × Nat)
  skip : Nat
  turn : Nat
  guard : Bool
  faultAt : Nat
  stuck : Option Nat
  owes : Bool
  deriving DecidableEq, Repr

/-- A front-end unit (R380, R389, R391): the round-robin positions of its classes and when it may dispatch next. -/
structure FeUnit where
  pos : AMap Nat
  nextAt : Nat
  deriving DecidableEq, Repr

/-- A burrow (R330, R342 to R361). -/
structure Burrow where
  active : Bool
  world : Nat
  gang : Nat
  z : AMap Word
  pc : Nat
  inBytes : List Byte
  out : List Host.Cell
  outSize : Nat
  scr : List Host.Cell
  meter : Nat
  budget : Nat
  heapMax : Nat
  begun : List (Nat × Nat)
  ended : List (Nat × Nat × Nat)
  openF : Option (Nat × Nat)
  provs : List (Nat × Nat × Nat × Nat)
  relocs : List (Nat × Nat × Nat × Nat)
  log : List Byte
  dropped : Nat
  committed : Bool
  key : BitVec 256
  published : List Byte
  deriving DecidableEq, Repr

/-- A key slot (R420, R421). State: 0 EMPTY, 1 LIVE, 2 REVOKING. `accepted` are the commands its engine has accepted and not
completed, oldest first: whether it decrypts, a storage transfer's first byte or a packet's counter, and the data. -/
structure KeySlot where
  state : Nat
  world : Nat
  key1 : BitVec 256
  key2 : BitVec 256
  salt : BitVec 32
  accepted : List (Bool × Nat × List Byte)
  counter : Nat
  deriving DecidableEq, Repr

/-- A link (R422): whether it is up and the two directions' counters and keys. -/
structure Link where
  down : Bool
  sent : BitVec 64
  received : BitVec 64
  keySent : BitVec 256
  keyReceived : BitVec 256
  deriving DecidableEq, Repr

/-- An error-journal entry without its chain (R426). -/
structure JEntry where
  boot : Nat
  time : Nat
  kind : Nat
  phys : Nat
  cls : Nat
  count : Nat
  synd : Word
  addr : Nat
  world : Nat
  deriving DecidableEq, Repr

/-- A unit that is not enabled (R25): STATE 1 or 2, and the journal index of its failure. -/
structure UnitRec where
  state : Nat
  jidx : Nat
  deriving DecidableEq, Repr

/-- A shootdown in progress (R121, R402). -/
structure Shoot where
  id : Nat
  world : Nat
  va : Nat
  len : Nat
  big : Bool
  origin : Option (Nat × Nat)
  deriving DecidableEq, Repr

/-- What the next step runs: an event of the device, a thread's beat, a burrow's beat, or the passing of a cycle. -/
inductive Turn where
  | event (i : Instr)
  | thread (core slot : Nat)
  | burrow (core slot : Nat)
  | bead (core : Nat)
  | cycle
  deriving DecidableEq, Repr

/-- What an engine command has written and nobody has acquired yet (R84): the command, its world, the place of the first
byte, and by byte the earlier value and the engine's, none where they agree or the byte is settled. Once the bytes are
counted (R100): the place of the clasp, and the phase, none where they count into no phase. `core` issued it; 2048 and the
queue's number stand for a bridge. -/
structure Unsettled where
  id : Nat
  core : Nat
  world : Nat
  key : Nat
  bytes : List (Option (Byte × Byte))
  counted : Option (Nat × Option Nat)
  deriving DecidableEq, Repr

/-- The whole device. `actCore` and `actSlot` name the core and slot whose instruction or engine event is in hand; `feStamp`
is the stamp that the front end carries, as a core carries its pts (R390, R432; log 73). -/
structure State where
  booted : Bool
  recovery : Bool
  cycle : Nat
  time : Nat
  turn : Turn
  inbox : List Instr
  actCore : Nat
  actSlot : Nat
  freeCount : Nat
  nextId : Nat
  ptsTicks : Nat
  idle : Nat
  cap : Nat
  share : Nat
  alarm : Bool
  cores : AMap Core
  setts : AMap Sett
  mem : List Host.Cell
  poison : List Nat
  unsettled : List Unsettled
  home : AMap HomeLine
  homeFloor : AMap Nat
  l2hts : AMap Nat
  llchts : AMap Nat
  l2 : AMap (List CacheLine)
  llc : AMap (List CacheLine)
  walks : AMap (List Nat)
  inflight : List Request
  settling : List UnitRef
  units : AMap UnitRec
  homeTab : AMap Nat
  worlds : AMap World
  gangs : AMap Gang
  queues : AMap Queue
  feUnits : AMap FeUnit
  feStamp : Nat
  shoots : List Shoot
  burrows : AMap Burrow
  fmtWins : AMap (BitVec 256)
  fabIn : List (FabricReq × Option Nat)
  spoils : List Spoil
  exports : AMap (BitVec 256)
  keys : AMap KeySlot
  links : AMap Link
  journal : List JEntry
  ovf : Nat
  coalesce : List JEntry
  bootCount : Nat
  config : List UnitRef
  pendingConfig : Option (List UnitRef)
  platformLog : List (BitVec 512)
  reports : List Report
  residencySeq : Nat
  residencyDue : Nat
  memScanDue : Nat
  capDue : Nat
  deriving DecidableEq, Repr

/-- Why the machine stops with a fault. -/
inductive Fault where
  /-- A thread's translated access lies beyond the physical address space the part's HBM channels back (R9, R21): the
  spec gives such an access no effect. Raised by loads, stores and fetches. Safe: the model stops. -/
  | absentMemory
  deriving DecidableEq, Repr

/-- Why the machine refuses an instruction. -/
inductive Refusal where
  /-- The instruction has no meaning in the model yet. Raised by the dispatch alone. Safe: the model stops. -/
  | notModelled (mnemonic : String)
  deriving DecidableEq, Repr

/-- A workspace that has held no task: not live, every thread register at its reset value (R44, R97, R166; log 11). -/
def Task.reset : Task where
  tstate := 4
  pc := 0
  pastEnd := false
  fresh := false
  flags := 0
  rmode := 0
  ften := 0
  deadm := 0x0000FF00
  fewait := 65536
  prio := 0
  trapv := 0
  emulv := 0
  seed := 0
  qrem := 0
  gang := none
  park := .run
  lateTrap := none
  resume := none
  issue := ⟨0, 0, 1, 0, 0⟩
  colls := 0
  readyAt := 0

/-- An empty slot: every register dead (log 11). -/
def Slot.reset : Slot where
  ws := none
  bank := []
  live := 0
  dirty := 0
  bad := 0
  nextAt := 0
  switching := none
  faultReg := ⟨0, 0, 0⟩
  burrow := false

/-- An undefined handle (R252). -/
def Handle.reset : Handle := ⟨false, 0, 0, 0, 0, 0, 0, 0, [], []⟩

/-- An undeclared tensor slot (R322: it reads as zero). -/
def Tensor.reset : Tensor :=
  ⟨false, 0, 0, (1, 1, 1), 0, 0, 0, 0, [], 0, [], [], 0, 0, false, false, false, 0, 0⟩

/-- A core after boot's scrub (R414, R430). -/
def Core.reset : Core where
  world := 0
  gang := none
  scratch := []
  full := []
  spoison := []
  hts := 0
  ptsOff := 0
  tq := 0
  tqNew := []
  lease := 16
  commons := []
  commonsNew := []
  handles := []
  edits := []
  slots := []
  tasks := []
  ready := []
  feWait := []
  clWait := []
  sendWait := []
  l1 := []
  lmiss := []
  icache := []
  ireq := []
  tlb := []
  late := 0
  hcache := []
  vq := []
  vlast := 15
  nestLog := NestLog.reset
  held := []
  mq := []
  jobOpen := false
  jobCmds := 0
  jobCycles := 0
  shadowTag := 0
  activeTag := 0
  accTag0 := 0
  accTag1 := 0
  cq := []
  tensors := []
  sq := []
  visit := none
  scrubUntil := 0
  scanDue := 10000

/-- A sett with an idle array and copy engine (R278, R280, R292). -/
def Sett.reset : Sett where
  planes := []
  pairs := []
  acc0 := []
  acc1 := []
  active := 0
  tag0 := 0
  tag1 := 0
  atag0 := 0
  atag1 := 0
  pos := 0
  grants := 0
  granted := none
  freeAt := 0
  enter0 := 0
  enter1 := 0
  jobBad := false
  places := []
  lastCore := 7
  tlb := []

/-- A line no one has touched (R70). -/
def HomeLine.reset : HomeLine := ⟨0, 0, none, 0⟩

/-- A world that does not exist (R410). -/
def World.reset : World := ⟨false, 0, 0, 0, [], [], [], [], [], [], [], false, none, []⟩

/-- A handle-table entry never written (R378). -/
def ObjEntry.reset : ObjEntry := ⟨false, 0, 0, 0, 0, 0, 0, 0, 0, [], 0⟩

/-- A gang that does not exist. -/
def Gang.reset : Gang where
  phase := 3
  world := 0
  q := 0
  k := 0
  item := none
  gx := 0
  gy := 0
  w := 1
  h := 1
  mask := 1
  n := 1
  wsb := 0
  cores := []
  home := []
  prio := 0
  maw := 1
  entry := 0
  trapv := 0
  emulv := 0
  args := []
  seed := 0
  stream := 0
  fewait := 0
  tq := 0
  releaseAt := 0
  leaveAt := none
  arrivals := []
  arrPts := []
  arrDue := []
  colls := []
  saved := []
  savedSett := []
  failure := none
  translation := false

/-- A queue never created (R380). -/
def Queue.reset : Queue :=
  ⟨false, 0, 0, 1, false, 0, 0, 6, 1, 0, 0, 0, 0, 0, 0, [], [], 0, 0, false, 0, none, false⟩

/-- A front-end unit after boot. -/
def FeUnit.reset : FeUnit := ⟨[], 0⟩

/-- A slot with no burrow. -/
def Burrow.reset : Burrow :=
  ⟨false, 0, 0, [], 0, [], [], 0, [], 0, 0, 0, [], [], none, [], [], [], 0, false, 0, []⟩

/-- An EMPTY key slot (R421). -/
def KeySlot.reset : KeySlot := ⟨0, 0, 0, 0, 0, [], 0⟩

/-- A link as boot trains it (R430; log 11). -/
def Link.reset : Link := ⟨false, 0, 0, 0, 0⟩

/-- The device right after reset: nothing has run; the first turn is the boot of R430, with a verified image and a
configuration record that maps nothing out (log 10, log 11). -/
def State.reset : State where
  booted := false
  recovery := false
  cycle := 0
  time := 0
  turn := .event (.boot true)
  inbox := []
  actCore := 0
  actSlot := 0
  freeCount := 0
  nextId := 1
  ptsTicks := 0
  idle := 0
  cap := 0
  share := 0
  alarm := false
  cores := []
  setts := []
  mem := []
  poison := []
  unsettled := []
  home := []
  homeFloor := []
  l2hts := []
  llchts := []
  l2 := []
  llc := []
  walks := []
  inflight := []
  settling := []
  units := []
  homeTab := []
  worlds := []
  gangs := []
  queues := []
  feUnits := []
  feStamp := 0
  shoots := []
  burrows := []
  fmtWins := []
  fabIn := []
  spoils := []
  exports := []
  keys := []
  links := []
  journal := []
  ovf := 0
  coalesce := []
  bootCount := 0
  config := []
  pendingConfig := none
  platformLog := []
  reports := []
  residencySeq := 0
  residencyDue := 0
  memScanDue := 86400000000
  capDue := 0

end Sys2Proof.Machine
end

