-- ==== Sys2Proof/Machine/Buffers.lean ====
section
/-! DEFINITION. Circular-buffer handles: starting and completing producers and consumers (R252 to R254), and the windows
an attached nest that trapped still holds (R251). -/

namespace Sys2Proof.Machine

/-- A handle of a core. -/
def Core.handle (k : Core) (h : Nat) : Handle := AMap.get Handle.reset k.handles h
/-- Replace a handle. -/
def Core.putHandle (k : Core) (h : Nat) (x : Handle) : Core := { k with handles := AMap.put k.handles h x }

/-- A handle without an edit: what engines have changed since stays (R38, R257; log 66). -/
def HandleEdit.undo (e : HandleEdit) (x : Handle) : Handle :=
  if e.before.v = e.after.v ∧ e.before.base = e.after.base ∧ e.before.ssz = e.after.ssz ∧ e.before.nslot = e.after.nslot then
    { x with filled := x.filled + e.before.filled - e.after.filled,
             drainp := (x.drainp + x.nslot + e.before.drainp - e.after.drainp) % max 1 x.nslot }
  else e.before

/-- A handle as an instruction that issues at a cycle reads it: edits are seen from c + 8 (R38, R257). -/
def Core.handleAt (k : Core) (now h : Nat) : Handle :=
  (k.edits.filter (fun e => e.handle == h && decide (now < e.seen))).foldr HandleEdit.undo (k.handle h)

/-- Make a thread's edit of a handle (R257). -/
def Core.editHandle (k : Core) (now h : Nat) (f : Handle → Handle) : Core :=
  let x := k.handle h
  { k.putHandle h (f x) with edits := k.edits.filter (fun e => decide (now < e.seen)) ++ [⟨h, now + 8, x, f x⟩] }

/-- Free slots (R252). -/
def Handle.free (x : Handle) : Nat := x.nslot - x.filled - x.pres
/-- Available slots (R252). -/
def Handle.available (x : Handle) : Nat := x.filled - x.cheld

/-- The first slot a producer that starts now gets (R253). -/
def Handle.prodFirst (x : Handle) : Nat := (x.drainp + x.filled + x.pres) % max 1 x.nslot
/-- The first slot a consumer that starts now gets (R253). -/
def Handle.consFirst (x : Handle) : Nat := (x.drainp + x.cheld) % max 1 x.nslot

/-- Producer start (R253). -/
def Handle.startProd (x : Handle) (k : Nat) : Handle :=
  { x with pres := x.pres + k, prods := x.prods ++ [(x.prodFirst, k, false)] }
/-- Consumer start (R253). -/
def Handle.startCons (x : Handle) (k : Nat) : Handle :=
  { x with cheld := x.cheld + k, cons := x.cons ++ [(x.consFirst, k, false)] }

/-- Complete the finished producers that head their list (R253: in the order they started). -/
def Handle.settleProds (x : Handle) : List (Nat × Nat × Bool) → Handle
  | (_, k, true) :: r => ({ x with pres := x.pres - k, filled := x.filled + k }).settleProds r
  | l => { x with prods := l }
/-- Complete the finished consumers that head their list (R253). -/
def Handle.settleCons (x : Handle) : List (Nat × Nat × Bool) → Handle
  | (_, k, true) :: r =>
    ({ x with cheld := x.cheld - k, filled := x.filled - k, drainp := (x.drainp + k) % max 1 x.nslot }).settleCons r
  | l => { x with cons := l }

/-- A window that starts at a slot has finished. -/
def markFinished (first : Nat) (l : List (Nat × Nat × Bool)) : List (Nat × Nat × Bool) :=
  l.map (fun w => if w.1 == first then (w.1, w.2.1, true) else w)

/-- Producer completion (R253). -/
def Handle.endProd (x : Handle) (first : Nat) : Handle := x.settleProds (markFinished first x.prods)
/-- Consumer completion (R253). -/
def Handle.endCons (x : Handle) (first : Nat) : Handle := x.settleCons (markFinished first x.cons)

/-- Complete the windows of a nest: operand 0 is a producer, operands 1 and 2 are consumers (R251, R253, R255). -/
def Core.endWindows (k : Core) (wins : List (Nat × Nat × Nat)) : Core :=
  wins.foldl (fun k w =>
    let x := k.handle w.2.1
    k.putHandle w.2.1 (if w.1 = 0 then x.endProd w.2.2 else x.endCons w.2.2)) k

/-- Complete the windows that a trapped nest of a workspace still holds (R251: left in another way than by resuming). -/
def Core.settleHeld (k : Core) (ws : Nat) : Core :=
  let k1 := (k.held.filter (fun q => q.ws == ws)).foldl (fun k q => k.endWindows q.wins) k
  { k1 with held := k1.held.filter (fun q => q.ws != ws) }

/-- A nest that is discarded before it starts has no effect: the bytes its early accesses wrote are again as they were,
where nothing has been written over them since (R245; log 7). -/
def Core.unwrite (k : Core) (q : NestCmd) : Core :=
  if q.started then k
  else { k with scratch := q.undo.foldl (fun m e => if Memory.read m e.1 = e.2.2 then Memory.write m e.1 e.2.1 else m) k.scratch }

/-- Discard the nests of a task that has been ended; their windows complete (R245, R251, R253). -/
def Core.dropNests (k : Core) (ws : Nat) : Core :=
  let k1 := (k.vq.filter (fun q => q.ws == ws)).foldr (fun q k => (k.unwrite q).endWindows q.wins) k
  { k1 with vq := k1.vq.filter (fun q => q.ws != ws) }

/-- The commands of a task that has been ended: its nests are discarded, its bead passes are to be (R245, R325). -/
def Core.dropCommands (k : Core) (ws : Nat) : Core :=
  { k.dropNests ws with sq := k.sq.map (fun q => if q.ws = ws then { q with dead := true } else q) }

end Sys2Proof.Machine
end

