-- ==== Sys2Proof/Machine/Ops.lean ====
section
/-! DEFINITION. The named operations over the state: cores, slots, registers, bytes, the task record and ready lists,
leaving and entering a slot, sequential flow, and taking an exception with the return from it (R40 to R56, R107 to R110,
R150). -/

namespace Sys2Proof.Machine

/-! ## Access to the parts of the state -/

/-- A logical core. -/
def State.core (s : State) (c : Nat) : Core := AMap.get Core.reset s.cores c
/-- Replace a logical core. -/
def State.putCore (s : State) (c : Nat) (k : Core) : State := { s with cores := AMap.put s.cores c k }
/-- Change a logical core. -/
def State.modCore (s : State) (c : Nat) (f : Core → Core) : State := s.putCore c (f (s.core c))
/-- A slot of a core. -/
def Core.slot (k : Core) (i : Nat) : Slot := AMap.get Slot.reset k.slots i
/-- Replace a slot. -/
def Core.putSlot (k : Core) (i : Nat) (sl : Slot) : Core := { k with slots := AMap.put k.slots i sl }
/-- The device's record of a workspace's task. -/
def Core.task (k : Core) (ws : Nat) : Task := AMap.get Task.reset k.tasks ws
/-- Replace the record of a workspace's task. -/
def Core.putTask (k : Core) (ws : Nat) (t : Task) : Core := { k with tasks := AMap.put k.tasks ws t }
/-- A slot by core and number. -/
def State.slot (s : State) (c i : Nat) : Slot := (s.core c).slot i
/-- Change a slot. -/
def State.modSlot (s : State) (c i : Nat) (f : Slot → Slot) : State := s.putCore c ((s.core c).putSlot i (f (s.slot c i)))
/-- A task by core and workspace. -/
def State.task (s : State) (c ws : Nat) : Task := (s.core c).task ws
/-- Change a task. -/
def State.modTask (s : State) (c ws : Nat) (f : Task → Task) : State :=
  s.putCore c ((s.core c).putTask ws (f (s.task c ws)))
/-- A sett. -/
def State.sett (s : State) (n : Nat) : Sett := AMap.get Sett.reset s.setts n
/-- Replace a sett. -/
def State.putSett (s : State) (n : Nat) (t : Sett) : State := { s with setts := AMap.put s.setts n t }
/-- A world. -/
def State.world (s : State) (w : Nat) : World := AMap.get World.reset s.worlds w
/-- Replace a world. -/
def State.putWorld (s : State) (w : Nat) (x : World) : State := { s with worlds := AMap.put s.worlds w x }
/-- A gang. -/
def State.gang (s : State) (g : Nat) : Gang := AMap.get Gang.reset s.gangs g
/-- Replace a gang. -/
def State.putGang (s : State) (g : Nat) (x : Gang) : State := { s with gangs := AMap.put s.gangs g x }
/-- A queue. -/
def State.queue (s : State) (q : Nat) : Queue := AMap.get Queue.reset s.queues q
/-- Replace a queue. -/
def State.putQueue (s : State) (q : Nat) (x : Queue) : State := { s with queues := AMap.put s.queues q x }
/-- Report something outwards. -/
def State.report (s : State) (r : Report) : State := { s with reports := s.reports ++ [r] }

/-- Whether a core's gang is being stopped for pre-emption (R115). -/
def State.stopping (s : State) (c : Nat) : Bool :=
  match (s.core c).gang with
  | some g => (s.gang g).phase == 4
  | none => false

/-- The acting core. -/
def State.cur (s : State) : Core := s.core s.actCore
/-- The acting slot. -/
def State.curSlot (s : State) : Slot := s.slot s.actCore s.actSlot
/-- The workspace index of the acting slot (WP » 10, R40). -/
def State.curWs (s : State) : Nat := s.curSlot.ws.getD 0
/-- The acting thread's task record. -/
def State.curTask (s : State) : Task := s.task s.actCore s.curWs
/-- Change the acting slot. -/
def State.modCurSlot (s : State) (f : Slot → Slot) : State := s.modSlot s.actCore s.actSlot f
/-- Change the acting task. -/
def State.modCurTask (s : State) (f : Task → Task) : State := s.modTask s.actCore s.curWs f

/-! ## Registers (R43, R44, R176) -/

/-- A register of a bank: a dead one reads as zero (R44). -/
def Slot.reg (sl : Slot) (n : Nat) : Word := if sl.live.getLsbD n then AMap.get 0 sl.bank n else 0

/-- Write a register: it becomes live and dirty (R44, R46), and holds no error any more (R425). -/
def Slot.setReg (sl : Slot) (n : Nat) (v : Word) : Slot :=
  { sl with
    bank := AMap.put sl.bank n v, live := sl.live ||| (1#32 <<< n), dirty := sl.dirty ||| (1#32 <<< n), bad := sl.bad &&& ~~~(1#32 <<< n) }

/-- Mark dead every register named in a mask (R44). -/
def Slot.markDead (sl : Slot) (mask : BitVec 32) : Slot := { sl with live := sl.live &&& ~~~mask, bad := sl.bad &&& ~~~mask }

/-- W(r) of the acting thread (R8). -/
def State.rd (s : State) (r : BitVec 5) : Word := s.curSlot.reg r.toNat

/-- Write W(r) of the acting thread. -/
def State.wr (s : State) (r : BitVec 5) (v : Word) : State := s.modCurSlot (fun sl => sl.setReg r.toNat v)

/-- OR flags into the acting thread's FLAGS (R138). -/
def State.orFlags (s : State) (f : Flags) : State := s.modCurTask (fun t => { t with flags := t.flags ||| f })

/-! ## Bytes -/

/-- A number in a core's scratchpad. -/
def State.sNum (s : State) (c off n : Nat) : Nat := Memory.num (s.core c).scratch off n

/-- Write a number into a core's scratchpad, as the device itself does. -/
def State.sPut (s : State) (c off n v : Nat) : State :=
  s.modCore c (fun k => { k with scratch := Memory.putNum k.scratch off n v })

/-- Write bytes into a core's scratchpad, as the device itself does. -/
def State.sPutBytes (s : State) (c off : Nat) (bs : List Byte) : State :=
  s.modCore c (fun k => { k with scratch := Memory.writeN k.scratch off bs })

/-- A number in world memory by physical address. -/
def State.mNum (s : State) (pa n : Nat) : Nat := Memory.num s.mem pa n

/-! ## Timestamps (R70, R432) -/

/-- A core's program timestamp (R70). -/
def State.pts (s : State) (c : Nat) : Nat := s.ptsTicks + (s.core c).ptsOff

/-- pts := max(pts, x) (R71, R432). -/
def State.raisePts (s : State) (c x : Nat) : State :=
  s.modCore c (fun k => { k with ptsOff := max k.ptsOff (x - s.ptsTicks) })

/-! ## Numbering (R13, R18, R116) -/

/-- Whether a unit is enabled (R20, R25). -/
def State.enabled (s : State) (kind phys : Nat) : Bool :=
  (AMap.find s.units (kind * 65536 + phys)).isNone

/-- Whether a unit was enabled at boot, so that it has a logical number (R18, R22). -/
def State.numbered (s : State) (kind phys : Nat) : Bool :=
  match AMap.find s.units (kind * 65536 + phys) with
  | none => true
  | some u => u.state != 1

/-- Physical sett numbers in logical order (R18). -/
def State.settList (s : State) : List Nat := (List.range 256).filter (fun p => s.numbered 1 p)

/-- Physical core numbers, 8 × sett + index, in logical order (R18). -/
def State.coreList (s : State) : List Nat :=
  if s.units = [] then List.range 2048
  else (s.settList.flatMap (fun p => (List.range 8).map (fun i => 8 * p + i))).filter (fun x => s.numbered 2 x)

/-- The physical number of a logical core. -/
def State.physCore (s : State) (c : Nat) : Nat := if s.units = [] then c else (s.coreList[c]?.getD 0)

/-- The logical core of a physical number. -/
def State.logCore (s : State) (p : Nat) : Option Nat :=
  if s.units = [] then some p else
    let i := s.coreList.findIdx (fun x => x == p)
    if i < s.coreList.length then some i else none

/-- The logical sett of a logical core (R18). -/
def State.settOf (s : State) (c : Nat) : Nat :=
  if s.units = [] then c / 8 else s.settList.findIdx (fun p => p == s.physCore c / 8)

/-- The logical cores of a logical sett, by rising index (R18). -/
def State.settCores (s : State) (n : Nat) : List Nat :=
  if s.units = [] then (List.range 8).map (fun i => 8 * n + i)
  else
    let p := s.settList[n]?.getD 0
    (List.range 8).filterMap (fun i => if s.numbered 2 (8 * p + i) then s.logCore (8 * p + i) else none)

/-- The core a thread of a gang means by a logical number: a resumed gang's map (R116). -/
def State.mapCore (s : State) (c : Nat) (n : Nat) : Nat :=
  match (s.core c).gang with
  | none => n
  | some g =>
    let G := s.gang g
    let i := G.home.findIdx (fun x => x == n)
    if i < G.home.length then (G.cores[i]?.getD n) else n

/-- The number a thread's CORE register shows for its core (R116). -/
def State.shownCore (s : State) (c : Nat) : Nat :=
  match (s.core c).gang with
  | none => c
  | some g =>
    let G := s.gang g
    let i := G.cores.findIdx (fun x => x == c)
    if i < G.cores.length then (G.home[i]?.getD c) else c

/-! ## Sequential flow (R148, R150) -/

/-- Base address of the line that holds the issuing instruction. -/
def State.lineBase (s : State) : Word := s.curTask.pc - BitVec.ofNat 64 (8 + 4 * s.curTask.issue.index)

/-- Whether an SMASK bit from j to 29 is set (R150). -/
def startsFrom (header : Word) (j : Nat) : Bool := decide (j ≤ 29) && (header.toNat % 2 ^ 30) >>> j != 0

/-- The next instruction in sequence, or none past the end of a function (R150). -/
def State.nextPc? (s : State) : Option Word :=
  let j := s.curTask.issue.index + s.curTask.issue.len
  if startsFrom s.curTask.issue.header j then
    -- the next started word at or after j is word j itself (R149 checks it when it issues)
    some (s.lineBase + BitVec.ofNat 64 (8 + 4 * j))
  else if s.curTask.issue.header.getLsbD 62 then none
  else some (s.lineBase + 136)

/-- NPC and Link: the next instruction, else the last word's address plus 4 (R108, R206). -/
def State.npc (s : State) : Word := s.nextPc?.getD (s.curTask.pc + BitVec.ofNat 64 (4 * s.curTask.issue.len))

/-- Complete the issuing instruction in sequence after n rotations (R150, R177). -/
def State.finish (s : State) (n : Nat) : State :=
  (s.modCurTask (fun t => { t with pc := s.npc, pastEnd := s.nextPc?.isNone, resume := none })).modCurSlot
    (fun sl => { sl with nextAt := s.cycle + 16 * n })

/-- Complete the issuing instruction with a transfer after n rotations (R203, R210). -/
def State.finishAt (s : State) (tgt : Word) (n : Nat) : State :=
  (s.modCurTask (fun t => { t with pc := tgt, pastEnd := false, resume := none })).modCurSlot
    (fun sl => { sl with nextAt := s.cycle + 16 * n })

/-- Park the acting thread (R34, R36). -/
def State.parkCur (s : State) (p : Park) : State := s.modCurTask (fun t => { t with park := p })

/-- The first own beat of a slot at or after a cycle (R30). -/
def beatAt (slot c : Nat) : Nat := c + (16 + slot - c % 16) % 16

/-! ## The task record and the ready lists (R41, R42, R47) -/

/-- Scratchpad offset of a field of a workspace (R40). -/
def wsOff (ws off : Nat) : Nat := 1024 * ws + off

/-- A task holds its workspace live in these states (R41). -/
def liveState (t : Nat) : Bool := t == 0 || t == 1 || t == 2 || t == 3 || t == 5

/-- Bits [63:0] at 0x188 of the task record (R41). -/
def recWord (live : BitVec 32) (link tstate : Nat) (prio : BitVec 2) : Nat :=
  live.toNat * 2 ^ 32 + link % 65536 * 65536 + tstate % 16 * 16 + prio.toNat

/-- Set TSTATE in the device's record and in the task record's bytes (R41, R42). -/
def State.setTstate (s : State) (c ws st : Nat) : State :=
  let w := s.sNum c (wsOff ws 0x188) 8
  (s.modTask c ws (fun t => { t with tstate := st })).sPut c (wsOff ws 0x188) 8 (insertBits w 4 4 st)

/-- Set LINK in a task record's bytes (R41, R47). -/
def State.setLink (s : State) (c ws link : Nat) : State :=
  s.sPut c (wsOff ws 0x188) 8 (insertBits (s.sNum c (wsOff ws 0x188) 8) 16 16 link)

/-- One ready list of a core (R47). -/
def Core.readyList (k : Core) (p : Nat) : List Nat := AMap.get [] k.ready p

/-- The cycle at which what the turn in hand does to memory and to waiting threads holds. An instruction that issues at
c acts on memory at c + 6 (R32); the model performs it at its issue, and every request six cycles before it reaches its home,
so that they keep their order. -/
def State.effectAt (s : State) : Nat :=
  match s.turn with
  | .thread _ _ => s.cycle + 6
  | .event (.homeRequestArrival _) => s.cycle + 6
  | _ => s.cycle

/-- Join the tail of the PRIO list with TSTATE 0x0 or 0x5 (R47, R49). -/
def State.joinReady (s : State) (c ws st : Nat) : State :=
  let p := (s.task c ws).prio.toNat
  let l := (s.core c).readyList p
  let s := (s.setTstate c ws st).modTask c ws (fun t => { t with readyAt := s.effectAt })
  let s := s.setLink c ws 0xFFFF
  let s := match l.getLast? with
    | some tail => s.setLink c tail ws
    | none => s
  s.modCore c (fun k => { k with ready := AMap.put k.ready p (l ++ [ws]) })

/-- The highest-priority non-empty list's priority and head (R47). -/
def Core.readyHead (k : Core) : Option (Nat × Nat) :=
  (List.range 4).findSome? (fun p => match k.readyList p with
    | ws :: _ => some (p, ws)
    | [] => none)

/-- The highest-priority list whose head has been ready by a cycle, with that head (R47, R48). -/
def Core.readyBy (k : Core) (now : Nat) : Option (Nat × Nat) :=
  (List.range 4).findSome? (fun p => match k.readyList p with
    | ws :: _ => if (k.task ws).readyAt ≤ now then some (p, ws) else none
    | [] => none)

/-- Rewrite the LINK fields of a list whose order changed. -/
def State.relink (s : State) (c : Nat) : List Nat → State
  | [] => s
  | [a] => s.setLink c a 0xFFFF
  | a :: b :: r => (s.setLink c a b).relink c (b :: r)

/-- Take a task out of its ready list (R47, R228). -/
def State.leaveReady (s : State) (c ws : Nat) : State :=
  let s1 := (List.range 4).foldl (fun s p =>
    let l := (s.core c).readyList p
    if l.contains ws then
      let l' := l.filter (fun x => x != ws)
      (s.modCore c (fun k => { k with ready := AMap.put k.ready p l' })).relink c l'
    else s) s
  s1.setLink c ws 0xFFFF

/-- The slot a workspace is resident in. -/
def Core.slotOf (k : Core) (ws : Nat) : Option Nat := (List.range 16).find? (fun i => (k.slot i).ws == some ws)

/-! ## Banks and workspaces (R43, R45, R46) -/

/-- The 64-bit scratchpad words of the registers of a workspace that a mask names (R40). -/
def regWords (ws : Nat) (mask : BitVec 32) : List Nat := (setBits 32 mask.toNat).map (fun n => wsOff ws (8 * n) / 8)

/-- Write back the live dirty registers of a slot's bank (R45, R46). They stay dirty: only a load ends that. Each covers its
word, whose error it replaces by its own, if it has one (R425; log 77). -/
def State.writeBack (s : State) (c i : Nat) : State :=
  let sl := s.slot c i
  match sl.ws with
  | none => s
  | some ws =>
    let m := (List.range 32).foldl (fun m n =>
      if sl.live.getLsbD n && sl.dirty.getLsbD n then Memory.putNum m (wsOff ws (8 * n)) 8 (sl.reg n).toNat else m)
      (s.core c).scratch
    let gone := regWords ws (sl.live &&& sl.dirty)
    s.modCore c (fun k => { k with
      scratch := m, spoison := k.spoison.filter (fun w => !(gone.contains w)) ++ regWords ws (sl.live &&& sl.dirty &&& sl.bad) })

/-- How many registers of a bank are live and dirty (R46). -/
def Slot.dirtyCount (sl : Slot) : Nat := popCount 32 (sl.live &&& sl.dirty).toNat

/-- Write the task record of a workspace leaving its slot (R41). -/
def State.writeRecord (s : State) (c i ws st : Nat) : State :=
  let sl := s.slot c i
  let t := s.task c ws
  let s := s.sPut c (wsOff ws 0x180) 8 t.pc.toNat
  let s := s.sPut c (wsOff ws 0x188) 8 (recWord sl.live 0xFFFF st t.prio)
  let s := s.sPut c (wsOff ws 0x190) 8 (t.qrem * 2 ^ 32)
  s.sPut c (wsOff ws 0x198) 8 (t.ften.toNat * 65536 + t.rmode.toNat * 256 + t.flags.toNat)

/-- Whether a task record's reserved fields are zero (R41). -/
def State.recordOk (s : State) (c ws : Nat) : Bool :=
  let a := s.sNum c (wsOff ws 0x188) 8
  let b := s.sNum c (wsOff ws 0x190) 8
  let d := s.sNum c (wsOff ws 0x198) 8
  bitsOf a 8 8 == 0 && bitsOf a 2 2 == 0 && bitsOf b 0 32 == 0 && bitsOf d 22 42 == 0 && bitsOf d 11 5 == 0 &&
    bitsOf d 5 3 == 0 && (List.range 4).all (fun j => s.sNum c (wsOff ws (0x1A0 + 8 * j)) 8 == 0) &&
    (let st := bitsOf a 4 4; decide (st ≤ 6)) && decide (bitsOf d 8 3 ≤ 5)

/-- TQ as an instruction that issues now sees it: writes are seen from 8 cycles after their issue (R38, R237). -/
def State.tqNow (s : State) (c : Nat) : BitVec 32 :=
  (((s.core c).tqNew.filter (fun e => decide (e.1 ≤ s.cycle))).getLast?.map (fun e => e.2)).getD (s.core c).tq

/-- Load a workspace into a slot from its bytes and its task record, with QREM := TQ (R46, R49); a register takes its word's
error with its value (R425; log 77). -/
def State.loadWs (s : State) (c i ws : Nat) : State :=
  let a := s.sNum c (wsOff ws 0x188) 8
  let d := s.sNum c (wsOff ws 0x198) 8
  let live : BitVec 32 := BitVec.ofNat 32 (a / 2 ^ 32)
  let bank := (List.range 32).filterMap (fun n =>
    if live.getLsbD n then some (n, BitVec.ofNat 64 (s.sNum c (wsOff ws (8 * n)) 8)) else none)
  let tq := (s.tqNow c).toNat
  let bad := (List.range 32).foldl (fun m n =>
    if live.getLsbD n && (s.core c).spoison.contains (wsOff ws (8 * n) / 8) then m ||| (1#32 <<< n) else m) 0#32
  let s := s.modSlot c i (fun sl => { sl with ws := some ws, bank := bank, live := live, dirty := 0, bad := bad })
  let s := s.modTask c ws (fun t => { t with
    pc := BitVec.ofNat 64 (s.sNum c (wsOff ws 0x180) 8), prio := BitVec.ofNat 2 a,
    flags := BitVec.ofNat 5 d, rmode := BitVec.ofNat 3 (d / 256), ften := BitVec.ofNat 6 (d / 65536), qrem := tq })
  s.setTstate c ws 1

/-! ## Ending a task (R110, R114) -/

/-- The rank of a workspace's generator record (R40). -/
def State.rankOf (s : State) (c ws : Nat) : Nat := s.sNum c (wsOff ws 0x1C0) 8

/-- Report the end of a task: a member fails its gang, any other end is reported to its world (R110, R114). -/
def State.reportEnd (s : State) (c ws cause sub jidx : Nat) : State :=
  match (s.task c ws).gang with
  | some g =>
    let G := s.gang g
    let f : FailInfo := ⟨s.rankOf c ws, cause, jidx⟩
    s.putGang g { G with failure := match G.failure with
      | some o => if o.rank ≤ f.rank then some o else some f
      | none => some f }
  | none => s.report (.taskEnd (s.core c).world c ws cause sub)

/-- Switch a slot: its workspace leaves with a TSTATE and another, already out of the ready list, enters; the switch
takes the 2 or 3 beats from `first` (R46). -/
def State.switchOut (s : State) (c i st : Nat) (inc : Option Nat) (first : Nat) : State :=
  let sl := s.slot c i
  let beats := if sl.dirtyCount ≤ 16 then 2 else 3
  s.modSlot c i (fun sl => { sl with switching := some ⟨sl.ws.map (fun w => (w, st)), inc, first + 16 * beats, none⟩ })

/-- Begin to leave a slot with a TSTATE; a task of the ready lists, if one is given, enters after it (R46). -/
def State.leaveWith (s : State) (c i st first : Nat) (inc : Option (Nat × Nat)) : State :=
  match inc with
  | some (_, w) => (s.leaveReady c w).switchOut c i st (some w) first
  | none => s.switchOut c i st none first

/-- Begin to leave a slot with a TSTATE; the head of the ready queue enters after it (R46, R47, R227). -/
def State.leaveSlot (s : State) (c i st first : Nat) : State := s.leaveWith c i st first (s.core c).readyHead

/-- An ended task leaves its slot with TSTATE 0x6 (R110). One that is already leaving it takes that state as its switch
completes, and what comes after it comes as before (R50). -/
def State.quitSlot (s : State) (c i ws first : Nat) : State :=
  match (s.slot c i).switching with
  | some _ => s.modSlot c i (fun sl => { sl with switching := sl.switching.map (fun x => { x with outgoing := some (ws, 6) }) })
  | none => s.leaveSlot c i 6 first

/-- The acting slot's next beat after the present cycle (R30). -/
def State.nextBeat (s : State) : Nat := beatAt s.actSlot (s.cycle + 1)

/-- End the acting task with TSTATE 0x6 and report the cause (R110). -/
def State.endTask (s : State) (c i ws cause sub jidx : Nat) : State :=
  let s := s.reportEnd c ws cause sub jidx
  let s := s.modTask c ws (fun t => { t with park := .run, lateTrap := none, resume := none })
  let s := s.modCore c (fun k => (k.settleHeld ws).dropCommands ws)
  s.quitSlot c i ws (beatAt i (s.cycle + 1))

/-! ## Taking an exception and returning from it (R107 to R110) -/

/-- HND of a workspace's trap record (R108). -/
def State.hnd (s : State) (c ws : Nat) : Nat := bitsOf (s.sNum c (wsOff ws 0x100) 8) 30 2

/-- The first word of a trap record (R108). -/
def trapWord0 (flags : Flags) (hnd : Nat) (ev av : Bool) (ilen sub cause : Nat) : Nat :=
  flags.toNat * 2 ^ 32 + hnd % 4 * 2 ^ 30 + (if ev then 2 ^ 29 else 0) + (if av then 2 ^ 28 else 0) +
    ilen % 4 * 2 ^ 26 + sub % 65536 * 256 + cause % 256

/-- ILEN of the latched instruction (R153). -/
def State.ilen (s : State) : Nat := if s.curTask.issue.len = 2 then 1 else if s.curTask.issue.len = 8 then 2 else 0

/-- Write the trap record of the acting workspace (R108); `rpc` is R104's resume address. -/
def State.writeTrap (s : State) (t : Trap) (hnd : Nat) : State :=
  let c := s.actCore
  let ws := s.curWs
  let epc := s.curTask.pc
  let npc := if t.cause = 3 ∧ t.sub = 6 then epc else s.npc
  let rpc := if t.cause = 0x12 then npc else epc
  let s := s.sPut c (wsOff ws 0x100) 8
    (trapWord0 s.curTask.flags hnd t.eidx.isSome t.faddr.isSome s.ilen t.sub t.cause)
  let s := s.sPut c (wsOff ws 0x108) 8 epc.toNat
  let s := s.sPut c (wsOff ws 0x110) 8 (t.faddr.getD 0).toNat
  let s := s.sPut c (wsOff ws 0x118) 8 (s.curTask.issue.iw1.toNat * 2 ^ 32 + s.curTask.issue.iw0.toNat)
  let s := s.sPut c (wsOff ws 0x120) 8 (t.eidx.getD 0 % 2 ^ 32)
  let s := s.sPut c (wsOff ws 0x128) 8 npc.toNat
  let s := s.sPut c (wsOff ws 0x130) 8 rpc.toNat
  s.sPut c (wsOff ws 0x138) 8 0

/-- The handler vector and HND value for a cause: UNDEF goes to EMULV, the others to TRAPV (R104). -/
def Task.vector (t : Task) (cause : Nat) : Word × Nat := if cause = 1 then (t.emulv, 2) else (t.trapv, 1)

/-- A task at its handler's first instruction (R107). -/
def Task.atHandler (t : Task) (vec : Word) : Task :=
  { t with pc := vec, pastEnd := false, fresh := false, park := .run, lateTrap := none, resume := none }

/-- Take a trap determined at the issuing instruction: entry occupies two beats and the handler issues at the third
(R107); while a handler runs, or with no handler, the task is ended (R110). -/
def State.takeTrap (s : State) (t : Trap) : State :=
  let c := s.actCore
  let ws := s.curWs
  let h := s.hnd c ws
  let (vec, hv) := s.curTask.vector t.cause
  if h ≠ 0 then s.endTask c s.actSlot ws (if h = 2 then 0x15 else t.cause) t.sub 0
  else if vec = 0 then s.endTask c s.actSlot ws t.cause t.sub 0
  else
    let s1 := (s.writeTrap t hv).writeBack c s.actSlot
    (s1.modCurTask (fun k => k.atHandler vec)).modCurSlot (fun sl => { sl with nextAt := s.cycle + 48 })

/-- A plain trap with no address. -/
def trapOf (cause sub : Nat) : Trap := ⟨cause, sub, none, none⟩

/-- A trap with FADDR (AV = 1). -/
def trapAt (cause sub : Nat) (a : Nat) : Trap := ⟨cause, sub, some (BitVec.ofNat 64 a), none⟩

/-- UNDEF with a sub-cause (R104). -/
def State.undef (s : State) (sub : Nat) : State := s.takeTrap (trapOf 1 sub)

/-- Hand a fault to the resident service: the thread parks and the slot's fault register is written (R111). -/
def State.toService (s : State) (cause addr : Nat) : State :=
  (s.modCurSlot (fun sl => { sl with faultReg := ⟨cause, addr, s.curTask.pc⟩ })).parkCur
    (.service cause addr s.curTask.pc)

/-- Whether a return to an address resumes a nest at EIDX (R109). -/
def State.resumesNest (s : State) (tgt : Word) : Bool :=
  let c := s.actCore
  let ws := s.curWs
  let w0 := s.sNum c (wsOff ws 0x100) 8
  decide (tgt.toNat = s.sNum c (wsOff ws 0x108) 8) && bitOf w0 29 && bitsOf w0 26 2 == 2

/-- The part of `eret` after its landing check: FLAGS := FSNAP, HND := 0, and the resume address (R109). What software has
stored in the trap record's reserved bits is not looked at (log 31), and an address past its function's end is no longer
taken for one (log 17). -/
def State.returnFrom (s : State) (tgt : Word) : State :=
  let c := s.actCore
  let ws := s.curWs
  let w0 := s.sNum c (wsOff ws 0x100) 8
  let eidx := s.sNum c (wsOff ws 0x120) 4
  let s1 := s.sPut c (wsOff ws 0x100) 8 (insertBits w0 30 2 0)
  let flags : Flags := BitVec.ofNat 5 (w0 / 2 ^ 32)
  let resume := if s.resumesNest tgt then some eidx else none
  let s2 := s1.modCurTask (fun t => { t with flags := flags, pc := tgt, pastEnd := false, resume := resume })
  s2.modCurSlot (fun sl => { sl with nextAt := s.cycle + 16 })

/-- The state of an outcome that stops nowhere. -/
def State.after (s : State) (o : Host.Outcome State Fault Refusal) : State :=
  match o with
  | .next t => t
  | _ => s

end Sys2Proof.Machine
end

