-- ==== Sys2Proof/Machine/Journal.lean ====
section
/-! DEFINITION. Appending to the error journal (R426, R427), and the failure of a gang as it is recorded until the front
end acts on it (R114). -/

namespace Sys2Proof.Machine

/-- Whole microseconds since boot: the clock runs at 2.0 GHz (R10, R426). -/
def State.micros (s : State) : Nat := s.time / 2000

/-- An entry for one event (R426). -/
def State.entry (s : State) (kind phys cls addr world : Nat) : JEntry :=
  ⟨s.bootCount, s.micros, kind, phys, cls, 1, Config.syndrome s.freeCount, addr, world⟩

/-- Append an entry: its index, or 0xFFFF_FFFF when the journal is full and the event is counted in OVF (R426). -/
def State.append (s : State) (e : JEntry) : State × Nat :=
  if 4194304 ≤ s.journal.length then ({ s with ovf := s.ovf + 1 }, 0xFFFFFFFF)
  else ({ s with journal := s.journal ++ [e] }, s.journal.length + 1)

/-- Whether two entries name one unit and address (R427). -/
def JEntry.sameAs (e f : JEntry) : Bool := e.kind == f.kind && e.phys == f.phys && e.addr == f.addr

/-- Whether a unit holds physical memory: an L2 or LLC slice or an HBM channel. -/
def memoryKind (k : Nat) : Bool := decide (3 ≤ k) && decide (k ≤ 5)

/-- Whether an event is for the address of a coalesced entry (R427): memory's addresses are physical ones whichever unit held
them, and any other unit has addresses of its own. -/
def JEntry.atSame (e f : JEntry) : Bool :=
  e.addr == f.addr && ((memoryKind e.kind && memoryKind f.kind) || (e.kind == f.kind && e.phys == f.phys))

/-- Write one coalesced entry. -/
def State.flushEntry (s : State) (e : JEntry) : State := ({ s with coalesce := s.coalesce.erase e }.append e).1

/-- Write the coalesced entries of an address (R427). -/
def State.flushFor (s : State) (e : JEntry) : State := (s.coalesce.filter (fun x => x.atSame e)).foldl (fun s x => s.flushEntry x) s

/-- Journal an event of a class other than "corrected" (R427): its index. -/
def State.journalEvent (s : State) (kind phys cls addr world : Nat) : State × Nat :=
  let e := s.entry kind phys cls addr world
  ({ (s.flushFor e) with freeCount := s.freeCount + 1 }).append e

/-- Whether the second of a coalesced entry has ended (R427). -/
def State.secondOver (s : State) (e : JEntry) : Bool := decide (e.time + 1000000 ≤ s.micros)

/-- Journal a corrected error: it joins the entry of its unit and address of the same second; one whose second has ended is
written first (R427). -/
def State.journalCorrected (s : State) (kind phys addr world : Nat) : State :=
  let e := s.entry kind phys 1 addr world
  match s.coalesce.find? (fun x => x.sameAs e) with
  | none => { s with coalesce := s.coalesce ++ [e], freeCount := s.freeCount + 1 }
  | some x =>
    if s.secondOver x then { s.flushEntry x with coalesce := (s.flushEntry x).coalesce ++ [e], freeCount := s.freeCount + 1 }
    else { s with coalesce := s.coalesce.map (fun y => if y.sameAs e then { y with count := y.count + 1 } else y) }

/-- Record what fails a gang; when failures arrive together the lowest rank is named (R114). -/
def State.failGang (s : State) (g : Nat) (f : FailInfo) : State :=
  let G := s.gang g
  s.putGang g { G with failure := match G.failure with
    | some o => if o.rank ≤ f.rank then some o else some f
    | none => some f }

/-- Rank of the first member of a gang on a core (R59). -/
def Gang.rankOn (g : Gang) (c : Nat) : Nat := (g.cores.findIdx (fun x => x == c)) * g.n

end Sys2Proof.Machine
end

