-- ==== Sys2Proof/Machine/Memory.lean ====
section
/-! DEFINITION. Where addresses lead and what is there: home slices and travel times (R26, R103), translation (R117 to
R120), the access checks (R195, R213), leases and L1 copies (R70, R71), home stamps (R432), poison (R425) and format
windows (R143 to R145). -/

namespace Sys2Proof.Machine

/-! ## Format windows: descriptors and blocks (R143) -/

/-- The fields of a format-window descriptor (R143). -/
def fwCbase (d : BitVec 256) : Nat := bitsOf d.toNat 0 52
/-- SBASE (R143). -/
def fwSbase (d : BitVec 256) : Nat := bitsOf d.toNat 64 52
/-- APBASE as an address (R143). -/
def fwAlias (d : BitVec 256) : Nat := bitsOf d.toNat 144 36 * 65536
/-- WORLD (R143). -/
def fwWorld (d : BitVec 256) : Nat := bitsOf d.toNat 232 12
/-- NBLK (R143). -/
def fwBlocks (d : BitVec 256) : Nat := bitsOf d.toNat 200 32
/-- OPEN (R143). -/
def fwOpen (d : BitVec 256) : Bool := bitOf d.toNat 192

/-- The open format window of a world whose alias range holds a physical address (R143, R411). -/
def State.windowOf (s : State) (w pa : Nat) : Option (BitVec 256) :=
  (s.fmtWins.find? (fun e => fwOpen e.2 && fwWorld e.2 == w && decide (fwAlias e.2 ≤ pa) &&
    decide (pa < fwAlias e.2 + 64 * fwBlocks e.2))).map (fun e => e.2)

/-- Where the codes and the pair of the block lie that an alias address falls in (R143). -/
def State.blockAt (s : State) (w pa : Nat) : Option (Nat × Nat) :=
  (s.windowOf w pa).map (fun d => (fwCbase d + 16 * ((pa - fwAlias d) / 64), fwSbase d + 2 * ((pa - fwAlias d) / 64)))

/-- The bytes of memory behind n bytes at a physical address of a memory type, as ranges: the bytes themselves; behind the
alias the codes and pairs that a load decodes, or for a store those of every block it touches (R144, R145). -/
def State.backing (s : State) (w pa mt n : Nat) (write : Bool) : List (Nat × Nat) :=
  if mt = 1 then match s.windowOf w pa with
    | none => []
    | some d =>
      let o := pa - fwAlias d
      let e := min (o + n - 1) (64 * fwBlocks d - 1)
      let b := o / 64
      [if write then (fwCbase d + 16 * b, 16 * (e / 64 + 1 - b)) else (fwCbase d + o / 4, e / 4 + 1 - o / 4),
        (fwSbase d + 2 * b, 2 * (e / 64 + 1 - b))]
  else [(pa, n)]

/-- The lines of memory that an access at a physical address of a memory type reads or writes: behind the alias those of
its block's codes and pair (R143 to R145). -/
def State.linesAt (s : State) (w pa mt : Nat) : List Nat :=
  if mt = 1 then match s.blockAt w pa with
    | some b => [b.1, b.2]
    | none => []
  else [pa]

/-- The address whose LLC slice serves an access that passes L1 and L2 by: that of a block's codes for the alias (R69,
R144, R145). -/
def State.servedAt (s : State) (w pa mt : Nat) : Nat :=
  if mt = 1 then ((s.blockAt w pa).map (fun b => b.1)).getD pa else pa

/-! ## Homes and travel (R26, R103) -/

/-- The enabled L2 slices in increasing PHYS, as boot numbers them (R26). -/
def State.bootSlices (s : State) : List Nat :=
  if s.units = [] then List.range 384 else (List.range 384).filter (fun p => s.numbered 3 p)

/-- Entry i of the home table (R26): boot's, unless a slice failure reassigned it (R23). -/
def State.homeEntry (s : State) (i : Nat) : Nat :=
  match AMap.find s.homeTab i with
  | some p => p
  | none =>
    if s.units = [] then i % 384
    else
      let l := s.bootSlices
      l[i % max 1 l.length]?.getD 0

/-- F(g) of R26. -/
def homeIndex (pa : Nat) : Nat :=
  let g := bitsOf pa 8 44
  (g ^^^ (g >>> 12) ^^^ (g >>> 24) ^^^ (g >>> 36)) % 4096

/-- PHYS of the home slice of a physical address (R26). -/
def State.sliceOf (s : State) (pa : Nat) : Nat := s.homeEntry (homeIndex pa)

/-- PHYS of the LLC slice, and of the HBM channel behind it, that backs an address: the channels enabled at boot one
after another, in increasing PHYS. The spec does not lay the channels out, so this is the model's (log 14). -/
def State.llcOf (s : State) (pa : Nat) : Nat :=
  if s.units = [] then pa / Config.channelBytes
  else ((List.range 256).filter (fun p => s.numbered 5 p))[pa / Config.channelBytes]?.getD 0

/-- Whether the channel that backs an address has failed in this boot: its contents are lost (R23). -/
def State.lostAt (s : State) (pa : Nat) : Bool := !(s.enabled 5 (s.llcOf pa))

/-- Bytes the HBM channels enabled at boot back: the compacted physical address space (R9, R21). -/
def State.physTop (s : State) : Nat :=
  if s.units = [] then Config.channelCount * Config.channelBytes
  else ((List.range 256).filter (fun p => s.numbered 5 p)).length * Config.channelBytes

/-- A mesh stop: die, column, row (R11). -/
abbrev Stop := Nat × Nat × Nat

/-- The stop of a physical sett (R13). -/
def settStop (p : Nat) : Stop := (2 * (p / 16 / 8) + p % 16 / 8, p % 16 % 8 + 2, p / 16 % 8)

/-- The stop of a logical core. -/
def State.coreStop (s : State) (c : Nat) : Stop := settStop (s.physCore c / 8)

/-- The stop of an L2 slice (R25 PHYS). -/
def sliceStop (p : Nat) : Stop := (p / 96, p % 96 / 8, p % 8)

/-- The stop of an HBM channel's port, where its LLC slice answers (R11, R25 PHYS). -/
def channelStop (p : Nat) : Stop := (p / 64, if p % 64 < 32 then 0 else 11, p % 32 / 4)

/-- Distance of two numbers. -/
def absDiff (a b : Nat) : Nat := if a ≤ b then b - a else a - b

/-- The smallest of a list of hop counts. -/
def minList : List Nat → Nat
  | [] => 0
  | [a] => a
  | a :: b :: r => min a (minList (b :: r))

/-- PHYS of the die-to-die link of a die at a column and row (R25; the numbering of the port stops, log 15). -/
def linkPhys (die col row : Nat) : Nat := 16 * die + (if col = 1 then row else 8 + row)

/-- Whether the die-to-die link at a column and row of a die and of its neighbour is enabled (R20, R103): a link is mapped
out where the record of either of its ends is. -/
def State.linkOn (s : State) (die col row : Nat) : Bool :=
  s.enabled 8 (linkPhys die col row) && s.enabled 8 (linkPhys (die ^^^ (if col = 1 then 2 else 1)) col row)

/-- Hops and die crossings between two stops (R103). Between two dies whose links are all mapped out the spec gives no way: the
model's traffic passes with no hops (log 79). -/
def State.route (s : State) (a b : Stop) : Nat × Nat :=
  let (d1, c1, r1) := a
  let (d2, c2, r2) := b
  let hr := (List.range 8).filter (fun r => s.linkOn d1 10 r)
  let vr (d : Nat) := (List.range 6).filter (fun r => s.linkOn d 1 r)
  if d1 = d2 then (absDiff c1 c2 + absDiff r1 r2, 0)
  else if d1 ^^^ 1 = d2 then (minList (hr.map (fun r => absDiff c1 10 + absDiff r1 r + absDiff 10 c2 + absDiff r r2)), 1)
  else if d1 ^^^ 2 = d2 then
    (minList ((vr d1).map (fun r => absDiff c1 1 + absDiff r1 r + absDiff 1 c2 + absDiff r r2)), 1)
  else
    (minList (hr.flatMap (fun r => (vr (d1 ^^^ 1)).map (fun v =>
      absDiff c1 10 + absDiff r1 r + (9 + absDiff r v) + absDiff 1 c2 + absDiff v r2))), 2)

/-- Hops and die crossings from a core to a serving stop (R103). A bridge of the hub, a core number from 2048 on, enters
the serving die at its nearer hub link stop, which is one crossing (R401). -/
def State.routeFrom (s : State) (c : Nat) (b : Stop) : Nat × Nat :=
  if 2048 ≤ c then (min (absDiff 1 b.2.1 + absDiff 6 b.2.2) (absDiff 1 b.2.1 + absDiff 7 b.2.2), 1)
  else s.route (s.coreStop c) b

/-- A figure of R103: a base with four cycles a hop and sixty a crossing. -/
def State.figure (s : State) (c : Nat) (b : Stop) (base : Nat) : Nat :=
  base + 4 * (s.routeFrom c b).1 + 60 * (s.routeFrom c b).2

/-- Travel time of a remote scratchpad access (R103). -/
def State.spadTime (s : State) (c owner : Nat) : Nat := s.figure c (s.coreStop owner) 16

/-- Travel time of an access that hits at the L2 home of an address (R103). -/
def State.l2Time (s : State) (c pa : Nat) : Nat := s.figure c (sliceStop (s.sliceOf pa)) 20

/-! ## What the L2 and LLC slices hold (R11, R14, R69, R411, R413) -/

/-- The set of an L2 slice that a line falls into: 4 MiB of 32-byte lines in 16 ways are 8,192 sets, keyed by slice. How a
line chooses its set is the model's (log 27). -/
def State.l2Set (s : State) (pa : Nat) : Nat := s.sliceOf pa * 8192 + pa / 32 % 8192

/-- Whether a held line serves a world: a lookup hits only lines of its own world, world 0 excepted (R411). -/
def CacheLine.serves (x : CacheLine) (w line : Nat) : Bool := x.line == line && (x.world == w || w == 0)

/-- Whether the home slice of an address holds its line for a world. -/
def State.l2Has (s : State) (w pa : Nat) : Bool := (AMap.get [] s.l2 (s.l2Set pa)).any (fun x => x.serves w (pa / 32))

/-- Whether the LLC slice of an address holds its 256-byte line for a world. -/
def State.llcHas (s : State) (w pa : Nat) : Bool := (AMap.get [] s.llc (s.llcOf pa)).any (fun x => x.serves w (pa / 256))

/-- The world a core works for. -/
def State.worldOf (s : State) (c : Nat) : Nat := (s.core c).world

/-- Travel time of an access for a world from a core or a bridge to a place (R103): what the L2 slice does not hold takes the LLC or the HBM5 figure;
an uncached access, and one to the alias (R144, R145), goes to the LLC slice's own stop and saves the L2 lookup, whose part
of the figure the spec does not state (log 27). -/
def State.travelFor (s : State) (w c : Nat) (l : Loc) : Nat :=
  match l with
  | .spad owner _ => if owner = c then 0 else s.spadTime c owner
  | .mem pa mt =>
    if mt = 1 ∨ mt = 2 then
      let a := s.servedAt w pa mt
      s.figure c (channelStop (s.llcOf a)) 20 + (if s.llcHas w a then 20 else 140)
    else s.l2Time c pa + (if s.l2Has w pa then 0 else if s.llcHas w pa then 40 else 160)
  | .fabric _ _ => 0

/-- Travel time of an access of a core to a place (R103). -/
def State.travel (s : State) (c : Nat) (l : Loc) : Nat := s.travelFor (s.worldOf c) c l

/-- The ways of an L2 slice a world may allocate into: its reserved ones, or those nobody has reserved (R413). -/
def State.waysFor (s : State) (w : Nat) : List Nat :=
  if (s.world w).ways = [] then
    (List.range 16).filter (fun n => s.worlds.all (fun e => !(e.2.used && e.2.ways.contains n)))
  else (s.world w).ways

/-- Put a line into a set, in a free way of those given, else in place of the line of one of them that a free value names:
the spec states no replacement (log 27). -/
def placeLine (ways : List Nat) (free : Nat) (w line : Nat) (set : List CacheLine) : List CacheLine :=
  match ways.find? (fun n => set.all (fun x => x.way != n)) with
  | some n => ⟨n, w, line, false⟩ :: set
  | none =>
    let n := ways[free % max 1 ways.length]?.getD 0
    ⟨n, w, line, false⟩ :: set.filter (fun x => x.way != n)

/-- Bring a 32-byte line into its L2 slice (R69, R413). -/
def State.fillLine (s : State) (w pa : Nat) : State :=
  if s.l2Has w pa then s
  else { s with
    freeCount := s.freeCount + 1
    l2 := AMap.put s.l2 (s.l2Set pa)
      (placeLine (s.waysFor w) (Config.freeValue s.freeCount).toNat w (pa / 32) (AMap.get [] s.l2 (s.l2Set pa))) }

/-- An access has met its L2 slice: a miss allocates the 256-byte block, whose lines have one home (R26, R75). -/
def State.fillL2 (s : State) (w pa : Nat) : State :=
  if s.l2Has w pa then s
  else (List.range 8).foldl (fun s i => s.fillLine w (pa / 256 * 256 + 32 * i)) s

/-- Bring a 256-byte line into its LLC slice, of 64 MiB (R14). -/
def State.fillLlc (s : State) (w pa : Nat) : State :=
  if s.llcHas w pa then s
  else
    let l := AMap.get [] s.llc (s.llcOf pa)
    if l.length < 262144 then { s with llc := AMap.put s.llc (s.llcOf pa) (⟨l.length, w, pa / 256, false⟩ :: l) }
    else { s with
      freeCount := s.freeCount + 1
      llc := AMap.put s.llc (s.llcOf pa) (placeLine (List.range 262144) (Config.freeValue s.freeCount).toNat w (pa / 256) l) }

/-- A line's bytes in its L2 slice are newer than what lies behind it: a write was performed there, or an owned L1 copy
written back (R23, R71). A write-back that finds the line gone from the slice goes on to the LLC (log 27). -/
def State.soil (s : State) (pa : Nat) : State :=
  if (AMap.get [] s.l2 (s.l2Set pa)).any (fun x => x.line == pa / 32) then
    let set := (AMap.get [] s.l2 (s.l2Set pa)).map (fun x => if x.line == pa / 32 then { x with dirty := true } else x)
    { s with l2 := AMap.put s.l2 (s.l2Set pa) set }
  else s

/-- An access has been served at a place: the slices on its way hold its line from then on, and of the alias and uncached
memory the LLC slice alone (R69, R144). -/
def State.cached (s : State) (w : Nat) (l : Loc) : State :=
  match l with
  | .mem pa mt => if mt = 1 ∨ mt = 2 then s.fillLlc w (s.servedAt w pa mt) else (s.fillL2 w pa).fillLlc w pa
  | _ => s

/-- Whether [a, a+n) and [b, b+m) share a byte. -/
def overlaps (a n b m : Nat) : Bool := decide (a < b + m) && decide (b < a + n) && decide (0 < n) && decide (0 < m)

/-- Whether a poisoned 64-bit word meets a range (R425). -/
def poisonHit (p : List Nat) (a n : Nat) : Bool := p.any (fun w => overlaps a n (8 * w) 8)

/-- Whether a range of memory holds an uncorrectable error: a poisoned word, or bytes a failed channel backed (R23, R425). -/
def State.errsIn (s : State) (x : Nat × Nat) : Bool := s.lostAt x.1 || poisonHit s.poison x.1 x.2

/-- Where an access that met an error at a place met it: behind the alias, the codes or the pair (R144, R145, R425). -/
def State.errorAt (s : State) (w : Nat) (l : Loc) : Loc :=
  match l with
  | .mem pa 1 => match (s.backing w pa 1 1 true).find? s.errsIn with
    | some x => .mem x.1 0
    | none => l
  | _ => l

/-- The unit that the journal names for an error in a word of memory (R426): the slice nearest the cores that holds its line,
else the HBM channel; of a failed channel nothing is held (log 19). -/
def State.holderOf (s : State) (pa : Nat) : UnitRef :=
  if s.lostAt pa then ⟨5, s.llcOf pa⟩
  else if (AMap.get [] s.l2 (s.l2Set pa)).any (fun x => x.line == pa / 32) then ⟨3, s.sliceOf pa⟩
  else if (AMap.get [] s.llc (s.llcOf pa)).any (fun x => x.line == pa / 256) then ⟨4, s.llcOf pa⟩
  else ⟨5, s.llcOf pa⟩

/-- No slice holds a line any more for which p says so. -/
def State.dropCached (s : State) (p : CacheLine → Bool) : State :=
  let clear (m : AMap (List CacheLine)) : AMap (List CacheLine) :=
    (m.map (fun (e : Nat × List CacheLine) => (e.1, e.2.filter (fun x => !(p x))))).filter (fun e => !e.2.isEmpty)
  { s with l2 := clear s.l2, llc := clear s.llc }

/-! ## Sealed objects (R203, R377) -/

/-- Whether a valid object's bounds contain an address. -/
def ObjEntry.holds (o : ObjEntry) (a : Nat) : Bool := o.valid && decide (o.lo ≤ a) && decide (a < o.hi)

/-- Object(x): the handle index of the sealed object whose bounds contain an address (R203). -/
def State.objectAt (s : State) (w a : Nat) : Option Nat :=
  ((s.world w).handles.find? (fun e => e.2.holds a)).map (fun e => e.1)

/-! ## Translation (R117 to R120) -/

/-- Whether a failed memory unit's settlement covers a physical address (R23). -/
def State.isSettling (s : State) (pa : Nat) : Bool :=
  s.settling.any (fun u => (u.kind == 3 && u.phys == s.sliceOf pa) || ((u.kind == 4 || u.kind == 5) && u.phys == s.llcOf pa))

/-- What a walk answers: a leaf, an entry with V = 0 or malformed, an entry it cannot read for an error (R23, R425), or one
whose memory is being settled (R23). -/
inductive Walk where
  | leaf (pte : Nat) (big : Bool)
  | invalid
  | malformed
  | lost (pa : Nat)
  | settling
  deriving DecidableEq, Repr

/-- A page-table entry in memory, read as one 8-byte access (R118, R119). -/
def State.pteAt (s : State) (pa : Nat) : Nat := s.mNum pa 8

/-- FRAME as a physical address (R118). -/
def pteFrame (p : Nat) : Nat := bitsOf p 16 36 * 65536

/-- MT of an entry (R118). -/
def pteMt (p : Nat) : Nat := bitsOf p 5 2

/-- Reserved bits of an entry that must be zero (R118). -/
def pteReserved (p : Nat) : Bool := bitsOf p 52 8 != 0 || bitsOf p 7 9 != 0

/-- A fabric window's OPEN and LIMITM (R416). -/
def State.fabricOpen (s : State) (w n : Nat) : Bool := bitOf (AMap.get 0 (s.world w).fwins n).toNat 63
/-- LIMITM of a fabric window (R416). -/
def State.fabricLimit (s : State) (w n : Nat) : Nat := bitsOf (AMap.get 0 (s.world w).fwins n).toNat 128 36

/-- A link (R422). -/
def State.link (s : State) (l : Nat) : Link := AMap.get Link.reset s.links l

/-- VIA of a fabric window (R416). -/
def fabVia (d : BitVec 256) : Bool := bitOf d.toNat 54
/-- DEV of a fabric window (R416). -/
def fabDev (d : BitVec 256) : Nat := bitsOf d.toNat 33 21
/-- EXPIX of a fabric window (R416). -/
def fabExpix (d : BitVec 256) : Nat := bitsOf d.toNat 0 12
/-- KEY of a fabric window (R416). -/
def fabKey (d : BitVec 256) : BitVec 64 := BitVec.ofNat 64 (bitsOf d.toNat 64 64)

/-- The link that carries a world's fabric window (R416, R422): VIA says of which kind. -/
def State.portOf (s : State) (w n : Nat) : Nat :=
  let d := AMap.get 0 (s.world w).fwins n
  if fabVia d then 16 + Config.windowPort d % 8 else Config.windowPort d % 16

/-- Fresh keys and counters for both directions of a link (R422). -/
def State.rekey (s : State) (l : Nat) : State :=
  let k := s.link l
  { s with
    freeCount := s.freeCount + 2
    links := AMap.put s.links l { k with
      sent := 0, received := 0, keySent := Config.freshKey s.freeCount, keyReceived := Config.freshKey (s.freeCount + 1) } }

/-- A direction's counter after n more flits: it advances by one for each, and one that would reach 2^64 forces a re-key
before that flit, which then is the first under the new key (R422). -/
def counterAfter (c n : Nat) : Nat := if c + n < 2 ^ 64 then c + n else c + n - (2 ^ 64 - 1)

/-- A link on which n more flits of a direction with counter c go: re-keyed where the counter would reach 2^64 (R422). -/
def State.roomFor (s : State) (l c n : Nat) : State := if c + n < 2 ^ 64 then s else s.rekey l

/-- Flits leave on a link, or none on one that is down (R422). A retry resends a flit as it is, with its counter: it changes
nothing here. -/
def State.sendFlits (s : State) (l n : Nat) : State :=
  if (s.link l).down then s
  else
    let c := (s.link l).sent.toNat
    let s1 := s.roomFor l c n
    { s1 with links := AMap.put s1.links l { s1.link l with sent := BitVec.ofNat 64 (counterAfter c n) } }

/-- Flits arrive on a link, and none on one that is down (R422). -/
def State.takeFlits (s : State) (l n : Nat) : State :=
  if (s.link l).down then s
  else
    let c := (s.link l).received.toNat
    let s1 := s.roomFor l c n
    { s1 with links := AMap.put s1.links l { s1.link l with received := BitVec.ofNat 64 (counterAfter c n) } }

/-- The sealed flits of a message, from a direction's counter on, each under that counter: the key is the old one until a
re-key stands before the flit (R422; logs 52, 75). -/
def sealedFlits (old new : BitVec 256) (c n : Nat) (msg : List Byte) : List (List Byte) :=
  (List.range n).map (fun i =>
    gcmSeal (if c + i + 1 < 2 ^ 64 then old else new) (BitVec.ofNat 96 (counterAfter c (i + 1) - 1)) (Config.flitText msg i))

/-- The flits in which a message leaves on a link (R422). -/
def State.sealFlits (s : State) (l n : Nat) (msg : List Byte) : List (List Byte) :=
  let c := (s.link l).sent.toNat
  sealedFlits (s.link l).keySent ((s.roomFor l c n).link l).keySent c n msg

/-- The flits in which a message must come on a link: those that authenticate under the key and the counter of this direction
and open to the message's texts. What differs fails authentication, or the two ends disagree on the counter (R422). -/
def State.dueFlits (s : State) (l n : Nat) (msg : List Byte) : List (List Byte) :=
  let c := (s.link l).received.toNat
  sealedFlits (s.link l).keyReceived ((s.roomFor l c n).link l).keyReceived c n msg

/-- The text of a request on a link (R416, R417, R418; log 52). -/
def requestText (key : BitVec 64) (expix off n : Nat) (write : Bool) (data : List Byte) : List Byte :=
  bytesOf 8 key.toNat ++ bytesOf 8 expix ++ bytesOf 8 off ++ bytesOf 8 n ++ (if write then 1#8 :: data else [0#8])

/-- A request through a fabric window as it leaves (R416, R419, R422). -/
def State.fabricOut (s : State) (w win off n : Nat) (write : Bool) (v : Nat) : FabricOut :=
  let d := AMap.get 0 (s.world w).fwins win
  let l := s.portOf w win
  let msg := requestText (fabKey d) (fabExpix d) off n write (bytesOf n v)
  ⟨w, win, off, n, write, fabDev d, l, if (s.link l).down then [] else s.sealFlits l (Config.flits n) msg⟩

/-- Send a request through a fabric window (R419, R422). One on a link that is down is lost: what waits for it fails. -/
def State.askFabric (s : State) (w win off n : Nat) (write : Bool) (v : Nat) : State :=
  (s.sendFlits (s.portOf w win) (Config.flits n)).report (.fabricReq (s.fabricOut w win off n write v))

/-- A leaf's own checks of R119. -/
def State.leafOk (s : State) (w p : Nat) (big : Bool) : Bool :=
  !(big && bitsOf p 16 13 != 0) && !(bitOf p 2 && bitOf p 3) &&
  (pteMt p != 1 || (s.windowOf w (pteFrame p)).isSome) &&
  (pteMt p != 3 || (bitsOf p 48 4 == 0 && s.fabricOpen w (bitsOf p 36 12)))

/-- A non-leaf entry carries no permission and no memory type (R119). -/
def nonLeafOk (p : Nat) : Bool := bitsOf p 1 3 == 0 && pteMt p == 0

/-- An entry as the walker meets it: its value, or why the walk stops there (R23, R425). -/
def State.entryAt (s : State) (pa : Nat) : Except Walk Nat :=
  if s.isSettling pa then .error .settling
  else if s.lostAt pa || poisonHit s.poison pa 8 then .error (.lost pa)
  else .ok (s.pteAt pa)

/-- The last level of a walk: the leaf of a 64 KiB page (R119). -/
def State.walk3 (s : State) (w p2 va : Nat) : Walk :=
  match s.entryAt (pteFrame p2 + 8 * bitsOf va 16 13) with
  | .error x => x
  | .ok p3 =>
    if !(bitOf p3 0) then .invalid
    else if pteReserved p3 || !(bitOf p3 4) then .malformed
    else if s.leafOk w p3 false then .leaf p3 false else .malformed

/-- The middle level of a walk: the leaf of a 512 MiB page, or a table (R119). -/
def State.walk2 (s : State) (w p1 va : Nat) : Walk :=
  match s.entryAt (pteFrame p1 + 8 * bitsOf va 29 13) with
  | .error x => x
  | .ok p2 =>
    if !(bitOf p2 0) then .invalid
    else if pteReserved p2 then .malformed
    else if bitOf p2 4 then (if s.leafOk w p2 true then .leaf p2 true else .malformed)
    else if !(nonLeafOk p2) then .malformed
    else s.walk3 w p2 va

/-- The three-level walk of a world's tables (R117, R119). -/
def State.walk (s : State) (w va : Nat) : Walk :=
  match s.entryAt ((s.world w).root + 8 * bitsOf va 42 14) with
  | .error x => x
  | .ok p1 =>
    if !(bitOf p1 0) then .invalid
    else if pteReserved p1 || bitOf p1 4 || !(nonLeafOk p1) then .malformed
    else s.walk2 w p1 va

/-- Whether a cached translation covers an address of a world (R120). -/
def TlbEntry.covers (e : TlbEntry) (w va : Nat) : Bool :=
  e.world == w && e.vbase == va / (if e.big then 2 ^ 29 else 65536) * (if e.big then 2 ^ 29 else 65536)

/-- The translation a core uses: its TLB, then its sett's, then a walk (R120). -/
def State.translate (s : State) (c w va : Nat) : Walk :=
  match (s.core c).tlb.find? (fun e => e.covers w va) with
  | some e => .leaf e.pte e.big
  | none =>
    match (s.sett (s.settOf c)).tlb.find? (fun e => e.covers w va) with
    | some e => .leaf e.pte e.big
    | none => s.walk w va

/-- The entries a walk reads, one after another (R117, R119). -/
def State.walkReads (s : State) (w va : Nat) : List Nat :=
  let a1 := (s.world w).root + 8 * bitsOf va 42 14
  let p1 := s.pteAt a1
  if !(bitOf p1 0) then [a1]
  else
    let a2 := pteFrame p1 + 8 * bitsOf va 29 13
    let p2 := s.pteAt a2
    if !(bitOf p2 0) || bitOf p2 4 then [a1, a2] else [a1, a2, pteFrame p2 + 8 * bitsOf va 16 13]

/-- The die of a core. -/
def State.dieOf (s : State) (c : Nat) : Nat := (s.coreStop c).1

/-- Put a number into a list by size. -/
def insertNat (n : Nat) : List Nat → List Nat
  | [] => [n]
  | a :: l => if n ≤ a then n :: a :: l else a :: insertNat n l

/-- How long a walk waits for one of its die's 64 walkers (R14, R120): of the walks that run or wait there, all but 63 end
before it starts. -/
def State.walkWait (s : State) (c : Nat) : Nat :=
  let l := (AMap.get [] s.walks (s.dieOf c)).filter (fun t => decide (s.cycle < t))
  if l.length < 64 then 0 else (l.foldl (fun m t => insertNat t m) [])[l.length - 64]?.getD 0 - s.cycle

/-- The time of a walk's reads, each an access to an L2 home (R103, R120). The spec places no walker: the model's is at the
core's stop (log 28). -/
def State.walkTime (s : State) (c w va : Nat) : Nat :=
  ((s.walkReads w va).map (fun a => s.travel c (.mem a 0))).sum

/-- Whether a walk is needed for an address of a world: neither TLB holds it. -/
def State.tlbMiss (s : State) (c w va : Nat) : Bool :=
  !((s.core c).tlb.any (fun e => e.covers w va)) && !((s.sett (s.settOf c)).tlb.any (fun e => e.covers w va))

/-- How long a translation for an address is yet on its way into a TLB, whose walk is not over (R120). -/
def tlbWait (l : List TlbEntry) (now w va : Nat) : Nat :=
  match l.find? (fun e => e.covers w va) with
  | some e => e.held - now
  | none => 0

/-- The time a translation adds (R120): none at the core's TLB, 8 cycles at its sett's, and the walk's after that. One that
a walk in flight will bring waits for that walk. -/
def State.transTime (s : State) (c w va : Nat) : Nat :=
  if 2048 ≤ c then 0
  else if (s.core c).tlb.any (fun e => e.covers w va) then tlbWait (s.core c).tlb s.cycle w va
  else if s.tlbMiss c w va then 8 + s.walkWait c + s.walkTime c w va else 8 + tlbWait (s.sett (s.settOf c)).tlb s.cycle w va

/-- A walk takes a walker until it has made its reads (R120). -/
def State.noteWalk (s : State) (c w va : Nat) : State :=
  if s.tlbMiss c w va then
    let l := (AMap.get [] s.walks (s.dieOf c)).filter (fun t => decide (s.cycle < t))
    (s.walkReads w va).foldl (fun s a => s.cached w (.mem a 0))
      { s with walks := AMap.put s.walks (s.dieOf c) (l ++ [s.cycle + s.transTime c w va]) }
  else s

/-- Keep a translation in the core and sett TLBs, the newest first, and the time it has added (R120; replacement log 16).
What needs no translation adds none. The hub's bridges, core numbers from 2048 on, keep none. -/
def State.noteTlb (s : State) (c va : Nat) (x : Walk) : State :=
  if 2048 ≤ c then s
  else match x with
  | .leaf pte big =>
    let vb := va / (if big then 2 ^ 29 else 65536) * (if big then 2 ^ 29 else 65536)
    let w := (s.core c).world
    let n := s.settOf c
    let late := s.transTime c w va
    let e : TlbEntry := ⟨w, vb, big, pte, s.cycle + late⟩
    let s := s.noteWalk c w va
    let s := s.modCore c (fun k => { k with
      late := late, tlb := if k.tlb.any (fun x => x.covers w va) then k.tlb else (e :: k.tlb).take 64 })
    let t := s.sett n
    if t.tlb.any (fun x => x.covers w va) then s else s.putSett n { t with tlb := (e :: t.tlb).take 2048 }
  | _ => s.modCore c (fun k => { k with late := 0 })

/-- The place a leaf gives an address (R69, R118). -/
def leafLoc (pte : Nat) (big : Bool) (va : Nat) : Loc :=
  let off := va % (if big then 2 ^ 29 else 65536)
  if pteMt pte = 3 then
    let a := bitsOf pte 16 32 * 65536 + off
    .fabric (bitsOf a 36 12) (a % 2 ^ 36)
  else .mem (pteFrame pte + off) (pteMt pte)

/-! ## Access checks (R195, R213) -/

/-- What kind of access is checked: 0 load or store, 1 atomic, 2 update-log append, 3 clasp, 4 full-empty, 5 engine,
6 an element of a nest, 7 a `red`, which consumes no error at its issue (R217), 8 a record
that a merge applies. -/
structure Acc where
  kind : Nat
  n : Nat
  align : Nat
  r : Bool
  w : Bool
  pc : Nat
  deriving DecidableEq, Repr

/-- What the checks answer. -/
inductive Chk where
  | ok (l : Loc) (x : Walk)
  | trap (t : Trap)
  | service (cause addr : Nat)
  | settle
  | absent
  deriving DecidableEq, Repr

/-- The resident workspace whose register bytes a scratchpad range meets (R43). -/
def Core.regHit (k : Core) (off n : Nat) : Option Nat :=
  (List.range 16).findSome? (fun i => match (k.slot i).ws with
    | some w => if overlaps off n (w * 1024) 256 then some w else none
    | none => none)

/-- Whether a scratchpad range meets the task record of a live task (R41). -/
def Core.recordHit (k : Core) (off n : Nat) : Bool :=
  k.tasks.any (fun e => liveState e.2.tstate && overlaps off n (wsOff e.1 0x180) 64)

/-- Beads of a tensor (R302). -/
def Tensor.beads (t : Tensor) : Nat := t.dims.1 * t.dims.2.1 * t.dims.2.2

/-- Bytes of a tensor's skip map (R302). -/
def Tensor.skipBytes (t : Tensor) : Nat := 8 * ceilDiv t.beads 64

/-- Whether a scratchpad range meets the skip map of a declared tensor (R315). -/
def Core.skipHit (k : Core) (off n : Nat) : Bool :=
  k.tensors.any (fun e => e.2.declared && overlaps off n e.2.skip e.2.skipBytes)

/-- The scratchpad place of an address: the local alias or a core's window (R67, R68). -/
def State.spadOf (s : State) (c ea : Nat) : Option (Nat × Nat) :=
  if 0x00FFFFFFFFF00000 ≤ ea ∧ ea < 2 ^ 56 then some (c, ea - 0x00FFFFFFFFF00000)
  else if 0x00F0000000000000 ≤ ea ∧ ea < 0x00F0000080000000 then
    some (s.mapCore c (bitsOf ea 20 11), ea % 1048576)
  else none

/-- The fabric window and offset of an address (R67). -/
def fabricOf (ea : Nat) : Option (Nat × Nat) :=
  if 0x00F8000000000000 ≤ ea ∧ ea < 0x00F9000000000000 then some (bitsOf ea 36 12, ea % 2 ^ 36) else none

/-- Where the error lies that an access from a on has met: the first poisoned word there (R425, R426). -/
def errorWord (p : List Nat) (a : Nat) : Nat :=
  match (p.filter (fun w => decide (a / 8 ≤ w))).min? with
  | some w => 8 * w
  | none => a

/-- Whether a store of n bytes covers every poisoned word it meets (R425). -/
def poisonCovered (p : List Nat) (a n : Nat) : Bool :=
  p.all (fun w => !(overlaps a n (8 * w) 8) || (decide (a ≤ 8 * w) && decide (8 * w + 8 ≤ a + n)))

/-- Remove the poison a store covers (R425). -/
def unpoison (p : List Nat) (a n : Nat) : List Nat := p.filter (fun w => !(decide (a ≤ 8 * w) && decide (8 * w + 8 ≤ a + n)))

/-- Whether an access reads or writes its address before its home does: all but an append and a `red` (R217, R218). -/
def Acc.touches (acc : Acc) : Bool := acc.kind != 2 && acc.kind != 7

/-- Whether an access consumes an uncorrectable error: loads, atomics and partial stores do (R195, R425). -/
def consumes (p : List Nat) (a n : Nat) (acc : Acc) : Bool :=
  if !acc.touches then false else if acc.r then poisonHit p a n else if acc.w then !(poisonCovered p a n) else false

/-- Whether an access to memory of a type meets an uncorrectable error in the bytes behind it (R23, R195, R425). A store to
the alias decodes its block, so it reads what lies there (R145). -/
def State.meetsError (s : State) (mt : Nat) (behind : List (Nat × Nat)) (acc : Acc) : Bool :=
  behind.any (fun x => (s.lostAt x.1 && acc.touches) || consumes s.poison x.1 x.2 (if mt = 1 then { acc with r := true } else acc))

/-- Whether a load may use a core's L1 copy (R71): it is owned, or its lease runs and R73's bound has not passed. -/
def State.l1Hit (s : State) (c va : Nat) : Option L1Line :=
  match AMap.find (s.core c).l1 (va / 32) with
  | some l => if l.owned || (decide (s.pts c ≤ l.rts) && decide (s.cycle < l.til)) then some l else none
  | none => none

/-- The L1 copy that serves a thread's load or store, which needs no translation then (R35, R71, R120): a store needs an
owned one. -/
def State.l1Serves (s : State) (c va : Nat) (acc : Acc) : Option L1Line :=
  if acc.kind = 0 then (s.l1Hit c va).filter (fun l => !acc.w || l.owned) else none

/-- Whether a thread's access meets an uncorrectable error: in the L1 copy that serves it, else in the bytes behind it (R195,
R425). -/
def State.meetsAt (s : State) (c ea pa mt : Nat) (behind : List (Nat × Nat)) (acc : Acc) : Bool :=
  match s.l1Serves c ea acc with
  | some y => consumes y.bad pa acc.n acc
  | none => s.meetsError mt behind acc

/-- The entry an access goes by: the one its L1 copy was filled under, else its translation (R120). -/
def State.leafFor (s : State) (c w ea : Nat) (acc : Acc) : Walk :=
  match s.l1Serves c ea acc with
  | some y => .leaf y.pte y.big
  | none => s.translate c w ea

/-- What an access that passes its checks has translated: nothing where an L1 copy serves it (R120). -/
def State.translated (s : State) (c ea : Nat) (acc : Acc) (pte : Nat) (big : Bool) : Walk :=
  if (s.l1Serves c ea acc).isSome then .invalid else .leaf pte big

/-- Checks 5 to 9 of R195 on a translated address. -/
def State.checkPage (s : State) (c w ea : Nat) (acc : Acc) : Chk :=
  match s.leafFor c w ea acc with
  | .invalid => .service 6 ea
  | .malformed => .service 6 ea
  | .lost _ => .service 0x13 ea
  | .settling => .settle
  | .leaf pte big =>
    let l := leafLoc pte big ea
    let obj := (s.world w).handles.find? (fun e => e.2.holds ea)
    let inText := match obj with
      | some (_, o) => decide (ea < o.textEnd)
      | none => false
    let sealedOut := match obj with
      | some (_, o) => decide (o.textEnd ≤ ea) && !(o.holds acc.pc)
      | none => false
    let mt := pteMt pte
    if acc.w && inText then .trap (trapAt 7 7 ea)
    -- R213 gives a full-empty form no permission to have: its region refuses it (R97, R212; of the alias, log 71)
    else if acc.kind = 4 then .trap (trapAt 7 9 ea)
    else if acc.w && (!(bitOf pte 2) || sealedOut) then .trap (trapAt 7 2 ea)
    else if acc.r && (!(bitOf pte 1) || sealedOut) then .trap (trapAt 7 3 ea)
    else if (acc.kind = 0 || acc.kind = 6) && mt == 1 && acc.w && acc.n == 1 then .trap (trapAt 7 2 ea)
    else if (acc.kind = 1 || acc.kind = 3 || acc.kind = 7) && (mt == 1 || mt == 3) then .trap (trapAt 7 2 ea)
    else if (acc.kind = 2 || acc.kind = 8) && mt != 0 then .trap (trapAt 7 2 ea)
    else match l with
      | .mem pa _ =>
        let behind := s.backing w pa mt acc.n acc.w
        if behind.any (fun x => decide (s.physTop ≤ x.1)) then .absent
        else if behind.any (fun x => s.isSettling x.1) then .settle
        else if s.meetsAt c ea pa mt behind acc then .service 0x13 ea
        else .ok l (s.translated c ea acc pte big)
      | .fabric win off =>
        if off + acc.n ≤ s.fabricLimit w win + 1 then .ok l (s.translated c ea acc pte big) else .trap (trapAt 7 6 ea)
      | .spad _ _ => .ok l (s.translated c ea acc pte big)

/-- The words of a resident workspace's register bytes that hold an error in its bank (R196, R425). -/
def Core.bankErrors (k : Core) (ws : Nat) : List Nat :=
  match k.slotOf ws with
  | some i => regWords ws (k.slot i).bad
  | none => []

/-- The checks of R195, with the changes of R213, for an access of the thread in workspace `ws` of core c. -/
def State.check (s : State) (c ws ea : Nat) (acc : Acc) : Chk :=
  let w := (s.core c).world
  if ea % acc.align ≠ 0 then .trap (trapAt (if acc.kind = 3 then 0xD else 5) 0 ea)
  else if 2 ^ 56 ≤ ea then .trap (trapAt 7 5 ea)
  else
    match s.spadOf c ea with
    | some (owner, off) =>
      if (s.core owner).world ≠ w ∨ (s.coreList.length ≤ owner) then .trap (trapAt 7 6 ea)
      else
        let k := s.core owner
        let hit := k.regHit off acc.n
        let own := acc.kind = 0 ∧ owner = c ∧ hit = some ws
        if hit.isSome ∧ ¬ own then .trap (trapAt 8 0 ea)
        else if acc.w && k.recordHit off acc.n then .trap (trapAt 8 1 ea)
        else if acc.w && k.skipHit off acc.n then .trap (trapAt 0x0E 0x0A ea)
        else if acc.kind = 2 || acc.kind = 8 then .trap (trapAt 7 2 ea)
        else if consumes (if own then k.bankErrors ws else k.spoison) off acc.n acc then .service 0x13 ea
        else .ok (.spad owner off) .invalid
    | none =>
      match fabricOf ea with
      | some (win, off) =>
        if !(s.fabricOpen w win) || decide (s.fabricLimit w win < off + acc.n - 1) then .trap (trapAt 7 6 ea)
        else if acc.kind = 4 then .trap (trapAt 7 9 ea)
        else if acc.kind ≠ 0 ∧ acc.kind ≠ 6 then .trap (trapAt 7 2 ea)
        else .ok (.fabric win off) .invalid
      | none =>
        if 0x00F0000000000000 ≤ ea then .trap (trapAt 7 5 ea) else s.checkPage c w ea acc

/-! ## Homes, leases and L1 (R70, R71) -/

/-- A line's home state (R70); a line that was re-homed starts at the stamp of its home-table entry (R23). -/
def State.homeLine (s : State) (pa : Nat) : HomeLine :=
  let f := AMap.get 0 s.homeFloor (homeIndex pa)
  AMap.get ⟨f, f, none, 0⟩ s.home (pa / 32)

/-- Replace a line's home state. -/
def State.putHome (s : State) (pa : Nat) (h : HomeLine) : State := { s with home := AMap.put s.home (pa / 32) h }

/-- The home recalls an owned L1 copy: the owner keeps an unowned copy (R71, R88). -/
def State.recall (s : State) (pa : Nat) : State :=
  let h := s.homeLine pa
  match h.owner with
  | none => s
  | some c =>
    let s := (s.putHome pa { h with owner := none }).soil pa
    s.modCore c (fun k => { k with l1 := k.l1.map (fun e =>
      if e.2.pa == pa / 32 * 32 then (e.1, { e.2 with owned := false }) else e) })

/-- An L1 copy's line is written back: its home has no owner any more (R71). Its bytes are world memory's already. -/
def State.unown (s : State) (y : L1Line) : State :=
  if y.owned then (s.putHome y.pa { s.homeLine y.pa with owner := none }).soil y.pa else s

/-- Put a copy into a core's L1 of 16,384 lines (R14): where it is full, a line that a free value names is evicted, and
written back if it is owned (R71; the spec states no replacement, log 27). -/
def State.putL1 (s : State) (c key : Nat) (y : L1Line) : State :=
  let l := (s.core c).l1
  if l.length < 16384 ∨ (AMap.find l key).isSome = true then s.modCore c (fun k => { k with l1 := AMap.put k.l1 key y })
  else match l[(Config.freeValue s.freeCount).toNat % l.length]? with
    | none => s
    | some e => ({ s with freeCount := s.freeCount + 1 }.unown e.2).modCore c (fun k => { k with
        l1 := AMap.put (AMap.del k.l1 e.1) key y })

/-- The copy a core gets of a line (R71), with the line's errors (R425), filled under a page-table entry; R73 bounds how long it
is used (log 68). -/
def State.copyOf (s : State) (c pa : Nat) (x : Walk) (rts : Nat) (owned : Bool) : L1Line :=
  let leaf : Nat × Bool := match x with
    | .leaf pte big => (pte, big)
    | _ => (0, false)
  ⟨rts, s.cycle + 128 * (s.core c).lease, owned, leaf.1, leaf.2, pa / 32 * 32, Memory.readN s.mem (pa / 32 * 32) 32,
    s.poison.filter (fun w => w / 4 == pa / 32)⟩

/-- Fill an L1 line from its home under a lease (R71). -/
def State.fillL1 (s : State) (c va pa : Nat) (x : Walk) : State :=
  let s := (s.recall pa).cached (s.worldOf c) (.mem pa 0)
  let h := s.homeLine pa
  let rts := max h.rts (s.pts c + (s.core c).lease)
  let s := s.putHome pa { h with rts := rts }
  let s := s.raisePts c h.wts
  s.putL1 c (va / 32) (s.copyOf c pa x rts false)

/-- Write world memory bytes: the global order's current value, the owner's copy and the poison (R77, R425). -/
def State.memPut (s : State) (pa : Nat) (bs : List Byte) : State :=
  { s with mem := Memory.writeN s.mem pa bs, poison := unpoison s.poison pa bs.length }

/-- A write performed at the L2 home of a line for an agent whose stamp is given (R71, R432): wts above every lease, no
owner left. -/
def State.homeWrite (s : State) (pa stamp : Nat) : State :=
  let s := s.recall pa
  let h := s.homeLine pa
  let w := max stamp (h.rts + 1)
  s.putHome pa { h with wts := w, rts := max h.rts w }

/-- A write at the home of the lines behind a place of memory, for an agent whose stamp is given, whatever its type (R69,
R71, R77, R145, R432). -/
def State.writeHome (s : State) (w : Nat) (l : Loc) (stamp : Nat) : State :=
  match l with
  | .mem pa mt => (s.linesAt w pa mt).foldl (fun s a => s.homeWrite a stamp) s
  | _ => s

/-- The highest wts of the lines behind a place of memory. -/
def State.wtsAt (s : State) (w : Nat) (l : Loc) : Nat :=
  match l with
  | .mem pa mt => (s.linesAt w pa mt).foldl (fun m a => max m (s.homeLine a).wts) 0
  | _ => 0

/-- A read at the home of a line, outside L1: it takes a lease at the core's pts (R71, R432). -/
def State.homeRead (s : State) (c pa : Nat) : State :=
  let s := s.recall pa
  let h := s.homeLine pa
  (s.putHome pa { h with rts := max h.rts (s.pts c) }).raisePts c h.wts

/-- A read at the home of the lines behind a place of memory, whatever its type (R69, R77, R144). -/
def State.readHome (s : State) (c w : Nat) (l : Loc) : State :=
  match l with
  | .mem pa mt => (s.linesAt w pa mt).foldl (fun s a => s.homeRead c a) s
  | _ => s

/-- A write performed at its home leaves the line dirty in the L2 slice that holds it (R23). -/
def State.soilAt (s : State) (l : Loc) : State :=
  match l with
  | .mem pa 0 => s.soil pa
  | _ => s

/-- Replace bytes inside a 32-byte copy. -/
def spliceBytes (data : List Byte) (at_ : Nat) (bs : List Byte) : List Byte :=
  data.take at_ ++ bs ++ data.drop (at_ + bs.length)

/-- A thread store to normal world memory: it owns the line or first takes ownership (R71); a line a clasp wait watches
is stored to at its home (R225). -/
def State.storeNormal (s : State) (c va pa : Nat) (x : Walk) (bs : List Byte) : State :=
  let h := s.homeLine pa
  let line := pa / 32 * 32
  if h.watched ≠ 0 then
    let s := ((s.homeWrite pa (s.pts c)).cached (s.worldOf c) (.mem pa 0)).soil pa
    let s := s.raisePts c (s.homeLine pa).wts
    let s := s.modCore c (fun k => { k with l1 := AMap.del k.l1 (va / 32) })
    s.memPut pa bs
  else if h.owner = some c ∧ ((AMap.find (s.core c).l1 (va / 32)).map (fun l => l.owned)) = some true then
    -- the owner's later stores carry its pts too: a reader that recalls the line must not stay below it (R77, R432)
    let s := s.putHome pa { h with wts := max h.wts (s.pts c), rts := max h.rts (s.pts c) }
    let s := s.memPut pa bs
    s.modCore c (fun k => { k with l1 := k.l1.map (fun e =>
      if e.1 == va / 32 then (e.1, { e.2 with data := spliceBytes e.2.data (pa - line) bs, bad := unpoison e.2.bad pa bs.length }) else e) })
  else
    let s := (s.homeWrite pa (s.pts c)).cached (s.worldOf c) (.mem pa 0)
    let h := s.homeLine pa
    let s := s.putHome pa { h with owner := some c }
    let s := s.raisePts c h.wts
    let s := s.memPut pa bs
    s.putL1 c (va / 32) (s.copyOf c pa x h.wts true)

/-! ## Home stamps (R432) -/

/-- The stamp key of an address's home: an L2 slice for normal memory, an LLC slice for uncached. -/
def State.htsOf (s : State) (l : Loc) : Nat :=
  match l with
  | .spad o _ => (s.core o).hts
  | .mem pa mt => if mt = 0 then AMap.get 0 s.l2hts (s.sliceOf pa) else AMap.get 0 s.llchts (s.llcOf pa)
  | .fabric _ _ => 0

/-- hts := max(hts, stamp) at a home (R432). -/
def State.raiseHts (s : State) (l : Loc) (stamp : Nat) : State :=
  match l with
  | .spad o _ => s.modCore o (fun k => { k with hts := max k.hts stamp })
  | .mem pa mt =>
    if mt = 0 then { s with l2hts := AMap.put s.l2hts (s.sliceOf pa) (max (s.htsOf l) stamp) }
    else { s with llchts := AMap.put s.llchts (s.llcOf pa) (max (s.htsOf l) stamp) }
  | .fabric _ _ => s

/-! ## Format windows (R144, R145) -/

/-- One block of a window: its codes and pair from memory (R143). -/
def State.windowBlock (s : State) (d : BitVec 256) (b : Nat) : Block :=
  blockOfBytes (Memory.readN s.mem (fwCbase d + 16 * b) 16 ++ Memory.readN s.mem (fwSbase d + 2 * b) 2)

/-- The decoded bf16 bytes of a block (R144). -/
def blockBf16 (b : Block) : List Byte := b.codes.flatMap (fun c => bytesOf 2 (decodeElem .bf16 c b.scale b.spare).1)

/-- The alias bytes at a physical address (R144). Past the window's last block, or where the window was closed under a
held translation, the spec gives none: the model's are zeros (log 72). -/
def State.aliasRead (s : State) (w pa n : Nat) : List Byte :=
  match s.windowOf w pa with
  | none => List.replicate n 0
  | some d =>
    let o := pa - fwAlias d
    ((blockBf16 (s.windowBlock d (o / 64))).drop (o % 64)).take n

/-- A store through the alias re-quantises its block (R145). Past the window's last block, or where the window was closed
under a held translation, nothing is stored (log 72). -/
def State.aliasWrite (s : State) (w pa : Nat) (bs : List Byte) : State :=
  match s.windowOf w pa with
  | none => s
  | some d =>
    let o := pa - fwAlias d
    let b := o / 64
    let img := spliceBytes (blockBf16 (s.windowBlock d b)) (o % 64) bs
    let vals := (List.range 32).map (fun i => floatVal .bf16 (natOfBytes ((img.drop (2 * i)).take 2)))
    let blk := (quantise .rne [] vals).1
    (s.memPut (fwCbase d + 16 * b) (codeBytes blk.codes)).memPut (fwSbase d + 2 * b)
      [BitVec.ofNat 8 blk.scale, BitVec.ofNat 8 blk.spare]

/-! ## Reading and writing a place -/

/-- The current bytes of a place in the global order (R77). -/
def State.peek (s : State) (w : Nat) (l : Loc) (n : Nat) : List Byte :=
  match l with
  | .spad o off => Memory.readN (s.core o).scratch off n
  | .mem pa mt => if mt = 1 then s.aliasRead w pa n else Memory.readN s.mem pa n
  | .fabric _ _ => List.replicate n 0

/-- The valid bit of every return-stack entry of a live task that a write meets is cleared (R208). -/
def State.guardStack (s : State) (c off n : Nat) : State :=
  let ws := off / 1024
  if liveState (s.task c ws).tstate && overlaps off n (wsOff ws 0x200) 64 then
    (List.range 8).foldl (fun s i =>
      let a := wsOff ws (0x200 + 8 * i)
      if overlaps off n a 8 then s.sPut c a 1 (s.sNum c a 1 / 2 * 2) else s) s
  else s

/-- Write bytes at a place, outside the bank (R77, R208, R425). -/
def State.poke (s : State) (w : Nat) (l : Loc) (bs : List Byte) : State :=
  match l with
  | .spad o off =>
    let s := s.modCore o (fun k => { k with
      scratch := Memory.writeN k.scratch off bs, spoison := unpoison k.spoison off bs.length })
    s.guardStack o off bs.length
  | .mem pa mt => if mt = 1 then s.aliasWrite w pa bs else s.memPut pa bs
  | .fabric _ _ => s

/-! ## Engine writes that nobody has acquired (R84, R98, R101) -/

/-- A byte's place as a number; places of neighbouring bytes differ by two. The alias and fabric windows have none. -/
def Loc.key (l : Loc) : Option Nat :=
  match l with
  | .spad o off => some (2 * (o * 1048576 + off) + 1)
  | .mem pa mt => if mt = 1 then none else some (2 * pa)
  | .fabric _ _ => none

/-- The earlier and the engine's value of the byte at a place. -/
def Unsettled.at (u : Unsettled) (k : Nat) : Option (Byte × Byte) :=
  if k % 2 = u.key % 2 ∧ u.key ≤ k then (u.bytes[(k - u.key) / 2]?).join else none

/-- Settle n bytes from a place on. -/
def Unsettled.settle (u : Unsettled) (k n : Nat) : Unsettled :=
  { u with bytes := u.bytes.zipIdx.map (fun p =>
      if (u.key + 2 * p.2) % 2 = k % 2 ∧ k ≤ u.key + 2 * p.2 ∧ u.key + 2 * p.2 < k + 2 * n then none else p.1) }

/-- Whether a byte is still unsettled. -/
def Unsettled.live (u : Unsettled) : Bool := u.bytes.any (fun b => b.isSome)

/-- By byte of a place, the earlier value that a load may still return (R84): none where nothing is unsettled, or where
another write has replaced the engine's value. -/
def State.earlier (s : State) (w : Nat) (l : Loc) (n : Nat) : List (Option Byte) :=
  match l.key with
  | none => []
  | some k => (s.peek w l n).zipIdx.map (fun p => match s.unsettled.findSome? (fun u => u.at (k + 2 * p.2)) with
    | some (old, new) => if new = p.1 then some old else none
    | none => none)

/-- Whether a place holds an unsettled byte. -/
def State.opened (s : State) (w : Nat) (l : Loc) (n : Nat) : Bool :=
  !s.unsettled.isEmpty && (s.earlier w l n).any (fun b => b.isSome)

/-- What a load takes from bytes of a place: of an unsettled byte the earlier value or the one that stands, as a free value
says (R84; log 1). -/
def State.taken (s : State) (w : Nat) (l : Loc) (n : Nat) (bs : List Byte) : List Byte :=
  if s.opened w l n then
    (bs.zip (s.earlier w l n)).zipIdx.map (fun p =>
      if (Config.freeValue (s.freeCount + p.2)).getLsbD 0 then p.1.2.getD p.1.1 else p.1.1)
  else bs

/-- The free values of a load are used up. -/
def State.took (s : State) (w : Nat) (l : Loc) (n : Nat) : State :=
  if s.opened w l n then { s with freeCount := s.freeCount + n } else s

/-- The bytes of a place as a load takes them. -/
def State.peekOpen (s : State) (w : Nat) (l : Loc) (n : Nat) : List Byte := s.taken w l n (s.peek w l n)

/-- Settle n bytes from a place on: somebody has acquired them, or a store has decided them (R84, R98). -/
def State.settleAt (s : State) (l : Loc) (n : Nat) : State :=
  if s.unsettled.isEmpty then s
  else match l.key with
    | none => s
    | some k => { s with unsettled := (s.unsettled.map (fun u => u.settle k n)).filter (fun u => u.live) }

/-- A thread's store of bytes meets bytes an engine wrote: each ends with one of the two values, as a free value says (R84;
log 1). It answers the bytes to write. -/
def State.decided (s : State) (w : Nat) (l : Loc) (bs : List Byte) : State × List Byte :=
  if s.opened w l bs.length then
    (({ s with freeCount := s.freeCount + bs.length }).settleAt l bs.length,
      ((bs.zip (s.peek w l bs.length)).zip (s.earlier w l bs.length)).zipIdx.map (fun p =>
        if p.1.2.isSome && (Config.freeValue (s.freeCount + p.2)).getLsbD 0 then p.1.1.2 else p.1.1.1))
  else (s.settleAt l bs.length, bs)

/-- Write a thread's bytes at a place. -/
def State.pokeBy (s : State) (w : Nat) (l : Loc) (bs : List Byte) : State :=
  (s.decided w l bs).1.poke w l (s.decided w l bs).2

/-- An engine command is about to write bytes at a place: they are unsettled where they differ from what stands (R84). -/
def State.noteEngine (s : State) (id core w : Nat) (l : Loc) (bs : List Byte) : State :=
  match l.key with
  | none => s
  | some k =>
    let u : Unsettled := ⟨id, core, w, k, ((s.peek w l bs.length).zip bs).map (fun p => if p.1 = p.2 then none else some p), none⟩
    let s1 := s.settleAt l bs.length
    if u.live then { s1 with unsettled := u :: s1.unsettled } else s1

/-- The phase into which the byte x places before the last of an addition is counted, the clasp standing at ARR and PHC
after it: the last ARR bytes into the phase that runs, each EXP bytes before them into a completed one (R100, R101). -/
def phaseBack (exp phc arr x : Nat) : Nat := if x < arr then phc else (phc + 2 ^ 24 - 1 - (x - arr) / exp % 2 ^ 24) % 2 ^ 24

/-- Cut an unsettled range into ranges of one phase each, from its last byte, which stands x places before the addition's
last, to its first; at most `fuel` of them. -/
def Unsettled.phases (u : Unsettled) (ck exp phc arr : Nat) : Nat → Nat → List Unsettled
  | 0, _ => []
  | fuel + 1, x =>
    let n := u.bytes.length
    let m := min n (if x < arr then arr - x else exp - (x - arr) % exp)
    if n = 0 then []
    else { u with key := u.key + 2 * (n - m), bytes := u.bytes.drop (n - m), counted := some (ck, some (phaseBack exp phc arr x)) } ::
      Unsettled.phases { u with bytes := u.bytes.take (n - m) } ck exp phc arr fuel (x + m)

/-- Count the ranges of a command that are not yet counted, the newest first, x bytes of the addition being behind. -/
def countBack (id ck exp phc arr : Nat) : Nat → List Unsettled → List Unsettled
  | _, [] => []
  | x, u :: r =>
    if u.id = id ∧ u.counted = none then
      u.phases ck exp phc arr u.bytes.length x ++ countBack id ck exp phc arr (x + u.bytes.length) r
    else u :: countBack id ck exp phc arr x r

/-- A command's bytes have been counted into the clasp that now stands at a place (R100, R101); with EXP = 0 no phase
counts them. -/
def State.noteCount (s : State) (id key exp phc arr : Nat) : State :=
  if s.unsettled.isEmpty then s
  else if exp = 0 then { s with unsettled := s.unsettled.map (fun u =>
    if u.id = id ∧ u.counted = none then { u with counted := some (key, none) } else u) }
  else { s with unsettled := (countBack id key exp phc arr 0 s.unsettled).filter (fun u => u.live) }

/-- Somebody observes a clasp's phase count: the bytes counted into earlier phases are acquired (R101). -/
def State.acquirePhase (s : State) (key phc : Nat) : State :=
  if s.unsettled.isEmpty then s
  else { s with unsettled := s.unsettled.filter (fun u => match u.counted with
    | some (k, some p) => !(k == key && p != phc)
    | _ => true) }

/-- `cl.init` begins the phases anew: what was counted before belongs to none (R101, R224). -/
def State.dropPhases (s : State) (key : Nat) : State :=
  if s.unsettled.isEmpty then s
  else { s with unsettled := s.unsettled.map (fun u => match u.counted with
    | some (k, _) => if k = key then { u with counted := some (k, none) } else u
    | none => u) }

/-- The clasp at a place is observed (R101). -/
def State.seeClasp (s : State) (w : Nat) (l : Loc) : State :=
  if s.unsettled.isEmpty then s
  else match l.key with
    | none => s
    | some k => s.acquirePhase k (natOfBytes ((s.peek w l 16).drop 13))

/-- A load that covers the PHC of a clasp observes it (R99, R101). -/
def State.observe (s : State) (w : Nat) (l : Loc) (n : Nat) : State :=
  match l with
  | .spad o off => if off % 16 ≤ 13 ∧ 16 ≤ off % 16 + n then s.seeClasp w (.spad o (off / 16 * 16)) else s
  | .mem pa mt => if pa % 16 ≤ 13 ∧ 16 ≤ pa % 16 + n then s.seeClasp w (.mem (pa / 16 * 16) mt) else s
  | .fabric _ _ => s

/-- What follows a load of a place: its free values are used up, and a PHC it covers is observed. -/
def State.loadedAt (s : State) (w : Nat) (l : Loc) (n : Nat) : State := (s.took w l n).observe w l n

/-- A COPY packet's work is over: every byte it has written precedes what follows (R390). -/
def State.settleCommand (s : State) (id : Nat) : State :=
  if s.unsettled.isEmpty then s else { s with unsettled := s.unsettled.filter (fun u => u.id != id) }

/-- The work a packet completes is over: every byte its engines have written precedes what follows (R390). -/
def State.settleBy (s : State) (cores : List Nat) : State :=
  if s.unsettled.isEmpty then s else { s with unsettled := s.unsettled.filter (fun u => !(cores.contains u.core)) }

/-- What a core's scratchpad or a world's memory loses is settled (R115, R414, R415). -/
def State.settleCore (s : State) (c : Nat) : State := s.settleAt (.spad c 0) 1048576

/-! ## Access to the own bank through memory (R196) -/

/-- The 256 register bytes a bank shows (R196): dead registers read zero. -/
def Slot.bytes (sl : Slot) : List Byte := (List.range 32).flatMap (fun n => bytesOf 8 (sl.reg n).toNat)

/-- A store to the own register bytes: each register touched becomes live (R196). -/
def Slot.storeBytes (sl : Slot) (off : Nat) (bs : List Byte) : Slot :=
  let img := spliceBytes sl.bytes off bs
  (List.range 32).foldl (fun sl n =>
    if overlaps off bs.length (8 * n) 8 then
      sl.setReg n (BitVec.ofNat 64 (natOfBytes ((img.drop (8 * n)).take 8)))
    else sl) sl

/-! ## Engine accesses (R83, R84, R98, R119, R377) -/

/-- An engine access's checks: an address, n bytes, read or write, by the PC of the issuing instruction. Register bytes
of a resident workspace are reported as WSPROT. -/
def State.engineCheck (s : State) (c w pc ea n : Nat) (write : Bool) : Chk :=
  if 2 ^ 56 ≤ ea then .trap (trapAt 7 5 ea)
  else
    match s.spadOf c ea with
    | some (owner, off) =>
      if (s.core owner).world ≠ w ∨ s.coreList.length ≤ owner ∨ 1048576 < off + n then .trap (trapAt 7 6 ea)
      else if ((s.core owner).regHit off n).isSome then .trap (trapAt 8 0 ea)
      else if write && (s.core owner).recordHit off n then .trap (trapAt 8 1 ea)
      else if write && (s.core owner).skipHit off n then .trap (trapAt 0x0E 0x0A ea)
      else if !write && poisonHit (s.core owner).spoison off n then .service 0x13 ea
      else .ok (.spad owner off) .invalid
    | none =>
      match fabricOf ea with
      | some (win, off) =>
        if !(s.fabricOpen w win) || decide (s.fabricLimit w win < off + n - 1) then .trap (trapAt 7 6 ea)
        else .ok (.fabric win off) .invalid
      | none =>
        if 0x00F0000000000000 ≤ ea then .trap (trapAt 7 5 ea)
        else s.checkPage c w ea ⟨5, n, 1, !write, write, pc⟩

/-- An engine write: bytes, the home's stamp, and every granule written becomes full (R84, R98, R432). -/
def State.engineWrite (s : State) (w : Nat) (l : Loc) (bs : List Byte) (stamp : Nat) : State :=
  match l with
  | .spad o off =>
    let s := s.poke w l bs
    let gs := (List.range ((off % 16 + bs.length + 15) / 16)).map (fun i => off / 16 + i)
    s.modCore o (fun k => { k with
      full := k.full.filter (fun g => !(gs.contains g)) ++ gs, hts := max k.hts stamp })
  | .mem _ _ =>
    ((((s.writeHome w l stamp).cached w l).soilAt l).poke w l bs).raiseHts l stamp
  | .fabric win off => s.askFabric w win off bs.length true (natOfBytes bs)

/-- Whether a granule is full (R95). -/
def Core.isFull (k : Core) (g : Nat) : Bool := k.full.contains g

/-- Set or clear a granule's bit (R95). -/
def Core.setFull (k : Core) (g : Nat) (f : Bool) : Core :=
  { k with full := if f then (if k.full.contains g then k.full else k.full ++ [g]) else k.full.filter (fun x => x != g) }

end Sys2Proof.Machine
end

