-- ==== Sys2Proof/Machine/Home.lean ====
section
/-! DEFINITION. What requests do at their homes: atomics, update logs, full-empty forms, clasps, messages and wakes
(R88 to R102, R212 to R235), the waiters a change serves, and the answers that return to threads. -/

namespace Sys2Proof.Machine

/-! ## Atomic arithmetic (R215) -/

/-- Signed order of two n-byte values. -/
def sLess (n a b : Nat) : Bool := decide (sintOf a (8 * n) < sintOf b (8 * n))

/-- The operations of R162 on n bytes: 0 add, 1 and, 2 or, 3 xor, 4 min, 5 max, 6 minn, 7 maxn, 8 swap, 9 and 10 float
additions with RNE and no flag. -/
def amoResult (op n old b : Nat) : Nat :=
  match op with
  | 0 => (old + b) % 2 ^ (8 * n)
  | 1 => old &&& b
  | 2 => old ||| b
  | 3 => old ^^^ b
  | 4 => if sLess n old b then old else b
  | 5 => if sLess n old b then b else old
  | 6 => min old b
  | 7 => max old b
  | 8 => b
  | 9 => (addVal .f32 .rne false 0 (floatVal .f32 old) (floatVal .f32 b)).1
  | _ => (addVal .f64 .rne false 0 (floatVal .f64 old) (floatVal .f64 b)).1

/-- fmin and fmax of R187 on bits: the chosen operand unchanged, and NV for a signalling NaN. -/
def fminmax (t : Ty) (wantMax : Bool) (a b : Nat) : Nat × Flags :=
  let x := floatVal t a
  let y := floatVal t b
  let fl := snanFlag x ||| snanFlag y
  match x, y with
  | .nan _, .nan _ => (defaultNaN t, fl)
  | .nan _, _ => (b, fl)
  | _, .nan _ => (a, fl)
  | x, y =>
    let aLess := match compareVal x y with
      | some .lt => true
      | some .gt => false
      | _ => floatSign t a && !(floatSign t b)
    let bLess := match compareVal x y with
      | some .gt => true
      | some .lt => false
      | _ => floatSign t b && !(floatSign t a)
    (if wantMax then (if aLess then b else a) else (if bLess then b else a), fl)

/-- Bytes of an update-log operation (R218). -/
def ulogBytes (op : Nat) : Nat := if op = 0 ∨ op = 2 ∨ op = 4 ∨ op = 5 then 4 else 8

/-- One application of an update-log record, with its flags (R219). -/
def ulogApply (op v r : Nat) : Nat × Flags :=
  match op with
  | 0 => addVal .f32 .rne false 0 (floatVal .f32 v) (floatVal .f32 r)
  | 1 => addVal .f64 .rne false 0 (floatVal .f64 v) (floatVal .f64 r)
  | 2 => ((v + r) % 2 ^ 32, 0#5)
  | 3 => ((v + r) % 2 ^ 64, 0#5)
  | 4 => fminmax .f32 true v r
  | 5 => fminmax .f32 false v r
  | 6 => fminmax .f64 true v r
  | _ => fminmax .f64 false v r

/-! ## Clasps (R99, R100, R224) -/

/-- A clasp's fields (R99). -/
structure Clasp where
  e : Bool
  o : Bool
  exp : Nat
  phc : Nat
  arr : Nat
  deriving DecidableEq, Repr

/-- A clasp from its 16 bytes (R99). Its reserved bits are not looked at, and a write leaves them zero: what becomes of a
clasp in which they are not zero is the model's choice (log 31). -/
def claspOf (bs : List Byte) : Clasp :=
  let w0 := natOfBytes (bs.take 8)
  let w1 := natOfBytes (bs.drop 8)
  ⟨bitOf w0 63, bitOf w0 62, w0 % 2 ^ 40, w1 / 2 ^ 40 % 2 ^ 24, w1 % 2 ^ 40⟩

/-- A clasp as its 16 bytes (R99). -/
def claspBytes (c : Clasp) : List Byte :=
  bytesOf 8 ((if c.e then 2 ^ 63 else 0) + (if c.o then 2 ^ 62 else 0) + c.exp % 2 ^ 40) ++
    bytesOf 8 (c.phc % 2 ^ 24 * 2 ^ 40 + c.arr % 2 ^ 40)

/-- The loop of R100 after ARR has grown: whole phases are counted off, and O records an excess. -/
def Clasp.settle (c : Clasp) : Clasp :=
  if c.exp = 0 then { c with arr := c.arr % 2 ^ 40 }
  else
    let flips := c.arr / c.exp
    { c with arr := c.arr % c.exp, phc := (c.phc + flips) % 2 ^ 24,
             o := c.o || (decide (0 < flips) && decide (c.arr % c.exp ≠ 0)) }

/-- An addition of b bytes (R100). -/
def Clasp.add (c : Clasp) (b : Nat) : Clasp := if b = 0 then c else ({ c with arr := c.arr + b }).settle

/-- `cl.arm` (R224): a new EXP, and the loop of R100 with b = 0. -/
def Clasp.arm (c : Clasp) (exp : Nat) : Clasp := if exp = 0 then { c with exp := 0 } else ({ c with exp := exp }).settle

/-- Result() of R224. -/
def Clasp.result (c : Clasp) : Word :=
  BitVec.ofNat 64 ((if c.e then 2 ^ 63 else 0) + (if c.o then 2 ^ 62 else 0) + c.phc)

/-- The condition of `cl.wait` (R224). -/
def Clasp.waitHolds (c : Clasp) (p : Nat) : Bool := c.phc != p || c.e

/-! ## Performing a request at its home -/

/-- An answer that completes an instruction. -/
def answerOk (reg : Option (BitVec 5 × Word)) (stamp : Nat) : Answer := ⟨reg, none, 0#5, none, stamp, true⟩

/-- An answer that traps. -/
def answerTrap (t : Trap) (stamp : Nat) : Answer := ⟨none, none, 0#5, some t, stamp, true⟩

/-- The stamp an answer from a home carries (R432): its hts, and at an L2 home the line's wts. -/
def State.answerStamp (s : State) (l : Loc) : Nat :=
  match l with
  | .mem pa 0 => max (s.htsOf l) (s.homeLine pa).wts
  | _ => s.htsOf l

/-- A home event that changes bytes: the home's stamp rises, and at an L2 home the line is written as by a store
(R432). It answers the stamp the answer carries. -/
def State.homeChange (s : State) (w : Nat) (l : Loc) (bs : List Byte) (stamp : Nat) : State × Nat :=
  let s := ((((s.writeHome w l stamp).cached w l).soilAt l).pokeBy w l bs).raiseHts l stamp
  (s, s.answerStamp l)

/-- A task becomes ready by a wake or a message (R55, R230). -/
def State.wakeTask (s : State) (c ws : Nat) : State := s.joinReady c ws 0

/-- The slot of a core that is switching a workspace out into a TSTATE (R50). -/
def Core.switchingOut (k : Core) (ws st : Nat) : Option Nat :=
  (List.range 16).find? (fun i => match (k.slot i).switching with
    | some x => x.outgoing == some (ws, st)
    | none => false)

/-- Records of one log, address and rank that precede an append (R92). -/
def World.seqOf (x : World) (log a rank : Nat) : Nat :=
  (x.ulogs.filter (fun r => r.log == log && r.addr == a && r.rank == rank)).length

/-- The policy fields of R412. -/
def World.lease (x : World) : Nat := bitsOf x.policy.toNat 192 7
/-- LOGA (R412). -/
def World.loga (x : World) : Nat := bitsOf x.policy.toNat 288 32
/-- TCCAP in MiB (R412). -/
def World.tccap (x : World) : Nat := bitsOf x.policy.toNat 256 32
/-- CQUOTA (R412). -/
def World.cquota (x : World) : Nat := bitsOf x.policy.toNat 224 32
/-- NQMAX (R412). -/
def World.nqmax (x : World) : Nat := bitsOf x.policy.toNat 200 7
/-- MCAP (R412). -/
def World.mcap (x : World) : Nat := bitsOf x.policy.toNat 0 64
/-- HEAPI in bytes (R412). -/
def World.heapi (x : World) : Nat := bitsOf x.policy.toNat 96 32 * 65536
/-- HEAPMAX in bytes (R412). -/
def World.heapx (x : World) : Nat := bitsOf x.policy.toNat 64 32 * 65536
/-- PREF (R412). -/
def World.pref (x : World) : Nat := bitsOf x.policy.toNat 128 64
/-- L2W (R412, R413). -/
def World.l2w (x : World) : Nat := bitsOf x.policy.toNat 320 4

/-- Records a slice's share of the spill area holds (R94). -/
def World.share (x : World) : Nat := x.loga * 65536 / (32 * max 1 x.m0)

/-- Perform `ulog.app` at the home slice of its destination (R91 to R94, R218). -/
def State.doAppend (s : State) (r : Request) (log op v rank pa : Nat) : State × Answer :=
  let x := s.world r.world
  let slice := s.sliceOf pa
  let here := x.ulogs.filter (fun e => e.slice == slice)
  let chip := (here.filter (fun e => e.log == log && !e.spilled)).length
  let spill := (here.filter (fun e => e.spilled)).length
  if 8192 ≤ chip ∧ x.share ≤ spill then (s, answerTrap (trapAt 7 8 r.va) (s.htsOf (.mem pa 0)))
  else
    let rec_ : ULogRec := ⟨log, r.va, v, op, rank, x.seqOf log r.va rank, slice, decide (8192 ≤ chip)⟩
    let s := s.putWorld r.world { x with ulogs := x.ulogs ++ [rec_] }
    let s := s.raiseHts (.mem pa 0) r.stamp
    (s, answerOk none (s.htsOf (.mem pa 0)))

/-- Perform `msg.send` at the target's core, or nothing while FULL is 1 (R52 to R55, R233); of the mailbox's status word FULL alone is
read, and its reserved bits are ignored (log 31). SENDC of a sender in a resumed
gang is its core's current number, where the spec leaves open whether it is the launch-time one (R116; log 45). -/
def State.doSend (s : State) (r : Request) (payload : List Byte) (slot owner ws : Nat) : State × Option Answer :=
  let status := s.sNum owner (wsOff ws 0x170) 8
  if bitOf status 0 then (s, none)
  else
    let s := s.sPutBytes owner (wsOff ws 0x140) payload
    let s := s.sPut owner (wsOff ws 0x170) 8 (r.core % 65536 * 2 ^ 32 + slot % 16 * 2 ^ 28 + 1)
    let s := s.raiseHts (.spad owner 0) r.stamp
    let s := if (s.task owner ws).tstate = 3 ∧ ((s.core owner).switchingOut ws 3).isNone
      then s.wakeTask owner ws else s
    (s, some (answerOk none (s.htsOf (.spad owner 0))))

/-- Perform `wake` at the target's core (R230, R432). -/
def State.doWake (s : State) (r : Request) (d : BitVec 5) (owner ws : Nat) : State × Option Answer :=
  let s := (s.raiseHts (.spad owner 0) r.stamp).raisePts owner r.stamp
  let ans (v : Word) : Option Answer := some (answerOk (some (d, v)) (s.htsOf (.spad owner 0)))
  match (s.core owner).switchingOut ws 2 with
  | some i =>
    (s.modSlot owner i (fun sl => { sl with switching := sl.switching.map (fun x => { x with outgoing := some (ws, 0) }) }),
      ans 1)
  | none => if (s.task owner ws).tstate = 2 then (s.wakeTask owner ws, ans 1) else (s, ans 0)

/-- Journal an uncorrectable error that an access other than a thread's load met, as unconsumed (R217, R425, R426). -/
def State.noteUnread (s : State) (l : Loc) (w : Nat) : State :=
  match s.errorAt w l with
  | .spad o off => (s.journalEvent 2 (s.physCore o) 2 (errorWord (s.core o).spoison off) w).1
  | .mem pa _ => (s.journalEvent (s.holderOf pa).kind (s.holderOf pa).phys 2 (if s.lostAt pa then pa else errorWord s.poison pa) w).1
  | .fabric _ _ => s

/-- The home recalls an owned L1 copy before an atomic or a clasp instruction acts there (R214). -/
def State.recallAt (s : State) (l : Loc) : State :=
  match l with
  | .mem pa 0 => s.recall pa
  | _ => s

/-- A core keeps no L1 copy of a line. -/
def State.dropCopy (s : State) (c pa : Nat) : State :=
  s.modCore c (fun k => { k with l1 := k.l1.filter (fun e => e.2.pa != pa / 32 * 32) })

/-- After a core's `red` its own L1 keeps no copy of the line from before it (R217). -/
def State.dropStale (s : State) (c : Nat) (l : Loc) : State :=
  match l with
  | .mem pa 0 => s.dropCopy c pa
  | _ => s

/-- An atomic that changes no byte, a `cas` that fails: its home's stamp rises, and at an L2 home its line is treated as a
store treats it (R432). -/
def State.homeTouch (s : State) (l : Loc) (stamp : Nat) : State :=
  (match l with
    | .mem pa 0 => s.homeWrite pa stamp
    | _ => s).raiseHts l stamp

/-- Perform a request at its home, or answer none while its condition does not hold (R88, R96, R100, R224, R233). -/
def State.perform (s : State) (r : Request) : State × Option Answer :=
  let l := r.loc
  let rd (n : Nat) : Nat := natOfBytes (s.peekOpen r.world l n)
  let took (n : Nat) : State := s.loadedAt r.world l n
  let seen (s : State) (d : Option (BitVec 5 × Word)) : State × Option Answer := (s, some (answerOk d (s.htsOf l)))
  let changed (s : State) (bs : List Byte) (d : Option (BitVec 5 × Word)) : State × Option Answer :=
    let (s, st) := s.homeChange r.world l bs r.stamp
    (s, some (answerOk d st))
  match r.op with
  | .load n sg d upd =>
    let v := rd n
    let a := answerOk (some (d, if sg then sextW (wordOf v) (8 * n) else wordOf v)) (s.htsOf l)
    (took n, some { a with upd := upd.map (fun b => (b, wordOf r.va)) })
  | .store n v upd =>
    let (s, st) := s.homeChange r.world l (bytesOf n v) r.stamp
    let a := answerOk none st
    (s, some { a with upd := upd.map (fun b => (b, wordOf r.va)) })
  | .amo op n v d =>
    let old := rd n
    changed (took n) (bytesOf n (amoResult op n old v)) (some (d, wordOf old))
  | .cas n e v d =>
    let old := rd n
    if old = e then changed (took n) (bytesOf n v) (some (d, wordOf old))
    else
      let s := (took n).homeTouch l r.stamp
      (s, some (answerOk (some (d, wordOf old)) (s.answerStamp l)))
  | .red op n v =>
    let p := match l with
      | .mem pa _ => s.lostAt pa || poisonHit s.poison (pa / 32 * 32) 32
      | .spad o off => poisonHit (s.core o).spoison off n
      | _ => false
    if p then (s.noteUnread l r.world, some (answerOk none 0))
    else
      let t := changed (took n) (bytesOf n (amoResult op n (rd n) v)) none
      (t.1.dropStale r.core l, t.2)
  | .ulogApp log op _ v rank =>
    let pa := match l with
      | .mem pa _ => pa
      | _ => 0
    let (s, a) := s.doAppend r log op v rank pa
    (s, some a)
  | .ulogMerge _ => (s, some (answerOk none 0))
  | .feLoad take n d =>
    match l with
    | .spad o off =>
      if !((s.core o).isFull (off / 16)) then (s, none)
      else
        let v := natOfBytes (s.peek r.world l n)
        let s := s.settleAt (.spad o (off / 16 * 16)) 16
        let s := if take then (s.modCore o (fun k => k.setFull (off / 16) false)).raiseHts l r.stamp else s
        seen s (some (d, wordOf v))
    | _ => seen s none
  | .feStore mode n v =>
    match l with
    | .spad o off =>
      if mode = 0 ∧ (s.core o).isFull (off / 16) then (s, none)
      else
        let s := if mode = 2 then s else s.pokeBy r.world l (bytesOf n v)
        seen ((s.modCore o (fun k => k.setFull (off / 16) (mode != 2))).raiseHts l r.stamp) none
    | _ => seen s none
  | .clInit e => changed (match l.key with
      | some k => s.dropPhases k
      | none => s) (claspBytes ⟨false, false, e, 0, 0⟩) none
  | .clArm e => changed s (claspBytes ((claspOf (s.peek r.world l 16)).arm e)) none
  | .clAdd b =>
    if b = 0 then seen (s.recallAt l) none else changed s (claspBytes ((claspOf (s.peek r.world l 16)).add b)) none
  | .clTest d =>
    let s := s.recallAt l
    seen (s.seeClasp r.world l) (some (d, (claspOf (s.peek r.world l 16)).result))
  | .clWait d p =>
    let c := claspOf (s.peek r.world l 16)
    if c.waitHolds p then seen ((s.recallAt l).seeClasp r.world l) (some (d, c.result)) else (s, none)
  | .send payload slot =>
    match l with
    | .spad o off => s.doSend r payload slot o (off / 1024)
    | _ => seen s none
  | .wake d =>
    match l with
    | .spad o off => s.doWake r d o (off / 1024)
    | _ => seen s none
  | .recall _ => (s, none)

/-! ## Waiting requests -/

/-- Count or discount a `cl.wait` registered on a line of normal memory (R225): while one is, the home grants no
ownership of the line. -/
def State.watch (s : State) (l : Loc) (add : Bool) : State :=
  match l with
  | .mem pa 0 =>
    let s := s.recall pa
    let h := s.homeLine pa
    s.putHome pa { h with watched := if add then h.watched + 1 else h.watched - 1 }
  | _ => s

/-- Register a request that waits at its home (R221, R225, R233). -/
def State.register (s : State) (r : Request) : State :=
  match r.op with
  | .clWait _ _ => (s.watch r.loc true).modCore r.core (fun k => { k with clWait := k.clWait ++ [r] })
  | .send _ _ =>
    match r.loc with
    | .spad o _ => s.modCore o (fun k => { k with sendWait := k.sendWait ++ [r] })
    | _ => s
  | _ =>
    match r.loc with
    | .spad o _ => s.modCore o (fun k => { k with feWait := k.feWait ++ [r] })
    | _ => s

/-- Whether a request is a `red`. -/
def Request.isRed (r : Request) : Bool := match r.op with
  | .red _ _ _ => true
  | _ => false

/-- Withdraw every request a task has waiting or travelling (R115, R222, R225). -/
def State.withdraw (s : State) (c ws : Nat) : State :=
  let mine (r : Request) : Bool := r.core == c && r.ws == ws
  let s := ((s.core c).clWait.filter mine).foldl (fun s r => s.watch r.loc false) s
  { s with
    cores := s.cores.map (fun e => (e.1, { e.2 with
      feWait := e.2.feWait.filter (fun r => !(mine r)), clWait := e.2.clWait.filter (fun r => !(mine r)),
      sendWait := e.2.sendWait.filter (fun r => !(mine r)) }))
    inflight := s.inflight.filter (fun r => !(mine r) || r.isRed) }

/-- Give a waiting thread its answer: it resumes under R37 once the answer has returned. -/
def State.answerWaiter (s : State) (r : Request) (a : Answer) : State :=
  s.modTask r.core r.ws (fun t => { t with park := .released (s.effectAt + r.back) a })

/-- Serve the first waiter of a list whose condition holds, with at most `fuel` services (R221, R225, R233). -/
def State.serve (get : State → List Request) (drop : State → Nat → State) : Nat → State → State
  | 0, s => s
  | fuel + 1, s =>
    match (get s).findSome? (fun r => match s.perform r with
      | (s', some a) => some (r, s', a)
      | (_, none) => none) with
    | none => s
    | some (r, s', a) => State.serve get drop fuel ((drop s' r.id).answerWaiter r a)

/-- Serve every waiter of one core whose condition holds (R221 step 3, R225, R233). -/
def State.serveCore (s : State) (c : Nat) : State :=
  let k := s.core c
  let s := State.serve (fun s => (s.core c).feWait)
    (fun s id => s.modCore c (fun k => { k with feWait := k.feWait.filter (fun r => r.id != id) })) k.feWait.length s
  let s := State.serve (fun s => (s.core c).sendWait)
    (fun s id => s.modCore c (fun k => { k with sendWait := k.sendWait.filter (fun r => r.id != id) })) k.sendWait.length s
  State.serve (fun s => (s.core c).clWait)
    (fun s id =>
      let s := ((s.core c).clWait.filter (fun r => r.id == id)).foldl (fun s r => s.watch r.loc false) s
      s.modCore c (fun k => { k with clWait := k.clWait.filter (fun r => r.id != id) })) k.clWait.length s

/-- After a step, every waiter whose condition now holds is performed at its home, core by core. -/
def State.serveAll (s : State) : State := (s.cores.map (fun e => e.1)).foldl (fun s c => s.serveCore c) s

/-! ## Sending a request from a thread -/

/-- Complete the acting thread's instruction with an answer (R34, R37). -/
def State.applyAnswer (s : State) (a : Answer) : State :=
  let s := s.raisePts s.actCore a.stamp
  match a.trap with
  | some t => s.takeTrap t
  | none =>
    let s := match a.reg with
      | some (d, v) => s.wr d v
      | none => s
    let s := match a.upd with
      | some (d, v) => s.wr d v
      | none => s
    (s.orFlags a.flags).finish 1

/-- Build the acting thread's request: after its translation it travels half its figure to its home, where the model
performs it six cycles early, as it performs every instruction at its issue (R32, R103, R120). -/
def State.mkReq (s : State) (op : ReqOp) (ea : Nat) (l : Loc) (deadline : Option Nat) : Request :=
  let t := s.travel s.actCore l
  ⟨s.nextId, s.actCore, s.curWs, s.cur.world, s.cycle + s.cur.late + (t + 1) / 2, t / 2, s.pts s.actCore, op, ea, l, deadline⟩

/-- Send the acting thread's request: to the own scratchpad it is performed now, or waits there; elsewhere it travels
and the thread parks (R103, R214, R221). -/
def State.request (s : State) (op : ReqOp) (ea : Nat) (l : Loc) (deadline : Option Nat) : State :=
  let r := s.mkReq op ea l deadline
  let s := { s with nextId := s.nextId + 1 }
  let own := match l with
    | .spad o _ => o == s.actCore
    | _ => false
  if own then
    match s.perform r with
    | (s', some a) => s'.applyAnswer a
    | (s', none) => (s'.register r).parkCur (.home r.id)
  else ({ s with inflight := s.inflight ++ [r] }).parkCur (.home r.id)

/-- Whether two travelling requests are `red`s of equal address, size and op, which the routers merge (R89, R217). -/
def Request.merges (r x : Request) : Bool :=
  match r.op, x.op with
  | .red op n _, .red op1 n1 _ => op == op1 && n == n1 && r.loc == x.loc
  | _, _ => false

/-- One request for two merged ones: it carries the combined operand (R217) and the higher stamp. -/
def Request.merge (r x : Request) : Request :=
  match r.op, x.op with
  | .red op n v, .red _ _ u => { r with op := .red op n (amoResult op n v u), stamp := max r.stamp x.stamp }
  | _, _ => r

/-- A `red` reaches its home, with every equal one that still travels merged into it: the group takes consecutive places
(R89, R217). Which equal ones the routers catch is not stated; the model merges all (log 29). The issuing cores' pts rise to
the line's new wts, as a store's does (R71, R432), so that what follows a `red` carries it on. -/
def State.performRed (s : State) (r : Request) : State :=
  let group := s.inflight.filter (fun x => x.id != r.id && r.merges x)
  let s1 := { s with inflight := s.inflight.filter (fun x => !(x.id == r.id || r.merges x)) }
  let t := s1.perform (group.foldl Request.merge r)
  let stamp := (t.2.map (fun a => a.stamp)).getD 0
  (r :: group).foldl (fun s x => (s.raisePts x.core stamp).dropStale x.core x.loc) t.1

/-- Perform the acting thread's travelling `red` requests before its next memory event (R217: a later event of the
thread follows its `red`). -/
def State.drainReds (s : State) : State :=
  (s.inflight.filter (fun r => r.core == s.actCore && r.ws == s.curWs && r.isRed)).foldl (fun s r =>
    if s.inflight.any (fun x => x.id == r.id) then s.performRed r else s) s

/-- The bytes of a request's own access at its home, and whether it reads and writes them. -/
def ReqOp.span (op : ReqOp) : Nat × Bool × Bool :=
  match op with
  | .load n _ _ _ => (n, true, false)
  | .store n _ _ => (n, false, true)
  | .amo _ n _ _ => (n, true, true)
  | .cas n _ _ _ => (n, true, true)
  | .feLoad _ n _ => (n, true, false)
  | .feStore mode n _ => (n, false, mode != 2)
  | .clInit _ => (16, true, true)
  | .clArm _ => (16, true, true)
  | .clAdd _ => (16, true, true)
  | .clTest _ => (16, true, false)
  | .clWait _ _ => (16, true, false)
  | _ => (0, false, false)

/-- Whether a request that has reached its home meets an uncorrectable error there (R23, R425): one that arose while it
travelled, or a failed channel. -/
def State.errsAtHome (s : State) (r : Request) : Bool :=
  let x := r.op.span
  let acc : Acc := ⟨0, x.1, 1, x.2.1, x.2.2, 0⟩
  match r.loc with
  | .mem pa mt => x.1 != 0 && s.meetsError mt (s.backing r.world pa mt x.1 x.2.2) acc
  | .spad o off => consumes (s.core o).spoison off x.1 acc
  | .fabric _ _ => false

/-- Where a thread's access finds the error it consumes: a scratchpad, or memory behind a page. -/
def State.poisonPlace (s : State) (c ea : Nat) : Loc :=
  match s.spadOf c ea with
  | some (o, off) => .spad o off
  | none => match s.translate c (s.core c).world ea with
    | .leaf pte big => s.errorAt (s.core c).world (leafLoc pte big ea)
    | .lost pa => .mem pa 0
    | _ => .spad c 0

/-- Where a thread meets the error it consumes: the unit that holds it, the address, and the core whose SRAM that is (R114,
R426): an L1 copy, a scratchpad or a bank, a slice or a channel (log 19). -/
def State.errorSite (s : State) (c ws ea : Nat) : Option (UnitRef × Nat × Option Nat) :=
  match (s.l1Hit c ea).filter (fun y => !y.bad.isEmpty), s.poisonPlace c ea with
  | some y, _ => some (⟨2, s.physCore c⟩, errorWord y.bad (y.pa + ea % 32), some c)
  | none, .spad o off => some (⟨2, s.physCore o⟩, errorWord ((s.core o).spoison ++ (s.core c).bankErrors ws) off, some o)
  | none, .mem pa _ => some (s.holderOf pa, if s.lostAt pa then pa else errorWord s.poison pa, none)
  | none, .fabric _ _ => none

/-- A thread consumes an uncorrectable error: it is journalled, and it fails the gang of the consumer, or of the core
whose SRAM held it (R114, R425, R426). Of a gang's member the gang fails here, at the consumption that R114 names, and not when the
service escalates the thread's UE (R111; log 78). -/
def State.consumeUE (s : State) (c ws ea : Nat) : State :=
  let x := s.errorSite c ws ea
  let r := match x with
    | some (u, a, _) => s.journalEvent u.kind u.phys 3 a (s.core c).world
    | none => (s, 0)
  let s1 := match (s.task c ws).gang with
    | some g => r.1.failGang g ⟨s.rankOf c ws, 0x13, r.2⟩
    | none => r.1
  match (x.bind (fun y => y.2.2)).bind (fun o => (s.core o).gang.map (fun g => (o, g))) with
  | some (o, g) => s1.failGang g ⟨(s.gang g).rankOn o, 0x13, r.2⟩
  | none => s1

/-- Hand a fault of the acting thread to the service, consuming the error it met if it is one (R111, R425). -/
def State.serviceFault (s : State) (cause a : Nat) : State :=
  (if cause = 0x13 then s.consumeUE s.actCore s.curWs a else s).toService cause a

/-- Continue with a checked access, or end it as R195 and R213 say. -/
def State.withChk (s : State) (ea : Nat) (k : Chk) (f : State → Loc → Walk → State) : Host.Outcome State Fault Refusal :=
  match k with
  | .ok l x => .next (f (s.noteTlb s.actCore ea x) l x)
  | .trap t => .next (s.takeTrap t)
  | .service cause a => .next (s.serviceFault cause a)
  | .settle => .next (s.parkCur .settle)
  | .absent => .fault .absentMemory

end Sys2Proof.Machine
end

