-- ==== Sys2Proof/Machine/Operands.lean ====
section
/-! DEFINITION. Operand forms: effective addresses, access sizes, rounding modes and draws (R129, R132, R133), the
footprint boxes of outstanding nests (R81), and the load and store forms of every memory type (R194 to R199). -/

namespace Sys2Proof.Machine

/-! ## Addresses and sizes (R194) -/

/-- ea of R194: the base plus the signed offset, modulo 2^64. -/
def State.ea (s : State) (a : BitVec 5) (o : BitVec 12) : Nat := (s.rd a + o.signExtend 64).toNat

/-- n = 2^size bytes (R194). -/
def sizeBytes (z : BitVec 2) : Nat := 2 ^ z.toNat

/-- Sext or Zext of n loaded bytes to a register (R194). -/
def loadWord (n : Nat) (sg : Bool) (v : Nat) : Word := if sg then sextW (wordOf v) (8 * n) else wordOf v

/-! ## Rounding modes and draws (R129, R132, R133) -/

/-- The mode code of an rm field, DYN resolved from RMODE (R129). -/
def State.rmCode (s : State) (r : BitVec 3) : Nat := if r = 6#3 then s.curTask.rmode.toNat else r.toNat

/-- The rounding mode of an rm field (R129). -/
def State.rmMode (s : State) (r : BitVec 3) : RMode := (rmodeOfCode (s.rmCode r)).getD .rne

/-- One round of Philox4x32-10 (R132). -/
def philoxRound (k0 k1 : Nat) (x : Nat × Nat × Nat × Nat) : Nat × Nat × Nat × Nat :=
  let (x0, x1, x2, x3) := x
  let p0 := 0xD2511F53 * x0
  let p1 := 0xCD9E8D57 * x2
  ((p1 / 2 ^ 32) ^^^ x1 ^^^ k0, p1 % 2 ^ 32, (p0 / 2 ^ 32) ^^^ x3 ^^^ k1, p0 % 2 ^ 32)

/-- n rounds of Philox4x32 with its key schedule (R132). -/
def philoxRounds : Nat → Nat → Nat → Nat × Nat × Nat × Nat → Nat × Nat × Nat × Nat
  | 0, _, _, x => x
  | n + 1, k0, k1, x => philoxRounds n ((k0 + 0x9E3779B9) % 2 ^ 32) ((k1 + 0xBB67AE85) % 2 ^ 32) (philoxRound k0 k1 x)

/-- Draw number n of a generator (R132). -/
def drawWord (seed rank stream n : Nat) : Nat :=
  let k0 := (seed % 2 ^ 32) ^^^ (rank % 2 ^ 32)
  let k1 := (seed / 2 ^ 32 % 2 ^ 32) ^^^ (stream % 2 ^ 32)
  let (y0, y1, y2, y3) := philoxRounds 10 k0 k1 (n / 4 % 2 ^ 32, n / 2 ^ 34 % 2 ^ 30, 0, 0)
  match n % 4 with
  | 0 => y0
  | 1 => y1
  | 2 => y2
  | _ => y3

/-- The draw counter of a workspace (R40, R132). -/
def State.drawCount (s : State) (c ws : Nat) : Nat := s.sNum c (wsOff ws 0x1D0) 8

/-- STREAM of a workspace (R40). -/
def State.streamOf (s : State) (c ws : Nat) : Nat := s.sNum c (wsOff ws 0x1C8) 8

/-- The draw i places after the next one of a workspace's generator (R132, R133). -/
def State.drawAhead (s : State) (c ws i : Nat) : Nat :=
  drawWord (s.task c ws).seed.toNat (s.rankOf c ws) (s.streamOf c ws) ((s.drawCount c ws + i) % 2 ^ 64)

/-- Consume n draws (R132). -/
def State.takeDraws (s : State) (c ws n : Nat) : State :=
  if n = 0 then s else s.sPut c (wsOff ws 0x1D0) 8 (s.drawCount c ws + n)

/-! ## Kinds of nest and their footprint boxes (R81, R165, R247, R255) -/

/-- The kind of a vop code of R165. -/
def vopKindOf (v : Nat) : VKind :=
  if v = 4 then .fmaK
  else if v = 1 ∨ v = 2 ∨ v = 3 ∨ v = 9 then .arith
  else if v = 5 ∨ v = 6 then .minmax
  else if v = 0 ∨ v = 7 ∨ v = 8 then .unary
  else if v = 10 then .cvtK
  else if v = 11 then .selK
  else if 12 ≤ v ∧ v ≤ 14 then .cmpK
  else if 15 ≤ v ∧ v ≤ 17 then .bits
  else if 18 ≤ v ∧ v ≤ 20 then .shifts
  else if v = 21 then .quantK
  else if v = 22 then .dequantK
  else if v = 23 then .rsumK
  else if v = 24 ∨ v = 25 then .rext
  else if v = 26 then .rargK
  else if v = 27 then .gatherK
  else if v = 28 then .iotaK
  else if v = 29 then .fillK
  else if v < 96 then .func
  else .xaK

/-- The levels that are not reduced, rising (R246). -/
def nestNr (n : Nest) : List Nat := (List.range 5).filter (fun l => !(n.redAt l))

/-- The reduced levels, rising (R246). -/
def nestRl (n : Nest) : List Nat := (List.range 5).filter (fun l => n.redAt l)

/-- The product of the extents of some levels (R246). -/
def nestProd (n : Nest) (ls : List Nat) : Nat := ls.foldl (fun p l => p * (n.extents[l]?.getD 1)) 1

/-- Result elements J (R246). -/
def nestResults (n : Nest) : Nat := nestProd n (nestNr n)

/-- Reduced elements M (R246). -/
def nestReduced (n : Nest) : Nat := nestProd n (nestRl n)

/-- The type code of operand 0 d, 1 a, 2 b. -/
def nestTy (n : Nest) (which : Nat) : BitVec 4 := if which = 0 then n.td else if which = 1 then n.ta else n.tb

/-- Element size in bytes of a type code; e2m1x is reached byte by byte. -/
def codeSize (t : BitVec 4) : Nat := match tyOfCode t with
  | some t => max 1 (tyBytes t)
  | none => 1

/-- The signed sums of the negative and of the positive stride terms of an operand (R81). -/
def nestSpan (n : Nest) (which : Nat) : Int × Int :=
  (List.range 5).foldl (fun p l =>
    let x := (((n.extents[l]?.getD 1) - 1 : Nat) : Int) * ((n.strides which)[l]?.getD 0)
    if x < 0 then (p.1 + x, p.2) else (p.1, p.2 + x)) (0, 0)

/-- The lowest and highest byte offset an operand's elements may touch (R81, R255). -/
def nestBox (n : Nest) (v which : Nat) : Int × Int :=
  if which = 0 ∧ vopKindOf v = .cmpK then (0, (((nestResults n - 1) / 8 : Nat) : Int))
  else
    let (lo, hi) := nestSpan n which
    if nestTy n which = 6#4 then (18 * (lo / 32), 18 * (hi / 32) + 17)
    else
      let z : Int := (codeSize (nestTy n which) : Nat)
      (z * lo, z * hi + z - 1)

/-- Whether a nest has operand 0 d, 1 a, 2 b. -/
def hasOperand (v which : Nat) : Bool :=
  if which = 0 then true else if which = 1 then (vopKindOf v).readsA else (vopKindOf v).readsB

/-- An address range in the core's own scratchpad, as offsets, when both its ends lie there (R67). -/
def State.ownRange (s : State) (c lo hi : Nat) : Option (Nat × Nat) :=
  match s.spadOf c lo, s.spadOf c hi with
  | some (c1, o1), some (c2, o2) => if c1 = c ∧ c2 = c ∧ o1 ≤ o2 then some (o1, o2) else none
  | _, _ => none

/-- The address range of an operand that is no handle, or of the mask (which = 3). -/
def NestCmd.addrRange (q : NestCmd) (which : Nat) : Nat × Nat :=
  if which = 3 then (q.basem, (q.basem + (nestResults q.n - 1) / 8) % 2 ^ 64)
  else
    let b := if which = 0 then q.based else if which = 1 then q.basea else q.baseb
    let (lo, hi) := nestBox q.n q.vop which
    (wrapInt ((b : Int) + lo) 64, wrapInt ((b : Int) + hi) 64)

/-- The operands of a nest that have a footprint box in memory: not handles, and the mask when it has one. -/
def NestCmd.boxed (q : NestCmd) : List Nat :=
  (if q.n.cbd = 0#1 then [0] else []) ++ (if hasOperand q.vop 1 && q.n.cba == 0#1 then [1] else []) ++
    (if hasOperand q.vop 2 && q.n.cbb == 0#1 then [2] else []) ++ (if q.n.me = 1#1 then [3] else [])

/-- Whether an own-scratchpad range meets an outstanding detached nest of a workspace (R81). -/
def State.footHit (s : State) (c ws off n : Nat) : Bool :=
  (s.core c).vq.any (fun q => q.ws == ws && !q.attached && q.boxed.any (fun w =>
    let (lo, hi) := q.addrRange w
    match s.ownRange c lo hi with
    | some (a, b) => overlaps off n a (b + 1 - a)
    | none => false))

/-! ## Scalar accesses -/

/-- A checked scalar access of the acting thread (R81, R195, R213): an overlap of its own outstanding nest's footprint
parks it, to reissue. -/
def State.access (s : State) (ea : Nat) (acc : Acc) (f : State → Loc → Walk → State) :
    Host.Outcome State Fault Refusal :=
  let s := s.drainReds
  s.withChk ea (s.check s.actCore s.curWs ea acc) (fun s l x =>
    match l with
    | .spad o off => if o = s.actCore ∧ s.footHit o s.curWs off acc.n then s.parkCur (.footprint off acc.n) else f s l x
    | _ => f s l x)

/-- The acting thread's plain access to n naturally aligned bytes. -/
def State.plain (s : State) (n : Nat) (r w : Bool) : Acc := ⟨0, n, n, r, w, s.curTask.pc.toNat⟩

/-- Finish an access whose place is taken and whose answer is back at a cycle (R34): within the slot's rotation the
thread goes on, else it stays parked until then. -/
def State.finishBy (s : State) (due : Nat) : State :=
  let s1 := s.finish 1
  if due ≤ s.cycle + 15 then s1 else s1.parkCur (.memory due)

/-- Record an outstanding L1 miss until its data returns (R199). -/
def State.noteMiss (s : State) (c line due : Nat) : State :=
  s.modCore c (fun k => { k with lmiss := (k.lmiss.filter (fun m => decide (s.cycle < m.2))) ++ [(line, due)] })

/-- The base update of a mode-2 form (R194). -/
def State.update (s : State) (upd : Option (BitVec 5)) (ea : Nat) : State :=
  match upd with
  | some a => s.wr a (wordOf ea)
  | none => s

/-- Write a loaded value, then the updated base (R194: after W(d)). -/
def State.loaded (s : State) (n : Nat) (sg : Bool) (d : BitVec 5) (upd : Option (BitVec 5)) (ea v : Nat) : State :=
  (s.wr d (loadWord n sg v)).update upd ea

/-- A load from a checked place (R69, R71, R194, R196, R197, R214). -/
def State.loadFrom (s : State) (n : Nat) (sg : Bool) (d : BitVec 5) (upd : Option (BitVec 5)) (ea : Nat) (l : Loc)
    (x : Walk) : State :=
  match l with
  | .spad o off =>
    if o = s.actCore then
      if off / 1024 = s.curWs ∧ off % 1024 < 256 then
        -- R196: the own bank
        (s.loaded n sg d upd ea (natOfBytes ((s.curSlot.bytes.drop (off % 1024)).take n))).finish 1
      else
        (((s.loadedAt s.cur.world l n).raisePts s.actCore (s.htsOf l)).loaded n sg d upd ea (natOfBytes (s.peekOpen s.cur.world l n))).finish 1
    else s.request (.load n sg d upd) ea l none
  | .mem pa mt =>
    if mt = 0 then
      match s.l1Hit s.actCore ea with
      | some c => ((s.loadedAt s.cur.world l n).loaded n sg d upd ea
          (natOfBytes (s.taken s.cur.world l n ((c.data.drop (pa % 32)).take n)))).finish 1
      | none =>
        let t := s.cur.late + s.travel s.actCore l
        let s := (s.fillL1 s.actCore ea pa x).noteMiss s.actCore (ea / 32) (s.cycle + 6 + t)
        ((s.loadedAt s.cur.world l n).loaded n sg d upd ea (natOfBytes (s.peekOpen s.cur.world l n))).finishBy (s.cycle + 6 + t)
    else
      let t := s.cur.late + s.travel s.actCore l
      let s := (s.cached s.cur.world l).readHome s.actCore s.cur.world l
      let s := if mt = 2 then s.raisePts s.actCore (s.htsOf l) else s
      ((s.loadedAt s.cur.world l n).loaded n sg d upd ea (natOfBytes (s.peekOpen s.cur.world l n))).finishBy (s.cycle + 6 + t)
  | .fabric win off =>
    (s.askFabric s.cur.world win off n false 0).parkCur (.fabric win ea (.load n sg d upd))

/-- A store to a checked place (R69, R71, R145, R194, R196, R214, R432). -/
def State.storeTo (s : State) (n v : Nat) (upd : Option (BitVec 5)) (ea : Nat) (l : Loc) (x : Walk) : State :=
  match l with
  | .spad o off =>
    if o = s.actCore then
      if off / 1024 = s.curWs ∧ off % 1024 < 256 then
        ((s.modCurSlot (fun sl => sl.storeBytes (off % 1024) (bytesOf n v))).update upd ea).finish 1
      else
        (((s.pokeBy s.cur.world l (bytesOf n v)).raiseHts l (s.pts s.actCore)).update upd ea).finish 1
    else s.request (.store n v upd) ea l none
  | .mem pa mt =>
    let t := s.cur.late + s.travel s.actCore l
    if mt = 0 then
      let hit := ((s.l1Hit s.actCore ea).map (fun c => c.owned)) = some true
      let b := s.decided s.cur.world l (bytesOf n v)
      let s := (b.1.storeNormal s.actCore ea pa x b.2).update upd ea
      if hit then s.finish 1 else (s.noteMiss s.actCore (ea / 32) (s.cycle + 6 + t)).finishBy (s.cycle + 6 + t)
    else
      let s := (s.writeHome s.cur.world l (s.pts s.actCore)).cached s.cur.world l
      let s := (s.raisePts s.actCore (s.wtsAt s.cur.world l)).pokeBy s.cur.world l (bytesOf n v)
      let s := if mt = 2 then
          let s := s.raiseHts l (s.pts s.actCore)
          s.raisePts s.actCore (s.htsOf l)
        else s
      (s.update upd ea).finishBy (s.cycle + 6 + t)
  | .fabric win off =>
    (s.askFabric s.cur.world win off n true v).parkCur (.fabric win ea (.store n v upd))

/-- `ld` in each of its modes (R194). -/
def State.load (s : State) (n : Nat) (sg : Bool) (d : BitVec 5) (upd : Option (BitVec 5)) (ea : Nat) :
    Host.Outcome State Fault Refusal :=
  s.access ea (s.plain n true false) (fun s l x => s.loadFrom n sg d upd ea l x)

/-- `st` in each of its modes (R194). -/
def State.store (s : State) (n v : Nat) (upd : Option (BitVec 5)) (ea : Nat) : Host.Outcome State Fault Refusal :=
  s.access ea (s.plain n false true) (fun s l x => s.storeTo n v upd ea l x)

end Sys2Proof.Machine
end

