-- ==== Sys2Proof/Machine/Flags.lean ====
section
/-! DEFINITION. How a scalar result is completed: the flags an operation raises, the ARITH trap of an enabled one, and
the draw a stochastic rounding takes (R133, R135, R138, R180). -/

namespace Sys2Proof.Machine

/-- Whether a set of flags raises one that FTEN enables (R138). -/
def State.enabledFlag (s : State) (fl : Flags) : Bool := fl &&& s.curTask.ften.setWidth 5 != 0#5

/-- FTEN.IDZ (R137). -/
def State.idz (s : State) : Bool := s.curTask.ften.getLsbD 5

/-- ARITH with the flags the operation would have raised (R105). -/
def arithTrap (fl : Flags) : Trap := trapOf 0x0A fl.toNat

/-- Complete a scalar float instruction: ARITH with no effect, or the draws, the flags and the result (R180). -/
def State.floatDone (s : State) (d : BitVec 5) (v : Word) (fl : Flags) (draws rot : Nat) : State :=
  if s.enabledFlag fl then s.takeTrap (arithTrap fl)
  else (((s.takeDraws s.actCore s.curWs draws).orFlags fl).wr d v).finish rot

/-- Complete an integer division: a zero divisor traps when FTEN.IDZ is set (R135, R182). -/
def State.divDone (s : State) (d : BitVec 5) (divisor v : Word) : State :=
  if divisor = 0 ∧ s.idz = true then s.takeTrap (trapOf 0x0A 0x20) else (s.wr d v).finish 4

end Sys2Proof.Machine
end

