-- ==== Sys2Proof/Machine/Fetch.lean ====
section
/-! DEFINITION. The instruction cache and fetching (R86, R112, R113, R200 to R202), and the landing check of a
transfer (R151, R203). -/

namespace Sys2Proof.Machine

/-- Base of the fetch line that holds an address (R147). -/
def lineOf (a : Nat) : Nat := a / 128 * 128

/-- The set of a line: virtual address bits 13:7 (R201). -/
def lineSet (base : Nat) : Nat := base / 128 % 128

/-- The line in the instruction cache, if present. -/
def Core.line? (k : Core) (base : Nat) : Option ILine := (AMap.get [] k.icache (lineSet base)).find? (fun l => l.base == base)

/-- Make a present line the most recently used of its set (R201). -/
def Core.touchLine (k : Core) (base : Nat) : Core :=
  let ways := AMap.get [] k.icache (lineSet base)
  { k with icache := AMap.put k.icache (lineSet base) (ways.filter (fun l => l.base == base) ++ ways.filter (fun l => l.base != base)) }

/-- Put a line into its set, in place of the least recently used one of four (R201). -/
def Core.addLine (k : Core) (l : ILine) : Core :=
  let ways := (AMap.get [] k.icache (lineSet l.base)).filter (fun x => x.base != l.base)
  { k with icache := AMap.put k.icache (lineSet l.base) ((l :: ways).take 4) }

/-- The line that leaves its set when one is put there (R201). -/
def Core.evicted (k : Core) (base : Nat) : List ILine := ((AMap.get [] k.icache (lineSet base)).filter (fun x => x.base != base)).drop 3

/-- Lines leave an instruction cache: an error in one that no issued word has met is journalled as unconsumed (R112, R425). -/
def State.unreadLines (s : State) (c : Nat) (ls : List ILine) : State :=
  (ls.filter (fun l => l.bad != [])).foldl (fun s l => (s.journalEvent 2 (s.physCore c) 2 l.base (s.core c).world).1) s

/-- Drop the whole instruction cache (R86, R201). A line that is still on its way is read when it arrives (R202), after the
commit. -/
def Core.dropLines (k : Core) : Core := { k with icache := [] }

/-- The text is committed: no core of the world keeps a fetched line (R86, R201). -/
def State.dropText (s : State) (w : Nat) : State :=
  let s := (s.cores.filter (fun e => e.2.world == w)).foldl (fun s e => s.unreadLines e.1 (e.2.icache.flatMap (fun x => x.2))) s
  { s with cores := s.cores.map (fun e => (e.1, if e.2.world = w then e.2.dropLines else e.2)) }

/-- A valid 64 KiB leaf of normal memory with the permissions given as bits 3:1 (R118). -/
def leafEntry (frame perms : Nat) : Nat := frame / 65536 * 65536 + 16 + 2 * perms + 1

/-- The service pages committed text in (R113): the entry of a text page of a loaded object that has V = 0 takes the frame
the object was loaded to. -/
def State.textIn (s : State) (w a : Nat) : State :=
  match (s.world w).handles.find? (fun e => e.2.holds a) with
  | none => s
  | some (_, o) =>
    let p1 := s.pteAt ((s.world w).root + 8 * bitsOf a 42 14)
    let p2 := s.pteAt (pteFrame p1 + 8 * bitsOf a 29 13)
    let at_ := pteFrame p2 + 8 * bitsOf a 16 13
    if a < o.textEnd ∧ bitOf p1 0 = true ∧ bitOf p2 0 = true ∧ bitOf p2 4 = false ∧ bitOf (s.pteAt at_) 0 = false
    then s.memPut at_ (bytesOf 8 (leafEntry (o.frame + (a - o.lo)) 4)) else s

/-- What a fetch of the line at an address meets (R113, R119): V = 0 is FETCHFAULT and a malformed entry PAGEFAULT, both for
the service; a page without X is PROT 0x04. Only translated world memory holds text (log 17). -/
def State.fetchCheck (s : State) (c a : Nat) : Chk :=
  let base := lineOf a
  if 0x00F0000000000000 ≤ base then .trap (trapAt 7 5 a)
  else
    match s.translate c (s.core c).world base with
    | .invalid => .service 2 a
    | .malformed => .service 6 a
    | .lost _ => .service 0x13 a
    | .settling => .settle
    | .leaf pte big =>
      if !(bitOf pte 3) then .trap (trapAt 7 4 a)
      else match leafLoc pte big base with
        | .mem pa mt =>
          let behind := s.backing (s.core c).world pa mt 128 false
          if behind.any (fun x => decide (s.physTop ≤ x.1)) then .absent
          else if behind.any (fun x => s.isSettling x.1) then .settle
          else if behind.any (fun x => s.lostAt x.1 || poisonHit s.poison x.1 x.2) then .service 0x13 a
          else .ok (.mem pa mt) (.leaf pte big)
        | _ => .trap (trapAt 7 4 a)

/-- A line from its 128 bytes (R147). -/
def lineOfBytes (base : Nat) (bs : List Byte) : ILine :=
  ⟨base, wordOf (natOfBytes (bs.take 8)),
    (List.range 30).map (fun i => BitVec.ofNat 32 (natOfBytes ((bs.drop (8 + 4 * i)).take 4))), []⟩

/-- The 128 bytes of a fetch line at a place, in two halves, since the alias decodes block by block (R144, R202). -/
def State.lineBytes (s : State) (c : Nat) (l : Loc) : List Byte :=
  match l with
  | .mem pa mt => s.peek (s.core c).world (.mem pa mt) 64 ++ s.peek (s.core c).world (.mem (pa + 64) mt) 64
  | _ => []

/-- Request a line that is neither present nor requested; a fetch that would fault is dropped (R112, R202). It travels once
its address is translated, which a sett TLB's lookup or a walk may add to (R120). -/
def State.requestLine (s : State) (c base : Nat) : State :=
  if ((s.core c).line? base).isSome || (s.core c).ireq.any (fun r => r.1 == base) then s
  else
    match s.fetchCheck c base with
    | .ok l x =>
      let due := s.cycle + 6 + s.transTime c (s.core c).world base + s.travel c l
      (s.noteTlb c base x).modCore c (fun k => { k with ireq := k.ireq ++ [(base, due)] })
    | _ => s

/-- An issued word meets an error in its line (R112): the line is invalidated and fetched again, and the error is journalled
as corrected. -/
def State.refetch (s : State) (l : ILine) : State :=
  let c := s.actCore
  let s1 := s.journalCorrected 2 (s.physCore c) l.base (s.core c).world
  s1.modCore c (fun k => { k with
    icache := AMap.put k.icache (lineSet l.base) ((AMap.get [] k.icache (lineSet l.base)).filter (fun x => x.base != l.base)) })

/-- Demand-fetch a line for the acting thread's instruction or transfer: it parks until the line arrives (R113,
R202, R203). -/
def State.demandLine (s : State) (a : Nat) : Host.Outcome State Fault Refusal :=
  let c := s.actCore
  let base := lineOf a
  if (s.core c).ireq.any (fun r => r.1 == base) then .next (s.parkCur (.line base))
  else s.withChk a (s.fetchCheck c a) (fun s _ _ => (s.requestLine c base).parkCur (.line base))

/-- Fetch-ahead at an issue from a line with FEND = 0 (R202). -/
def State.fetchAhead (s : State) (c : Nat) (l : ILine) : State :=
  if l.header.getLsbD 62 then s else s.requestLine c (l.base + 128)

/-- Object(x) of the acting world (R203). -/
def State.obj (s : State) (a : Nat) : Option Nat := s.objectAt s.cur.world a

/-- The kinds of transfer CheckLanding tells apart (R203): 0 every plain transfer and `eret`, 1 `ret`, 2 `callx`. -/
abbrev LandKind := Nat

/-! ## The cross-object return stack (R208) -/

/-- Entry i of the acting thread's return stack. -/
def State.stackEntry (s : State) (i : Nat) : Nat := s.sNum s.actCore (wsOff s.curWs (0x200 + 8 * i)) 8

/-- StackDepth(): consecutive valid entries from 0. -/
def State.stackDepth (s : State) : Nat := ((List.range 8).takeWhile (fun i => bitOf (s.stackEntry i) 0)).length

/-- StackTop(): the last entry with bit 0 cleared, or none. -/
def State.stackTop (s : State) : Option Nat :=
  let n := s.stackDepth
  if n = 0 then none else some (s.stackEntry (n - 1) / 2 * 2)

/-- StackPush. -/
def State.stackPush (s : State) (link : Word) : State :=
  s.sPut s.actCore (wsOff s.curWs (0x200 + 8 * s.stackDepth)) 8 (link.toNat / 2 * 2 + 1)

/-- StackPop: bit 0 of the top entry is cleared. -/
def State.stackPop (s : State) : State :=
  let n := s.stackDepth
  if n = 0 then s
  else s.sPut s.actCore (wsOff s.curWs (0x200 + 8 * (n - 1))) 8 (s.stackEntry (n - 1) / 2 * 2)

/-! ## CheckLanding (R203) -/

/-- The seal failure of a landing, as SEAL's sub-cause, or 0 (R203, R209). -/
def State.sealSub (s : State) (tgt : Nat) (kind : LandKind) : Nat :=
  if s.obj tgt = s.obj s.curTask.pc.toNat then 0
  else if kind = 2 then 0
  else if kind = 1 then (if s.stackTop = some tgt then 0 else 2)
  else 1

/-- What CheckLanding answers: it may go on, it traps, or the landing line must first be fetched. -/
inductive Landing where
  | ok
  | trap (t : Trap)
  | fetch
  deriving DecidableEq, Repr

/-- CheckLanding of R203. -/
def State.checkLanding (s : State) (tgt : Nat) (kind : LandKind) : Landing :=
  if s.sealSub tgt kind ≠ 0 then .trap (trapAt 0x11 (s.sealSub tgt kind) tgt)
  else if tgt % 4 ≠ 0 then .trap (trapAt 4 1 tgt)
  else if tgt % 128 < 8 then .trap (trapAt 3 5 tgt)
  else
    match s.cur.line? (lineOf tgt) with
    | none => .fetch
    | some l => if l.header.getLsbD (32 + (tgt % 128 - 8) / 4) then .ok else .trap (trapAt 4 2 tgt)

/-- A transfer: check the landing, then complete with f (R203, R210). -/
def State.land (s : State) (tgt : Word) (kind : LandKind) (f : State → State) : Host.Outcome State Fault Refusal :=
  match s.checkLanding tgt.toNat kind with
  | .ok => .next (f s)
  | .trap t => .next (s.takeTrap t)
  | .fetch => s.demandLine tgt.toNat

end Sys2Proof.Machine
end

