-- ==== Sys2Proof/Machine/Scalar.lean ====
section
/-! DEFINITION. The scalar instructions (R176 to R200): integer register and immediate forms, floating point, loads,
stores and prefetch. -/

namespace Sys2Proof.Machine

/-! ## Integer operations (R181) -/

/-- Write a result and go on after one rotation (R177, R182). -/
def State.result (s : State) (d : BitVec 5) (v : Word) : State := (s.wr d v).finish 1

/-- High 64 bits of the signed product (R181). -/
def mulHigh (a b : Word) : Word := BitVec.ofInt 64 (a.toInt * b.toInt / (2 ^ 64 : Nat))
/-- High 64 bits of the unsigned product (R181). -/
def mulHighN (a b : Word) : Word := wordOf (a.toNat * b.toNat / 2 ^ 64)
/-- The signed quotient of R135. -/
def divSigned (a b : Word) : Word := if b = 0 then BitVec.allOnes 64 else a.sdiv b
/-- The unsigned quotient of R135. -/
def divUnsigned (a b : Word) : Word := if b = 0 then BitVec.allOnes 64 else a / b
/-- The signed remainder of R135. -/
def remSigned (a b : Word) : Word := if b = 0 then a else a.srem b
/-- The unsigned remainder of R135. -/
def remUnsigned (a b : Word) : Word := if b = 0 then a else a % b
/-- k = B[5:0] of the shifts (R181). -/
def shiftCount (b : Word) : Nat := b.toNat % 64
/-- The lesser as signed values. -/
def minSigned (a b : Word) : Word := if a.slt b then a else b
/-- The greater as signed values. -/
def maxSigned (a b : Word) : Word := if a.slt b then b else a
/-- The lesser as unsigned values. -/
def minUnsigned (a b : Word) : Word := if a.ult b then a else b
/-- The greater as unsigned values. -/
def maxUnsigned (a b : Word) : Word := if a.ult b then b else a
/-- Leading zeros, 64 for zero (R181). -/
def leadingZeros (a : Word) : Nat := if a = 0 then 64 else 63 - Nat.log2 a.toNat
/-- Trailing zeros, 64 for zero (R181). -/
def trailingZeros (a : Word) : Nat := ((List.range 64).find? (fun i => a.getLsbD i)).getD 64
/-- 1 for a predicate that holds, 0 otherwise. -/
def boolWord (p : Bool) : Word := if p then 1 else 0

/-- `add` (R181). -/
def execAdd (d a b : BitVec 5) (s : State) : Host.Outcome State Fault Refusal :=
  .next (s.result d (s.rd a + s.rd b))

/-- `sub` (R181). -/
def execSub (d a b : BitVec 5) (s : State) : Host.Outcome State Fault Refusal :=
  .next (s.result d (s.rd a - s.rd b))

/-- `mul` (R181). -/
def execMul (d a b : BitVec 5) (s : State) : Host.Outcome State Fault Refusal :=
  .next (s.result d (s.rd a * s.rd b))

/-- `mulh` (R181). -/
def execMulh (d a b : BitVec 5) (s : State) : Host.Outcome State Fault Refusal :=
  .next (s.result d (mulHigh (s.rd a) (s.rd b)))

/-- `mulhn` (R181). -/
def execMulhn (d a b : BitVec 5) (s : State) : Host.Outcome State Fault Refusal :=
  .next (s.result d (mulHighN (s.rd a) (s.rd b)))

/-- `div` (R135, R182): four rotations. -/
def execDiv (d a b : BitVec 5) (s : State) : Host.Outcome State Fault Refusal :=
  .next (s.divDone d (s.rd b) (divSigned (s.rd a) (s.rd b)))

/-- `divn` (R135, R182): four rotations. -/
def execDivn (d a b : BitVec 5) (s : State) : Host.Outcome State Fault Refusal :=
  .next (s.divDone d (s.rd b) (divUnsigned (s.rd a) (s.rd b)))

/-- `rem` (R135, R182): four rotations. -/
def execRem (d a b : BitVec 5) (s : State) : Host.Outcome State Fault Refusal :=
  .next (s.divDone d (s.rd b) (remSigned (s.rd a) (s.rd b)))

/-- `remn` (R135, R182): four rotations. -/
def execRemn (d a b : BitVec 5) (s : State) : Host.Outcome State Fault Refusal :=
  .next (s.divDone d (s.rd b) (remUnsigned (s.rd a) (s.rd b)))

/-- `and` (R181). -/
def execAnd (d a b : BitVec 5) (s : State) : Host.Outcome State Fault Refusal :=
  .next (s.result d (s.rd a &&& s.rd b))

/-- `or` (R181). -/
def execOr (d a b : BitVec 5) (s : State) : Host.Outcome State Fault Refusal :=
  .next (s.result d (s.rd a ||| s.rd b))

/-- `xor` (R181). -/
def execXor (d a b : BitVec 5) (s : State) : Host.Outcome State Fault Refusal :=
  .next (s.result d (s.rd a ^^^ s.rd b))

/-- `andn` (R181). -/
def execAndn (d a b : BitVec 5) (s : State) : Host.Outcome State Fault Refusal :=
  .next (s.result d (s.rd a &&& ~~~(s.rd b)))

/-- `shl` (R181). -/
def execShl (d a b : BitVec 5) (s : State) : Host.Outcome State Fault Refusal :=
  .next (s.result d (s.rd a <<< shiftCount (s.rd b)))

/-- `shr` (R181). -/
def execShr (d a b : BitVec 5) (s : State) : Host.Outcome State Fault Refusal :=
  .next (s.result d (s.rd a >>> shiftCount (s.rd b)))

/-- `sra` (R181). -/
def execSra (d a b : BitVec 5) (s : State) : Host.Outcome State Fault Refusal :=
  .next (s.result d ((s.rd a).sshiftRight (shiftCount (s.rd b))))

/-- `rot` (R181). -/
def execRot (d a b : BitVec 5) (s : State) : Host.Outcome State Fault Refusal :=
  .next (s.result d ((s.rd a).rotateRight (shiftCount (s.rd b))))

/-- `min` (R181). -/
def execMin (d a b : BitVec 5) (s : State) : Host.Outcome State Fault Refusal :=
  .next (s.result d (minSigned (s.rd a) (s.rd b)))

/-- `max` (R181). -/
def execMax (d a b : BitVec 5) (s : State) : Host.Outcome State Fault Refusal :=
  .next (s.result d (maxSigned (s.rd a) (s.rd b)))

/-- `minn` (R181). -/
def execMinn (d a b : BitVec 5) (s : State) : Host.Outcome State Fault Refusal :=
  .next (s.result d (minUnsigned (s.rd a) (s.rd b)))

/-- `maxn` (R181). -/
def execMaxn (d a b : BitVec 5) (s : State) : Host.Outcome State Fault Refusal :=
  .next (s.result d (maxUnsigned (s.rd a) (s.rd b)))

/-- `clz` (R181). -/
def execClz (d a : BitVec 5) (s : State) : Host.Outcome State Fault Refusal :=
  .next (s.result d (wordOf (leadingZeros (s.rd a))))

/-- `ctz` (R181). -/
def execCtz (d a : BitVec 5) (s : State) : Host.Outcome State Fault Refusal :=
  .next (s.result d (wordOf (trailingZeros (s.rd a))))

/-- `popc` (R181). -/
def execPopc (d a : BitVec 5) (s : State) : Host.Outcome State Fault Refusal :=
  .next (s.result d (wordOf (popCount 64 (s.rd a).toNat)))

/-- `sel` (R181): d decides. -/
def execSel (d a b : BitVec 5) (s : State) : Host.Outcome State Fault Refusal :=
  .next (s.result d (if s.rd d = 0 then s.rd b else s.rd a))

/-- The comparisons of R181, R183 and R204 by their code: eq, ne, lt, ge, ltn, gen. -/
def condHolds (c : Nat) (a b : Word) : Bool :=
  match c with
  | 0 => a == b
  | 1 => a != b
  | 2 => a.slt b
  | 3 => !(a.slt b)
  | 4 => a.ult b
  | _ => !(a.ult b)

/-- `cmp.eq` (R181). -/
def execCmpEq (d a b : BitVec 5) (s : State) : Host.Outcome State Fault Refusal :=
  .next (s.result d (boolWord (condHolds 0 (s.rd a) (s.rd b))))

/-- `cmp.ne` (R181). -/
def execCmpNe (d a b : BitVec 5) (s : State) : Host.Outcome State Fault Refusal :=
  .next (s.result d (boolWord (condHolds 1 (s.rd a) (s.rd b))))

/-- `cmp.lt` (R181). -/
def execCmpLt (d a b : BitVec 5) (s : State) : Host.Outcome State Fault Refusal :=
  .next (s.result d (boolWord (condHolds 2 (s.rd a) (s.rd b))))

/-- `cmp.ge` (R181). -/
def execCmpGe (d a b : BitVec 5) (s : State) : Host.Outcome State Fault Refusal :=
  .next (s.result d (boolWord (condHolds 3 (s.rd a) (s.rd b))))

/-- `cmp.ltn` (R181). -/
def execCmpLtn (d a b : BitVec 5) (s : State) : Host.Outcome State Fault Refusal :=
  .next (s.result d (boolWord (condHolds 4 (s.rd a) (s.rd b))))

/-- `cmp.gen` (R181). -/
def execCmpGen (d a b : BitVec 5) (s : State) : Host.Outcome State Fault Refusal :=
  .next (s.result d (boolWord (condHolds 5 (s.rd a) (s.rd b))))

/-- `sxb` (R181). -/
def execSxb (d a : BitVec 5) (s : State) : Host.Outcome State Fault Refusal :=
  .next (s.result d (sextW (s.rd a) 8))

/-- `sxh` (R181). -/
def execSxh (d a : BitVec 5) (s : State) : Host.Outcome State Fault Refusal :=
  .next (s.result d (sextW (s.rd a) 16))

/-- `sxw` (R181). -/
def execSxw (d a : BitVec 5) (s : State) : Host.Outcome State Fault Refusal :=
  .next (s.result d (sextW (s.rd a) 32))

/-- `zxb` (R181). -/
def execZxb (d a : BitVec 5) (s : State) : Host.Outcome State Fault Refusal :=
  .next (s.result d (zextW (s.rd a) 8))

/-- `zxh` (R181). -/
def execZxh (d a : BitVec 5) (s : State) : Host.Outcome State Fault Refusal :=
  .next (s.result d (zextW (s.rd a) 16))

/-- `zxw` (R181). -/
def execZxw (d a : BitVec 5) (s : State) : Host.Outcome State Fault Refusal :=
  .next (s.result d (zextW (s.rd a) 32))

/-! ## Immediate forms (R183, R184) -/

/-- `addi` (R183). -/
def execAddi (d a : BitVec 5) (i : BitVec 16) (s : State) : Host.Outcome State Fault Refusal :=
  .next (s.result d (s.rd a + i.signExtend 64))

/-- `andi` (R183). -/
def execAndi (d a : BitVec 5) (i : BitVec 16) (s : State) : Host.Outcome State Fault Refusal :=
  .next (s.result d (s.rd a &&& i.setWidth 64))

/-- `ori` (R183). -/
def execOri (d a : BitVec 5) (i : BitVec 16) (s : State) : Host.Outcome State Fault Refusal :=
  .next (s.result d (s.rd a ||| i.setWidth 64))

/-- `xori` (R183). -/
def execXori (d a : BitVec 5) (i : BitVec 16) (s : State) : Host.Outcome State Fault Refusal :=
  .next (s.result d (s.rd a ^^^ i.setWidth 64))

/-- `shi.shl` (R183). -/
def execShiShl (d a : BitVec 5) (n : BitVec 6) (s : State) : Host.Outcome State Fault Refusal :=
  .next (s.result d (s.rd a <<< n.toNat))

/-- `shi.shr` (R183). -/
def execShiShr (d a : BitVec 5) (n : BitVec 6) (s : State) : Host.Outcome State Fault Refusal :=
  .next (s.result d (s.rd a >>> n.toNat))

/-- `shi.sra` (R183). -/
def execShiSra (d a : BitVec 5) (n : BitVec 6) (s : State) : Host.Outcome State Fault Refusal :=
  .next (s.result d ((s.rd a).sshiftRight n.toNat))

/-- `shi.rot` (R183). -/
def execShiRot (d a : BitVec 5) (n : BitVec 6) (s : State) : Host.Outcome State Fault Refusal :=
  .next (s.result d ((s.rd a).rotateRight n.toNat))

/-- `cmpi.eq` (R183). -/
def execCmpiEq (d a : BitVec 5) (i : BitVec 12) (s : State) : Host.Outcome State Fault Refusal :=
  .next (s.result d (boolWord (condHolds 0 (s.rd a) (i.signExtend 64))))

/-- `cmpi.ne` (R183). -/
def execCmpiNe (d a : BitVec 5) (i : BitVec 12) (s : State) : Host.Outcome State Fault Refusal :=
  .next (s.result d (boolWord (condHolds 1 (s.rd a) (i.signExtend 64))))

/-- `cmpi.lt` (R183). -/
def execCmpiLt (d a : BitVec 5) (i : BitVec 12) (s : State) : Host.Outcome State Fault Refusal :=
  .next (s.result d (boolWord (condHolds 2 (s.rd a) (i.signExtend 64))))

/-- `cmpi.ge` (R183). -/
def execCmpiGe (d a : BitVec 5) (i : BitVec 12) (s : State) : Host.Outcome State Fault Refusal :=
  .next (s.result d (boolWord (condHolds 3 (s.rd a) (i.signExtend 64))))

/-- `cmpi.ltn` (R183). -/
def execCmpiLtn (d a : BitVec 5) (i : BitVec 12) (s : State) : Host.Outcome State Fault Refusal :=
  .next (s.result d (boolWord (condHolds 4 (s.rd a) (i.signExtend 64))))

/-- `cmpi.gen` (R183). -/
def execCmpiGen (d a : BitVec 5) (i : BitVec 12) (s : State) : Host.Outcome State Fault Refusal :=
  .next (s.result d (boolWord (condHolds 5 (s.rd a) (i.signExtend 64))))

/-- `lhi` (R184). -/
def execLhi (d : BitVec 5) (i : BitVec 20) (s : State) : Host.Outcome State Fault Refusal :=
  .next (s.result d (i.signExtend 64 <<< 12))

/-- `phi` (R184): relative to its own address. -/
def execPhi (d : BitVec 5) (i : BitVec 20) (s : State) : Host.Outcome State Fault Refusal :=
  .next (s.result d (s.curTask.pc + (i.signExtend 64 <<< 12)))

/-! ## Floating point (R185 to R193) -/

/-- The type of a scalar format field (R185). -/
def fmtTy (f : BitVec 3) : Ty := if f = 0#3 then .f64 else if f = 1#3 then .f32 else if f = 2#3 then .f16 else .bf16

/-- The bits of a scalar float operand: the low bits of its register (R179). -/
def fBits (t : Ty) (w : Word) : Nat := w.toNat % 2 ^ tyBits t

/-- The value of a scalar float operand (R185). -/
def fVal (t : Ty) (w : Word) : FVal := floatVal t (fBits t w)

/-- The draw an operation uses under SR (R131, R133). -/
def State.srDraw (s : State) (rm : RMode) : Nat := if rm = .sr then s.drawAhead s.actCore s.curWs 0 else 0

/-- The draws an operation takes (R133). -/
def srCount (rm : RMode) : Nat := if rm = .sr then 1 else 0

/-- A rounded scalar operation (R185): the exact result is rounded once by the resolved mode. -/
def State.floatOp (s : State) (d : BitVec 5) (r : BitVec 3) (rot : Nat) (op : RMode → Nat → Nat × Flags) : State :=
  let rm := s.rmMode r
  let x := op rm (s.srDraw rm)
  s.floatDone d (wordOf x.1) x.2 (srCount rm) rot

/-- Rotations of `fdiv` and `fsqrt` (R193). -/
def slowRot (f : BitVec 3) : Nat := if f = 0#3 then 4 else 2

/-- The class of a float value as the bit number of R190. -/
def classBit (t : Ty) (x : Nat) : Nat :=
  match floatVal t x with
  | .nan sig => if sig then 8 else 9
  | .inf neg => if neg then 0 else 7
  | .fin neg m _ =>
    if m = 0 then (if neg then 3 else 4)
    else
      let sub := decide (x % 2 ^ (tyBits t - 1) < 2 ^ (floatFormat t).fbits)
      if neg then (if sub then 2 else 1) else (if sub then 5 else 6)

/-- `fsgn` on bits (R188): the sign bit v with A's other bits. -/
def withSignBit (t : Ty) (a : Nat) (v : Bool) : Word := wordOf (a % 2 ^ (tyBits t - 1) + if v then 2 ^ (tyBits t - 1) else 0)

/-- Flags of a comparison (R189): `quiet` raises NV for signalling NaNs alone, the others for any NaN. -/
def cmpFlags (quiet : Bool) (x y : FVal) : Flags :=
  if quiet then snanFlag x ||| snanFlag y
  else match x, y with
    | .nan _, _ => flagNV
    | _, .nan _ => flagNV
    | _, _ => 0#5

/-- The predicates of R189 by their code. -/
def fcmpHolds (p : Nat) (x y : FVal) : Bool :=
  match compareVal x y with
  | none => p == 3
  | some o => match p with
    | 0 => o == .eq
    | 1 => o == .lt
    | 2 => o == .lt || o == .eq
    | _ => false

/-- An integer result fills the register by its type's signedness; a float's upper bits are zero (R179). -/
def resultWord (t : Ty) (x : Nat) : Word :=
  if tyIsInt t && tyIsSigned t then sextW (wordOf x) (tyBits t) else zextW (wordOf x) (tyBits t)

/-- `fadd` (R185, R186). -/
def execFadd (d a b : BitVec 5) (f r : BitVec 3) (s : State) : Host.Outcome State Fault Refusal :=
  .next (s.floatOp d r 1 (fun rm v =>
    addVal (fmtTy f) rm false v (fVal (fmtTy f) (s.rd a)) (fVal (fmtTy f) (s.rd b))))

/-- `fsub` (R185, R186). -/
def execFsub (d a b : BitVec 5) (f r : BitVec 3) (s : State) : Host.Outcome State Fault Refusal :=
  .next (s.floatOp d r 1 (fun rm v =>
    addVal (fmtTy f) rm false v (fVal (fmtTy f) (s.rd a)) (negVal (fVal (fmtTy f) (s.rd b)))))

/-- `fmul` (R185, R186). -/
def execFmul (d a b : BitVec 5) (f r : BitVec 3) (s : State) : Host.Outcome State Fault Refusal :=
  .next (s.floatOp d r 1 (fun rm v =>
    mulVal (fmtTy f) rm false v (fVal (fmtTy f) (s.rd a)) (fVal (fmtTy f) (s.rd b))))

/-- `fdiv` (R185, R186, R193). -/
def execFdiv (d a b : BitVec 5) (f r : BitVec 3) (s : State) : Host.Outcome State Fault Refusal :=
  .next (s.floatOp d r (slowRot f) (fun rm v =>
    divVal (fmtTy f) rm false v (fVal (fmtTy f) (s.rd a)) (fVal (fmtTy f) (s.rd b))))

/-- `fsqrt` (R185, R186, R193). -/
def execFsqrt (d a : BitVec 5) (f r : BitVec 3) (s : State) : Host.Outcome State Fault Refusal :=
  .next (s.floatOp d r (slowRot f) (fun rm v => sqrtVal (fmtTy f) rm false v (fVal (fmtTy f) (s.rd a))))

/-- `fmin` (R187). -/
def execFmin (d a b : BitVec 5) (f : BitVec 3) (s : State) : Host.Outcome State Fault Refusal :=
  let x := fminmax (fmtTy f) false (fBits (fmtTy f) (s.rd a)) (fBits (fmtTy f) (s.rd b))
  .next (s.floatDone d (wordOf x.1) x.2 0 1)

/-- `fmax` (R187). -/
def execFmax (d a b : BitVec 5) (f : BitVec 3) (s : State) : Host.Outcome State Fault Refusal :=
  let x := fminmax (fmtTy f) true (fBits (fmtTy f) (s.rd a)) (fBits (fmtTy f) (s.rd b))
  .next (s.floatDone d (wordOf x.1) x.2 0 1)

/-- `fsgn.copy` (R188). -/
def execFsgnCopy (d a b : BitVec 5) (f : BitVec 3) (s : State) : Host.Outcome State Fault Refusal :=
  let sb := floatSign (fmtTy f) (fBits (fmtTy f) (s.rd b))
  .next (s.result d (withSignBit (fmtTy f) (s.rd a).toNat (sb)))

/-- `fsgn.neg` (R188). -/
def execFsgnNeg (d a b : BitVec 5) (f : BitVec 3) (s : State) : Host.Outcome State Fault Refusal :=
  let sb := floatSign (fmtTy f) (fBits (fmtTy f) (s.rd b))
  .next (s.result d (withSignBit (fmtTy f) (s.rd a).toNat (!sb)))

/-- `fsgn.xor` (R188). -/
def execFsgnXor (d a b : BitVec 5) (f : BitVec 3) (s : State) : Host.Outcome State Fault Refusal :=
  let sa := floatSign (fmtTy f) (fBits (fmtTy f) (s.rd a))
  let sb := floatSign (fmtTy f) (fBits (fmtTy f) (s.rd b))
  .next (s.result d (withSignBit (fmtTy f) (s.rd a).toNat (sa != sb)))

/-- `fcmp.eq` (R189). -/
def execFcmpEq (d a b : BitVec 5) (f : BitVec 3) (s : State) : Host.Outcome State Fault Refusal :=
  let x := fVal (fmtTy f) (s.rd a)
  let y := fVal (fmtTy f) (s.rd b)
  .next (s.floatDone d (boolWord (fcmpHolds 0 x y)) (cmpFlags true x y) 0 1)

/-- `fcmp.lt` (R189). -/
def execFcmpLt (d a b : BitVec 5) (f : BitVec 3) (s : State) : Host.Outcome State Fault Refusal :=
  let x := fVal (fmtTy f) (s.rd a)
  let y := fVal (fmtTy f) (s.rd b)
  .next (s.floatDone d (boolWord (fcmpHolds 1 x y)) (cmpFlags false x y) 0 1)

/-- `fcmp.le` (R189). -/
def execFcmpLe (d a b : BitVec 5) (f : BitVec 3) (s : State) : Host.Outcome State Fault Refusal :=
  let x := fVal (fmtTy f) (s.rd a)
  let y := fVal (fmtTy f) (s.rd b)
  .next (s.floatDone d (boolWord (fcmpHolds 2 x y)) (cmpFlags false x y) 0 1)

/-- `fcmp.unordered` (R189). -/
def execFcmpUnordered (d a b : BitVec 5) (f : BitVec 3) (s : State) : Host.Outcome State Fault Refusal :=
  let x := fVal (fmtTy f) (s.rd a)
  let y := fVal (fmtTy f) (s.rd b)
  .next (s.floatDone d (boolWord (fcmpHolds 3 x y)) (cmpFlags true x y) 0 1)

/-- `fclass` (R190). -/
def execFclass (d a : BitVec 5) (f : BitVec 3) (s : State) : Host.Outcome State Fault Refusal :=
  .next (s.result d (wordOf (2 ^ classBit (fmtTy f) (fBits (fmtTy f) (s.rd a)))))

/-- `fma` (R185, R191). -/
def execFma (d a b : BitVec 5) (f r : BitVec 3) (s : State) : Host.Outcome State Fault Refusal :=
  .next (s.floatOp d r 1 (fun rm v =>
    fmaVal (fmtTy f) rm false v (fVal (fmtTy f) (s.rd a)) (fVal (fmtTy f) (s.rd b)) (fVal (fmtTy f) (s.rd d))))

/-- `fms` (R185, R191). -/
def execFms (d a b : BitVec 5) (f r : BitVec 3) (s : State) : Host.Outcome State Fault Refusal :=
  .next (s.floatOp d r 1 (fun rm v =>
    fmaVal (fmtTy f) rm false v (fVal (fmtTy f) (s.rd a)) (fVal (fmtTy f) (s.rd b)) (negVal (fVal (fmtTy f) (s.rd d)))))

/-- `fnma` (R185, R191). -/
def execFnma (d a b : BitVec 5) (f r : BitVec 3) (s : State) : Host.Outcome State Fault Refusal :=
  .next (s.floatOp d r 1 (fun rm v =>
    fmaVal (fmtTy f) rm false v (negVal (fVal (fmtTy f) (s.rd a))) (fVal (fmtTy f) (s.rd b)) (fVal (fmtTy f) (s.rd d))))

/-- `fcvt` between two types (R192). -/
def State.convert (s : State) (d : BitVec 5) (dst src : Ty) (a : Word) (r : BitVec 3) : State :=
  let rm := if canRound dst src then s.rmMode r else .rne
  let x := convertVal dst src rm false (s.srDraw rm) (fBits src a)
  s.floatDone d (resultWord dst x.1) x.2 (srCount rm) 1

/-- `fcvt` (R192). -/
def execFcvt (d a : BitVec 5) (t u : BitVec 4) (r : BitVec 3) (s : State) : Host.Outcome State Fault Refusal :=
  .next (s.convert d ((tyOfCode t).getD .f64) ((tyOfCode u).getD .f64) (s.rd a) r)

/-! ## Loads, stores and prefetch (R194 to R200) -/

/-- `ld` (R194, R195). -/
def execLd (d a : BitVec 5) (z : BitVec 2) (o : BitVec 12) (s : State) : Host.Outcome State Fault Refusal :=
  s.load (sizeBytes z) false d none (s.ea a o)

/-- `ld.sx` (R194, R195). -/
def execLdSx (d a : BitVec 5) (z : BitVec 2) (o : BitVec 12) (s : State) : Host.Outcome State Fault Refusal :=
  s.load (sizeBytes z) true d none (s.ea a o)

/-- `ld.up` (R194, R195). -/
def execLdUp (d a : BitVec 5) (z : BitVec 2) (o : BitVec 12) (s : State) : Host.Outcome State Fault Refusal :=
  s.load (sizeBytes z) false d (some a) (s.ea a o)

/-- `st` (R194, R195). -/
def execSt (x a : BitVec 5) (z : BitVec 2) (o : BitVec 12) (s : State) : Host.Outcome State Fault Refusal :=
  s.store (sizeBytes z) (s.rd x).toNat none (s.ea a o)

/-- `st.up` (R194, R195): a base stored is the base from before the update. -/
def execStUp (x a : BitVec 5) (z : BitVec 2) (o : BitVec 12) (s : State) : Host.Outcome State Fault Refusal :=
  s.store (sizeBytes z) (s.rd x).toNat (some a) (s.ea a o)

/-- Outstanding L1 misses of a core (R199). -/
def State.missCount (s : State) (c : Nat) : Nat := ((s.core c).lmiss.filter (fun m => decide (s.cycle < m.2))).length

/-- The L1 line `dpref` asks for: a load miss to a normal page while a miss is free (R199). -/
def State.prefetch (s : State) (ea : Nat) : State :=
  let c := s.actCore
  match s.check c s.curWs ea ⟨0, 1, 1, true, false, s.curTask.pc.toNat⟩ with
  | .ok (.mem pa 0) x =>
    if (s.l1Hit c ea).isSome ∨ 8 ≤ s.missCount c then s
    else
      let due := s.cycle + 6 + s.travel c (.mem pa 0)
      (s.fillL1 c ea pa x).noteMiss c (ea / 32) due
  | _ => s

/-- The line `ipref` asks for (R200). -/
def State.prefetchLine (s : State) (ea : Nat) : State :=
  if (s.cur.line? (lineOf ea)).isSome then s.modCore s.actCore (fun k => k.touchLine (lineOf ea))
  else s.requestLine s.actCore (lineOf ea)

/-- `dpref` (R198, R199). -/
def execDpref (a : BitVec 5) (o : BitVec 12) (s : State) : Host.Outcome State Fault Refusal :=
  .next ((s.prefetch (s.ea a o)).finish 1)

/-- `ipref` (R198, R200). -/
def execIpref (a : BitVec 5) (o : BitVec 12) (s : State) : Host.Outcome State Fault Refusal :=
  .next ((s.prefetchLine (s.ea a o)).finish 1)

end Sys2Proof.Machine
end

