-- ==== Sys2Proof/Machine/Control.lean ====
section
/-! DEFINITION. The control transfers (R203 to R210), `eret` (R109), `swtrap` (R232) and `dead` (R231). -/

namespace Sys2Proof.Machine

/-- MarkDead(DEADM) of the acting thread (R44, R206). -/
def State.markDead (s : State) : State := s.modCurSlot (fun sl => sl.markDead s.curTask.deadm)

/-- A landing address: PC plus four times a signed displacement in words (R152). -/
def State.relative (s : State) (disp : Word) : Word := s.curTask.pc + 4 * disp

/-- A conditional branch (R204): a branch not taken makes no landing check. -/
def State.branch (s : State) (taken : Bool) (disp : BitVec 12) : Host.Outcome State Fault Refusal :=
  if taken then s.land (s.relative (disp.signExtend 64)) 0 (fun t => t.finishAt (s.relative (disp.signExtend 64)) 1)
  else .next (s.finish 1)

/-- Enter a callee: DEADM is marked dead, then w30 takes the link (R206). -/
def State.enter (s : State) (tgt : Word) (rot : Nat) : State :=
  let link := s.npc
  ((s.markDead).wr 30 link).finishAt tgt rot

/-- Return to an address (R206): the object stack is popped when the return leaves the object. -/
def State.leave (s : State) (tgt : Word) : State :=
  let s1 := if s.obj tgt.toNat = s.obj s.curTask.pc.toNat then s else s.stackPop
  s1.markDead.finishAt tgt 1

/-- `br.eq` (R204). -/
def execBrEq (a b : BitVec 5) (disp : BitVec 12) (s : State) : Host.Outcome State Fault Refusal :=
  s.branch (condHolds 0 (s.rd a) (s.rd b)) disp

/-- `br.ne` (R204). -/
def execBrNe (a b : BitVec 5) (disp : BitVec 12) (s : State) : Host.Outcome State Fault Refusal :=
  s.branch (condHolds 1 (s.rd a) (s.rd b)) disp

/-- `br.lt` (R204). -/
def execBrLt (a b : BitVec 5) (disp : BitVec 12) (s : State) : Host.Outcome State Fault Refusal :=
  s.branch (condHolds 2 (s.rd a) (s.rd b)) disp

/-- `br.ge` (R204). -/
def execBrGe (a b : BitVec 5) (disp : BitVec 12) (s : State) : Host.Outcome State Fault Refusal :=
  s.branch (condHolds 3 (s.rd a) (s.rd b)) disp

/-- `br.ltn` (R204). -/
def execBrLtn (a b : BitVec 5) (disp : BitVec 12) (s : State) : Host.Outcome State Fault Refusal :=
  s.branch (condHolds 4 (s.rd a) (s.rd b)) disp

/-- `br.gen` (R204). -/
def execBrGen (a b : BitVec 5) (disp : BitVec 12) (s : State) : Host.Outcome State Fault Refusal :=
  s.branch (condHolds 5 (s.rd a) (s.rd b)) disp

/-- `br.z` (R204). -/
def execBrZ (a : BitVec 5) (disp : BitVec 12) (s : State) : Host.Outcome State Fault Refusal :=
  s.branch (s.rd a == 0) disp

/-- `br.nz` (R204). -/
def execBrNz (a : BitVec 5) (disp : BitVec 12) (s : State) : Host.Outcome State Fault Refusal :=
  s.branch (s.rd a != 0) disp

/-- `jmp` (R205). -/
def execJmp (disp : BitVec 26) (s : State) : Host.Outcome State Fault Refusal :=
  s.land (s.relative (disp.signExtend 64)) 0 (fun t => t.finishAt (s.relative (disp.signExtend 64)) 1)

/-- `call` (R206). -/
def execCall (disp : BitVec 26) (s : State) : Host.Outcome State Fault Refusal :=
  s.land (s.relative (disp.signExtend 64)) 0 (fun t => t.enter (s.relative (disp.signExtend 64)) 1)

/-- `jr` (R206). -/
def execJr (a : BitVec 5) (s : State) : Host.Outcome State Fault Refusal :=
  s.land (s.rd a) 0 (fun t => t.finishAt (s.rd a) 1)

/-- `callr` (R206): its target is read before w30 is written. -/
def execCallr (a : BitVec 5) (s : State) : Host.Outcome State Fault Refusal :=
  s.land (s.rd a) 0 (fun t => t.enter (s.rd a) 1)

/-- `ret` (R206, R208). -/
def execRet (a : BitVec 5) (s : State) : Host.Outcome State Fault Refusal :=
  s.land (s.rd a) 1 (fun t => t.leave (s.rd a))

/-- A handle is used: it becomes the most recent of the core's eight (R207). -/
def Core.useHandle (k : Core) (x : Nat) : Core := { k with hcache := (x :: k.hcache.filter (fun y => y != x)).take 8 }

/-- The effect of `callx` after its checks (R207): a handle not held is read at the L2 home of its line, whose address
is service memory's (log 18). -/
def State.enterObject (s : State) (x : Nat) (tgt : Word) : State :=
  let cross := s.obj tgt.toNat ≠ s.obj s.curTask.pc.toNat
  let held := s.cur.hcache.contains x
  let s1 := if cross then s.stackPush s.npc else s
  let s3 := (s1.modCore s1.actCore (fun k => k.useHandle x)).enter tgt (if held then 2 else 1)
  let due := s.cycle + 6 + s.l2Time s.actCore (32 * x)
  if held then s3 else if due ≤ s.cycle + 15 then s3 else s3.parkCur (.memory due)

/-- `callx` (R207, R209). -/
def execCallx (a : BitVec 5) (i : BitVec 16) (s : State) : Host.Outcome State Fault Refusal :=
  let x := (s.rd a).toNat % 65536
  let h := AMap.get ObjEntry.reset (s.world s.cur.world).handles x
  if h.valid = false ∨ h.owner ≠ s.cur.world then .next (s.takeTrap (trapAt 0x11 3 x))
  else if h.entries.length ≤ i.toNat then .next (s.takeTrap (trapAt 0x11 4 x))
  else
    let tgt := h.entries[i.toNat]?.getD 0
    if s.obj tgt.toNat ≠ s.obj s.curTask.pc.toNat ∧ s.stackDepth = 8 then .next (s.takeTrap (trapAt 0x11 5 tgt.toNat))
    else s.land tgt 2 (fun t => t.enterObject x tgt)

/-- Complete `eret`: a return that does not resume the trapped nest settles the windows it holds (R109, R251). -/
def State.finishReturn (s : State) (tgt : Word) : State :=
  (if s.resumesNest tgt then s else s.modCore s.actCore (fun k => k.settleHeld s.curWs)).returnFrom tgt

/-- `eret` (R109): an address other than EPC or NPC meets the landing checks while HND is still set. -/
def execEret (s : State) : Host.Outcome State Fault Refusal :=
  let tgt := wordOf (s.sNum s.actCore (wsOff s.curWs 0x130) 8)
  let epc := wordOf (s.sNum s.actCore (wsOff s.curWs 0x108) 8)
  let npc := wordOf (s.sNum s.actCore (wsOff s.curWs 0x128) 8)
  if s.hnd s.actCore s.curWs = 0 then .next (s.takeTrap (trapOf 7 0x0B))
  else if tgt = epc ∨ tgt = npc then .next (s.finishReturn tgt)
  else s.land tgt 0 (fun t => t.finishReturn tgt)

end Sys2Proof.Machine
end

