-- ==== Sys2Proof/Machine/Sync.lean ====
section
/-! DEFINITION. Atomics, update logs, full-empty forms and clasp instructions (R212 to R225). -/

namespace Sys2Proof.Machine

/-- n of an atomic: 4 or 8 bytes by size (R215). -/
def amoBytes (z : BitVec 2) : Nat := if z = 0#2 then 4 else 8

/-- An operand's low 8n bits. -/
def lowBytes (n : Nat) (w : Word) : Nat := w.toNat % 2 ^ (8 * n)

/-- An access of R212: kind 1 atomic, 2 append, 3 clasp, 4 full-empty, 7 `red`. -/
def State.syncAcc (s : State) (kind n : Nat) (r w : Bool) : Acc := ⟨kind, n, n, r, w, s.curTask.pc.toNat⟩

/-- A request of R212 to its home (R214). -/
def State.atHome (s : State) (ea : Nat) (acc : Acc) (op : ReqOp) (deadline : Option Nat) :
    Host.Outcome State Fault Refusal :=
  s.access ea acc (fun s l _ => s.request op ea l deadline)

/-- `amo` (R215). -/
def State.amo (s : State) (op n : Nat) (d a b : BitVec 5) : Host.Outcome State Fault Refusal :=
  s.atHome (s.rd a).toNat (s.syncAcc 1 n true true) (.amo op n (lowBytes n (s.rd b)) d) none

/-- Whether the mesh has no room for another request of a core: how many it takes is Config's (R89). -/
def State.meshFull (s : State) (c : Nat) : Bool :=
  let n := (s.inflight.filter (fun r => r.core == c && r.isRed)).length
  n != 0 && decide (Config.meshQueue ≤ n)

/-- Issue a `red` that has passed its checks (R217): at the own scratchpad it is performed at once, elsewhere it travels
while the thread goes on, or it parks on a full injection queue (R89). -/
def State.sendRed (s : State) (op n v ea : Nat) (l : Loc) : State :=
  let r := s.mkReq (.red op n v) ea l none
  let t := { s with nextId := s.nextId + 1 }
  let own := match l with
    | .spad o _ => o == s.actCore
    | _ => false
  if own then (t.perform r).1.finish 1
  else if s.meshFull s.actCore then s.parkCur .meshFull
  else ({ t with inflight := t.inflight ++ [r] }).finish 1

/-- `red` (R217). -/
def State.red (s : State) (op n : Nat) (a b : BitVec 5) : Host.Outcome State Fault Refusal :=
  let ea := (s.rd a).toNat
  s.access ea (s.syncAcc 7 n true true) (fun s l _ => s.sendRed op n (lowBytes n (s.rd b)) ea l)

/-- `ulog.app` (R218). -/
def State.ulogApp (s : State) (op : Nat) (a b : BitVec 5) (log : BitVec 4) : Host.Outcome State Fault Refusal :=
  let n := ulogBytes op
  s.atHome (s.rd a).toNat (s.syncAcc 2 n true true)
    (.ulogApp log.toNat op n (lowBytes n (s.rd b)) (s.rankOf s.actCore s.curWs % 2 ^ 32)) none

/-! ## Merging an update log (R93, R219) -/

/-- (address, rank, sequence) order of records (R93). -/
def ULogRec.before (x y : ULogRec) : Bool :=
  decide (x.addr < y.addr) || (x.addr == y.addr && (decide (x.rank < y.rank) ||
    (x.rank == y.rank && decide (x.seq ≤ y.seq))))

/-- Put a record into a sorted list. -/
def insertRec (r : ULogRec) : List ULogRec → List ULogRec
  | [] => [r]
  | x :: l => if r.before x then r :: x :: l else x :: insertRec r l

/-- Sort records (R93). -/
def sortRecs (l : List ULogRec) : List ULogRec := l.foldr insertRec []

/-- The check of a record's destination (R219). -/
def State.mergeCheck (s : State) (r : ULogRec) : Chk :=
  s.check s.actCore s.curWs r.addr ⟨8, ulogBytes r.op, 1, true, true, s.curTask.pc.toNat⟩

/-- The first record whose destination fails its check. -/
def State.mergeFault (s : State) (rs : List ULogRec) : Option (Nat × Chk) :=
  rs.findSome? (fun r => match s.mergeCheck r with
    | .ok _ _ => none
    | k => some (r.addr, k))

/-- Apply one record at its destination's home (R219), with its flags. -/
def State.mergeOne (s : State) (r : ULogRec) : State :=
  match s.mergeCheck r with
  | .ok (.mem pa mt) _ =>
    let n := ulogBytes r.op
    let l : Loc := .mem pa mt
    let x := ulogApply r.op (natOfBytes (s.peekOpen s.cur.world l n)) r.value
    let s := (s.loadedAt s.cur.world l n).recall pa
    let t := s.homeChange s.cur.world (.mem pa mt) (bytesOf n x.1) (s.pts s.actCore)
    (t.1.raisePts s.actCore t.2).orFlags x.2
  | _ => s

/-- Records of the fullest slice (R219). -/
def fullestSlice (rs : List ULogRec) : Nat :=
  rs.foldl (fun m r => max m (rs.filter (fun x => x.slice == r.slice)).length) 0

/-- The L2 travel time to the farthest enabled slice (R219). -/
def State.farthest (s : State) (c : Nat) : Nat :=
  (s.bootSlices.filter (fun p => s.enabled 3 p)).foldl (fun m p =>
    let h := s.route (s.coreStop c) (sliceStop p)
    max m (20 + 4 * h.1 + 60 * h.2)) 0

/-- Free the records of a log, and forget that it lost any (R23, R93). -/
def State.freeLog (s : State) (w log : Nat) : State :=
  let x := s.world w
  s.putWorld w { x with ulogs := x.ulogs.filter (fun r => r.log != log), lost := x.lost.filter (fun l => l != log) }

/-- The applications of a merge, all at once (R93). -/
def State.applyMerge (s : State) (log : Nat) (rs : List ULogRec) : State :=
  let due := s.cycle + 6 + s.farthest s.actCore + 64 + 2 * fullestSlice rs
  ((rs.foldl (fun s r => s.mergeOne r) s).freeLog s.cur.world log).finishBy due

/-- `ulog.merge` (R23, R219). -/
def State.merge (s : State) (log : Nat) : Host.Outcome State Fault Refusal :=
  let s := s.drainReds
  let w := s.cur.world
  if (s.world w).lost.contains log then .next ((s.freeLog w log).takeTrap (trapOf 7 0x0D))
  else
    let rs := sortRecs ((s.world w).ulogs.filter (fun r => r.log == log))
    match s.mergeFault rs with
    | some (a, k) => s.withChk a k (fun s _ _ => s)
    | none => .next (s.applyMerge log rs)

/-- The deadline of a waiting full-empty form: the issue rotation plus FEWAIT (R222). -/
def State.feDeadline (s : State) : Option Nat :=
  if s.curTask.fewait = 0 then none else some (s.cycle / 16 + s.curTask.fewait.toNat)

/-- The low 40 bits of a clasp operand (R223). -/
def low40 (w : Word) : Nat := w.toNat % 2 ^ 40

/-- `amo.add` (R215). -/
def execAmoAdd (d a b : BitVec 5) (z : BitVec 2) (s : State) : Host.Outcome State Fault Refusal :=
  s.amo 0 (amoBytes z) d a b

/-- `amo.and` (R215). -/
def execAmoAnd (d a b : BitVec 5) (z : BitVec 2) (s : State) : Host.Outcome State Fault Refusal :=
  s.amo 1 (amoBytes z) d a b

/-- `amo.or` (R215). -/
def execAmoOr (d a b : BitVec 5) (z : BitVec 2) (s : State) : Host.Outcome State Fault Refusal :=
  s.amo 2 (amoBytes z) d a b

/-- `amo.xor` (R215). -/
def execAmoXor (d a b : BitVec 5) (z : BitVec 2) (s : State) : Host.Outcome State Fault Refusal :=
  s.amo 3 (amoBytes z) d a b

/-- `amo.min` (R215). -/
def execAmoMin (d a b : BitVec 5) (z : BitVec 2) (s : State) : Host.Outcome State Fault Refusal :=
  s.amo 4 (amoBytes z) d a b

/-- `amo.max` (R215). -/
def execAmoMax (d a b : BitVec 5) (z : BitVec 2) (s : State) : Host.Outcome State Fault Refusal :=
  s.amo 5 (amoBytes z) d a b

/-- `amo.minn` (R215). -/
def execAmoMinn (d a b : BitVec 5) (z : BitVec 2) (s : State) : Host.Outcome State Fault Refusal :=
  s.amo 6 (amoBytes z) d a b

/-- `amo.maxn` (R215). -/
def execAmoMaxn (d a b : BitVec 5) (z : BitVec 2) (s : State) : Host.Outcome State Fault Refusal :=
  s.amo 7 (amoBytes z) d a b

/-- `amo.swap` (R215). -/
def execAmoSwap (d a b : BitVec 5) (z : BitVec 2) (s : State) : Host.Outcome State Fault Refusal :=
  s.amo 8 (amoBytes z) d a b

/-- `amo.fadd.f32` (R215). -/
def execAmoFaddF32 (d a b : BitVec 5) (s : State) : Host.Outcome State Fault Refusal :=
  s.amo 9 4 d a b

/-- `amo.fadd.f64` (R215). -/
def execAmoFaddF64 (d a b : BitVec 5) (s : State) : Host.Outcome State Fault Refusal :=
  s.amo 10 8 d a b

/-- `cas` (R216). -/
def execCas (d a b : BitVec 5) (z : BitVec 2) (s : State) : Host.Outcome State Fault Refusal :=
  s.atHome (s.rd a).toNat (s.syncAcc 1 (amoBytes z) true true)
    (.cas (amoBytes z) (lowBytes (amoBytes z) (s.rd d)) (lowBytes (amoBytes z) (s.rd b)) d) none

/-- `red.add` (R217). -/
def execRedAdd (a b : BitVec 5) (z : BitVec 2) (s : State) : Host.Outcome State Fault Refusal :=
  s.red 0 (amoBytes z) a b

/-- `red.and` (R217). -/
def execRedAnd (a b : BitVec 5) (z : BitVec 2) (s : State) : Host.Outcome State Fault Refusal :=
  s.red 1 (amoBytes z) a b

/-- `red.or` (R217). -/
def execRedOr (a b : BitVec 5) (z : BitVec 2) (s : State) : Host.Outcome State Fault Refusal :=
  s.red 2 (amoBytes z) a b

/-- `red.xor` (R217). -/
def execRedXor (a b : BitVec 5) (z : BitVec 2) (s : State) : Host.Outcome State Fault Refusal :=
  s.red 3 (amoBytes z) a b

/-- `red.min` (R217). -/
def execRedMin (a b : BitVec 5) (z : BitVec 2) (s : State) : Host.Outcome State Fault Refusal :=
  s.red 4 (amoBytes z) a b

/-- `red.max` (R217). -/
def execRedMax (a b : BitVec 5) (z : BitVec 2) (s : State) : Host.Outcome State Fault Refusal :=
  s.red 5 (amoBytes z) a b

/-- `red.minn` (R217). -/
def execRedMinn (a b : BitVec 5) (z : BitVec 2) (s : State) : Host.Outcome State Fault Refusal :=
  s.red 6 (amoBytes z) a b

/-- `red.maxn` (R217). -/
def execRedMaxn (a b : BitVec 5) (z : BitVec 2) (s : State) : Host.Outcome State Fault Refusal :=
  s.red 7 (amoBytes z) a b

/-- `ulog.app.add.f32` (R218). -/
def execUlogAppAddF32 (a b : BitVec 5) (l : BitVec 4) (s : State) : Host.Outcome State Fault Refusal :=
  s.ulogApp 0 a b l

/-- `ulog.app.add.f64` (R218). -/
def execUlogAppAddF64 (a b : BitVec 5) (l : BitVec 4) (s : State) : Host.Outcome State Fault Refusal :=
  s.ulogApp 1 a b l

/-- `ulog.app.add.i32` (R218). -/
def execUlogAppAddI32 (a b : BitVec 5) (l : BitVec 4) (s : State) : Host.Outcome State Fault Refusal :=
  s.ulogApp 2 a b l

/-- `ulog.app.add.i64` (R218). -/
def execUlogAppAddI64 (a b : BitVec 5) (l : BitVec 4) (s : State) : Host.Outcome State Fault Refusal :=
  s.ulogApp 3 a b l

/-- `ulog.app.max.f32` (R218). -/
def execUlogAppMaxF32 (a b : BitVec 5) (l : BitVec 4) (s : State) : Host.Outcome State Fault Refusal :=
  s.ulogApp 4 a b l

/-- `ulog.app.min.f32` (R218). -/
def execUlogAppMinF32 (a b : BitVec 5) (l : BitVec 4) (s : State) : Host.Outcome State Fault Refusal :=
  s.ulogApp 5 a b l

/-- `ulog.app.max.f64` (R218). -/
def execUlogAppMaxF64 (a b : BitVec 5) (l : BitVec 4) (s : State) : Host.Outcome State Fault Refusal :=
  s.ulogApp 6 a b l

/-- `ulog.app.min.f64` (R218). -/
def execUlogAppMinF64 (a b : BitVec 5) (l : BitVec 4) (s : State) : Host.Outcome State Fault Refusal :=
  s.ulogApp 7 a b l

/-- `ulog.merge` (R219). -/
def execUlogMerge (l : BitVec 4) (s : State) : Host.Outcome State Fault Refusal :=
  s.merge l.toNat

/-- `ld.fe.keep` (R96, R220). -/
def execLdFeKeep (d a : BitVec 5) (z : BitVec 2) (o : BitVec 12) (s : State) : Host.Outcome State Fault Refusal :=
  s.atHome (s.ea a o) (s.syncAcc 4 (sizeBytes z) true false) (.feLoad false (sizeBytes z) d) s.feDeadline

/-- `ld.fe.take` (R96, R220). -/
def execLdFeTake (d a : BitVec 5) (z : BitVec 2) (o : BitVec 12) (s : State) : Host.Outcome State Fault Refusal :=
  s.atHome (s.ea a o) (s.syncAcc 4 (sizeBytes z) true false) (.feLoad true (sizeBytes z) d) s.feDeadline

/-- `st.fe.fill` (R96, R220). -/
def execStFeFill (x a : BitVec 5) (z : BitVec 2) (o : BitVec 12) (s : State) : Host.Outcome State Fault Refusal :=
  s.atHome (s.ea a o) (s.syncAcc 4 (sizeBytes z) false true)
    (.feStore 0 (sizeBytes z) (lowBytes (sizeBytes z) (s.rd x))) s.feDeadline

/-- `st.fe.put` (R96, R220). -/
def execStFePut (x a : BitVec 5) (z : BitVec 2) (o : BitVec 12) (s : State) : Host.Outcome State Fault Refusal :=
  s.atHome (s.ea a o) (s.syncAcc 4 (sizeBytes z) false true)
    (.feStore 1 (sizeBytes z) (lowBytes (sizeBytes z) (s.rd x))) s.feDeadline

/-- `st.fe.clear` (R96, R220). -/
def execStFeClear (a : BitVec 5) (z : BitVec 2) (o : BitVec 12) (s : State) : Host.Outcome State Fault Refusal :=
  s.atHome (s.ea a o) (s.syncAcc 4 (sizeBytes z) false true) (.feStore 2 (sizeBytes z) 0) s.feDeadline

/-- `cl.init` (R224). -/
def execClInit (a b : BitVec 5) (s : State) : Host.Outcome State Fault Refusal :=
  s.atHome (s.rd a).toNat (s.syncAcc 3 16 true true) (.clInit (low40 (s.rd b))) none

/-- `cl.arm` (R224). -/
def execClArm (a b : BitVec 5) (s : State) : Host.Outcome State Fault Refusal :=
  s.atHome (s.rd a).toNat (s.syncAcc 3 16 true true) (.clArm (low40 (s.rd b))) none

/-- `cl.add` (R224). -/
def execClAdd (a b : BitVec 5) (s : State) : Host.Outcome State Fault Refusal :=
  s.atHome (s.rd a).toNat (s.syncAcc 3 16 true true) (.clAdd (low40 (s.rd b))) none

/-- `cl.wait` (R224, R225). -/
def execClWait (d a b : BitVec 5) (s : State) : Host.Outcome State Fault Refusal :=
  s.atHome (s.rd a).toNat (s.syncAcc 3 16 true false) (.clWait d ((s.rd b).toNat % 2 ^ 24)) none

/-- `cl.test` (R224). -/
def execClTest (d a : BitVec 5) (s : State) : Host.Outcome State Fault Refusal :=
  s.atHome (s.rd a).toNat (s.syncAcc 3 16 true false) (.clTest d) none

end Sys2Proof.Machine
end

