-- ==== Sys2Proof/Machine/Thread.lean ====
section
/-! DEFINITION. Thread, message, barrier, state-register and common-register instructions (R226 to R238). -/

namespace Sys2Proof.Machine

/-! ## Leaving a slot (R227, R228) -/

/-- Complete the acting instruction and leave the slot with a TSTATE (R227). -/
def State.depart (s : State) (st : Nat) : State := (s.finish 1).leaveSlot s.actCore s.actSlot st s.nextBeat

/-- Whether a task of priority equal to or higher than the acting one is ready (R227). -/
def State.rivalReady (s : State) : Bool :=
  match s.cur.readyHead with
  | some (p, _) => decide (p ≤ s.curTask.prio.toNat)
  | none => false

/-- FULL of the acting workspace's mailbox (R53). -/
def State.mailFull (s : State) : Bool := bitOf (s.sNum s.actCore (wsOff s.curWs 0x170) 8) 0

/-- The workspace that `wswap` names can be entered: it holds a ready task, which no slot has taken yet, and is not the
acting one (R42, R228). -/
def State.canSwap (s : State) (x : Nat) : Bool :=
  x != s.curWs && (s.task s.actCore x).tstate == 0 && (List.range 4).any (fun p => (s.cur.readyList p).contains x)

/-- Hand the slot to a ready task (R228). -/
def State.swapTo (s : State) (d : BitVec 5) (x : Nat) : State :=
  (((s.wr d 0).finish 1).leaveReady s.actCore x).switchOut s.actCore s.actSlot 0 (some x) s.nextBeat

/-! ## Spawning (R229) -/

/-- The spawned task's thread state (R229). -/
def State.spawnTask (s : State) (x : Nat) (start : Word) : Task :=
  let t := s.curTask
  { Task.reset with
    tstate := 0, pc := start, fresh := true, prio := BitVec.ofNat 2 (s.sNum s.actCore (wsOff x 0x188) 1)
    trapv := t.trapv, emulv := t.emulv, seed := t.seed, fewait := t.fewait, qrem := (s.tqNow s.actCore).toNat }

/-- The bytes that `spawn` writes: the whole task record, HND and the return stack's valid bits (R229). -/
def State.spawnBytes (s : State) (x : Nat) (start : Word) : State :=
  let c := s.actCore
  let prio := s.sNum c (wsOff x 0x188) 1 % 4
  let s1 := s.sPut c (wsOff x 0x180) 8 start.toNat
  let s1 := s1.sPut c (wsOff x 0x188) 8 (recWord 0 0xFFFF 0 (BitVec.ofNat 2 prio))
  let s1 := s1.sPut c (wsOff x 0x190) 8 ((s.tqNow c).toNat * 2 ^ 32)
  let s1 := (List.range 5).foldl (fun s i => s.sPut c (wsOff x (0x198 + 8 * i)) 8 0) s1
  let s1 := s1.sPut c (wsOff x 0x100) 8 (insertBits (s1.sNum c (wsOff x 0x100) 8) 30 2 0)
  (List.range 8).foldl (fun s i => s.sPut c (wsOff x (0x200 + 8 * i)) 1 (s.sNum c (wsOff x (0x200 + 8 * i)) 1 / 2 * 2)) s1

/-- Start a task in a workspace that holds none (R229). -/
def State.spawn (s : State) (x : Nat) (start : Word) : State :=
  let t := s.spawnTask x start
  ((s.spawnBytes x start).modTask s.actCore x (fun _ => t)).joinReady s.actCore x 0

/-- Whether `spawn` may use a workspace: it is not the acting one and holds no live task (R229). -/
def State.canSpawn (s : State) (x : Nat) : Bool := x != s.curWs && !(liveState (s.task s.actCore x).tstate)

/-! ## Task references (R226) -/

/-- The core a task reference names, or none when it is not allocated to the issuing world (R226). -/
def State.refCore (s : State) (w : Word) : Option Nat :=
  let o := s.mapCore s.actCore (w.toNat / 65536 % 65536)
  if o < s.coreList.length ∧ (s.core o).world = s.cur.world then some o else none

/-- The workspace index of a task reference or of a workspace operand (R226). -/
def refWs (w : Word) : Nat := w.toNat % 1024

/-- The 48 payload bytes of `msg.send` (R233): dead registers send zero. -/
def State.payload (s : State) (b : BitVec 5) : List Byte :=
  (List.range 6).flatMap (fun i => bytesOf 8 (s.rd (BitVec.ofNat 5 (b.toNat + i))).toNat)

/-- The acting thread's next request needs no translation, which would add to its time (R120, R226). -/
def State.undelayed (s : State) : State := s.modCore s.actCore (fun k => { k with late := 0 })

/-- A request to a task's core, or PROT 0x06 (R226). -/
def State.toTask (s : State) (w : Word) (op : ReqOp) : State :=
  match s.refCore w with
  | none => s.takeTrap (trapOf 7 6)
  | some o => s.undelayed.request op 0 (.spad o (refWs w * 1024)) none

/-! ## Gang barriers (R61, R235) -/

/-- Members of a gang (R59): GSIZE. -/
def Gang.size (g : Gang) : Nat := g.w * g.h * popCount 8 g.mask * g.n

/-- Record an arrival: the member, the highest pts, and, when it is the last, when the release is due (R61, R235): the rule
bounds that time, and the model takes the bound itself (log 42). -/
def Gang.arrive (g : Gang) (id rank pts now : Nat) : Gang :=
  let a := AMap.get [] g.arrivals id ++ [rank]
  let due := now + 64 + 2 * ((g.w - 1) + (g.h - 1))
  { g with arrivals := AMap.put g.arrivals id a, arrPts := AMap.put g.arrPts id (max pts (AMap.get 0 g.arrPts id)),
           arrDue := if a.length = g.size then AMap.put g.arrDue id due else g.arrDue }

/-- Arrive at a barrier and park (R235). -/
def State.arrive (s : State) (g id : Nat) : State :=
  (s.putGang g ((s.gang g).arrive id (s.rankOf s.actCore s.curWs) (s.pts s.actCore) s.cycle)).parkCur (.gbar id)

/-! ## State registers (R166, R237) -/

/-- GSIZE as a thread reads it: 0 for a task that is no member (R166). -/
def State.gsize (s : State) : Nat := match s.curTask.gang with
  | some g => (s.gang g).size
  | none => 0

/-- MAW of the core's gang (R166, R280). -/
def State.maw (s : State) (c : Nat) : Nat := match (s.core c).gang with
  | some g => (s.gang g).maw
  | none => 1

/-- The value `gets` reads (R166, R237). -/
def State.getSel (s : State) (sel : Nat) : Nat :=
  let t := s.curTask
  match sel with
  | 0x000 => t.pc.toNat
  | 0x001 => s.curWs * 1024
  | 0x002 => s.shownCore s.actCore
  | 0x003 => s.settOf (s.shownCore s.actCore)
  | 0x004 => s.actSlot
  | 0x005 => s.rankOf s.actCore s.curWs
  | 0x006 => s.gsize
  | 0x007 => s.cur.world
  | 0x008 => s.cycle
  | 0x009 => s.cycle / 16 % 2 ^ 60
  | 0x010 => t.flags.toNat
  | 0x011 => t.rmode.toNat
  | 0x012 => t.ften.toNat
  | 0x013 => t.deadm.toNat
  | 0x014 => t.fewait.toNat
  | 0x015 => (s.tqNow s.actCore).toNat
  | 0x016 => t.prio.toNat
  | 0x020 => t.trapv.toNat
  | 0x021 => t.emulv.toNat
  | 0x022 => t.seed.toNat
  | 0x023 => s.streamOf s.actCore s.curWs
  | 0x040 => s.maw s.actCore
  | _ => s.cur.lease

/-- Whether a value fits a read-only register's width and range (R166). -/
def readOnlyFits (sel v : Nat) : Bool :=
  match sel with
  | 0x001 => decide (v < 2 ^ 20)
  | 0x002 => decide (v < 2 ^ 16)
  | 0x003 => decide (v < 2 ^ 16)
  | 0x004 => decide (v < 16)
  | 0x006 => decide (v < 2 ^ 32)
  | 0x007 => decide (v < 2 ^ 12)
  | 0x009 => decide (v < 2 ^ 60)
  | 0x040 => decide (1 ≤ v) && decide (v ≤ 8)
  | 0x050 => decide (1 ≤ v) && decide (v ≤ 64)
  | _ => true

/-- The UNDEF sub-cause of a value given to `puts`, or 0 (R129, R158, R166, R237): a value beyond the register's width or
range comes before a write to a read-only register. -/
def putsUndef (sel v : Nat) : Nat :=
  match sel with
  | 0x010 => if v < 32 then 0 else 2
  | 0x011 => if v < 6 then 0 else if v < 8 then 5 else 2
  | 0x012 => if v < 64 then 0 else 2
  | 0x013 => if v < 2 ^ 32 then 0 else 2
  | 0x014 => if v < 2 ^ 32 then 0 else 2
  | 0x015 => if v < 2 ^ 32 then 0 else 2
  | 0x016 => if v < 4 then 0 else 2
  | 0x020 => if v % 4 = 0 then 0 else 2
  | 0x021 => if v % 4 = 0 then 0 else 2
  | 0x022 => 0
  | 0x023 => 0
  | _ => if readOnlyFits sel v then 3 else 2

/-- A write of TQ, seen by the core's instructions from c + 8 (R38, R237). -/
def State.putTq (s : State) (v : BitVec 32) : State :=
  s.modCore s.actCore (fun k => { k with tq := s.tqNow s.actCore, tqNew := k.tqNew.filter (fun e => decide (s.cycle < e.1)) ++ [(s.cycle + 8, v)] })

/-- The write of `puts` (R237). -/
def State.putSel (s : State) (sel : Nat) (v : Word) : State :=
  match sel with
  | 0x010 => s.modCurTask (fun t => { t with flags := v.setWidth 5 })
  | 0x011 => s.modCurTask (fun t => { t with rmode := v.setWidth 3 })
  | 0x012 => s.modCurTask (fun t => { t with ften := v.setWidth 6 })
  | 0x013 => s.modCurTask (fun t => { t with deadm := v.setWidth 32 })
  | 0x014 => s.modCurTask (fun t => { t with fewait := v.setWidth 32 })
  | 0x015 => s.putTq (v.setWidth 32)
  | 0x016 => s.modCurTask (fun t => { t with prio := v.setWidth 2 })
  | 0x020 => s.modCurTask (fun t => { t with trapv := v })
  | 0x021 => s.modCurTask (fun t => { t with emulv := v })
  | 0x022 => s.modCurTask (fun t => { t with seed := v })
  | 0x023 => s.sPut s.actCore (wsOff s.curWs 0x1C8) 8 v.toNat
  | _ => s

/-- Whether the acting thread has outstanding detached nests (R243; log 8). -/
def State.nestsOut (s : State) : Bool := s.cur.vq.any (fun q => q.ws == s.curWs && !q.attached)

/-! ## Common registers (R38, R238) -/

/-- A common register as an instruction that issues now reads it (R38). -/
def State.getCommon (s : State) (n : Nat) : Word :=
  let k := s.cur
  ((k.commonsNew.filter (fun e => e.1 == n && decide (e.2.1 ≤ s.cycle))).getLast?.map (fun e => e.2.2)).getD
    (AMap.get 0 k.commons n)

/-- Fold the visible writes into the common registers, oldest first (R38). -/
def foldCommons (now : Nat) (m : AMap Word) (l : List (Nat × Nat × Word)) : AMap Word :=
  l.foldl (fun m e => if e.2.1 ≤ now then AMap.put m e.1 e.2.2 else m) m

/-- A write of a common register, seen from c + 8 (R38). -/
def State.putCommon (s : State) (n : Nat) (v : Word) : State :=
  s.modCore s.actCore (fun k => { k with commons := foldCommons s.cycle k.commons k.commonsNew, commonsNew := k.commonsNew.filter (fun e => decide (s.cycle < e.2.1)) ++ [(n, s.cycle + 8, v)] })

/-- `yield` (R227). -/
def execYield (s : State) : Host.Outcome State Fault Refusal :=
  .next (if s.rivalReady then s.depart 0 else s.finish 1)

/-- `sleep` (R227). -/
def execSleep (s : State) : Host.Outcome State Fault Refusal :=
  .next (s.depart 2)

/-- `halt` (R227): the windows of a trapped nest are settled (R251). -/
def execHalt (s : State) : Host.Outcome State Fault Refusal :=
  .next ((s.modCore s.actCore (fun k => k.settleHeld s.curWs)).depart 4)

/-- `msg.wait` (R56, R234). -/
def execMsgWait (s : State) : Host.Outcome State Fault Refusal :=
  let t := s.drainReds
  let t := t.raisePts t.actCore (t.htsOf (.spad t.actCore 0))
  .next (if t.mailFull then t.finish 1 else t.depart 3)

/-- `wswap` (R228). -/
def execWswap (d a : BitVec 5) (s : State) : Host.Outcome State Fault Refusal :=
  let x := refWs (s.rd a)
  .next (if s.canSwap x then s.swapTo d x else (s.wr d 1).finish 1)

/-- `spawn` (R229). -/
def execSpawn (d a b : BitVec 5) (s : State) : Host.Outcome State Fault Refusal :=
  let x := refWs (s.rd a)
  .next (if s.canSpawn x then ((s.spawn x (s.rd b)).wr d 0).finish 1 else (s.wr d 1).finish 1)

/-- `wake` (R230). -/
def execWake (d a : BitVec 5) (s : State) : Host.Outcome State Fault Refusal :=
  .next (s.drainReds.toTask (s.rd a) (.wake d))

/-- `msg.send` (R233). -/
def execMsgSend (a b : BitVec 5) (s : State) : Host.Outcome State Fault Refusal :=
  .next (s.drainReds.toTask (s.rd a) (.send (s.payload b) s.actSlot))

/-- `gbar` (R235): PROT 0x0A for a task that is no member. -/
def execGbar (i : BitVec 5) (s : State) : Host.Outcome State Fault Refusal :=
  match s.curTask.gang with
  | none => .next (s.takeTrap (trapOf 7 0x0A))
  | some g => .next (s.drainReds.arrive g i.toNat)

/-- `swtrap` (R232). -/
def execSwtrap (h l : BitVec 5) (s : State) : Host.Outcome State Fault Refusal :=
  .next (s.takeTrap (trapOf 0x12 (h.toNat * 32 + l.toNat)))

/-- `dead` (R231). -/
def execDead (a : BitVec 5) (s : State) : Host.Outcome State Fault Refusal :=
  .next ((s.modCurSlot (fun sl => sl.markDead ((s.rd a).setWidth 32))).finish 1)

/-- `gets` (R237): FLAGS waits for the thread's detached nests (R243). -/
def execGets (d : BitVec 5) (x : BitVec 12) (s : State) : Host.Outcome State Fault Refusal :=
  if x = 0x010#12 ∧ s.nestsOut = true then .next (s.parkCur (.flagsDrain false d))
  else .next ((s.wr d (wordOf (s.getSel x.toNat))).finish 1)

/-- `puts` (R237): a value out of range is UNDEF, and FLAGS waits for the thread's detached nests (R243). -/
def execPuts (d : BitVec 5) (x : BitVec 12) (s : State) : Host.Outcome State Fault Refusal :=
  let u := putsUndef x.toNat (s.rd d).toNat
  if u ≠ 0 then .next (s.undef u)
  else if x = 0x010#12 ∧ s.nestsOut = true then .next (s.parkCur (.flagsDrain true d))
  else .next ((s.putSel x.toNat (s.rd d)).finish 1)

/-- `getc` (R238). -/
def execGetc (d : BitVec 5) (c : BitVec 4) (s : State) : Host.Outcome State Fault Refusal :=
  .next ((s.wr d (s.getCommon c.toNat)).finish 1)

/-- `putc` (R238): the thread's accesses before it have their places first (R39). -/
def execPutc (d : BitVec 5) (c : BitVec 4) (s : State) : Host.Outcome State Fault Refusal :=
  .next (((s.drainReds.putCommon c.toNat (s.rd d))).finish 1)

end Sys2Proof.Machine
end

