-- ==== Sys2Proof/Machine/Element.lean ====
section
/-! DEFINITION. What one result element of a nest computes and accesses (R246 to R248, R251, R258 to R266). -/

namespace Sys2Proof.Machine

/-- Why a nest stops at an element: a trap, a fault of the service, a settlement, memory that does not exist, or an
access that waits for the target of a fabric window. -/
inductive ElemStop where
  | trap (t : Trap)
  | service (cause addr : Nat)
  | settle
  | absent
  | fabric (win off addr n : Nat) (write : Option Nat)
  deriving DecidableEq, Repr

/-- An element's accesses: the state they leave, or why they stop. -/
abbrev EM (α : Type) := StateT State (Except ElemStop) α

/-- Stop an element. -/
def stopWith {α : Type} (x : ElemStop) : EM α := fun _ => .error x

/-! ## Accesses (R80, R247, R251) -/

/-- The 32-byte line outside the own scratchpad that an element access asks for (R275). -/
def outsideLine (c : Nat) (l : Loc) : Option Nat :=
  match l with
  | .spad o off => if o = c then none else some (2 * ((o * 1048576 + off) / 32) + 1)
  | .mem pa _ => some (2 * (pa / 32))
  | .fabric _ _ => none

/-- Count a nest's request for a line it has not asked for yet (R275). -/
def State.nestAsks (s : State) (c : Nat) (l : Loc) : State :=
  match outsideLine c l with
  | none => s
  | some x =>
    let g := (s.core c).nestLog
    if g.lines.contains x then s
    else s.modCore c (fun k => { k with nestLog := { g with lines := x :: g.lines, far := max g.far (s.travel c l) } })

/-- The checked place of an element access of a nest of core c. -/
def elemLoc (c : Nat) (q : NestCmd) (va n : Nat) (r w : Bool) : EM Loc := fun s =>
  match s.check c q.ws va ⟨6, n, 1, r, w, q.pc.toNat⟩ with
  | .ok l x => .ok (l, (s.noteTlb c va x).nestAsks c l)
  | .trap t => .error (.trap t)
  | .service cause a => .error (.service cause a)
  | .settle => .error .settle
  | .absent => .error .absent

/-- The bytes of a place as an element reads them. -/
def elemPeek (c : Nat) (q : NestCmd) (va n : Nat) (l : Loc) : EM Nat := fun s =>
  let w := (s.core c).world
  match l with
  | .spad _ _ => .ok (natOfBytes (s.peekOpen w l n), (s.loadedAt w l n).raisePts c (s.htsOf l))
  | .mem _ mt =>
    let s1 := s.readHome c w l
    let s1 := if mt = 2 then s1.raisePts c (s.htsOf l) else s1
    .ok (natOfBytes (s.peekOpen w l n), s1.loadedAt w l n)
  | .fabric win off =>
    match AMap.find q.fabData va with
    | some v => .ok (v, s)
    | none => .error (.fabric win off va n none)

/-- An element read of n bytes. -/
def elemRead (c : Nat) (q : NestCmd) (va n : Nat) : EM Nat := do
  let l ← elemLoc c q va n true false
  elemPeek c q va n l

/-- Write bytes at a checked place. -/
def elemPoke (c : Nat) (q : NestCmd) (va n v : Nat) (l : Loc) : EM Unit := fun s =>
  let w := (s.core c).world
  match l with
  | .spad _ _ => .ok ((), (s.pokeBy w l (bytesOf n v)).raiseHts l (s.pts c))
  | .mem _ mt =>
    let s := ((s.writeHome w l (s.pts c)).cached w l).soilAt l
    let s := (s.raisePts c (s.wtsAt w l)).pokeBy w l (bytesOf n v)
    .ok ((), if mt = 2 then s.raiseHts l (s.pts c) else s)
  | .fabric win off =>
    match AMap.find q.fabData (va + 2 ^ 64) with
    | some _ => .ok ((), s)
    | none => .error (.fabric win off va n (some v))

/-! ## Addresses (R246, R247, R255) -/

/-- Mixed-radix digits of j over some levels, the lowest fastest (R246). -/
def digits (n : Nest) : List Nat → Nat → List (Nat × Nat)
  | [], _ => []
  | l :: ls, j =>
    let e := max 1 (n.extents[l]?.getD 1)
    (l, j % e) :: digits n ls (j / e)

/-- Off(X, idx) in elements (R246). -/
def nestOff (n : Nest) (which : Nat) (idx : List (Nat × Nat)) : Int :=
  idx.foldl (fun o p => o + (p.2 : Int) * ((n.strides which)[p.1]?.getD 0)) 0

/-- The CB bit of an operand. -/
def nestCb (n : Nest) (which : Nat) : Bool := (if which = 0 then n.cbd else if which = 1 then n.cba else n.cbb) == 1#1

/-- The base field of an operand. -/
def nestReg (n : Nest) (which : Nat) : BitVec 5 := if which = 0 then n.bd else if which = 1 then n.ba else n.bb

/-- The handle an operand names. -/
def nestHandle (n : Nest) (which : Nat) : Nat := (nestReg n which).toNat

/-- The virtual address of byte `o` of an operand (R247, R255). -/
def elemVa (k : Core) (q : NestCmd) (which : Nat) (o : Int) : Nat :=
  if nestCb q.n which then
    let h := k.handle (nestHandle q.n which)
    let w0 := ((q.wins.find? (fun w => w.1 == which)).map (fun w => w.2.2)).getD 0
    let size : Int := ((h.nslot * h.ssz : Nat) : Int)
    0x00FFFFFFFFF00000 + h.base + ((((w0 * h.ssz : Nat) : Int) + o) % (max 1 size)).toNat
  else
    let b := if which = 0 then q.based else if which = 1 then q.basea else q.baseb
    wrapInt ((b : Int) + o) 64

/-! ## Elements whose bytes meet (R80, R248) -/

/-- Whether a nest has still to read its mask bytes (R248). -/
def NestCmd.masking (q : NestCmd) : Bool := q.n.me == 1#1 && q.mask.isNone

/-- A nest one of whose accesses, at an address, has been refused: it traps at its element, or, where a mask byte is refused,
at the first element whose bit that byte holds (R242, R251). -/
def NestCmd.refused (q : NestCmd) (a : Nat) (t : Trap) : NestCmd :=
  if q.masking then { q with maskStop := some (8 * ((a + 2 ^ 64 - q.basem) % 2 ^ 64), t) }
  else { q with finished := some (some { t with eidx := some q.first }) }

/-- Whether a result element is masked off (R246). -/
def maskedOff (q : NestCmd) (j : Nat) : Bool :=
  q.n.me == 1#1 && !(bitOf (((q.mask.getD [])[j / 8]?.getD 0#8).toNat) (j % 8))

/-- The addresses of the bytes of d that result element j writes (R246, R247). -/
def elemBytes (k : Core) (q : NestCmd) (j : Nat) : List Nat :=
  let o := nestOff q.n 0 (digits q.n (nestNr q.n) j)
  if maskedOff q j && q.n.mp == 0#1 then []
  else match vopKindOf q.vop with
    | .cmpK => [elemVa k q 0 ((j / 8 : Nat) : Int)]
    | .quantK => [18 * (o / 32) + o % 32 / 2, 18 * (o / 32) + 16, 18 * (o / 32) + 17].map (fun x => elemVa k q 0 x)
    | _ => (List.range (codeSize q.n.td)).map (fun i => elemVa k q 0 ((codeSize q.n.td : Int) * o) + i)

/-- A byte's place, so that two addresses of one scratchpad byte are one place. -/
def State.placeKey (s : State) (c va : Nat) : Nat :=
  match s.spadOf c va with
  | some (o, off) => 2 * (o * 1048576 + off) + 1
  | none => 2 * va

/-- Whether some result element of a nest that p selects writes the byte at an address. -/
def State.writtenBy (s : State) (c : Nat) (q : NestCmd) (p : Nat → Bool) (va : Nat) : Bool :=
  (List.range (nestResults q.n)).any (fun j => p j && (elemBytes (s.core c) q j).any (fun a => s.placeKey c a == s.placeKey c va))

/-- Whether an address can be one that the nest writes: it lies between the ends of d. -/
def State.nearResults (s : State) (c : Nat) (q : NestCmd) (va : Nat) : Bool :=
  let h := (s.core c).handle (nestHandle q.n 0)
  let r := if nestCb q.n 0 then (0x00FFFFFFFFF00000 + h.base, 0x00FFFFFFFFF00000 + h.base + h.nslot * h.ssz) else q.addrRange 0
  let lo := s.placeKey c r.1
  let hi := s.placeKey c r.2
  nestResults q.n != 1 && (lo % 2 != hi % 2 || decide (hi < lo) || (lo % 2 == 1 && lo / 2097152 != hi / 2097152) ||
    (decide (lo ≤ s.placeKey c va) && decide (s.placeKey c va ≤ hi)))

/-- Put a level's stride and extent among others by rising stride. -/
def insertLevel (x : Nat × Nat) : List (Nat × Nat) → List (Nat × Nat)
  | [] => [x]
  | y :: r => if x.1 ≤ y.1 then x :: y :: r else y :: insertLevel x r

/-- The levels that run over result elements, each with its stride's size and its extent, by falling stride. -/
def levelsDown (q : NestCmd) : List (Nat × Nat) :=
  let ls := (nestNr q.n).map (fun l => (((q.n.strides 0)[l]?.getD 0).natAbs, q.n.extents[l]?.getD 1))
  ((ls.filter (fun p => p.2 != 1)).foldl (fun m p => insertLevel p m) []).reverse

/-- Whether no two result elements meet, because each level steps past all that the levels of smaller strides span. -/
def apart (q : NestCmd) : Bool :=
  vopKindOf q.vop != .cmpK && vopKindOf q.vop != .quantK &&
    ((levelsDown q).foldr (fun p (m : Bool × Nat) => (m.1 && decide (m.2 < p.1), m.2 + p.1 * (p.2 - 1))) (true, 0)).1

/-- Whether an element stands at an offset from the lowest, for elements that stand apart. -/
def standsAt : List (Nat × Nat) → Nat → Bool
  | [], o => o == 0
  | p :: r, o => decide (o / p.1 < p.2) && standsAt r (o % p.1)

/-- Whether a result element of a nest whose elements stand apart can hold a byte. -/
def State.elementAt (s : State) (c : Nat) (q : NestCmd) (va : Nat) : Bool :=
  let a := s.placeKey c va
  let b := s.placeKey c (q.addrRange 0).1
  nestCb q.n 0 || a % 2 != b % 2 || (decide (b ≤ a) && standsAt (levelsDown q) ((a - b) / 2 / codeSize q.n.td))

/-- Whether a byte that result element j reads is written by another result element. Where the elements stand apart, an
element's own byte is no other's, and only a byte at which one stands need be looked for. -/
def State.openByte (s : State) (c : Nat) (q : NestCmd) (va : Nat) : Bool :=
  s.nearResults c q va && !(apart q && ((elemBytes (s.core c) q q.first).any (fun a => s.placeKey c a == s.placeKey c va) || !(s.elementAt c q va))) &&
    s.writtenBy c q (fun j => j != q.first) va

/-- Whether what an operand reads may meet what the nest writes. -/
def State.readsResults (s : State) (c : Nat) (q : NestCmd) : Bool :=
  let d := s.placeKey c (q.addrRange 0).1
  (hasOperand q.vop 0 && !(apart q)) || [1, 2].any (fun w => hasOperand q.vop w && (nestCb q.n w || nestCb q.n 0 ||
    s.nearResults c q (q.addrRange w).1 || s.nearResults c q (q.addrRange w).2 ||
    (decide (s.placeKey c (q.addrRange w).1 ≤ d) && decide (d ≤ s.placeKey c (q.addrRange w).2))))

/-- Keep the bytes that a Put is about to replace, where a later Get of the nest may still return them (R248). -/
def State.keepOld (s : State) (c : Nat) (q : NestCmd) (va n : Nat) (l : Loc) : State :=
  if s.readsResults c q then
    let old := s.peek (s.core c).world l n
    s.modCore c (fun k => { k with nestLog := { k.nestLog with
      olds := (List.range n).map (fun i => (s.placeKey c (va + i), old[i]?.getD 0)) ++ k.nestLog.olds } })
  else s

/-- What a Put stores: of a byte that an earlier result element has written with another value, which value it ends with is
open (R248), so a free value decides (log 2). -/
def settledBytes (c : Nat) (q : NestCmd) (va n v : Nat) (l : Loc) (s : State) : Nat × State :=
  let old := natOfBytes (s.peek (s.core c).world l n)
  let met := (List.range n).map (fun i => old / 256 ^ i % 256 != v / 256 ^ i % 256 && s.nearResults c q (va + i) && !(apart q) &&
    s.writtenBy c q (fun j => decide (j < q.first)) (va + i))
  if met.any (fun b => b) then
    (natOfBytes ((met.zip (List.range n)).map (fun p =>
      BitVec.ofNat 8 ((if p.1 && (Config.freeValue (s.freeCount + p.2)).getLsbD 0 then old else v) / 256 ^ p.2))),
      { s with freeCount := s.freeCount + n })
  else (v, s)

/-- An element write. A detached nest's write that meets the task record of a live task is not made (R243). -/
def elemWrite (c : Nat) (q : NestCmd) (va n v : Nat) : EM Unit := fun s =>
  match elemLoc c q va n false true s with
  | .ok (l, s1) => match l with
    | .fabric _ _ => elemPoke c q va n v l s1
    | _ =>
      let r := settledBytes c q va n v l s1
      elemPoke c q va n r.1 l (r.2.keepOld c q va n l)
  | .error (.trap t) => if q.attached then .error (.trap t) else .ok ((), s)
  | .error x => .error x

/-- How a Get reads n bytes at an address. -/
abbrev Fetch := NestCmd → Nat → Nat → EM Nat

/-- Get of R247 for an operand at an element offset: its bits; an e2m1x element is its code, scale and spare byte. -/
def elemGet (f : Fetch) (c : Nat) (q : NestCmd) (which : Nat) (o : Int) : EM Nat := do
  let k := (← get).core c
  if nestTy q.n which = 6#4 then
    let b := 18 * (o / 32)
    let code ← f q (elemVa k q which (b + (o % 32) / 2)) 1
    let scale ← f q (elemVa k q which (b + 16)) 1
    let spare ← f q (elemVa k q which (b + 17)) 1
    let nib := if o % 2 = 0 then code % 16 else code / 16
    pure (nib + 256 * scale + 65536 * spare)
  else
    let z := codeSize (nestTy q.n which)
    f q (elemVa k q which ((z : Int) * o)) z

/-- Put of R247 for d at an element offset. -/
def elemPut (c : Nat) (q : NestCmd) (o : Int) (v : Nat) : EM Unit := do
  let k := (← get).core c
  let z := codeSize q.n.td
  elemWrite c q (elemVa k q 0 ((z : Int) * o)) z v

/-! ## Operations (R260 to R266) -/

/-- The type of an operand; e2m1x stands as f32 and is handled by its own vops. -/
def nestType (n : Nest) (which : Nat) : Ty := (tyOfCode (nestTy n which)).getD .f32

/-- Whether a vop takes a draw for each result element under SR (R133, R260). -/
def takesDraw (v : Nat) (n : Nest) : Bool :=
  let td := nestType n 0
  let ta := nestType n 1
  if v = 1 ∨ v = 2 ∨ v = 3 ∨ v = 4 ∨ v = 9 then tyIsFloat td
  else if v = 10 then canRound td ta
  else if v = 21 then true
  else if v = 23 then true
  else if v = 28 then tyIsFloat td && td != .f64 && td != .f32
  else decide (96 ≤ v)

/-- An integer result of an arithmetic vop, exact (R262). -/
def intOp (v : Nat) (a b d : Int) : Int :=
  match v with
  | 1 => a + b
  | 2 => a - b
  | 3 => a * b
  | 4 => a * b + d
  | 9 => a.tdiv b
  | 5 => min a b
  | 6 => max a b
  | 7 => (a.natAbs : Int)
  | _ => -a

/-- A float result of an arithmetic vop (R261). -/
def floatVop (v : Nat) (td ta tb : Ty) (rm : RMode) (sat : Bool) (dr a b d : Nat) : Nat × Flags :=
  match v with
  | 1 => addVal td rm sat dr (floatVal ta a) (floatVal tb b)
  | 2 => addVal td rm sat dr (floatVal ta a) (negVal (floatVal tb b))
  | 3 => mulVal td rm sat dr (floatVal ta a) (floatVal tb b)
  | 4 => fmaVal td rm sat dr (floatVal ta a) (floatVal tb b) (floatVal td d)
  | 9 => divVal td rm sat dr (floatVal ta a) (floatVal tb b)
  | 5 => fminmax td false a b
  | 6 => fminmax td true a b
  | 7 => (a % 2 ^ (tyBits td - 1), 0#5)
  | _ => (a ^^^ 2 ^ (tyBits td - 1), 0#5)

/-- The bitwise and shift vops (R263). -/
def bitOpVop (v w wb a b : Nat) : Nat :=
  let k := b % 2 ^ wb % w
  match v with
  | 15 => a &&& b
  | 16 => a ||| b
  | 17 => a ^^^ b
  | 18 => (a <<< k) % 2 ^ w
  | 19 => a >>> k
  | _ => wrapInt (sintOf a w / ((2 ^ k : Nat) : Int)) w

/-- The compare predicates (R263): 12 eq, 13 lt, 14 le. -/
def cmpVop (v : Nat) (ta : Ty) (a b : Nat) : Bool × Flags :=
  if tyIsFloat ta then
    let x := floatVal ta a
    let y := floatVal ta b
    let nan := compareVal x y == none
    let fl := if v = 12 then snanFlag x ||| snanFlag y else if nan then flagNV else 0#5
    (match compareVal x y with
      | none => false
      | some o => if v = 12 then o == .eq else if v = 13 then o == .lt else o == .lt || o == .eq, fl)
  else
    let x := intVal ta a
    let y := intVal ta b
    (if v = 12 then decide (x = y) else if v = 13 then decide (x < y) else decide (x ≤ y), 0#5)

/-- Op of R246 for a vop that does not reduce: the result's bits and flags. `j` is the result element. -/
def vopResult (q : NestCmd) (rm : RMode) (dr j a b d : Nat) : Nat × Flags :=
  let v := q.vop
  let n := q.n
  let td := nestType n 0
  let ta := nestType n 1
  let tb := nestType n 2
  let sat := n.sat == 1#1
  if v = 0 ∨ v = 27 then (a, 0#5)
  else if v = 29 then (q.fill.toNat % 2 ^ tyBits td, 0#5)
  else if v = 22 then decodeElem td (a % 16) (a / 256 % 256) (a / 65536)
  else if v = 10 then convertVal td ta rm sat dr a
  else if v = 11 then (if d ≠ 0 then a else b, 0#5)
  else if v = 28 then
    (if tyIsFloat td then roundFloat td (if td = .f64 ∨ td = .f32 then .rne else rm) sat dr false j 0
     else (intResult td sat (j : Int), 0#5))
  else if 96 ≤ v then xaEval v td rm sat dr a
  else if 64 ≤ v then fnEval v td rm sat a
  else if 15 ≤ v ∧ v ≤ 20 then (bitOpVop v (tyBits td) (tyBits tb) a b, 0#5)
  else if tyIsFloat td then floatVop v td ta tb rm sat dr a b d
  else if v = 9 ∧ b = 0 then (2 ^ tyBits td - 1, 0#5)
  else (intResult td sat (intOp v (intVal td a) (intVal td b) (intVal td d)), 0#5)

/-! ## Reductions (R140, R265) -/

/-- Add a value into the accumulator of its index (R140 step 2). -/
def accumulate (t : Ty) (acc : List (Option FVal)) (i : Nat) (x : FVal) : List (Option FVal) × Flags :=
  match acc[i % 64]?.getD none with
  | none => (acc.set (i % 64) (some x), 0#5)
  | some y =>
    let r := addVal t .rne false 0 y x
    (acc.set (i % 64) (some (floatVal t r.1)), r.2)

/-- Combine neighbouring accumulators once (R140 step 3). -/
def combinePairs (t : Ty) : List (Option FVal) → List (Option FVal) × Flags
  | x :: y :: r =>
    let (z, f) := match x, y with
      | some a, some b =>
        let v := addVal t .rne false 0 a b
        (some (floatVal t v.1), v.2)
      | some a, none => (some a, 0#5)
      | none, b => (b, 0#5)
    let (zs, g) := combinePairs t r
    (z :: zs, f ||| g)
  | l => (l, 0#5)

/-- Combine level by level up the tree (R140 step 3). -/
def combineTree (t : Ty) : Nat → List (Option FVal) → List (Option FVal) × Flags
  | 0, l => (l, 0#5)
  | n + 1, l =>
    let (l1, f) := combinePairs t l
    let (l2, g) := combineTree t n l1
    (l2, f ||| g)

/-- A float sum in the contracted order, rounded once to td (R140, R265). -/
def sumFloats (td : Ty) (rm : RMode) (sat : Bool) (dr : Nat) (xs : List FVal) : Nat × Flags :=
  let t : Ty := if td = .f64 then .f64 else .f32
  let step (p : List (Option FVal) × Nat × Flags) (x : FVal) : List (Option FVal) × Nat × Flags :=
    let r := accumulate t p.1 p.2.1 x
    (r.1, p.2.1 + 1, p.2.2 ||| r.2)
  let a := xs.foldl step (List.replicate 64 none, 0, 0#5)
  let r := combineTree t 6 a.1
  match r.1 with
  | some v :: _ =>
    let z := convertFloat td rm sat dr v
    (z.1, a.2.2 ||| r.2 ||| z.2)
  | _ => (floatZero td false, 0#5)

/-- Whether a pattern is a NaN. -/
def isNaN (t : Ty) (x : Nat) : Bool := match floatVal t x with
  | .nan _ => true
  | _ => false

/-- The extreme of the elements (R265): exact, ties keep the lower index, NaNs are skipped. -/
def extreme (t : Ty) (wantMax : Bool) (xs : List Nat) : Nat × Flags :=
  if tyIsFloat t then
    let fl := xs.foldl (fun f x => f ||| snanFlag (floatVal t x)) 0#5
    match xs.filter (fun x => !(isNaN t x)) with
    | [] => (defaultNaN t, fl)
    | x :: r => (r.foldl (fun m y => (fminmax t wantMax m y).1) x, fl)
  else
    match xs with
    | [] => (0, 0#5)
    | x :: r =>
      (r.foldl (fun m y => if (if wantMax then decide (intVal t m < intVal t y) else decide (intVal t y < intVal t m)) then y else m) x, 0#5)

/-- Reduce of R246 (R265). -/
def reduceResult (q : NestCmd) (rm : RMode) (dr : Nat) (xs : List Nat) : Nat × Flags :=
  let td := nestType q.n 0
  let ta := nestType q.n 1
  let sat := q.n.sat == 1#1
  if q.vop = 23 then
    if tyIsFloat td then sumFloats td rm sat dr (xs.map (floatVal ta))
    else
      let total := wrapInt (xs.foldl (fun s x => s + intVal ta x) 0) 64
      (intResult td sat (if tyIsSigned ta then sintOf total 64 else (total : Int)), 0#5)
  else
    let e := extreme ta (q.vop != 25) xs
    if q.vop = 26 then
      let i := xs.findIdx (fun x => !(tyIsFloat ta && isNaN ta x) && x == e.1)
      (intResult td false (if i < xs.length then (i : Int) else 0), e.2)
    else e

/-! ## Units of a nest: an element, a byte of compare results, or a block -/

/-- ARITH at an element that raises an enabled flag, or divides an integer by zero under IDZ (R138, R251, R262). -/
def arithStop (q : NestCmd) (fl : Flags) (divZero : Bool) : EM Unit :=
  if divZero && q.ften.getLsbD 5 then stopWith (.trap (trapOf 0x0A 0x20))
  else if fl &&& q.ften.setWidth 5 != 0#5 then stopWith (.trap (trapOf 0x0A fl.toNat))
  else pure ()

/-- Count an element that the first phase does not decide (R269, R270). -/
def noteSecond (c : Nat) (q : NestCmd) (a : Nat) : EM Unit :=
  modify (fun s => s.modCore c (fun k => { k with nestLog := { k.nestLog with
    second := k.nestLog.second + (if Config.secondPhase q.vop q.n.td.toNat q.rm a then 1 else 0) } }))

/-- Result element j of a nest that is not a compare or `quant` (R246): its flags and whether it took a draw. -/
def elementOf (f : Fetch) (c ahead : Nat) (q : NestCmd) (masked : Bool) (j : Nat) : EM (Flags × Nat) := do
  let n := q.n
  let idx := digits n (nestNr n) j
  let od := nestOff n 0 idx
  if masked then
    if n.mp = 1#1 then elemPut c q od 0
    pure (0#5, 0)
  else
    let rm := (rmodeOfCode q.rm).getD .rne
    let nd := if rm = .sr && takesDraw q.vop n then 1 else 0
    let s ← get
    let dr := if nd = 1 then s.drawAhead c q.ws ahead else 0
    if (vopKindOf q.vop).reduces then
      let xs ← (List.range (nestReduced n)).mapM (fun i => elemGet f c q 1 (nestOff n 1 (idx ++ digits n (nestRl n) i)))
      let r := reduceResult q rm dr xs
      arithStop q r.2 false
      elemPut c q od r.1
      pure (r.2, nd)
    else
      let k := vopKindOf q.vop
      let b ← if k.readsB then elemGet f c q 2 (nestOff n 2 idx) else pure 0
      let extra : Int := if k = .gatherK then intVal (nestType n 2) b else 0
      let a ← if k.readsA then elemGet f c q 1 (nestOff n 1 idx + extra) else pure 0
      let d ← if k = .fmaK ∨ k = .selK then elemGet f c q 0 od else pure 0
      let r := vopResult q rm dr j a b d
      if k = .func then noteSecond c q a else pure ()
      arithStop q r.2 (q.vop == 9 && tyIsInt (nestType n 0) && b == 0)
      elemPut c q od r.1
      pure (r.2, nd)

/-- The block of `quant` that begins at element j (R128, R264): its flags and its draws. -/
def blockOf (f : Fetch) (c ahead : Nat) (q : NestCmd) (j : Nat) : EM (Flags × Nat) := do
  let n := q.n
  let rm := (rmodeOfCode q.rm).getD .rne
  let s ← get
  let xs ← (List.range 32).mapM (fun i => elemGet f c q 1 (nestOff n 1 (digits n (nestNr n) (j + i))))
  let draws := if rm = .sr then (List.range 32).map (fun i => s.drawAhead c q.ws (ahead + i)) else []
  let r := quantise rm draws (xs.map (floatVal (nestType n 1)))
  arithStop q r.2 false
  let base := 18 * (nestOff n 0 (digits n (nestNr n) j) / 32)
  let k := (← get).core c
  let bytes := bytesOfBlock r.1
  for i in List.range 18 do
    elemWrite c q (elemVa k q 0 (base + (i : Int))) 1 (bytes[i]?.getD 0#8).toNat
  pure (r.2, if rm = .sr then 32 else 0)

/-- One compare element: its result bit. -/
def compareOf (f : Fetch) (c : Nat) (q : NestCmd) (j : Nat) : EM (Bool × Flags) := do
  let n := q.n
  let idx := digits n (nestNr n) j
  let a ← elemGet f c q 1 (nestOff n 1 idx)
  let b ← elemGet f c q 2 (nestOff n 2 idx)
  let r := cmpVop q.vop (nestType n 1) a b
  arithStop q r.2 false
  pure r

/-- A byte of compare results while it is formed: the bits that are decided, their values, and the flags. -/
structure CmpByte where
  done : Nat
  bits : Nat
  flags : Flags
  deriving DecidableEq, Repr

/-- Form a byte's bits from element j for `fuel` elements; it stops at the first element that stops. -/
def compareBits (f : Fetch) (c : Nat) (q : NestCmd) : Nat → Nat → CmpByte → State → CmpByte × State × Option (Nat × ElemStop)
  | 0, _, b, s => (b, s, none)
  | fuel + 1, j, b, s =>
    let bit := 2 ^ (j % 8)
    if maskedOff q j then
      compareBits f c q fuel (j + 1) (if q.n.mp = 1#1 then { b with done := b.done + bit } else b) s
    else
      match compareOf f c { q with first := j } j s with
      | .ok ((v, fl), s1) =>
        compareBits f c q fuel (j + 1)
          { done := b.done + bit, bits := b.bits + (if v then bit else 0), flags := b.flags ||| fl } s1
      | .error x => (b, s, some (j, x))

/-- Write a byte of compare results: decided bits are new, the others keep their old values, and bits beyond the last
element are 0 once the byte is complete (R251, R263). -/
def writeBits (c : Nat) (q : NestCmd) (i : Nat) (b : CmpByte) (clearAbove : Nat) : EM Unit := fun s =>
  let va := elemVa (s.core c) q 0 (i : Int)
  match elemLoc c q va 1 false true s with
  | .error (.trap t) => if q.attached then .error (.trap t) else .ok ((), s)
  | .error x => .error x
  | .ok (l, s1) =>
    match (match l with
      | .fabric _ _ => if b.done = 2 ^ clearAbove - 1 then (Except.ok (0, s1)) else elemPeek c q va 1 l s1
      | _ => .ok (natOfBytes (s1.peek (s1.core c).world l 1), s1)) with
    | .error x => .error x
    | .ok (old, s2) =>
      elemPoke c q va 1 (((old &&& (255 - b.done)) ||| b.bits) % 2 ^ clearAbove) l s2

/-! ## Running a nest -/

/-- What running a nest left: the state, the nest as far as it has gone, and why it stopped, if it did. -/
structure NestRun where
  s : State
  q : NestCmd
  stop : Option ElemStop
  deriving DecidableEq, Repr

/-- Elements before j have taken effect; their flags are kept. -/
def NestCmd.reach (q : NestCmd) (j : Nat) (fl : Flags) : NestCmd := { q with first := j, flags := q.flags ||| fl, fabData := [] }

/-- A byte of compare results from the nest's present element. -/
def stepCompare (f : Fetch) (c : Nat) (q : NestCmd) (s : State) : NestRun :=
  let j := q.first
  let e := min (j / 8 * 8 + 8) (nestResults q.n)
  let r := compareBits f c q (e - j) j ⟨0, 0, 0#5⟩ s
  match r.2.2 with
  | none =>
    match writeBits c q (j / 8) r.1 (if e % 8 = 0 then 8 else e % 8) r.2.1 with
    | .ok (_, s1) => ⟨s1, q.reach e r.1.flags, none⟩
    | .error x => ⟨s, q, some x⟩
  | some (t, x) =>
    if t = j then ⟨s, q, some x⟩
    else
      match writeBits c q (j / 8) r.1 8 r.2.1 with
      | .ok (_, s1) => ⟨s1, q.reach t r.1.flags, some x⟩
      | .error y => ⟨s, q, some y⟩

/-- One unit of a nest from its present element, with a way to read, and the draws that stand before its own (R246, R251). -/
def unitOf (f : Fetch) (c ahead : Nat) (q : NestCmd) (s : State) : NestRun :=
  let j := q.first
  match q.maskStop.filter (fun m => decide (m.1 ≤ j)) with
  | some (_, t) => ⟨s, q, some (.trap t)⟩
  | none =>
    if vopKindOf q.vop = .cmpK then stepCompare f c q s
    else if vopKindOf q.vop = .quantK then
      match blockOf f c ahead q j s with
      | .ok ((fl, nd), s1) => ⟨s1.takeDraws c q.ws nd, q.reach (j + 32) fl, none⟩
      | .error x => ⟨s, q, some x⟩
    else match elementOf f c ahead q (maskedOff q j) j s with
      | .ok ((fl, nd), s1) => ⟨s1.takeDraws c q.ws nd, q.reach (j + 1) fl, none⟩
      | .error x => ⟨s, q, some x⟩

/-! ## What a Get returns of a byte that elements share (R80, R248; log 2) -/

/-- Change what the running nest of a core has noted. -/
def State.modNestLog (s : State) (c : Nat) (f : NestLog → NestLog) : State := s.modCore c (fun k => { k with nestLog := f k.nestLog })

/-- The element at which the unit of element j begins: a byte of compare results, a block, or the element. -/
def unitAt (q : NestCmd) (j : Nat) : Nat :=
  let n := if vopKindOf q.vop = .cmpK then 8 else if vopKindOf q.vop = .quantK then 32 else 1
  j / n * n

/-- The units after element `at_` that write a byte and are not being worked out. -/
def State.unitsToCome (s : State) (c : Nat) (q : NestCmd) (va at_ : Nat) (busy : List Nat) : List Nat :=
  (((List.range (nestResults q.n)).filter (fun j => decide (at_ < j) &&
    (elemBytes (s.core c) q j).any (fun a => s.placeKey c a == s.placeKey c va))).map (unitAt q)).eraseDups.filter
      (fun u => !(busy.contains u))

/-- The draws of the elements from one to another (R133). -/
def drawsBetween (q : NestCmd) (from_ to_ : Nat) : Nat :=
  if q.rm = 5 && takesDraw q.vop q.n then ((List.range to_).filter (fun i => decide (from_ ≤ i) && !(maskedOff q i))).length else 0

/-- The bytes that have stood where a Get reads. -/
def State.stoodAt (s : State) (c va : Nat) : List Byte :=
  ((s.core c).nestLog.olds.filter (fun e => e.1 == s.placeKey c va)).map (fun e => e.2)

/-- Note the value of the next shared byte that a unit reads. -/
def NestLog.note (g : NestLog) (u : Nat) (b : Byte) : NestLog := { g with chosen := g.chosen ++ [(u, g.gets, b)], gets := g.gets + 1 }

/-- The value that a unit reads of a shared byte: one that has been settled, or one that a free value picks among the byte as it
stands, as it was, and as the units to come write it. -/
def pickByte (c u : Nat) (olds : List Byte) (units : List Nat) (later : Nat → State → Option (Byte × State)) (now : Byte)
    (s : State) : Byte × State :=
  let g := (s.core c).nestLog
  match g.chosen.find? (fun e => e.1 == u && e.2.1 == g.gets) with
  | some e => (e.2.2, s.modNestLog c (fun g => { g with gets := g.gets + 1 }))
  | none =>
    let k := (Config.freeValue s.freeCount).toNat % (1 + olds.length + units.length)
    let s := { s with freeCount := s.freeCount + 1 }
    let r :=
      if k ≤ olds.length then ((now :: olds)[k]?.getD now, s)
      else match units[k - 1 - olds.length]? with
        | some j => (later j s).getD (now, s)
        | none => (now, s)
    (r.1, r.2.modNestLog c (fun g => g.note u r.1))

/-- The bytes of a Get from the place at `va` on: those that another element of the nest writes are picked. -/
def pickBytes (pick : Nat → Byte → State → Byte × State) (c : Nat) (q : NestCmd) : Nat → List Byte → State → List Byte × State
  | _, [], s => ([], s)
  | va, b :: r, s =>
    let p := if s.openByte c q va then pick va b s else (b, s)
    let t := pickBytes pick c q (va + 1) r p.2
    (p.1 :: t.1, t.2)

/-- The read of a Get while the nest stands at element `at_` (R247, R248). The byte that a unit to come writes is worked out now,
from values that are settled with it, so that the unit itself will read them and write that byte; `busy` are the units being
worked out. Where the rest of the nest may stop, no unit to come is asked. -/
def elemFetch (c at_ : Nat) : Nat → List Nat → Fetch
  | fuel, busy => fun q va n s =>
    match elemRead c q va n s with
    | .error x => .error x
    | .ok (v, s1) =>
      let later : Nat → Nat → State → Option (Byte × State) := match fuel with
        | 0 => fun _ _ _ => none
        | fuel + 1 => fun a j s =>
          let q := { q with first := j }
          let r := unitOf (elemFetch c at_ fuel (j :: busy)) c (drawsBetween q at_ j) q (s.modNestLog c (fun g => { g with gets := 0 }))
          match r.stop, elemRead c q a 1 r.s with
          | none, .ok (w, _) => some (BitVec.ofNat 8 w, ({ s with freeCount := r.s.freeCount }).modNestLog c (fun g =>
              { g with chosen := (r.s.core c).nestLog.chosen }))
          | _, _ => none
      let pick (a : Nat) (b : Byte) (s : State) : Byte × State :=
        let units := if (s.core c).nestLog.whole then s.unitsToCome c q a at_ busy else []
        pickByte c (unitAt q q.first) (s.stoodAt c a) units (later a) b s
      let p := pickBytes pick c q va (bytesOf n v) s1
      .ok (natOfBytes p.1, p.2)

/-- One unit of a nest from its present element (R246, R251). -/
def stepNest (c : Nat) (q : NestCmd) (s : State) : NestRun :=
  let u := unitAt q q.first
  unitOf (elemFetch c q.first (nestResults q.n) [u]) c 0 q
    (s.modNestLog c (fun g => { g with chosen := g.chosen.filter (fun e => decide (u ≤ e.1)), gets := 0 }))

/-- Run a nest, by a step for its units, from its present element until it ends or stops. -/
def runUnits (step : NestCmd → State → NestRun) : Nat → NestCmd → State → NestRun
  | 0, q, s => ⟨s, q, none⟩
  | fuel + 1, q, s =>
    if nestResults q.n ≤ q.first then ⟨s, q, none⟩
    else
      let r := step q s
      match r.stop with
      | none => runUnits step fuel r.q r.s
      | some _ => r

/-- Whether a nest's elements share bytes and its rest runs out whatever their Gets return: every access can be made, and
neither a flag nor a gathered address depends on what is read. -/
def State.runsOut (s : State) (c : Nat) (q : NestCmd) : Bool :=
  s.readsResults c q && q.ften == 0#6 && vopKindOf q.vop != .gatherK &&
    (runUnits (unitOf (elemRead c) c 0) (nestResults q.n + 1) q s).stop.isNone

/-- Read the mask bytes from byte i (R248: before any element of d is written). A byte that traps stops the nest at the first
element whose bit it holds; a byte that waits stops it at once. -/
def readMask (c : Nat) (q : NestCmd) : Nat → Nat → List Byte → State → NestRun
  | 0, _, acc, s => ⟨s, { q with mask := some acc }, none⟩
  | fuel + 1, i, acc, s =>
    match elemRead c q ((q.basem + i) % 2 ^ 64) 1 s with
    | .ok (v, s1) => readMask c q fuel (i + 1) (acc ++ [BitVec.ofNat 8 v]) s1
    | .error (.trap t) => ⟨s, { q with mask := some acc, maskStop := some (8 * i, t) }, none⟩
    | .error x => ⟨s, q, some x⟩

/-- The mask bytes a nest reads: those before one that has been refused (R248, R251). -/
def NestCmd.maskLength (q : NestCmd) : Nat :=
  let n := (nestResults q.n - 1) / 8 + 1
  match q.maskStop with
  | some m => min n (m.1 / 8)
  | none => n

/-- Run a nest as far as it goes (R246, R248, R251). -/
def runNest (c : Nat) (q : NestCmd) (s : State) : NestRun :=
  let m := if q.masking then readMask c q q.maskLength 0 [] s else ⟨s, q, none⟩
  match m.stop with
  | some _ => m
  | none =>
    let out := m.s.runsOut c m.q
    runUnits (stepNest c) (nestResults q.n + 1) m.q (m.s.modNestLog c (fun g => { g with whole := out }))

end Sys2Proof.Machine
end

