-- ==== Sys2Proof/Machine/Vector.lean ====
section
/-! DEFINITION. The vector queue (R240 to R245, R249 to R251, R256), the `lnest` instructions, and the circular-buffer
instructions (R252 to R257). -/

namespace Sys2Proof.Machine

/-! ## Issue (R241, R249, R250) -/

/-- The operands of a nest that name handles, with the handle. -/
def nestHandles (v : Nat) (n : Nest) : List (Nat × Nat) :=
  ([0, 1, 2].filter (fun w => hasOperand v w && nestCb n w)).map (fun w => (w, nestHandle n w))

/-- Slots a cb operand needs of a handle (R255). -/
def slotsOf (x : Handle) (v : Nat) (n : Nest) (w : Nat) : Nat := ceilDiv ((nestBox n v w).2 + 1).toNat (max 1 x.ssz)

/-- Slots a cb operand needs of the handle it names (R255). -/
def nestSlots (k : Core) (v : Nat) (n : Nest) (w : Nat) : Nat := slotsOf (k.handle (nestHandle n w)) v n w

/-- CB_FAULT naming a handle (R257). -/
def cbTrap (sub h : Nat) : Trap := trapAt 0x0C sub h

/-- Whether two operands of a nest name one handle, and which (R250 order 2). -/
def sharedHandle (hs : List (Nat × Nat)) : Option Nat :=
  (hs.find? (fun x => (hs.filter (fun y => y.2 == x.2)).length != 1)).map (fun x => x.2)

/-- The issue checks of R250, in order, over the handles as the thread's slot sees them (R257). Where several operands fail one
check, the trap names the first of d, a and b that does: the spec does not order them (log 82). -/
def State.nestCheck (s : State) (v : Nat) (n : Nest) : Option Trap :=
  let handle (h : Nat) := s.cur.handleAt s.cycle h
  let hs := nestHandles v n
  match hs.find? (fun x => !(handle x.2).v) with
  | some x => some (cbTrap 2 x.2)
  | none =>
    match sharedHandle hs with
    | some h => some (cbTrap 8 h)
    | none =>
      match hs.find? (fun x => decide ((nestBox n v x.1).1 < 0)) with
      | some x => some (cbTrap 7 x.2)
      | none =>
        match hs.find? (fun x => decide ((handle x.2).nslot < slotsOf (handle x.2) v n x.1)) with
        | some x => some (cbTrap 5 x.2)
        | none =>
          match [0, 1, 2].find? (fun w => hasOperand v w && !(nestCb n w) && nestTy n w != 6#4 &&
              (s.rd (nestReg n w)).toNat % codeSize (nestTy n w) != 0) with
          | some w => some (trapAt 5 0 (s.rd (nestReg n w)).toNat)
          | none => none

/-- The nest a thread issues, its operands read (R246, R266). -/
def State.nestCmd (s : State) (v : Nat) (n : Nest) : NestCmd where
  id := s.nextId
  slot := s.actSlot
  ws := s.curWs
  vop := v
  n := n
  pc := s.curTask.pc
  based := (s.rd n.bd).toNat
  basea := (s.rd n.ba).toNat
  baseb := (s.rd n.bb).toNat
  basem := (s.rd n.mb).toNat
  fill := s.rd n.ba
  rm := s.rmCode n.rm
  ften := s.curTask.ften
  attached := true
  started := false
  first := s.curTask.resume.getD 0
  wins := []
  flags := 0
  finished := none
  fault := none
  mask := none
  maskStop := none
  fabData := []
  fabWait := none
  ready := s.cycle + 8
  ran := false
  start := 0
  time := 0
  due := 0
  undo := []

/-- Whether every box of a nest lies in the own scratchpad, clear of resident register bytes, and the box of d clear of
live task records (R241 conditions 5 and 6). -/
def State.boxesDetach (s : State) (q : NestCmd) : Bool :=
  let k := s.cur
  q.boxed.all (fun w =>
    let (lo, hi) := q.addrRange w
    match s.ownRange s.actCore lo hi with
    | some (a, b) => (k.regHit a (b + 1 - a)).isNone && !(w == 0 && k.recordHit a (b + 1 - a))
    | none => false)

/-- Whether a nest issues detached (R241). -/
def State.detaches (s : State) (q : NestCmd) : Bool :=
  q.ften == 0#6 && q.rm != 5 && q.vop != 27 && (nestHandles q.vop q.n).isEmpty && s.boxesDetach q

/-- The trapped nest that the thread resumes (R251): the last one of its `lnest` that holds windows, while RPC is its EPC. -/
def State.heldNest (s : State) : Option NestCmd :=
  match s.curTask.resume with
  | none => none
  | some _ => s.cur.held.reverse.find? (fun q => q.ws == s.curWs && q.pc == s.curTask.pc)

/-- The windows a resumed nest keeps (R251), if it resumes one. -/
def State.heldWindows (s : State) : Option (List (Nat × Nat × Nat)) := s.heldNest.map (fun q => q.wins)

/-- Put a nest into the vector queue (R240): a detached nest's thread goes on, an attached one's parks (R242, R243). The windows
of another nest of the thread stay held: a handler's own `lnest` does not leave the trap (R251). -/
def State.enqueueNest (s : State) (q : NestCmd) : State :=
  let q := { q with attached := !(s.detaches q) }
  let s1 := { s with nextId := s.nextId + 1 }
  let s2 := s1.modCore s1.actCore (fun k =>
    { k with vq := k.vq ++ [q], held := k.held.filter (fun x => s.heldNest.map (fun y => y.id) != some x.id) })
  if q.attached then (s2.modCurTask (fun t => { t with resume := none })).parkCur (.nest q.id) else s2.finish 1

/-- `lnest` (R240, R249, R250): SR reached through DYN is UNDEF 0x05 for a function vop (R129), then the issue checks,
then the queue. -/
def State.nest (s : State) (v : Nat) (n : Nest) : Host.Outcome State Fault Refusal :=
  let s := s.drainReds
  if vopKindOf v = .func ∧ s.rmCode n.rm = 5 then .next (s.undef 5)
  else
    match s.nestCheck v n with
    | some t => .next (s.takeTrap t)
    | none =>
      if 8 ≤ s.cur.vq.length then .next (s.parkCur .vqFull)
      else .next (s.enqueueNest { s.nestCmd v n with wins := s.heldWindows.getD [] })

/-! ## Times (R270, R275) -/

/-- Bytes of an element of an operand as its lanes count it. -/
def vopLaneBytes (n : Nest) (w : Nat) : Nat := if nestTy n w = 6#4 then 1 else codeSize (nestTy n w)

/-- Lanes of the widest type a nest reads or writes. -/
def nestLanes (v : Nat) (n : Nest) : Nat :=
  256 / max 1 (([0, 1, 2].filter (fun w => hasOperand v w)).foldl (fun m w => max m (vopLaneBytes n w)) 1)

/-- Elements of operand w that j result elements access: a level-0 stride of 0 counts one element per run of level 0. -/
def nestCount (n : Nest) (w j : Nat) : Nat :=
  let e := max 1 (n.extents[0]?.getD 1)
  let x := if w = 0 then j else j * nestReduced n
  if (n.strides w)[0]?.getD 0 = 0 ∧ (w ≠ 0 ∨ n.red.getLsbD 0 = false) then ceilDiv x e else x

/-- Bytes that j result elements access at operand w. -/
def nestBytes (v : Nat) (n : Nest) (w j : Nat) : Nat :=
  let k := vopKindOf v
  let c := nestCount n w j
  if w = 0 ∧ k = .cmpK then ceilDiv j 8
  else if w = 0 ∧ k = .quantK then j / 32 * 18
  else if nestTy n w = 6#4 then ceilDiv c 2 + 2 * ceilDiv c 32
  else c * codeSize (nestTy n w)

/-- Bytes of the accesses to the own scratchpad. -/
def State.ownBytes (s : State) (c : Nat) (q : NestCmd) (j : Nat) : Nat :=
  let own (w : Nat) : Bool := nestCb q.n w || (s.ownRange c (q.addrRange w).1 (q.addrRange w).2).isSome
  let sum := ([0, 1, 2].filter (fun w => hasOperand q.vop w && own w)).foldl (fun t w => t + nestBytes q.vop q.n w j) 0
  let k := vopKindOf q.vop
  if (k = .fmaK ∨ k = .selK) ∧ own 0 = true then sum + nestBytes q.vop q.n 0 j else sum

/-- Cycles of the tail. -/
def nestTail (v : Nat) : Nat :=
  if (vopKindOf v).reduces then 18 else if vopKindOf v = .func then 24 else if 96 ≤ v then 16 else 6

/-- The time of a nest that has come to result element j, from its start (R270, R275). -/
def State.nestTime (s : State) (c : Nat) (q : NestCmd) (j : Nat) : Nat :=
  let l := nestLanes q.vop q.n
  let wide := codeSize q.n.td = 8
  let lr := if vopKindOf q.vop = .func then (if wide then 8 else 16) else if 96 ≤ q.vop then l / 4 else l
  let g := (s.core c).nestLog
  let body := max (ceilDiv (j * nestReduced q.n) (max 1 lr)) (ceilDiv (s.ownBytes c q j) 256)
  max (body + nestTail q.vop + (if wide then 96 else 24) * g.second) (ceilDiv g.lines.length 16 * g.far)

/-! ## The queue (R240, R253, R256) -/

/-- Whether a nest's cb counts are met (R253, R256); the windows a resumed nest holds are its own. -/
def countsMet (k : Core) (q : NestCmd) : Bool :=
  !q.wins.isEmpty || (nestHandles q.vop q.n).all (fun x =>
    let need := nestSlots k q.vop q.n x.1
    if x.1 = 0 then decide (need ≤ (k.handle x.2).free) else decide (need ≤ (k.handle x.2).available))

/-- Start the windows of a nest, all together (R253). -/
def startWindows (k : Core) (q : NestCmd) : Core × NestCmd :=
  if !q.wins.isEmpty then (k, q)
  else
    (nestHandles q.vop q.n).foldl (fun p x =>
      let h := p.1.handle x.2
      let need := nestSlots k q.vop q.n x.1
      if x.1 = 0 then (p.1.putHandle x.2 (h.startProd need), { p.2 with wins := p.2.wins ++ [(0, x.2, h.prodFirst)] })
      else (p.1.putHandle x.2 (h.startCons need), { p.2 with wins := p.2.wins ++ [(x.1, x.2, h.consFirst)] })) (k, q)

/-- Whether a started nest waits for the service, a settlement or a fabric window's target. -/
def NestCmd.waits (s : State) (q : NestCmd) : Bool :=
  q.fabWait.isSome || (match q.fault with
    | none => false
    | some f => f.1 != 0 || !s.settling.isEmpty)

/-- Whether a nest that has not started can start now (R240, R275). -/
def State.nestCanStart (s : State) (k : Core) (q : NestCmd) : Bool :=
  countsMet k q && decide (q.ready ≤ s.cycle) && !(q.waits s)

/-- The nest that a free engine starts, or the started one that can go on (R240). -/
def State.nestReady (s : State) (c : Nat) : Option NestCmd :=
  let k := s.core c
  match k.vq.find? (fun q => q.started && q.finished.isNone) with
  | some q => if q.waits s then none else some q
  | none =>
    if k.vq.any (fun q => q.started) then none
    else
      (List.range 16).findSome? (fun i =>
        match k.vq.find? (fun q => q.slot == (k.vlast + 1 + i) % 16) with
        | some q => if s.nestCanStart k q then some q else none
        | none => none)

/-- Replace a nest in the queue. -/
def Core.putNest (k : Core) (q : NestCmd) : Core := { k with vq := k.vq.map (fun x => if x.id == q.id then q else x) }

/-- A nest whose accesses have been made, as far as they go: its time, and its completion if it has started (R275). -/
def NestRun.timed (c : Nat) (r : NestRun) (f : Option Trap) : NestCmd :=
  let j := if f.isSome then min (nestResults r.q.n) (r.q.first + 1) else nestResults r.q.n
  let t := r.s.nestTime c r.q j
  { r.q with finished := some f, ran := true, time := t, due := max (r.q.start + t) r.s.cycle }

/-- What a run leaves in the queue and in the device (R111, R242, R251). -/
def NestRun.settle (c : Nat) (r : NestRun) : Host.Outcome State Fault Refusal :=
  let put (q : NestCmd) : State := r.s.modCore c (fun k => k.putNest q)
  match r.stop with
  | none => .next (put (r.timed c none))
  | some (.trap t) => .next (put (r.timed c (some { t with eidx := some r.q.first })))
  | some (.service cause a) =>
    .next (((if cause = 0x13 then (put { r.q with fault := some (cause, a) }).consumeUE c r.q.ws a
      else put { r.q with fault := some (cause, a) })).modSlot c r.q.slot (fun sl =>
      { sl with faultReg := ⟨cause, a, r.q.pc⟩ }))
  | some .settle => .next (put { r.q with fault := some (0, 0) })
  | some .absent => .fault .absentMemory
  | some (.fabric win off va n w) =>
    .next ((put { r.q with fabWait := some (if w.isSome then va + 2 ^ 64 else va) }).askFabric (r.s.core c).world win off n w.isSome (w.getD 0))

/-- A consumer that starts on n slots of a handle has acquired their bytes (R254). -/
def State.acquireSlots (s : State) (c h first n : Nat) : State :=
  let x := (s.core c).handle h
  let size := max 1 (x.nslot * x.ssz)
  let at_ := first * x.ssz % size
  let len := min (n * x.ssz) size
  (s.settleAt (.spad c (x.base + at_)) (min len (size - at_))).settleAt (.spad c x.base) (len - (size - at_))

/-- What the consumers of a nest that starts acquire (R254). -/
def State.acquireWindows (s : State) (c : Nat) (old new : NestCmd) : State :=
  if old.wins.isEmpty then
    (new.wins.filter (fun w => w.1 != 0)).foldl (fun s w =>
      s.acquireSlots c w.2.1 w.2.2 (nestSlots (s.core c) new.vop new.n w.1)) s
  else s

/-- Start a nest or let it go on, and run it (R240, R246). -/
def State.startNest (s : State) (c : Nat) (q : NestCmd) : NestRun :=
  let p := startWindows (s.core c) { q with fault := none }
  let s1 := (s.acquireWindows c q p.2).modCore c (fun _ => { p.1 with vlast := q.slot })
  runNest c p.2 (s1.modCore c (fun k => k.putNest p.2))

/-- The engine takes a nest: its start, and nothing asked for yet. -/
def State.takeNest (s : State) (c : Nat) (q : NestCmd) : State × NestCmd :=
  if q.started then (s, q)
  else (s.modCore c (fun k => { k with nestLog := NestLog.reset }), { q with started := true, start := s.cycle })

/-- NEST_START (R240, R275): the free engine starts the next nest that can start. -/
def execNestStart (core : Nat) (s : State) : Host.Outcome State Fault Refusal :=
  match s.nestReady core with
  | none => .next s
  | some q =>
    let p := s.takeNest core q
    if q.ran then .next (p.1.modCore core (fun k => { k.putNest { p.2 with due := s.cycle + q.time } with vlast := q.slot }))
    else (p.1.startNest core p.2).settle core

/-! ## The accesses of a detached nest that is still queued (R80) -/

/-- The bytes of a scratchpad range that differ: offset, old, new. -/
def changedBytes (old new : List Host.Cell) (r : Option (Nat × Nat)) : List (Nat × Byte × Byte) :=
  match r with
  | none => []
  | some (a, b) => (List.range (b + 1 - a)).filterMap (fun i =>
      if Memory.read old (a + i) = Memory.read new (a + i) then none
      else some (a + i, Memory.read old (a + i), Memory.read new (a + i)))

/-- The scratchpad range that holds what a detached nest writes: the slots of its handle, or the box of d (R241, R255). -/
def State.resultRange (s : State) (c : Nat) (q : NestCmd) : Option (Nat × Nat) :=
  if nestCb q.n 0 then
    let h := (s.core c).handle (nestHandle q.n 0)
    some (h.base, h.base + h.nslot * h.ssz - 1)
  else s.ownRange c (q.addrRange 0).1 (q.addrRange 0).2

/-- Make the accesses of a queued nest before its engine starts it; the running nest's count is kept. -/
def State.earlyNest (s : State) (c : Nat) (q : NestCmd) : State :=
  let g := (s.core c).nestLog
  let r := runNest c q (s.modCore c (fun k => { k with nestLog := NestLog.reset }))
  let r := { r with q := { r.q with undo := changedBytes (s.core c).scratch (r.s.core c).scratch (s.resultRange c q) } }
  (s.after (r.settle c)).modCore c (fun k => { k with nestLog := g })

/-- Every access of a thread's detached nests precedes each later event of the thread: those still queued make theirs
before its next instruction that has one (R80). A nest that is discarded before that has no effect (R245; log 7). -/
def State.settleNests (s : State) (c ws : Nat) : State :=
  ((s.core c).vq.filter (fun q => q.ws == ws && !q.attached && !q.started && !q.ran && q.fault.isNone)).foldl
    (fun s q => s.earlyNest c q) s

/-! ## Completion (R240, R242, R243, R251) -/

/-- Remove a nest from the queue. -/
def Core.freeNest (k : Core) (id : Nat) : Core := { k with vq := k.vq.filter (fun x => x.id != id) }

/-- OR flags into a thread's FLAGS wherever they are held, and into FSNAP while a handler runs (R243). -/
def State.lateFlags (s : State) (c ws : Nat) (fl : Flags) : State :=
  let s1 := s.modTask c ws (fun t => { t with flags := t.flags ||| fl })
  let w := s1.sNum c (wsOff ws 0x198) 8
  let s2 := if ((s1.core c).slotOf ws).isSome then s1
    else s1.sPut c (wsOff ws 0x198) 8 (insertBits w 0 5 (bitsOf w 0 5 ||| fl.toNat))
  let r := s2.sNum c (wsOff ws 0x100) 8
  if bitsOf r 30 2 = 0 then s2
  else s2.sPut c (wsOff ws 0x100) 8 (insertBits r 32 5 (bitsOf r 32 5 ||| fl.toNat))

/-- Act for a thread by its core and slot. -/
def State.actAs (s : State) (c i : Nat) : State := { s with actCore := c, actSlot := i }

/-- The acting thread goes on no earlier than a cycle. -/
def State.goAt (s : State) (t : Nat) : State := s.modCurSlot (fun sl => { sl with nextAt := t })

/-- Take a trap determined late: entry takes the slot's next two beats (R107). -/
def State.takeLateTrap (s : State) (t : Trap) : State := (s.takeTrap t).goAt (s.nextBeat + 32)

/-- Complete the acting thread's parked instruction `after` cycles from now at the earliest (R34, R37). -/
def State.resumeDone (s : State) (after : Nat) : State := ((s.parkCur .run).finish 1).goAt (s.cycle + after)

/-- An attached nest ends (R242, R251). -/
def State.endAttached (s : State) (c : Nat) (q : NestCmd) (r : Option Trap) : State :=
  let s1 := (s.actAs c q.slot).modCore c (fun k => k.freeNest q.id)
  match r with
  | none => ((s1.modCore c (fun k => k.endWindows q.wins)).orFlags q.flags).resumeDone 8
  | some t =>
    let s2 := if q.wins.isEmpty then s1 else s1.modCore c (fun k => { k with held := k.held ++ [q] })
    (s2.orFlags q.flags).takeLateTrap t

/-- A detached nest ends (R243). -/
def State.endDetached (s : State) (c : Nat) (q : NestCmd) : State :=
  (s.modCore c (fun k => k.freeNest q.id)).lateFlags c q.ws q.flags

/-- The finished nest of a core. -/
def State.nestDone (s : State) (c : Nat) : Option NestCmd := (s.core c).vq.find? (fun q => q.started && q.finished.isSome && decide (q.due ≤ s.cycle))

/-- Whether a window of a nest has not completed: an earlier-started one of its handle has not (R253). -/
def Core.windowOpen (k : Core) (w : Nat × Nat × Nat) : Bool :=
  let x := k.handle w.2.1
  (if w.1 = 0 then x.prods else x.cons).any (fun e => e.1 == w.2.2)

/-- NEST_COMPLETE (R240): cb completions, flags, and the thread. A nest whose cb completions wait for an earlier-started
window is not complete before they are made (R253). -/
def execNestComplete (core : Nat) (s : State) : Host.Outcome State Fault Refusal :=
  match s.nestDone core with
  | none => .next s
  | some q =>
    let s1 := s.modCore core (fun k => k.endWindows q.wins)
    if q.attached then
      if q.finished = some none ∧ q.wins.any (s1.core core).windowOpen = true then .next s1
      else .next (s.endAttached core q (q.finished.getD none))
    else .next (s.endDetached core q)

/-- Withdraw an attached nest that has not started; its thread reissues it (R242, R245). -/
def State.withdrawNest (s : State) (c ws : Nat) : State :=
  match (s.core c).vq.find? (fun q => q.ws == ws && q.attached && !q.started) with
  | none => s
  | some q =>
    let s1 := s.modCore c (fun k => { (k.freeNest q.id) with held := if q.wins.isEmpty then k.held else k.held ++ [q] })
    if q.first = 0 ∧ q.wins.isEmpty = true then s1 else s1.modTask c ws (fun t => { t with resume := some q.first })

/-! ## The `cb.*` instructions (R257) -/

/-- k = W(b)[12:0] (R257). -/
def State.cbCount (s : State) (b : BitVec 5) : Nat := (s.rd b).toNat % 8192

/-- The handle a copy's descriptor names as destination (R295). -/
def copyHandle (kind : Nat) (d : List Byte) : Option Nat :=
  if kind = 0 ∧ bitOf (natOfBytes (d.drop 16)) 63 = true then some (natOfBytes (d.drop 8) % 16) else none

/-- Whether a handle is busy (R252): held slots, or a queued nest, drain or started copy that names it. -/
def State.cbBusy (s : State) (h : Nat) : Bool :=
  let k := s.cur
  let x := k.handle h
  x.cheld != 0 || x.pres != 0 || k.vq.any (fun q => (nestHandles q.vop q.n).any (fun y => y.2 == h)) ||
    k.mq.any (fun m => m.kind == 4 && bitOf m.c.f.toNat 2 && m.c.x.toNat == h) ||
    (s.sett (s.settOf s.actCore)).places.any (fun p => p.2.cmd.core == s.actCore && !p.2.done &&
      copyHandle p.2.cmd.kind (p.2.bytes.getD []) == some h)

/-- A freshly defined handle (R257). -/
def definedHandle (base g n : Nat) : Handle := ⟨true, base, 16 * g, n, 0, 0, 0, 0, [], []⟩

/-- The 64 bits of R252. -/
def Handle.word (x : Handle) : Nat :=
  if x.v then 2 ^ 63 + x.cheld % 8192 * 2 ^ 39 + x.pres % 8192 * 2 ^ 26 + x.filled % 8192 * 2 ^ 13 + x.drainp % 4096
  else 0

/-- `cb.def` (R257). -/
def execCbDef (d h b : BitVec 5) (s : State) : Host.Outcome State Fault Refusal :=
  let base := (s.rd d).toNat % 2 ^ 20
  let g := (s.rd b).toNat % 2 ^ 16
  let n := (s.rd b).toNat / 2 ^ 16 % 2 ^ 12 + 1
  if s.cbBusy h.toNat then .next (s.takeTrap (cbTrap 6 h.toNat))
  else if base % 16 ≠ 0 ∨ g = 0 ∨ 2 ^ 20 < base + 16 * g * n then .next (s.takeTrap (cbTrap 1 h.toNat))
  else .next ((s.modCore s.actCore (fun k => k.editHandle s.cycle h.toNat (fun _ => definedHandle base g n))).finish 1)

/-- `cb.fill` (R257). -/
def execCbFill (h b : BitVec 5) (s : State) : Host.Outcome State Fault Refusal :=
  let x := s.cur.handleAt s.cycle h.toNat
  let k := s.cbCount b
  if x.v = false then .next (s.takeTrap (cbTrap 2 h.toNat))
  else if x.pres ≠ 0 then .next (s.takeTrap (cbTrap 6 h.toNat))
  else if x.free < k then .next (s.takeTrap (cbTrap 3 h.toNat))
  else .next ((s.modCore s.actCore (fun c => c.editHandle s.cycle h.toNat (fun x => { x with filled := x.filled + k }))).finish 1)

/-- `cb.drain` (R257). -/
def execCbDrain (h b : BitVec 5) (s : State) : Host.Outcome State Fault Refusal :=
  let x := s.cur.handleAt s.cycle h.toNat
  let k := s.cbCount b
  if x.v = false then .next (s.takeTrap (cbTrap 2 h.toNat))
  else if x.cheld ≠ 0 then .next (s.takeTrap (cbTrap 6 h.toNat))
  else if x.available < k then .next (s.takeTrap (cbTrap 4 h.toNat))
  else .next (((s.acquireSlots s.actCore h.toNat x.consFirst k).modCore s.actCore (fun c => c.editHandle s.cycle h.toNat (fun x => { x with filled := x.filled - k, drainp := (x.drainp + k) % max 1 x.nslot }))).finish 1)

/-- `cb.wfill` (R257): it waits for the count. -/
def execCbWfill (h b : BitVec 5) (s : State) : Host.Outcome State Fault Refusal :=
  let x := s.cur.handleAt s.cycle h.toNat
  let k := s.cbCount b
  if x.v = false then .next (s.takeTrap (cbTrap 2 h.toNat))
  else if x.nslot < k then .next (s.takeTrap (cbTrap 5 h.toNat))
  else if k ≤ x.available then .next (s.finish 1)
  else .next (s.parkCur (.cbFill h.toNat k))

/-- `cb.wfree` (R257): it waits for the count. -/
def execCbWfree (h b : BitVec 5) (s : State) : Host.Outcome State Fault Refusal :=
  let x := s.cur.handleAt s.cycle h.toNat
  let k := s.cbCount b
  if x.v = false then .next (s.takeTrap (cbTrap 2 h.toNat))
  else if x.nslot < k then .next (s.takeTrap (cbTrap 5 h.toNat))
  else if k ≤ x.free then .next (s.finish 1)
  else .next (s.parkCur (.cbFree h.toNat k))

/-- `cb.stat` (R252, R257). -/
def execCbStat (d h : BitVec 5) (s : State) : Host.Outcome State Fault Refusal :=
  .next ((s.wr d (wordOf (s.cur.handleAt s.cycle h.toNat).word)).finish 1)

/-! ## The vops (R165, R258 to R274) -/

/-- `vx.copy` (R165, R240). -/
def execVxCopy (n : Nest) (s : State) : Host.Outcome State Fault Refusal :=
  s.nest 0 n

/-- `vx.add` (R165, R240). -/
def execVxAdd (n : Nest) (s : State) : Host.Outcome State Fault Refusal :=
  s.nest 1 n

/-- `vx.sub` (R165, R240). -/
def execVxSub (n : Nest) (s : State) : Host.Outcome State Fault Refusal :=
  s.nest 2 n

/-- `vx.mul` (R165, R240). -/
def execVxMul (n : Nest) (s : State) : Host.Outcome State Fault Refusal :=
  s.nest 3 n

/-- `vx.fma` (R165, R240). -/
def execVxFma (n : Nest) (s : State) : Host.Outcome State Fault Refusal :=
  s.nest 4 n

/-- `vx.min` (R165, R240). -/
def execVxMin (n : Nest) (s : State) : Host.Outcome State Fault Refusal :=
  s.nest 5 n

/-- `vx.max` (R165, R240). -/
def execVxMax (n : Nest) (s : State) : Host.Outcome State Fault Refusal :=
  s.nest 6 n

/-- `vx.abs` (R165, R240). -/
def execVxAbs (n : Nest) (s : State) : Host.Outcome State Fault Refusal :=
  s.nest 7 n

/-- `vx.neg` (R165, R240). -/
def execVxNeg (n : Nest) (s : State) : Host.Outcome State Fault Refusal :=
  s.nest 8 n

/-- `vx.div` (R165, R240). -/
def execVxDiv (n : Nest) (s : State) : Host.Outcome State Fault Refusal :=
  s.nest 9 n

/-- `vx.cvt` (R165, R240). -/
def execVxCvt (n : Nest) (s : State) : Host.Outcome State Fault Refusal :=
  s.nest 10 n

/-- `vx.sel` (R165, R240). -/
def execVxSel (n : Nest) (s : State) : Host.Outcome State Fault Refusal :=
  s.nest 11 n

/-- `vx.cmpeq` (R165, R240). -/
def execVxCmpeq (n : Nest) (s : State) : Host.Outcome State Fault Refusal :=
  s.nest 12 n

/-- `vx.cmplt` (R165, R240). -/
def execVxCmplt (n : Nest) (s : State) : Host.Outcome State Fault Refusal :=
  s.nest 13 n

/-- `vx.cmple` (R165, R240). -/
def execVxCmple (n : Nest) (s : State) : Host.Outcome State Fault Refusal :=
  s.nest 14 n

/-- `vx.and` (R165, R240). -/
def execVxAnd (n : Nest) (s : State) : Host.Outcome State Fault Refusal :=
  s.nest 15 n

/-- `vx.or` (R165, R240). -/
def execVxOr (n : Nest) (s : State) : Host.Outcome State Fault Refusal :=
  s.nest 16 n

/-- `vx.xor` (R165, R240). -/
def execVxXor (n : Nest) (s : State) : Host.Outcome State Fault Refusal :=
  s.nest 17 n

/-- `vx.shl` (R165, R240). -/
def execVxShl (n : Nest) (s : State) : Host.Outcome State Fault Refusal :=
  s.nest 18 n

/-- `vx.shr` (R165, R240). -/
def execVxShr (n : Nest) (s : State) : Host.Outcome State Fault Refusal :=
  s.nest 19 n

/-- `vx.sra` (R165, R240). -/
def execVxSra (n : Nest) (s : State) : Host.Outcome State Fault Refusal :=
  s.nest 20 n

/-- `vx.quant` (R165, R240). -/
def execVxQuant (n : Nest) (s : State) : Host.Outcome State Fault Refusal :=
  s.nest 21 n

/-- `vx.dequant` (R165, R240). -/
def execVxDequant (n : Nest) (s : State) : Host.Outcome State Fault Refusal :=
  s.nest 22 n

/-- `vx.rsum` (R165, R240). -/
def execVxRsum (n : Nest) (s : State) : Host.Outcome State Fault Refusal :=
  s.nest 23 n

/-- `vx.rmax` (R165, R240). -/
def execVxRmax (n : Nest) (s : State) : Host.Outcome State Fault Refusal :=
  s.nest 24 n

/-- `vx.rmin` (R165, R240). -/
def execVxRmin (n : Nest) (s : State) : Host.Outcome State Fault Refusal :=
  s.nest 25 n

/-- `vx.rargmax` (R165, R240). -/
def execVxRargmax (n : Nest) (s : State) : Host.Outcome State Fault Refusal :=
  s.nest 26 n

/-- `vx.gather` (R165, R240). -/
def execVxGather (n : Nest) (s : State) : Host.Outcome State Fault Refusal :=
  s.nest 27 n

/-- `vx.iota` (R165, R240). -/
def execVxIota (n : Nest) (s : State) : Host.Outcome State Fault Refusal :=
  s.nest 28 n

/-- `vx.fill` (R165, R240). -/
def execVxFill (n : Nest) (s : State) : Host.Outcome State Fault Refusal :=
  s.nest 29 n

/-- `vx.exp` (R165, R240). -/
def execVxExp (n : Nest) (s : State) : Host.Outcome State Fault Refusal :=
  s.nest 64 n

/-- `vx.exp2` (R165, R240). -/
def execVxExp2 (n : Nest) (s : State) : Host.Outcome State Fault Refusal :=
  s.nest 65 n

/-- `vx.expm1` (R165, R240). -/
def execVxExpm1 (n : Nest) (s : State) : Host.Outcome State Fault Refusal :=
  s.nest 66 n

/-- `vx.log` (R165, R240). -/
def execVxLog (n : Nest) (s : State) : Host.Outcome State Fault Refusal :=
  s.nest 67 n

/-- `vx.log2` (R165, R240). -/
def execVxLog2 (n : Nest) (s : State) : Host.Outcome State Fault Refusal :=
  s.nest 68 n

/-- `vx.log1p` (R165, R240). -/
def execVxLog1p (n : Nest) (s : State) : Host.Outcome State Fault Refusal :=
  s.nest 69 n

/-- `vx.sin` (R165, R240). -/
def execVxSin (n : Nest) (s : State) : Host.Outcome State Fault Refusal :=
  s.nest 70 n

/-- `vx.cos` (R165, R240). -/
def execVxCos (n : Nest) (s : State) : Host.Outcome State Fault Refusal :=
  s.nest 71 n

/-- `vx.sinpi` (R165, R240). -/
def execVxSinpi (n : Nest) (s : State) : Host.Outcome State Fault Refusal :=
  s.nest 72 n

/-- `vx.cospi` (R165, R240). -/
def execVxCospi (n : Nest) (s : State) : Host.Outcome State Fault Refusal :=
  s.nest 73 n

/-- `vx.tanh` (R165, R240). -/
def execVxTanh (n : Nest) (s : State) : Host.Outcome State Fault Refusal :=
  s.nest 74 n

/-- `vx.sigmoid` (R165, R240). -/
def execVxSigmoid (n : Nest) (s : State) : Host.Outcome State Fault Refusal :=
  s.nest 75 n

/-- `vx.erf` (R165, R240). -/
def execVxErf (n : Nest) (s : State) : Host.Outcome State Fault Refusal :=
  s.nest 76 n

/-- `vx.atan` (R165, R240). -/
def execVxAtan (n : Nest) (s : State) : Host.Outcome State Fault Refusal :=
  s.nest 77 n

/-- `vx.sqrt` (R165, R240). -/
def execVxSqrt (n : Nest) (s : State) : Host.Outcome State Fault Refusal :=
  s.nest 78 n

/-- `vx.rsqrt` (R165, R240). -/
def execVxRsqrt (n : Nest) (s : State) : Host.Outcome State Fault Refusal :=
  s.nest 79 n

/-- `vx.rcp` (R165, R240). -/
def execVxRcp (n : Nest) (s : State) : Host.Outcome State Fault Refusal :=
  s.nest 80 n

/-- `vx.xa.exp2` (R165, R240). -/
def execVxXaExp2 (n : Nest) (s : State) : Host.Outcome State Fault Refusal :=
  s.nest 96 n

/-- `vx.xa.log2` (R165, R240). -/
def execVxXaLog2 (n : Nest) (s : State) : Host.Outcome State Fault Refusal :=
  s.nest 97 n

/-- `vx.xa.rcp` (R165, R240). -/
def execVxXaRcp (n : Nest) (s : State) : Host.Outcome State Fault Refusal :=
  s.nest 98 n

/-- `vx.xa.rsqrt` (R165, R240). -/
def execVxXaRsqrt (n : Nest) (s : State) : Host.Outcome State Fault Refusal :=
  s.nest 99 n

/-- `vx.xa.tanh` (R165, R240). -/
def execVxXaTanh (n : Nest) (s : State) : Host.Outcome State Fault Refusal :=
  s.nest 100 n

/-- `vx.xa.sigmoid` (R165, R240). -/
def execVxXaSigmoid (n : Nest) (s : State) : Host.Outcome State Fault Refusal :=
  s.nest 101 n

end Sys2Proof.Machine
end

