-- ==== Sys2Proof/Machine/Engine.lean ====
section
/-! DEFINITION. What engine commands share: reads and writes in pieces with their checks and stamps (R83, R84, R98, R119,
R425, R432), clasp additions (R99, R100), and the issue check of a clasp address (R102). -/

namespace Sys2Proof.Machine

/-! ## Pieces of a range -/

/-- Cut [a, a + n) at the multiples of a size. -/
def piecesFrom (sz : Nat) : Nat → Nat → Nat → List (Nat × Nat)
  | 0, _, _ => []
  | fuel + 1, a, n =>
    if n = 0 then []
    else
      let k := min n (sz - a % sz)
      (a, k) :: piecesFrom sz fuel (a + k) (n - k)

/-- The pieces of [a, a + n) that cross no multiple of a size. -/
def pieces (sz a n : Nat) : List (Nat × Nat) := piecesFrom sz (n / sz + 2) a n

/-! ## Engine accesses -/

/-- Whose permissions an engine access has: the issuing core, its world and the issuing instruction. -/
structure EngCtx where
  core : Nat
  world : Nat
  pc : Nat
  deriving DecidableEq, Repr

/-- Why an engine access stops: it waits for the service or a settlement, it waits for the target of a fabric window, or
it cannot be made; an error it met is journalled. -/
inductive EngStop where
  | wait (addr : Nat)
  | fabric (win off addr n : Nat) (write : Option (List Byte))
  | bad (met : Option Loc)
  deriving DecidableEq, Repr

/-- The state and the command's stamp while an engine command makes its accesses (R432). -/
structure Eng where
  s : State
  stamp : Nat
  deriving DecidableEq, Repr

/-- An engine command's accesses. -/
abbrev EngM (α : Type) := StateT Eng (Except EngStop) α

/-- What has come back through fabric windows for the command's present run: by address, for a read its bytes. -/
abbrev FabData := List (Nat × List Byte)

/-- The place of an engine access of n bytes that crosses no 4 KiB boundary, or why it stops (R119, R294, R425). -/
def engPlace (x : EngCtx) (va n : Nat) (write : Bool) : EngM Loc := fun e =>
  match e.s.engineCheck x.core x.world x.pc va n write with
  | .ok l t => .ok (l, { e with s := e.s.noteTlb x.core va t })
  | .trap _ => .error (.bad none)
  | .service 0x13 _ => .error (.bad (some (e.s.poisonPlace x.core va)))
  | .service _ a => .error (.wait a)
  | .settle => .error (.wait va)
  | .absent => .error (.bad none)

/-- Read one line of world memory at its home, outside L1: it takes a lease at the command's stamp, which its wts raises
(R71, R432). -/
def engLease (e : Eng) (pa : Nat) : Eng :=
  let s := e.s.recall pa
  let h := s.homeLine pa
  ⟨s.putHome pa { h with rts := max h.rts e.stamp }, max e.stamp h.wts⟩

/-- The bytes of a place as an engine takes them, and what follows: of an unsettled byte, which value is open (R83, R84; log
1). A unit of the hub reads what stands. -/
def Eng.see (e : Eng) (x : EngCtx) (l : Loc) (n : Nat) : List Byte × Eng :=
  if x.core < 2048 then (e.s.peekOpen x.world l n, { e with s := e.s.took x.world l n }) else (e.s.peek x.world l n, e)

/-- The bytes of a checked place. -/
def engPeek (x : EngCtx) (fab : FabData) (va n : Nat) (l : Loc) : EngM (List Byte) := fun e =>
  match l with
  | .spad _ _ => .ok ((e.see x l n).1, { (e.see x l n).2 with stamp := max e.stamp (e.s.htsOf l) })
  | .mem pa 0 => .ok ((e.see x l n).1, (pieces 32 pa n).foldl (fun e p => engLease e p.1) (e.see x l n).2)
  | .mem pa 1 => .ok ((pieces 64 pa n).flatMap (fun p => e.s.peek x.world (.mem p.1 1) p.2),
      (pieces 64 pa n).foldl (fun e p => (e.s.linesAt x.world p.1 1).foldl engLease e) e)
  | .mem pa _ =>
    let e1 := (pieces 32 pa n).foldl (fun e p => engLease e p.1) e
    .ok (e.s.peek x.world l n, { e1 with stamp := max e1.stamp (e.s.htsOf l) })
  | .fabric win off =>
    match fab.find? (fun d => d.1 == va) with
    | some d => .ok (d.2, e)
    | none => .error (.fabric win off va n none)

/-- An engine read (R83). -/
def engRead (x : EngCtx) (fab : FabData) (va n : Nat) : EngM (List Byte) := do
  let bs ← (pieces 4096 (va % 2 ^ 64) n).mapM (fun p => do
    let a := p.1 % 2 ^ 64
    let l ← engPlace x a p.2 false
    engPeek x fab a p.2 l)
  pure bs.flatten

/-- A little-endian number read by an engine. -/
def engNum (x : EngCtx) (fab : FabData) (va n : Nat) : EngM Nat := do
  let bs ← engRead x fab va n
  pure (natOfBytes bs)

/-- Write bytes at a checked place, line by line or block by block (R84, R98, R145, R432). -/
def engPoke (x : EngCtx) (fab : FabData) (va : Nat) (bs : List Byte) (l : Loc) : EngM Unit := fun e =>
  match l with
  | .spad _ _ => .ok ((), { e with s := e.s.engineWrite x.world l bs e.stamp })
  | .mem pa 0 =>
    .ok ((), (pieces 32 pa bs.length).foldl (fun e p =>
      let s := e.s.engineWrite x.world (.mem p.1 0) ((bs.drop (p.1 - pa)).take p.2) e.stamp
      ⟨s, max e.stamp (s.homeLine p.1).wts⟩) e)
  | .mem pa mt =>
    .ok ((), (pieces (if mt = 1 then 64 else 32) pa bs.length).foldl (fun e p =>
      let s := e.s.engineWrite x.world (.mem p.1 mt) ((bs.drop (p.1 - pa)).take p.2) e.stamp
      ⟨s, max e.stamp (s.wtsAt x.world (.mem p.1 mt))⟩) e)
  | .fabric win off =>
    match fab.find? (fun d => d.1 == va + 2 ^ 64) with
    | some _ => .ok ((), e)
    | none => .error (.fabric win off va bs.length (some bs))

/-- A write by a unit of the hub: every piece is checked before any is written. -/
def engWrite (x : EngCtx) (fab : FabData) (va : Nat) (bs : List Byte) : EngM Unit := do
  let ps := pieces 4096 (va % 2 ^ 64) bs.length
  let ls ← ps.mapM (fun p => do
    let l ← engPlace x (p.1 % 2 ^ 64) p.2 true
    pure (p, l))
  ls.forM (fun q => engPoke x fab (q.1.1 % 2 ^ 64) ((bs.drop (q.1.1 - va % 2 ^ 64)).take q.1.2) q.2)

/-- An engine's data write of a run's bytes: every piece is checked before any is written, and the bytes are unsettled until
they are acquired (R84, R294). -/
def engPut (id : Nat) (x : EngCtx) (fab : FabData) (va : Nat) (bs : List Byte) : EngM Unit := do
  let ps := pieces 4096 (va % 2 ^ 64) bs.length
  let ls ← ps.mapM (fun p => do
    let l ← engPlace x (p.1 % 2 ^ 64) p.2 true
    pure (p, l))
  ls.forM (fun q => do
    let b := (bs.drop (q.1.1 - va % 2 ^ 64)).take q.1.2
    modify (fun e => { e with s := e.s.noteEngine id x.core x.world q.2 b })
    engPoke x fab (q.1.1 % 2 ^ 64) b q.2)

/-! ## Clasps (R99, R100) -/

/-- How an engine's access to its clasp ends. -/
inductive ClaspEnd where
  | done (s : State)
  | wait (addr : Nat)
  | lost (cause : Nat)
  deriving DecidableEq, Repr

/-- Change a clasp as one event at its home, under the checks of R119 (R100, R432). The alias and fabric pages take no
atomic (R213), so a clasp there cannot be changed. -/
def State.claspChange (s : State) (x : EngCtx) (z stamp : Nat) (f : Clasp → Clasp) : ClaspEnd :=
  match s.engineCheck x.core x.world x.pc z 16 true with
  | .ok (.mem _ 1) _ => .lost 7
  | .ok (.mem _ 3) _ => .lost 7
  | .ok (.fabric _ _) _ => .lost 7
  | .ok l t =>
    let c := f (claspOf (s.peek x.world l 16))
    .done ((s.noteTlb x.core z t).homeChange x.world l (claspBytes c) stamp).1
  | .trap t => .lost t.cause
  | .service _ a => .wait a
  | .settle => .wait z
  | .absent => .lost 7

/-- E := 1 (R99). -/
def Clasp.setE (c : Clasp) : Clasp := { c with e := true }

/-- Change a clasp; where that is impossible, the service reports the command, by its core and its instruction, to the
world instead (R100). `none`: it waits. -/
def State.claspNow (s : State) (x : EngCtx) (z stamp : Nat) (f : Clasp → Clasp) : Option State :=
  match s.claspChange x z stamp f with
  | .done s' => some s'
  | .wait _ => none
  | .lost cause => some (s.report (.claspLost x.world x.core x.pc z cause))

/-- The bytes of a command have been counted into its clasp (R100, R101). -/
def State.noteCounted (s : State) (x : EngCtx) (z id : Nat) : State :=
  if s.unsettled.isEmpty then s
  else match s.engineCheck x.core x.world x.pc z 16 true with
    | .ok l _ => (match l.key with
      | some k => let c := claspOf (s.peek x.world l 16); s.noteCount id k c.exp c.phc c.arr
      | none => s)
    | _ => s

/-- The clasp check at the issue of an engine command (R102): a misaligned address, or register bytes. -/
def State.claspIssue (s : State) (z : Nat) : Option Trap :=
  if z % 16 ≠ 0 then some (trapAt 0x0D 0 z)
  else
    match s.spadOf s.actCore z with
    | some (o, off) =>
      if o < s.coreList.length ∧ (s.core o).world = s.cur.world ∧ ((s.core o).regHit off 16).isSome = true
      then some (trapAt 8 0 z) else none
    | none => none

/-- Whether an engine access at an address would wait for the service. -/
def State.wouldWait (s : State) (x : EngCtx) (a n : Nat) (write : Bool) : Bool :=
  match s.engineCheck x.core x.world x.pc a n write with
  | .service 0x13 _ => false
  | .service _ _ => true
  | .settle => true
  | _ => false

/-- Set E in the clasp of a command that stops; it waits if the clasp's page does (R99, R100). -/
def State.spoilClasp (s : State) (x : EngCtx) (z stamp : Nat) : State :=
  (s.claspNow x z stamp Clasp.setE).getD { s with spoils := s.spoils ++ [⟨x.core, x.world, x.pc, z, stamp⟩] }

end Sys2Proof.Machine
end

