-- ==== Sys2Proof/Machine/Matrix.lean ====
section
/-! DEFINITION. The matrix array: issue of its commands (R281, R283, R284, R286 to R291), arbitration (R278 to R280),
starting, draining and completing (R282, R287 to R290), and the automatic close (R285). -/

namespace Sys2Proof.Machine

/-! ## Fields of a command (R286) -/

/-- The type code of a command: P[31:28]. -/
def maType (c : EngCmd) : BitVec 4 := BitVec.ofNat 4 (c.p.toNat >>> 28)
/-- Element size in bytes, 1 for e2m1x (R283). -/
def maSize (c : EngCmd) : Nat := codeSize (maType c)
/-- K-steps per plane row (R277). -/
def maQ (c : EngCmd) : Nat := kStepsPerRow (maType c)
/-- row0. -/
def maRow0 (c : EngCmd) : Nat := bitsOf c.p.toNat 0 8
/-- n of `ma.ldst` (R287). -/
def ldRows (c : EngCmd) : Nat := bitsOf c.p.toNat 16 8 + 1
/-- c of `ma.ldst` (R287). -/
def ldCols (c : EngCmd) : Nat := bitsOf c.p.toNat 8 7 + 1
/-- T of `ma.ldst`. -/
def ldT (c : EngCmd) : Bool := bitOf c.p.toNat 27
/-- K of `ma.stream` (R288). -/
def stK (c : EngCmd) : Nat := bitsOf c.p.toNat 16 10 + 1
/-- R of `ma.stream` and `ma.drain`. -/
def maRows (c : EngCmd) : Nat := bitsOf c.p.toNat 8 7 + 1
/-- C of `ma.drain` (R290). -/
def drCols (c : EngCmd) : Nat := bitsOf c.p.toNat 0 7 + 1
/-- Accumulator plane p. -/
def maPlane (c : EngCmd) : Nat := c.f.toNat % 2
/-- END of `ma.drain`. -/
def drEnd (c : EngCmd) : Bool := bitOf c.f.toNat 1
/-- CB of `ma.drain`. -/
def drCb (c : EngCmd) : Bool := bitOf c.f.toNat 2

/-- Bytes of one run of k k-steps along a row: 18 to each 32 in e2m1x (R287, R288). -/
def kBytes (c : EngCmd) (k : Nat) : Nat := if maType c = 6#4 then 18 * (k / 32) else k * maSize c

/-- Whether `ma.ldst` reads runs along k (T = 1, and e2m1x), not along j. -/
def ldAlongK (c : EngCmd) : Bool := ldT c || maType c == 6#4

/-- The runs a command reads, as offsets from its base, with their bytes (R287, R288). -/
def sourceRuns (kind : Nat) (c : EngCmd) (pitch : Nat) : List (Nat × Nat) :=
  if kind = 0 then
    if ldAlongK c then (List.range (ldCols c)).map (fun j => (j * pitch, kBytes c (ldRows c * maQ c)))
    else (List.range (ldRows c * maQ c)).map (fun k => (k * pitch, ldCols c * maSize c))
  else (List.range (maRows c)).map (fun i => (i * pitch, kBytes c (stK c)))

/-- Bytes from the base to the last byte any element can reach (R283). -/
def sourceExtent (kind : Nat) (c : EngCmd) (pitch : Nat) : Nat :=
  (sourceRuns kind c pitch).foldl (fun m r => max m (r.1 + r.2)) 0

/-- Bytes a drain's destination extends over (R283, R290). -/
def drainExtent (c : EngCmd) (pitch : Nat) : Nat := (maRows c - 1) * pitch + drCols c * maSize c

/-- The charge of a command (R281). -/
def maCharge (kind : Nat) (c : EngCmd) : Nat :=
  match kind with
  | 0 => ldRows c
  | 1 => 1
  | 2 => 1
  | 3 => ceilDiv (stK c) (maQ c)
  | 4 => 128
  | _ => 0

/-- Cycles a command is busy on its path (R281). -/
def maBusy (kind : Nat) (c : EngCmd) : Nat :=
  if kind = 4 then max 128 (ceilDiv (maRows c * drCols c * maSize c) 256 + 8) else maCharge kind c

/-- Whether a command closes its job (R279). -/
def maCloses (kind : Nat) (c : EngCmd) : Bool := kind == 5 || (kind == 4 && drEnd c)

/-! ## Issue (R281, R283, R284) -/

/-- Tag code of a type: 1 + the code, 0 being empty. -/
def typeTag (c : EngCmd) : Nat := 1 + (maType c).toNat

/-- The accumulator tag a type takes: 1 F, 2 I (R288, R290). -/
def accTag (c : EngCmd) : Nat := if maType c = 8#4 ∨ maType c = 10#4 then 2 else 1

/-- Whether a stream type pairs with the active plane's tag (R288). -/
def pairsWith (c : EngCmd) (tag : Nat) : Bool :=
  if maType c = 4#4 ∨ maType c = 5#4 then tag == 5 || tag == 6 else tag == typeTag c

/-- The scratchpad extent of a source: within one enabled core of the sett that is allocated to the world (R283). -/
def State.sourceOk (s : State) (base n : Nat) : Bool :=
  match s.spadOf s.actCore base with
  | some (o, off) =>
    decide (off + n ≤ 1048576) && decide (o < s.coreList.length) && s.settOf o == s.settOf s.actCore &&
      (s.core o).world == s.cur.world && s.enabled 2 (s.physCore o)
  | none => false

/-- The scratchpad extent of a drain's destination: the issuing core's own (R283). -/
def State.destOk (s : State) (base n : Nat) : Bool :=
  match s.spadOf s.actCore base with
  | some (o, off) => o == s.actCore && decide (off + n ≤ 1048576)
  | none => false

/-- The tag of the accumulator a core tracks for its open job (R283). -/
def Core.accTagOf (k : Core) (p : Nat) : Nat := if p = 0 then k.accTag0 else k.accTag1

/-- A core with the tags of a job that has just opened (R278). -/
def Core.openTags (k : Core) : Core :=
  if k.jobOpen then k else { k with jobCmds := 0, jobCycles := 0, shadowTag := 0, activeTag := 0, accTag0 := 0, accTag1 := 0 }

/-- Check 4 of R283: types against the tags of the open job. -/
def maTypeOk (k : Core) (kind : Nat) (c : EngCmd) : Bool :=
  match kind with
  | 0 => k.shadowTag == 0 || k.shadowTag == typeTag c
  | 3 => pairsWith c k.activeTag && (k.accTagOf (maPlane c) == 0 || k.accTagOf (maPlane c) == accTag c)
  | 4 => k.accTagOf (maPlane c) == 0 || k.accTagOf (maPlane c) == accTag c
  | _ => true

/-- Change the tracked tag of an accumulator. -/
def Core.setAccTag (k : Core) (p t : Nat) : Core := if p = 0 then { k with accTag0 := t } else { k with accTag1 := t }

/-- The tags after a command, in issue order (R283, R287 to R290). -/
def Core.afterTags (k : Core) (kind : Nat) (c : EngCmd) : Core :=
  match kind with
  | 0 => { k with shadowTag := typeTag c }
  | 1 => { k with shadowTag := k.activeTag, activeTag := k.shadowTag }
  | 2 => k.setAccTag (maPlane c) 0
  | 3 => k.setAccTag (maPlane c) (accTag c)
  | 4 => if bitOf c.p.toNat 23 then k.setAccTag (maPlane c) 0 else k
  | _ => k

/-- Source or destination base of a command. -/
def State.maBase (s : State) (kind : Nat) (c : EngCmd) : Nat :=
  if kind = 4 ∧ drCb c = true then c.x.toNat else (s.rd c.x).toNat

/-- Pitch: bits 19:0 of Y. -/
def State.maPitch (s : State) (c : EngCmd) : Nat := (s.rd c.y).toNat % 2 ^ 20

/-- Checks 2 and 3 of R283 on bases, pitches and extents. -/
def State.maExtentTrap (s : State) (kind : Nat) (c : EngCmd) : Option Trap :=
  let base := s.maBase kind c
  let pitch := s.maPitch c
  let z := maSize c
  let cb := kind == 4 && drCb c
  if kind = 1 ∨ kind = 2 ∨ kind = 5 then none
  else if (cb = false ∧ base % z ≠ 0) ∨ pitch % z ≠ 0 then some (if cb then trapOf 5 0 else trapAt 5 0 base)
  else if kind = 4 then (if cb || s.destOk base (drainExtent c pitch) then none else some (trapOf 0x0B 4))
  else if s.sourceOk base (sourceExtent kind c pitch) then none else some (trapOf 0x0B 4)

/-- The issue checks of an array command, in R283's order. -/
def State.maTrap (s : State) (kind : Nat) (c : EngCmd) : Option Trap :=
  let k := s.cur.openTags
  match (if kind = 4 then s.claspIssue (s.rd c.z).toNat else none) with
  | some t => some t
  | none =>
    match s.maExtentTrap kind c with
    | some t => some t
    | none =>
      if !(maTypeOk k kind c) then some (trapOf 0x0B 3)
      else if kind = 5 then none
      else if 64 ≤ k.jobCmds then some (trapOf 0x0B 1)
      else if 65536 < k.jobCycles + maCharge kind c then some (trapOf 0x0B 2)
      else none

/-- RM of a drain, DYN resolved at issue (R290). -/
def State.drainRm (s : State) (c : EngCmd) : Nat := s.rmCode (BitVec.ofNat 3 (bitsOf c.p.toNat 25 3))

/-- Whether an issuing command joins the job that the array now runs. -/
def State.joinsGranted (s : State) : Bool :=
  (s.sett (s.settOf s.actCore)).granted == some s.actCore && s.cur.jobOpen && !(s.cur.mq.any (fun m => maCloses m.kind m.c))

/-- The command a thread queues, its operands read (R286). -/
def State.maCmd (s : State) (kind : Nat) (c : EngCmd) : MaCmd where
  id := s.nextId
  slot := s.actSlot
  ws := s.curWs
  kind := kind
  c := c
  base := s.maBase kind c
  pitch := s.maPitch c
  clasp := (s.rd c.z).toNat
  rm := s.drainRm c
  draw := s.drawCount s.actCore s.curWs
  seed := s.curTask.seed
  rank := s.rankOf s.actCore s.curWs
  stream := s.streamOf s.actCore s.curWs
  world := s.cur.world
  pc := s.curTask.pc
  stamp := s.pts s.actCore
  started := false
  start := 0
  due := 0
  rows := 0
  bad := s.joinsGranted && (s.sett (s.settOf s.actCore)).jobBad
  fault := none
  win := none
  owed := 0
  ready := s.cycle + 6

/-- Whether a drain has written and counted its last row. -/
def MaCmd.drained (m : MaCmd) : Bool := decide (maRows m.c ≤ m.rows) && m.owed == 0

/-- Entries a core's matrix queue holds: a drain's is free once its last clasp addition is made (R284). -/
def Core.mqUsed (k : Core) : Nat := (k.mq.filter (fun m => !(m.kind == 4 && m.started && m.drained))).length

/-- Draws a command reserves at issue (R133, R290). -/
def State.maDraws (s : State) (kind : Nat) (c : EngCmd) : Nat :=
  if kind = 4 ∧ s.drainRm c = 5 then maRows c * drCols c else 0

/-- Put a checked command into the core's queue and job (R279, R281, R284). -/
def State.maEnqueue (s : State) (kind : Nat) (c : EngCmd) : State :=
  let q := s.maCmd kind c
  let s1 := (({ s with nextId := s.nextId + 1 }).takeDraws s.actCore s.curWs (s.maDraws kind c)).modCore s.actCore (fun k =>
    let k := (k.openTags).afterTags kind c
    { k with mq := k.mq ++ [q], jobOpen := !(maCloses kind c), jobCmds := k.jobCmds + (if kind = 5 then 0 else 1), jobCycles := k.jobCycles + maCharge kind c })
  s1.finish 1

/-- Issue an array command (R281, R283, R284, R289): `ma.end` with no open job completes at once. -/
def State.maIssue (s : State) (kind : Nat) (c : EngCmd) : Host.Outcome State Fault Refusal :=
  let s := s.drainReds
  match s.maTrap kind c with
  | some t => .next (s.takeTrap t)
  | none =>
    if 16 ≤ s.cur.mqUsed then .next (s.parkCur .mqFull)
    else if kind = 5 ∧ s.cur.jobOpen = false then .next (s.finish 1)
    else .next (s.maEnqueue kind c)

/-! ## Arbitration (R278 to R280) -/

/-- MAW as the arbiter counts it (R280). -/
def State.mawOf (s : State) (c : Nat) : Nat := max 1 (s.maw c)

/-- Whether a core's queue head is the first command of a job: it stands in the queue from its memory stage on (R32); a gang
that stops keeps its later jobs queued (R115). -/
def State.hasJob (s : State) (c : Nat) : Bool :=
  ((s.core c).mq.head?.any (fun m => decide (m.ready ≤ s.cycle))) && !(s.stopping c)

/-- The enabled cores of a sett from a position on, as (index, core). -/
def State.arbiterOrder (s : State) (n pos : Nat) : List (Nat × Nat) :=
  let l := s.settCores n
  let m := max 1 l.length
  (List.range (m + 1)).filterMap (fun i => (l[(pos + i) % m]?).map (fun c => ((pos + i) % m, c)))

/-- The saved state of a core's job that was open when its gang was pre-empted (R285). -/
def State.savedJob (s : State) (c : Nat) : Option Sett :=
  match (s.core c).gang with
  | some g => ((s.gang g).savedSett.find? (fun e => (s.gang g).cores[e.1]? == some c)).map (fun e => e.2)
  | none => none

/-- The core of a sett whose pre-empted job goes on before every other job (R285). -/
def State.resumeJob (s : State) (n : Nat) : Option Nat :=
  (s.settCores n).find? (fun c => (s.savedJob c).isSome && !(s.stopping c))

/-- The arbiter's choice: the position, its count of grants and the core (R280, R285). Where the array was free before this
cycle, the arbiter was waiting, its count at zero: the first commands that are there have arrived together, and the lowest
index wins. -/
def State.maChoice (s : State) (n : Nat) : Option (Nat × Nat × Nat) :=
  let t := s.sett n
  match s.resumeJob n with
  | some c => some (t.pos, t.grants, c)
  | none =>
    match s.arbiterOrder n t.pos with
    | [] => none
    | (i, c) :: rest =>
      if t.freeAt < s.cycle then
        ((((i, c) :: rest).filter (fun e => s.hasJob e.2)).foldl (fun (m : Option (Nat × Nat)) e => match m with
          | some x => if e.1 < x.1 then some e else some x
          | none => some e) none).map (fun e => (e.1, 1, e.2))
      else if t.grants < s.mawOf c ∧ s.hasJob c = true then some (i, t.grants + 1, c)
      else (rest.find? (fun e => s.hasJob e.2)).map (fun e => (e.1, 1, e.2))

/-- Whether the arbiter can grant now: the array is free (R280, R282). -/
def State.maGrantable (s : State) (n : Nat) : Bool :=
  (s.sett n).granted.isNone && decide ((s.sett n).freeAt ≤ s.cycle) && (s.maChoice n).isSome

/-- A sett's array as a fresh job finds it (R278). -/
def Sett.cleared (t : Sett) : Sett :=
  { t with planes := [], pairs := [], acc0 := [], acc1 := [], active := 0, tag0 := 0, tag1 := 0, atag0 := 0, atag1 := 0, enter0 := 0, enter1 := 0, jobBad := false }

/-- A sett's array as a resumed job finds it: the planes, tags and faults saved with its gang (R285). -/
def Sett.restored (t x : Sett) (now : Nat) : Sett :=
  { t with planes := x.planes, pairs := x.pairs, acc0 := x.acc0, acc1 := x.acc1, active := x.active, tag0 := x.tag0, tag1 := x.tag1, atag0 := x.atag0, atag1 := x.atag1, enter0 := now, enter1 := now, jobBad := x.jobBad }

/-- Forget a core's saved job once it is granted. -/
def State.dropSavedJob (s : State) (c : Nat) : State :=
  match (s.core c).gang with
  | some g => s.putGang g { s.gang g with savedSett := (s.gang g).savedSett.filter (fun e => (s.gang g).cores[e.1]? != some c) }
  | none => s

/-- MA_GRANT (R278, R280): a resumed job gets the planes that were saved with it (R285). -/
def execMaGrant (sett : Nat) (s : State) : Host.Outcome State Fault Refusal :=
  match s.maChoice sett with
  | none => .next s
  | some (pos, grants, c) =>
    if s.maGrantable sett then
      let t := match s.savedJob c with
        | some x => (s.sett sett).restored x s.cycle
        | none => (s.sett sett).cleared
      .next ((s.dropSavedJob c).putSett sett { t with pos := pos, grants := grants, granted := some c, freeAt := s.cycle + 2 })
    else .next s

/-! ## Starting a command (R282) -/

/-- The granted job's commands still queued, oldest first: the queue up to the first closing command. -/
def jobPart : List MaCmd → List MaCmd
  | [] => []
  | m :: r => if maCloses m.kind m.c then [m] else m :: jobPart r

/-- The path of a command: 0 load, 1 array, 2 drain, 3 none (R281). -/
def maPath (kind : Nat) : Nat := if kind = 0 then 0 else if kind = 4 then 2 else if kind = 5 then 3 else 1

/-- The slots a drain into a cb handle needs (R290). -/
def drainSlots (k : Core) (m : MaCmd) : Nat :=
  ceilDiv (drainExtent m.c m.pitch) (max 1 (k.handle m.c.x.toNat).ssz)

/-- Whether a drain's cb handle cannot take it at all (R290). -/
def drainHopeless (k : Core) (m : MaCmd) : Bool :=
  drCb m.c && (!(k.handle m.c.x.toNat).v || decide ((k.handle m.c.x.toNat).nslot < drainSlots k m))

/-- Whether a command of the granted job may start after its earlier commands that are still queued (R282). -/
def maMayStart (now : Nat) (t : Sett) (k : Core) (earlier : List MaCmd) (m : MaCmd) : Bool :=
  let p := maPlane m.c
  !m.started && decide (t.freeAt ≤ now) && decide (m.ready ≤ now) &&
  !(earlier.any (fun e => maPath e.kind == maPath m.kind && (!e.started || decide (now < e.due)))) &&
  (match m.kind with
    | 0 => !(earlier.any (fun e => e.kind == 1))
    | 1 => !(earlier.any (fun e => e.kind == 0 || e.kind == 3))
    | 2 => !(earlier.any (fun e => e.kind == 4 && maPlane e.c == p))
    | 3 => !(earlier.any (fun e => e.kind == 4 && maPlane e.c == p))
    | 4 => !(earlier.any (fun e => (e.kind == 2 || e.kind == 3) && maPlane e.c == p)) &&
        decide ((if p = 0 then t.enter0 else t.enter1) ≤ now) &&
        (!(drCb m.c) || drainHopeless k m || m.bad || decide (drainSlots k m ≤ (k.handle m.c.x.toNat).free))
    | _ => true) &&
  (!(maCloses m.kind m.c) || earlier.isEmpty)

/-- The i-th command of the granted job, with the commands before it. -/
def jobAt (l : List MaCmd) (i : Nat) : Option (List MaCmd × MaCmd) := (l[i]?).map (fun m => (l.take i, m))

/-- Whether command i of the granted job can start now. -/
def State.maStartable (s : State) (n i : Nat) : Option (Nat × MaCmd) :=
  let t := s.sett n
  match t.granted with
  | none => none
  | some c =>
    match jobAt (jobPart (s.core c).mq) i with
    | none => none
    | some (earlier, m) => if maMayStart s.cycle t (s.core c) earlier m then some (c, m) else none

/-! ## Effects (R287 to R290) -/

/-- A byte of a scratchpad as the array reads it: register bytes of a resident workspace read as zero (R283). -/
def maByte (k : Core) (off : Nat) : Byte := if (k.regHit off 1).isSome then 0#8 else Memory.read k.scratch off

/-- What a load path takes from n bytes of core o's scratchpad: of an unsettled byte, which value is open (R84; log 1). -/
def State.runTaken (s : State) (o off : Nat) (run : List Byte) : List Byte :=
  s.taken (s.core o).world (.spad o off) run.length run

/-- The runs of a command as the array reads them, in a core's scratchpad from an offset. -/
def readRuns (k : Core) (off : Nat) (runs : List (Nat × Nat)) : List (List Byte) :=
  runs.map (fun r => (List.range r.2).map (fun i => maByte k (off + r.1 + i)))

/-- Whether a run of a command meets register bytes or poison. -/
def runsMeet (k : Core) (off : Nat) (runs : List (Nat × Nat)) : Bool :=
  runs.any (fun r => (k.regHit (off + r.1) r.2).isSome || poisonHit k.spoison (off + r.1) r.2)

/-- The bits of k-step k of a run along k, of an element of a type: an e2m1x code lies in the run's blocks. -/
def runElem (t : BitVec 4) (run : List Byte) (k : Nat) : Nat :=
  if t = 6#4 then
    let b := (run[18 * (k / 32) + k % 32 / 2]?.getD 0#8).toNat
    if k % 2 = 0 then b % 16 else b / 16
  else natOfBytes ((run.drop (k * codeSize t)).take (codeSize t))

/-- The (scale, spare) pair of block b of a run: scale + 256 × spare. -/
def runPair (run : List Byte) (b : Nat) : Nat := natOfBytes ((run.drop (18 * b + 16)).take 2)

/-- B(k, j) of `ma.ldst` from its runs (R287). -/
def ldElem (c : EngCmd) (raw : List (List Byte)) (k j : Nat) : Nat :=
  if ldAlongK c then runElem (maType c) (raw[j]?.getD []) k
  else runElem (maType c) (raw[k]?.getD []) j

/-- The 16 bits of a plane row's cell: its k-steps from the low bits up (R277). -/
def packCell (c : EngCmd) (raw : List (List Byte)) (r j : Nat) : Nat :=
  let q := maQ c
  (List.range q).foldl (fun v m => v + ldElem c raw (r * q + m) j * 2 ^ (16 / q * m)) 0

/-- Replace the keys of [lo, hi) in a map; zeros are not listed. -/
def AMap.splice (m : AMap Nat) (lo hi : Nat) (new : AMap Nat) : AMap Nat :=
  m.filter (fun e => decide (e.1 < lo)) ++ new.filter (fun e => e.2 != 0) ++ m.filter (fun e => decide (hi ≤ e.1))

/-- Load plane rows into the shadow plane (R287). -/
def Sett.load (t : Sett) (c : EngCmd) (raw : List (List Byte)) : Sett :=
  let sh := 1 - t.active
  let lo := sh * 32768 + maRow0 c * 128
  let cells : AMap Nat := (List.range (ldRows c * 128)).map (fun i =>
    (lo + i, if i % 128 < ldCols c then packCell c raw (i / 128) (i % 128) else 0))
  let t1 := { t with planes := t.planes.splice lo (lo + ldRows c * 128) cells }
  let t2 :=
    if maType c = 6#4 then
      let b0 := sh * 4096 + 4 * maRow0 c / 32 * 128
      let n := ldRows c / 8 * 128
      let new : AMap Nat := (List.range n).map (fun i => (b0 + i, if i % 128 < ldCols c then runPair (raw[i % 128]?.getD []) (i / 128) else 0))
      { t1 with pairs := t1.pairs.splice b0 (b0 + n) new }
    else t1
  if sh = 0 then { t2 with tag0 := typeTag c } else { t2 with tag1 := typeTag c }

/-- The value of bits of a float type or of an e2m1x code with its pair. -/
def maValue (t : BitVec 4) (bits pair : Nat) : FVal :=
  if t = 6#4 then blockElem bits (pair % 256) (pair / 256) else floatVal ((tyOfCode t).getD .f32) bits

/-- The type code of a plane's tag. -/
def tagType (tag : Nat) : BitVec 4 := BitVec.ofNat 4 (tag - 1)

/-- B(kb + k, j) of the active plane (R277, R288). -/
def Sett.bAt (t : Sett) (k j : Nat) : Nat × Nat :=
  let tag := if t.active = 0 then t.tag0 else t.tag1
  let q := kStepsPerRow (tagType tag)
  let cell := AMap.get 0 t.planes (t.active * 32768 + k / q * 128 + j)
  (bitsOf cell (16 / q * (k % q)) (16 / q), AMap.get 0 t.pairs (t.active * 4096 + k / 32 * 128 + j))

/-- The accumulator plane p. -/
def Sett.acc (t : Sett) (p : Nat) : AMap Nat := if p = 0 then t.acc0 else t.acc1

/-- One cell after the k-steps of a stream (R141, R288): no flag is raised. -/
def Sett.cellAfter (t : Sett) (c : EngCmd) (run : List Byte) (old j : Nat) : Nat :=
  let kb := maRow0 c * maQ c
  let tag := tagType (if t.active = 0 then t.tag0 else t.tag1)
  (List.range (stK c)).foldl (fun v k =>
    let a := runElem (maType c) run k
    let b := t.bAt (kb + k) j
    if maType c = 8#4 then wrapInt ((v : Int) + sintOf a 8 * sintOf b.1 8) 32
    else (fmaVal .f32 .rne false 0 (maValue (maType c) a (runPair run (k / 32))) (maValue tag b.1 b.2) (floatVal .f32 v)).1) old

/-- Replace an accumulator plane and its tag. -/
def Sett.setAcc (t : Sett) (p : Nat) (a : AMap Nat) (tag : Nat) : Sett :=
  if p = 0 then { t with acc0 := a, atag0 := tag } else { t with acc1 := a, atag1 := tag }

/-- Accumulate a stream into its plane (R288). -/
def Sett.streamed (t : Sett) (c : EngCmd) (raw : List (List Byte)) : Sett :=
  let p := maPlane c
  let n := maRows c * 128
  let new : AMap Nat := (List.range n).map (fun i => (i, t.cellAfter c (raw[i / 128]?.getD []) (AMap.get 0 (t.acc p) i) (i % 128)))
  t.setAcc p ((t.acc p).splice 0 n new) (accTag c)

/-- Note when a drain of accumulator p may start: 256 cycles after a last entry (R282). -/
def Sett.entered (t : Sett) (p at_ : Nat) : Sett := if p = 0 then { t with enter0 := at_ } else { t with enter1 := at_ }

/-- Mark every drain that follows a command in its job (R283). -/
def markDrains (id : Nat) : Bool → List MaCmd → List MaCmd
  | _, [] => []
  | after, m :: r =>
    let m1 := if after && m.kind == 4 then { m with bad := true } else m
    if after && maCloses m.kind m.c then m1 :: r else m1 :: markDrains id (after || m.id == id) r

/-- The element bits drained for a cell (R139, R290). -/
def drainBits (m : MaCmd) (tag cell i j : Nat) : Nat :=
  let td := (tyOfCode (maType m.c)).getD .f32
  if tag = 0 then 0
  else if tag = 2 then (if td = .i32 then cell else intResult .i8 (bitOf m.c.p.toNat 24) (sintOf cell 32))
  else if td = .f32 then cell
  else
    let dr := if m.rm = 5 then drawWord m.seed.toNat m.rank m.stream ((m.draw + i * drCols m.c + j) % 2 ^ 64) else 0
    (convertFloat td ((rmodeOfCode m.rm).getD .rne) (bitOf m.c.p.toNat 24) dr (floatVal .f32 cell)).1

/-- The command's access context. -/
def MaCmd.ctx (m : MaCmd) (c : Nat) : EngCtx := ⟨c, m.world, m.pc.toNat⟩

/-- Replace a command in a core's queue. -/
def Core.putMa (k : Core) (m : MaCmd) : Core := { k with mq := k.mq.map (fun x => if x.id == m.id then m else x) }

/-- A drain that cannot write: E in its clasp, nothing written or added (R290). It waits if the clasp's page does. -/
def State.drainFails (s : State) (c : Nat) (m : MaCmd) : State :=
  match s.claspNow (m.ctx c) m.clasp m.stamp Clasp.setE with
  | some s1 => s1.modCore c (fun k => k.putMa { m with bad := true, rows := maRows m.c, fault := none, owed := 0 })
  | none => s.modCore c (fun k => k.putMa { m with bad := true, fault := some m.clasp })

/-- Start a load or a stream: its sources are read now (R83, R283, R287, R288). -/
def State.startRead (s : State) (n c : Nat) (m : MaCmd) : State :=
  let runs := sourceRuns m.kind m.c m.pitch
  match s.spadOf c m.base with
  | none => s
  | some (o, off) =>
    let raw := ((readRuns (s.core o) off runs).zip runs).map (fun r => s.runTaken o (off + r.2.1) r.1)
    let s := runs.foldl (fun s r => s.took (s.core o).world (.spad o (off + r.1)) r.2) s
    let t := s.sett n
    let t := if m.kind = 0 then t.load m.c raw
      else (t.streamed m.c raw).entered (maPlane m.c) (s.cycle + maBusy 3 m.c + 255)
    let met := runsMeet (s.core o) off runs
    let s1 := s.putSett n { t with jobBad := t.jobBad || met }
    let s2 := match runs.find? (fun r => poisonHit (s.core o).spoison (off + r.1) r.2) with
      | some r => s1.noteUnread (.spad o (off + r.1)) m.world
      | none => s1
    if met then s2.modCore c (fun k => { k with mq := markDrains m.id false k.mq }) else s2

/-- The effect of a command at its start (R282, R287 to R290). -/
def State.maEffect (s : State) (n c : Nat) (m : MaCmd) : State :=
  let t := s.sett n
  match m.kind with
  | 0 => s.startRead n c m
  | 1 => s.putSett n { t with active := 1 - t.active }
  | 2 => s.putSett n ((t.setAcc (maPlane m.c) [] 0).entered (maPlane m.c) (s.cycle + 256))
  | 3 => s.startRead n c m
  | 4 =>
    if m.bad || drainHopeless (s.core c) m then s.drainFails c m
    else if drCb m.c then
      let x := (s.core c).handle m.c.x.toNat
      s.modCore c (fun k => (k.putHandle m.c.x.toNat (x.startProd (drainSlots k m))).putMa { m with win := some (m.c.x.toNat, x.prodFirst) })
    else s
  | _ => s

/-- MA_COMMAND_START (R282): command i of the granted job starts once its conditions hold. -/
def execMaCommandStart (sett i : Nat) (s : State) : Host.Outcome State Fault Refusal :=
  match s.maStartable sett i with
  | none => .next s
  | some (c, m) =>
    let m1 := { m with started := true, start := s.cycle, due := s.cycle + maBusy m.kind m.c }
    .next ((s.modCore c (fun k => k.putMa m1)).maEffect sett c m1)

/-! ## Draining (R290) -/

/-- The drain that is shifting out of a sett's array, with its core. -/
def State.maDraining (s : State) (n : Nat) : Option (Nat × MaCmd) :=
  match (s.sett n).granted with
  | none => none
  | some c => ((jobPart (s.core c).mq).find? (fun m => m.kind == 4 && m.started && !m.drained)).map (fun m => (c, m))

/-- The cycle by which a drain's next row is written (R290). -/
def MaCmd.rowDue (m : MaCmd) : Nat :=
  m.start + max (m.rows + 1) (ceilDiv ((m.rows + 1) * drCols m.c * maSize m.c) 256) + 8

/-- The bytes of a drained row (R290). -/
def rowBytes (t : Sett) (m : MaCmd) : List Byte :=
  let p := maPlane m.c
  let tag := if p = 0 then t.atag0 else t.atag1
  (List.range (drCols m.c)).flatMap (fun j =>
    bytesOf (maSize m.c) (drainBits m tag (AMap.get 0 (t.acc p) (m.rows * 128 + j)) m.rows j))

/-- Where a drained row's bytes go: in a cb handle they wrap around the buffer (R255, R290). -/
def rowPlaces (k : Core) (m : MaCmd) (bs : List Byte) : List (Nat × List Byte) :=
  let o := m.rows * m.pitch
  match m.win with
  | none => [((m.base + o) % 2 ^ 64, bs)]
  | some (h, first) =>
    let x := k.handle h
    let size := max 1 (x.nslot * x.ssz)
    let at_ := (first * x.ssz + o) % size
    let b := 0x00FFFFFFFFF00000 + x.base
    if at_ + bs.length ≤ size then [(b + at_, bs)] else [(b + at_, bs.take (size - at_)), (b, bs.drop (size - at_))]

/-- Write a row; every place is checked before any is written. -/
def writeRow (id : Nat) (x : EngCtx) (places : List (Nat × List Byte)) : EngM Unit := do
  places.forM (fun p => do
    let _ ← engPlace x p.1 p.2.length true
    pure ())
  places.forM (fun p => engPut id x [] p.1 p.2)

/-- Count the row that is written: the addition waits if the clasp's page does (R100, R290). -/
def State.drainCount (s : State) (c : Nat) (m : MaCmd) : State :=
  match s.claspNow (m.ctx c) m.clasp m.stamp (fun x => x.add m.owed) with
  | some s1 => (s1.noteCounted (m.ctx c) m.clasp m.id).modCore c (fun k => k.putMa { m with owed := 0, fault := none })
  | none => s.modCore c (fun k => k.putMa { m with fault := some m.clasp })

/-- Write and count the next row of a drain (R290). -/
def State.drainRow (s : State) (n c : Nat) (m : MaCmd) : State :=
  if m.bad then s.drainFails c m
  else if m.owed ≠ 0 then s.drainCount c m
  else
    match writeRow m.id (m.ctx c) (rowPlaces (s.core c) m (rowBytes (s.sett n) m)) ⟨s, m.stamp⟩ with
    | .ok (_, e) => e.s.drainCount c { m with rows := m.rows + 1, stamp := e.stamp, owed := drCols m.c * maSize m.c }
    | .error _ => s.drainFails c m

/-- Whether a load or stream that stands before a command in its job has still to start: it may yet find register bytes, and
then the command, a drain, must have written nothing (R283). -/
def readAhead (m : MaCmd) (job : List MaCmd) : Bool :=
  (job.takeWhile (fun e => e.id != m.id)).any (fun e => (e.kind == 0 || e.kind == 3) && !e.started)

/-- Whether a drain's next row can be written now; none is written before the reads that may mark the drain have started
(R283, R290; log 39). -/
def State.maRowReady (s : State) (n : Nat) : Option (Nat × MaCmd) :=
  match s.maDraining n with
  | some (c, m) =>
    if m.fault.isNone ∧ (m.owed ≠ 0 ∨ m.rowDue ≤ s.cycle) ∧ (m.rows ≠ 0 ∨ m.bad = true ∨ readAhead m (jobPart (s.core c).mq) = false)
    then some (c, m) else none
  | none => none

/-- MA_DRAIN_ROW (R290). -/
def execMaDrainRow (sett : Nat) (s : State) : Host.Outcome State Fault Refusal :=
  match s.maRowReady sett with
  | none => .next s
  | some (c, m) => .next (s.drainRow sett c m)

/-! ## Completion (R284) -/

/-- Whether command i of the granted job completes now. -/
def State.maEndable (s : State) (n i : Nat) : Option (Nat × MaCmd) :=
  match (s.sett n).granted with
  | none => none
  | some c =>
    match (jobPart (s.core c).mq)[i]? with
    | none => none
    | some m =>
      if m.started ∧ m.due ≤ s.cycle ∧ (m.kind ≠ 4 ∨ m.drained = true) then some (c, m) else none

/-- MA_COMMAND_COMPLETE (R282, R284, R290): the entry is freed, a drain clears its plane if CLR and completes its
producer, and a closing command frees the array 2 cycles later. -/
def execMaCommandComplete (sett i : Nat) (s : State) : Host.Outcome State Fault Refusal :=
  match s.maEndable sett i with
  | none => .next s
  | some (c, m) =>
    let s1 := s.modCore c (fun k =>
      let k := { k with mq := k.mq.filter (fun x => x.id != m.id) }
      match m.win with
      | some (h, first) => k.putHandle h ((k.handle h).endProd first)
      | none => k)
    let t := s1.sett sett
    let t := if m.kind = 4 ∧ bitOf m.c.p.toNat 23 = true then t.setAcc (maPlane m.c) [] 0 else t
    let t := if maCloses m.kind m.c then { t with granted := none, freeAt := s.cycle + 2, jobBad := false } else t
    .next (s1.putSett sett t)

/-- Whether a core with nothing left to run has an open job with no closing command queued (R285). -/
def State.maCloseable (s : State) (c : Nat) : Bool :=
  let k := s.core c
  k.jobOpen && (List.range 16).all (fun i => (k.slot i).ws.isNone && (k.slot i).switching.isNone) && k.readyHead.isNone

/-- The bare closing command. -/
def endCmd : EngCmd := ⟨0, 0, 0, 0, 0⟩

/-- MA_JOB_AUTO_CLOSE (R285): the core closes the job as `ma.end` would. -/
def execMaJobAutoClose (core : Nat) (s : State) : Host.Outcome State Fault Refusal :=
  if s.maCloseable core then
    let q : MaCmd := ⟨s.nextId, 0, 0, 5, endCmd, 0, 0, 0, 0, 0, 0, 0, 0, (s.core core).world, 0, s.pts core, false, 0, 0, 0, false, none, none, 0, s.cycle⟩
    .next ({ s with nextId := s.nextId + 1 }.modCore core (fun k => { k with mq := k.mq ++ [q], jobOpen := false }))
  else .next s

/-! ## The instructions (R286 to R291) -/

/-- `ma.ldst` (R287). -/
def execMaLdst (c : EngCmd) (s : State) : Host.Outcome State Fault Refusal := s.maIssue 0 c
/-- `ma.swap` (R289). -/
def execMaSwap (c : EngCmd) (s : State) : Host.Outcome State Fault Refusal := s.maIssue 1 c
/-- `ma.zero` (R289). -/
def execMaZero (c : EngCmd) (s : State) : Host.Outcome State Fault Refusal := s.maIssue 2 c
/-- `ma.stream` (R288). -/
def execMaStream (c : EngCmd) (s : State) : Host.Outcome State Fault Refusal := s.maIssue 3 c
/-- `ma.drain` (R290). -/
def execMaDrain (c : EngCmd) (s : State) : Host.Outcome State Fault Refusal := s.maIssue 4 c
/-- `ma.end` (R289). -/
def execMaEnd (c : EngCmd) (s : State) : Host.Outcome State Fault Refusal := s.maIssue 5 c

/-- `ma.wait` (R291): it parks until every array command the core issued before it has completed. -/
def execMaWait (_c : EngCmd) (s : State) : Host.Outcome State Fault Refusal :=
  if s.cur.mq.isEmpty then .next (s.finish 1) else .next (s.parkCur (.maWait s.nextId))

end Sys2Proof.Machine
end

