-- ==== Sys2Proof/Machine/Copy.lean ====
section
/-! DEFINITION. The copy engine: issue (R292 to R294), running a copy, a gather or a scatter piece by piece (R294 to
R296), and collectives (R142, R297, R298). -/

namespace Sys2Proof.Machine

/-! ## Descriptors (R295 to R297) -/

/-- A signed 64-bit field of a descriptor. -/
def descInt (d : List Byte) (off : Nat) : Int := sintOf (descNum d off 8) 64

/-- What a copy command asks for: run length, runs along level 1 and in all, and its destination handle. -/
structure CopyPlan where
  l0 : Nat
  n1 : Nat
  runs : Nat
  handle : Option Nat
  deriving DecidableEq, Repr

/-- The plan of a well-formed `dma.cp` descriptor (R295). -/
def cpPlan (d : List Byte) : Option CopyPlan :=
  let w := descNum d 0x10 8
  let dcb := bitOf w 63
  let n2 := bitsOf w 36 12 + 1
  let n1 := bitsOf w 24 12 + 1
  let l0 := bitsOf w 0 24
  let dst := descNum d 8 8
  if bitsOf w 48 15 ≠ 0 ∨ l0 = 0 ∨ descNum d 0x18 8 ≠ 0 ∨ 2 ^ 24 < l0 * n1 * n2 ∨ (dcb = true ∧ 16 ≤ dst) then none
  else some ⟨l0, n1, n1 * n2, if dcb then some dst else none⟩

/-- Index size and signedness of an ITYPE (R296). -/
def indexType (t : Nat) : Option (Nat × Bool) :=
  match t with
  | 0xA => some (4, true)
  | 0xB => some (8, true)
  | 0xE => some (4, false)
  | 0xF => some (8, false)
  | _ => none

/-- The plan of a well-formed `dma.gt` or `dma.sc` descriptor (R296). -/
def gsPlan (d : List Byte) : Option CopyPlan :=
  let w := descNum d 0x18 8
  let n := bitsOf w 24 24 + 1
  let l0 := bitsOf w 0 24
  match indexType (bitsOf w 52 4) with
  | none => none
  | some (z, _) =>
    if bitsOf w 56 8 ≠ 0 ∨ bitsOf w 48 4 ≠ 0 ∨ l0 = 0 ∨ descNum d 0x28 8 ≠ 0 ∨ descNum d 0x30 8 ≠ 0 ∨
        descNum d 0x38 8 ≠ 0 ∨ 2 ^ 24 < l0 * n ∨ descNum d 0x10 8 % z ≠ 0 then none
    else some ⟨l0, 1, n, none⟩

/-- The plan of a descriptor by the command's kind: 0 cp, 1 gt, 2 sc. -/
def copyPlan (kind : Nat) (d : List Byte) : Option CopyPlan := if kind = 0 then cpPlan d else gsPlan d

/-- Pieces of one run: a run longer than 4 KiB is written and counted by 4 KiB pieces (R294). -/
def CopyPlan.perRun (p : CopyPlan) : Nat := ceilDiv p.l0 4096

/-- Pieces of the command. -/
def CopyPlan.pieces (p : CopyPlan) : Nat := p.runs * p.perRun

/-- Source and destination of run i of `dma.cp`, the destination as an offset from DST (R295). -/
def cpRun (d : List Byte) (p : CopyPlan) (i : Nat) : Int × Int :=
  let i1 : Int := ((i % p.n1 : Nat) : Int)
  let i2 : Int := ((i / p.n1 : Nat) : Int)
  ((descNum d 0 8 : Nat) + i1 * descInt d 0x20 + i2 * descInt d 0x28, i1 * descInt d 0x30 + i2 * descInt d 0x38)

/-- Lowest and highest destination offset of `dma.cp` (R295). -/
def cpSpan (d : List Byte) (p : CopyPlan) : Int × Int :=
  let a := ((p.n1 - 1 : Nat) : Int) * descInt d 0x30
  let b := ((p.runs / p.n1 - 1 : Nat) : Int) * descInt d 0x38
  (min 0 a + min 0 b, max 0 a + max 0 b + ((p.l0 - 1 : Nat) : Int))

/-- Slots of a cb destination (R255, R295). -/
def cpSlots (k : Core) (d : List Byte) (p : CopyPlan) (h : Nat) : Nat :=
  ceilDiv ((cpSpan d p).2 + 1).toNat (max 1 (k.handle h).ssz)

/-- Whether a cb destination is rejected (R253, R255, R295). -/
def cpRejects (k : Core) (d : List Byte) (p : CopyPlan) (h : Nat) : Bool :=
  !(k.handle h).v || decide ((cpSpan d p).1 < 0) || decide ((k.handle h).nslot < cpSlots k d p h)

/-! ## Issue (R292 to R294, R298) -/

/-- The command a thread queues. -/
def State.copyCmd (s : State) (kind : Nat) (c : EngCmd) : CopyCmd where
  id := s.nextId
  core := s.actCore
  ws := s.curWs
  world := s.cur.world
  pc := s.curTask.pc
  kind := kind
  desc := (s.rd c.x).toNat
  clasp := (s.rd c.z).toNat
  stamp := s.pts s.actCore
  coll := if kind = 3 then s.curTask.gang.map (fun g => (g, s.curTask.colls)) else none

/-- Add a member's command to its collective (R298). -/
def Gang.addColl (g : Gang) (m rank : Nat) (q : CopyCmd) : Gang :=
  if g.colls.any (fun x => x.m == m) then
    { g with colls := g.colls.map (fun x => if x.m == m then { x with cmds := AMap.put x.cmds rank q } else x) }
  else { g with colls := g.colls ++ [⟨m, [(rank, q)], false, none, [], none, false, [], none⟩] }

/-- Put a command into the copy queue, and a member's collective into its gang's (R292, R298). -/
def State.copyEnqueue (s : State) (kind : Nat) (c : EngCmd) : State :=
  let q := s.copyCmd kind c
  let s1 := { s with nextId := s.nextId + 1 }.modCore s.actCore (fun k => { k with cq := k.cq ++ [q] })
  let s2 := match q.coll with
    | some (g, m) =>
      (s1.putGang g ((s1.gang g).addColl m (s.rankOf s.actCore s.curWs) q)).modCurTask (fun t => { t with colls := t.colls + 1 })
    | none => s1
  s2.finish 1

/-- The access context of a command. -/
def CopyCmd.ctx (q : CopyCmd) : EngCtx := ⟨q.core, q.world, q.pc.toNat⟩

/-- Issue a copy command (R292, R294): only its clasp is checked. A collective of a task that is no member sets E at once
(R298). -/
def State.copyIssue (s : State) (kind : Nat) (c : EngCmd) : Host.Outcome State Fault Refusal :=
  let s := s.drainReds
  match s.claspIssue (s.rd c.z).toNat with
  | some t => .next (s.takeTrap t)
  | none =>
    let q := s.copyCmd kind c
    if kind = 3 ∧ q.coll = none then .next ((s.spoilClasp q.ctx q.clasp q.stamp).finish 1)
    else if 8 ≤ s.cur.cq.length then .next (s.parkCur .cqFull)
    else .next (s.copyEnqueue kind c)

/-! ## Places (R292, R298) -/

/-- A place of a sett's copy engine that is free. -/
def Sett.freePlace (t : Sett) : Option Nat := (List.range 4).find? (fun i => (AMap.find t.places i).isNone)

/-- Whether a command is in a place; one place of a sett stands for all its members' commands of a collective (R298). -/
def Sett.running (t : Sett) (q : CopyCmd) : Bool :=
  t.places.any (fun p => p.2.cmd.id == q.id || (q.coll.isSome && p.2.cmd.coll == q.coll))

/-- A collective of a gang. -/
def Gang.coll? (g : Gang) (m : Nat) : Option Coll := g.colls.find? (fun x => x.m == m)

/-- Replace a collective. -/
def Gang.putColl (g : Gang) (x : Coll) : Gang := { g with colls := g.colls.map (fun y => if y.m == x.m then x else y) }

/-- The setts that hold members of a gang. -/
def State.gangSetts (s : State) (g : Nat) : List Nat := ((s.gang g).cores.map (fun c => s.settOf c)).eraseDups

/-- Whether a command is a collective that still lacks a member: it is pending, outside the engine (R298). -/
def State.pending (s : State) (q : CopyCmd) : Bool :=
  match q.coll with
  | none => false
  | some (g, m) => match (s.gang g).coll? m with
    | none => true
    | some x => x.cmds.length != (s.gang g).size

/-- Whether every copy that a core has issued before its member's command of a collective has started (R292). -/
def State.collFirst (s : State) (n : Nat) (q : CopyCmd) : Bool :=
  match q.coll with
  | none => true
  | some (g, m) => match (s.gang g).coll? m with
    | none => false
    | some x => x.cmds.all (fun e => s.settOf e.2.core != n || (((s.core e.2.core).cq.takeWhile (fun y => y.id != e.2.id)).all
        (fun y => y.coll.isSome || (s.sett n).running y)))

/-- The command of a core that its sett's engine may take: the oldest that has not started, pending collectives apart, if
the collective it belongs to comes after no copy that has not started (R292, R298). -/
def State.copyHead (s : State) (n c : Nat) : Option CopyCmd :=
  match (s.core c).cq.find? (fun q => !((s.sett n).running q) && !(s.pending q)) with
  | some q => if s.collFirst n q then some q else none
  | none => none

/-- The command the engine takes next: the oldest of the next core in round-robin order (R292). -/
def State.copyChoice (s : State) (n : Nat) : Option (Nat × CopyCmd) :=
  let l := s.settCores n
  let t := s.sett n
  if t.freePlace.isNone then none
  else
    (List.range l.length).findSome? (fun i =>
      let j := (t.lastCore + 1 + i) % max 1 l.length
      match l[j]? with
      | none => none
      | some c => (s.copyHead n c).map (fun q => (j, q)))

/-- A command entering a place. -/
def CopyRun.of (q : CopyCmd) : CopyRun := ⟨q, none, 0, false, false, none, none, [], none, 0, 0, [], [], none⟩

/-- Put a run into a free place of a sett. -/
def State.takePlace (s : State) (n : Nat) (r : CopyRun) : State :=
  match (s.sett n).freePlace with
  | none => s
  | some i => s.putSett n { s.sett n with places := AMap.put (s.sett n).places i r }

/-- A collective takes its place in one of the setts that hold members; with the last of them it runs (R298). -/
def State.startColl (s : State) (n g m : Nat) (q : CopyCmd) : State :=
  let s1 := s.takePlace n (CopyRun.of q)
  match (s1.gang g).coll? m with
  | none => s1
  | some x => s1.putGang g ((s1.gang g).putColl { x with running := (s1.gangSetts g).all (fun n => (s1.sett n).running q) })

/-! ## Running a piece (R294 to R296) -/

/-- The descriptor of a command, read by the engine (R293). -/
def readDesc (q : CopyCmd) (fab : FabData) : EngM (List Byte) := engRead q.ctx fab q.desc 64

/-- The address and size of index i, and whether it is signed (R296). -/
def indexPlace (d : List Byte) (i : Nat) : Nat × Nat × Bool :=
  let (z, sg) := (indexType (bitsOf (descNum d 0x18 8) 52 4)).getD (8, true)
  ((descNum d 0x10 8 + i * z) % 2 ^ 64, z, sg)

/-- Index i of a gather or a scatter as it lies in its list, read once for all the pieces of its run (R296); 0 for a copy. -/
def indexRead (r : CopyRun) (d : List Byte) (i : Nat) : EngM Nat :=
  if r.cmd.kind = 0 then pure 0
  else match r.index.filter (fun x => x.1 == i) with
    | some x => pure x.2
    | none => engNum r.cmd.ctx r.fab (indexPlace d i).1 (indexPlace d i).2.1

/-- Source and destination of run i, its index given; for a cb destination the window offset (R295, R296). -/
def runEnds (kind : Nat) (d : List Byte) (p : CopyPlan) (i raw : Nat) : Int × Int :=
  if kind = 0 then
    let (a, b) := cpRun d p i
    (a, if p.handle.isSome then b else (descNum d 8 8 : Nat) + b)
  else
    let (_, z, sg) := indexPlace d i
    let x : Int := if sg then sintOf raw (8 * z) else (raw : Int)
    let far : Int := x * descInt d 0x20
    let near : Int := ((i * p.l0 : Nat) : Int)
    let (a, b) := if kind = 1 then (far, near) else (near, far)
    ((descNum d 0 8 : Nat) + a, (descNum d 8 8 : Nat) + b)

/-- Source and destination of piece j, the index of its run given: addresses, its bytes, and for a cb destination the window
offset. -/
def pieceOf (kind : Nat) (d : List Byte) (p : CopyPlan) (j raw : Nat) : Nat × Nat × Nat :=
  let o := j % p.perRun * 4096
  let e := runEnds kind d p (j / p.perRun) raw
  (wrapInt (e.1 + (o : Int)) 64, wrapInt (e.2 + (o : Int)) 64, min 4096 (p.l0 - o))

/-- Where a piece's bytes go: around the buffer for a cb destination (R255). -/
def piecePlaces (k : Core) (win : Option (Nat × Nat)) (dst : Nat) (bs : List Byte) : List (Nat × List Byte) :=
  match win with
  | none => [(dst, bs)]
  | some (h, first) =>
    let x := k.handle h
    let size := max 1 (x.nslot * x.ssz)
    let at_ := (first * x.ssz + dst) % size
    let b := 0x00FFFFFFFFF00000 + x.base
    if at_ + bs.length ≤ size then [(b + at_, bs)] else [(b + at_, bs.take (size - at_)), (b, bs.drop (size - at_))]

/-- Where run i of `dma.cp` goes: addresses and lengths. -/
def cpSpans (k : Core) (win : Option (Nat × Nat)) (d : List Byte) (p : CopyPlan) (i : Nat) : List (Nat × Nat) :=
  let b := (cpRun d p i).2
  match win with
  | none => [(wrapInt ((descNum d 8 8 : Nat) + b) 64, p.l0)]
  | some (h, first) =>
    let x := k.handle h
    let size := max 1 (x.nslot * x.ssz)
    let at_ := (first * x.ssz + wrapInt b 64) % size
    let a := 0x00FFFFFFFFF00000 + x.base
    if at_ + p.l0 ≤ size then [(a + at_, p.l0)] else [(a + at_, size - at_), (a, p.l0 - (size - at_))]

/-- Whether n bytes at the place x meet m bytes at the place y; places step by two (`State.placeKey`). -/
def placesMeet (x n y m : Nat) : Bool := x % 2 == y % 2 && decide (x < y + 2 * m) && decide (y < x + 2 * n)

/-- Whether a source piece lies between the ends of what a `dma.cp` writes. -/
def State.cpNear (s : State) (r : CopyRun) (d : List Byte) (p : CopyPlan) (src n : Nat) : Bool :=
  let c := r.cmd.core
  let lo := s.placeKey c (wrapInt ((descNum d 8 8 : Nat) + (cpSpan d p).1) 64)
  let hi := s.placeKey c (wrapInt ((descNum d 8 8 : Nat) + (cpSpan d p).2) 64)
  r.cmd.kind == 0 && (r.win.isSome || ((hi : Int) - lo != 2 * ((cpSpan d p).2 - (cpSpan d p).1)) ||
    placesMeet (s.placeKey c src) n lo ((hi - lo) / 2 + 1))

/-- The places that a `dma.cp` writes and that meet a source piece of its run i; a run whose source is its own destination
does not count for itself. -/
def State.cpMet (s : State) (r : CopyRun) (d : List Byte) (p : CopyPlan) (src n : Nat) : List (Nat × Nat) :=
  let c := r.cmd.core
  let own := r.next / p.perRun
  if s.cpNear r d p src n then
    ((List.range p.runs).flatMap (fun i => ((cpSpans (s.core c) r.win d p i).filter (fun x =>
      placesMeet (s.placeKey c src) n (s.placeKey c x.1) x.2 &&
        !(i == own && s.placeKey c x.1 + 2 * (r.next % p.perRun * 4096) == s.placeKey c src))).map (fun x => (s.placeKey c x.1, x.2))))
  else []

/-- How far into run i of a `dma.cp` it writes a place, if it does. -/
def State.cpInto (s : State) (r : CopyRun) (d : List Byte) (p : CopyPlan) (place i : Nat) : Option Nat :=
  let c := r.cmd.core
  let at_ (base : Nat) (x : Nat × Nat) : Option Nat :=
    let k := s.placeKey c x.1
    if placesMeet place 1 k x.2 then some (base + (place - k) / 2) else none
  match cpSpans (s.core c) r.win d p i with
  | [x] => at_ 0 x
  | [x, y] => (at_ 0 x).or (at_ x.2 y)
  | _ => none

/-- The bytes that runs of a `dma.cp` are still to write at a place, by run and byte of the run, apart from those that are being
worked out. -/
def State.cpComing (s : State) (r : CopyRun) (d : List Byte) (p : CopyPlan) (place : Nat) (busy : List (Nat × Nat)) : List (Nat × Nat) :=
  ((List.range p.runs).filterMap (fun i => (s.cpInto r d p place i).map (fun o => (i, o)))).filter
    (fun x => decide (r.next ≤ x.1 * p.perRun + x.2 / 4096) && !(busy.contains x))

/-- Whether nothing stops the pieces of a `dma.cp` from the present one to piece j, as things stand. -/
def cpReaches (e : Eng) (r : CopyRun) (d : List Byte) (p : CopyPlan) (j : Nat) : Bool :=
  (List.range (j + 1)).all (fun k => decide (k < r.next) ||
    (let (src, dst, n) := pieceOf 0 d p k 0
     let look : EngM Unit := do
       let bs ← engRead r.cmd.ctx r.fab src n
       (piecePlaces (e.s.core r.cmd.core) r.win dst bs).forM (fun x => (pieces 4096 x.1 x.2.length).forM (fun y => do
         let l ← engPlace r.cmd.ctx (y.1 % 2 ^ 64) y.2 true
         match l with
         | .fabric _ _ => fun _ => .error (.bad none)
         | _ => pure ()))
     match look e with
     | .ok _ => true
     | .error _ => false))

/-- The byte that run i of a `dma.cp` takes for its byte o, where its source holds `now`: where runs of the command write the
source, a free value picks among the byte that stands there, one that stood there, and one that a run is still to write there
(R295). The last is worked out now and settled with all that it rests on, so that the run will write it; `busy` are the bytes
being worked out. -/
def cpByte (r : CopyRun) (d : List Byte) (p : CopyPlan) : Nat → List (Nat × Nat) → Nat × Nat → Byte →
    Eng × List (Nat × Nat × Byte) → Byte × Eng × List (Nat × Nat × Byte)
  | 0, _, _, now, x => (now, x)
  | fuel + 1, busy, at_, now, (e, fixed) =>
    match fixed.find? (fun x => x.1 == at_.1 && x.2.1 == at_.2) with
    | some x => (x.2.2, e, fixed)
    | none =>
      let place := e.s.placeKey r.cmd.core (wrapInt ((cpRun d p at_.1).1 + (at_.2 : Int)) 64)
      let stood := now :: (r.olds.filter (fun x => x.1 == place)).map (fun x => x.2)
      let coming := e.s.cpComing r d p place (at_ :: busy)
      let k := (Config.freeValue e.s.freeCount).toNat % (stood.length + coming.length)
      let e := { e with s := { e.s with freeCount := e.s.freeCount + 1 } }
      let t : Byte × Eng × List (Nat × Nat × Byte) :=
        if k < stood.length then (stood[k]?.getD now, e, fixed)
        else match coming[k - stood.length]? with
          | none => (now, e, fixed)
          | some c =>
            match cpReaches e r d p (c.1 * p.perRun + c.2 / 4096), engRead r.cmd.ctx r.fab (wrapInt ((cpRun d p c.1).1 + (c.2 : Int)) 64) 1 e with
            | true, .ok ([b], _) => cpByte r d p fuel (at_ :: busy) c b (e, fixed)
            | _, _ => (now, e, fixed)
      (t.1, t.2.1, t.2.2 ++ [(at_.1, at_.2, t.1)])

/-- The bytes a piece takes from byte o of run i on, those of `met` picked (R295). -/
def cpBytes (r : CopyRun) (d : List Byte) (p : CopyPlan) (met : Nat → Bool) (i : Nat) : Nat → List Byte →
    Eng × List (Nat × Nat × Byte) → List Byte × Eng × List (Nat × Nat × Byte)
  | _, [], x => ([], x)
  | o, b :: bs, x =>
    let t := if met o || x.2.any (fun y => y.1 == i && y.2.1 == o) then cpByte r d p (p.runs * p.l0) [] (i, o) b x else (b, x)
    let u := cpBytes r d p met i (o + 1) bs t.2
    (t.1 :: u.1, u.2)

/-- The bytes a `dma.cp` takes from the source of its next piece, and what they settle of the bytes its runs are still to write
(R295; log 3). -/
def cpTaken (r : CopyRun) (d : List Byte) (p : CopyPlan) (src : Nat) (bs : List Byte) :
    EngM (List Byte × List (Nat × Nat × Byte)) := fun e =>
  let places := e.s.cpMet r d p src bs.length
  if places.isEmpty && r.fixed.isEmpty then .ok ((bs, []), e)
  else
    let i := r.next / p.perRun
    let o := r.next % p.perRun * 4096
    let met (k : Nat) : Bool := places.any (fun x => placesMeet (e.s.placeKey r.cmd.core (src + k - o)) 1 x.1 x.2)
    let t := cpBytes r d p met i o bs (e, r.fixed)
    .ok ((t.1, t.2.2.filter (fun x => decide (r.next < x.1 * p.perRun + x.2.1 / 4096))), t.2.1)

/-- Whether what a `dma.cp` reads may meet what it writes: then the bytes it replaces are kept. -/
def State.cpSelf (s : State) (r : CopyRun) (d : List Byte) (p : CopyPlan) : Bool :=
  (List.range p.runs).any (fun i => s.cpNear r d p (wrapInt (cpRun d p i).1 64) p.l0)

/-- The bytes that stand where a piece goes, by place, as far as they can be read. -/
def State.oldBytes (e : Eng) (r : CopyRun) (places : List (Nat × List Byte)) : List (Nat × Byte) :=
  places.flatMap (fun x => match engRead r.cmd.ctx r.fab x.1 x.2.length e with
    | .ok (bs, _) => (List.range bs.length).map (fun i => (e.s.placeKey r.cmd.core (x.1 + i), bs[i]?.getD 0))
    | .error _ => [])

/-- Copy the next piece; it answers the run with what the piece owes the clasp and leaves for the pieces to come: its index, the
bytes it replaced and what it settled. -/
def copyPiece (r : CopyRun) (d : List Byte) (p : CopyPlan) : EngM CopyRun := do
  let q := r.cmd
  let raw ← indexRead r d (r.next / p.perRun)
  let (src, dst, n) := pieceOf q.kind d p r.next raw
  let held ← engRead q.ctx r.fab src n
  let (bs, fixed) ← cpTaken r d p src held
  let e ← get
  let places := piecePlaces (e.s.core q.core) r.win dst bs
  let olds := if e.s.cpSelf r d p then State.oldBytes e r places else []
  if r.win.isSome then
    places.forM (fun x => do
      let _ ← engPlace q.ctx x.1 x.2.length true
      pure ())
  places.forM (fun x => engPut q.id q.ctx r.fab x.1 x.2)
  pure { r with
    owed := n, olds := olds ++ r.olds, fixed := fixed
    index := if q.kind = 0 then none else some (r.next / p.perRun, raw) }

/-- A copy of a hub bridge whose packet names no clasp (R401). -/
def CopyCmd.noClasp (q : CopyCmd) : Bool := decide (2048 ≤ q.core) && q.clasp == 0

/-- Change a copy's clasp, if it has one. -/
def State.copyClasp (s : State) (q : CopyCmd) (stamp : Nat) (f : Clasp → Clasp) : Option State :=
  if q.noClasp then some s else s.claspNow q.ctx q.clasp stamp f

/-- A command that has met a fault: E in its clasp, and it stops (R294, R100); it waits if the clasp's page does. -/
def State.copyFail (s : State) (r : CopyRun) : State × CopyRun :=
  match s.copyClasp r.cmd r.cmd.stamp Clasp.setE with
  | some s1 => (s1, { r with bad := true, done := true, fault := none, fabWait := none })
  | none => (s, { r with bad := true, fault := some r.cmd.clasp, fabWait := none })

/-- What stopping an access does to a command. -/
def State.copyStop (s : State) (r : CopyRun) (x : EngStop) : State × CopyRun :=
  match x with
  | .wait a => (s, { r with fault := some a })
  | .fabric win off a n w =>
    (s.askFabric r.cmd.world win off n w.isSome (natOfBytes (w.getD [])), { r with fabWait := some (a, n, w.isSome) })
  | .bad met =>
    (match met with
      | some l => s.noteUnread l r.cmd.world
      | none => s).copyFail r

/-- Start the producer of a cb destination: none while its slots are not free (R253, R295). -/
def State.copyProducer (s : State) (r : CopyRun) (d : List Byte) (p : CopyPlan) : Option (State × CopyRun) :=
  match p.handle, r.win with
  | some h, none =>
    let k := s.core r.cmd.core
    let x := k.handle h
    let n := cpSlots k d p h
    if cpRejects k d p h then some (s.copyFail r)
    else if x.free < n then none
    else some (s.modCore r.cmd.core (fun k => k.putHandle h (x.startProd n)), { r with win := some (h, x.prodFirst) })
  | _, _ => some (s, r)

/-- Count the bytes that are written: the addition waits if the clasp's page does (R100, R294). -/
def State.copyCount (s : State) (r : CopyRun) : State × CopyRun :=
  match s.copyClasp r.cmd r.cmd.stamp (fun x => x.add r.owed) with
  | some s1 => (s1.noteCounted r.cmd.ctx r.cmd.clasp r.cmd.id, { r with owed := 0 })
  | none => (s, { r with fault := some r.cmd.clasp })

/-- The travel time from a command's core, or from its bridge, to an address of its world (R103, R299, R401). -/
def State.copyTravel (s : State) (q : CopyCmd) (a : Nat) : Nat :=
  match s.spadOf q.core a with
  | some (o, off) => s.travelFor q.world q.core (.spad o off)
  | none => match s.translate q.core q.world a with
    | .leaf pte big => s.travelFor q.world q.core (leafLoc pte big a)
    | _ => 0

/-- The index of run i as it stands, for the time of the run (R299). -/
def State.indexNow (s : State) (r : CopyRun) (d : List Byte) (i : Nat) : Nat :=
  match indexRead r d i ⟨s, r.cmd.stamp⟩ with
  | .ok (raw, _) => raw
  | .error _ => 0

/-- Cycles from a piece before to the writing of piece j (R299): its share of the engine's 256 bytes per cycle; a run's
travel at its source and its destination before its first piece; and no more than 16 lines at a time on their way. A hub
bridge's own rate is not given. -/
def State.copyPace (s : State) (r : CopyRun) (d : List Byte) (p : CopyPlan) (j : Nat) : Nat :=
  let q := r.cmd
  let share := ((s.sett (s.settOf q.core)).places.filter (fun x => x.2.cmd.id != q.id)).length + 1
  let n := min 4096 (p.l0 - j % p.perRun * 4096)
  let ends := runEnds q.kind d p (j / p.perRun) (s.indexNow r d (j / p.perRun))
  let far := s.copyTravel q (wrapInt ends.1 64) + (if p.handle.isSome then 0 else s.copyTravel q (wrapInt ends.2 64))
  max (if 2048 ≤ q.core then 0 else ceilDiv (n * share) 256) ((ceilDiv (ceilDiv n 32) 16 - 1) * far) + (if j % p.perRun = 0 then far else 0)

/-- The cycle from which a command's first piece can be written (R299). -/
def State.copyFirst (s : State) (r : CopyRun) (d : List Byte) : Nat :=
  match copyPlan r.cmd.kind d with
  | none => s.cycle
  | some p => s.cycle + s.copyPace r d p 0

/-- Write and count the next piece of a command with a good descriptor. -/
def State.copyNext (s : State) (r : CopyRun) (d : List Byte) (p : CopyPlan) : State × CopyRun :=
  match copyPiece r d p ⟨s, r.cmd.stamp⟩ with
  | .ok (x, e) => e.s.copyCount { x with
      next := r.next + 1, fab := [], cmd := { r.cmd with stamp := e.stamp }
      due := if r.next + 1 < p.pieces then s.cycle + s.copyPace x d p (r.next + 1) else s.cycle }
  | .error x => s.copyStop r x

/-- One step of a command in its place: its descriptor, its producer, then a piece (R292 to R296). -/
def State.copyStep (s : State) (r : CopyRun) : State × CopyRun :=
  if r.bad then s.copyFail r
  else if r.owed ≠ 0 then s.copyCount r
  else
    match r.bytes with
    | none =>
      match readDesc r.cmd r.fab ⟨s, r.cmd.stamp⟩ with
      | .ok (d, e) =>
        (e.s, { r with bytes := some d, fab := [], cmd := { r.cmd with stamp := e.stamp }, due := e.s.copyFirst r d })
      | .error x => s.copyStop r x
    | some d =>
      match copyPlan r.cmd.kind d with
      | none => s.copyFail r
      | some p =>
        match s.copyProducer r d p with
        | none => (s, r)
        | some (s1, r1) => if r1.done || r1.fault.isSome then (s1, r1) else if r1.next < p.pieces then s1.copyNext r1 d p else (s1, { r1 with done := true })

/-- Whether a command has made its last step. -/
def CopyRun.over (r : CopyRun) : Bool :=
  r.done || (match r.bytes with
    | some d => (match copyPlan r.cmd.kind d with
      | some p => !r.bad && decide (p.pieces ≤ r.next) && r.owed == 0
      | none => false)
    | none => false)

/-- Whether a command in a place can make a step: it waits for nothing (R119, R253). -/
def State.copyCanStep (s : State) (r : CopyRun) : Bool :=
  r.fault.isNone && r.fabWait.isNone && !r.over && r.cmd.coll.isNone && decide (r.due ≤ s.cycle) &&
  (match r.bytes with
    | some d => (match copyPlan r.cmd.kind d with
      | some p => (match p.handle, r.win with
        | some h, none => cpRejects (s.core r.cmd.core) d p h || decide (cpSlots (s.core r.cmd.core) d p h ≤ ((s.core r.cmd.core).handle h).free)
        | _, _ => true)
      | none => true)
    | none => true)

/-- COPY_COMMAND_START (R292): the engine takes the next command and begins with its descriptor. -/
def execCopyCommandStart (sett : Nat) (s : State) : Host.Outcome State Fault Refusal :=
  match s.copyChoice sett with
  | none => .next s
  | some (j, q) =>
    let s1 := s.putSett sett { s.sett sett with lastCore := j }
    match q.coll with
    | some (g, m) => .next (s1.startColl sett g m q)
    | none =>
      let p := s1.copyStep (CopyRun.of q)
      .next (p.1.takePlace sett p.2)

/-- COPY_RUN_WRITTEN (R294): a command in a place writes and counts its next run or piece. -/
def execCopyRunWritten (sett place : Nat) (s : State) : Host.Outcome State Fault Refusal :=
  match AMap.find (s.sett sett).places place with
  | none => .next s
  | some r =>
    if s.copyCanStep r then
      let p := s.copyStep r
      .next (p.1.putSett sett { p.1.sett sett with places := AMap.put (p.1.sett sett).places place p.2 })
    else .next s

/-- Free the queue entry of a command (R292). -/
def Core.freeCopy (k : Core) (id : Nat) : Core := { k with cq := k.cq.filter (fun q => q.id != id) }

/-- The producer of a command completes (R253, R294). -/
def Core.endProducer (k : Core) (win : Option (Nat × Nat)) : Core :=
  match win with
  | some (h, first) => k.putHandle h ((k.handle h).endProd first)
  | none => k

/-- COPY_COMMAND_COMPLETE (R292): the place and the queue entry are freed. -/
def execCopyCommandComplete (sett place : Nat) (s : State) : Host.Outcome State Fault Refusal :=
  match AMap.find (s.sett sett).places place with
  | none => .next s
  | some r =>
    if r.over then
      let s1 := s.putSett sett { s.sett sett with places := AMap.del (s.sett sett).places place }
      .next (s1.modCore r.cmd.core (fun k => (k.endProducer r.win).freeCopy r.cmd.id))
    else .next s

/-! ## Collectives (R142, R297, R298) -/

/-- A collective's descriptor fields: kind, op, type code, count and root (R297). -/
structure CollDesc where
  kind : Nat
  op : Nat
  ty : BitVec 4
  count : Nat
  root : Nat
  deriving DecidableEq, Repr

/-- Types a reducing kind allows (R297). -/
def reduceTy (t : BitVec 4) : Bool :=
  t == 0#4 || t == 1#4 || t == 2#4 || t == 3#4 || t == 10#4 || t == 11#4 || t == 14#4 || t == 15#4

/-- A well-formed descriptor of a collective over n members (R297). -/
def collDesc (n : Nat) (d : List Byte) : Option CollDesc :=
  let w := descNum d 0x10 8
  let x : CollDesc := ⟨bitsOf w 0 4, bitsOf w 4 4, BitVec.ofNat 4 (w / 256), bitsOf w 16 24 + 1, bitsOf w 40 16⟩
  let reducing := x.kind == 0 || x.kind == 2
  let ok := decide (x.kind ≤ 3) && bitsOf w 56 8 == 0 && bitsOf w 12 4 == 0 && decide (x.op ≤ 2) && (reducing || x.op == 0) &&
    (x.kind == 3 || x.root == 0) && decide (x.root < n) &&
    (if reducing then reduceTy x.ty else x.ty != 6#4 && x.ty != 7#4) &&
    [0x18, 0x20, 0x28, 0x30, 0x38].all (fun o => descNum d o 8 == 0) &&
    decide (x.count * codeSize x.ty * (if x.kind = 1 then n else 1) ≤ 2 ^ 24)
  if ok then some x else none

/-- One combination of two elements, the lower rank on the left (R142, R187, R297). -/
def combineElem (x : CollDesc) (a b : Nat) : Nat :=
  let t := (tyOfCode x.ty).getD .f32
  if x.op = 0 then
    if tyIsFloat t then (addVal t .rne false 0 (floatVal t a) (floatVal t b)).1 else (a + b) % 2 ^ tyBits t
  else if tyIsFloat t then (fminmax t (x.op == 1) a b).1
  else if x.op = 1 then (if intVal t a < intVal t b then b else a)
  else (if intVal t b < intVal t a then b else a)

/-- Combine two members' partial values element by element. -/
def combineLists (x : CollDesc) : List Nat → List Nat → List Nat
  | a :: as, b :: bs => combineElem x a b :: combineLists x as bs
  | _, _ => []

/-- One level of the tree: neighbouring partials combine (R142). -/
def combineLevel (x : CollDesc) : List (List Nat) → List (List Nat)
  | a :: b :: r => combineLists x a b :: combineLevel x r
  | l => l

/-- The tree of R142 over the members' partial values. -/
def combineRanks (x : CollDesc) : Nat → List (List Nat) → List Nat
  | 0, l => l.head?.getD []
  | fuel + 1, l =>
    match l with
    | [a] => a
    | l => combineRanks x fuel (combineLevel x l)

/-- Cut bytes into elements of z bytes. -/
def elemsOf (z : Nat) : Nat → List Byte → List Nat
  | 0, _ => []
  | n + 1, bs => natOfBytes (bs.take z) :: elemsOf z n (bs.drop z)

/-- The bytes each member receives, by rank, from what the members read (R297). -/
def collResult (x : CollDesc) (n : Nat) (src : List (List Byte)) : List (List Byte) :=
  let z := codeSize x.ty
  let put (l : List Nat) : List Byte := l.flatMap (fun e => bytesOf z e)
  match x.kind with
  | 0 => List.replicate n (put (combineRanks x 16 (src.map (fun b => elemsOf z x.count b))))
  | 1 => List.replicate n src.flatten
  | 2 =>
    let p := combineRanks x 16 (src.map (fun b => elemsOf z (n * x.count) b))
    (List.range n).map (fun r => put ((p.drop (r * x.count)).take x.count))
  | _ => List.replicate n (src[x.root]?.getD [])

/-- Bytes a member reads at its SRC (R297). -/
def collReads (x : CollDesc) (n rank : Nat) : Nat :=
  let b := x.count * codeSize x.ty
  if x.kind = 2 then n * b else if x.kind = 3 ∧ rank ≠ x.root then 0 else b

/-- Read every member's descriptor and source: none where the descriptors are malformed or disagree (R298). -/
def collGather (n : Nat) (x : Coll) : EngM (Option (CollDesc × List Nat × List (List Byte))) := do
  let ds ← x.cmds.mapM (fun e => engRead e.2.ctx x.fab e.2.desc 64)
  match ds.map (collDesc n) with
  | [] => pure none
  | p :: ps =>
    match p with
    | none => pure none
    | some d =>
      if ps.all (fun y => y == some d) then
        let src ← (x.cmds.zip ds).mapM (fun e => engRead e.1.2.ctx x.fab (descNum e.2 0 8) (collReads d n e.1.1))
        pure (some (d, ds.map (fun b => descNum b 8 8), src))
      else pure none

/-- The first member's clasp whose page must still answer. -/
def State.collClasp (s : State) (x : Coll) : Option Nat :=
  (x.cmds.find? (fun e => !(x.lost.contains e.2.clasp) && s.wouldWait e.2.ctx e.2.clasp 16 true)).map (fun e => e.2.clasp)

/-- Free the members' entries and places (R298). -/
def State.collOver (s1 : State) (g : Nat) (x : Coll) : State :=
  let s2 := x.cmds.foldl (fun s e => s.modCore e.2.core (fun k => k.freeCopy e.2.id)) s1
  let ids := x.cmds.map (fun e => e.2.id)
  let s3 := (s2.gangSetts g).foldl (fun s n => s.putSett n { s.sett n with
    places := (s.sett n).places.filter (fun p => !(ids.contains p.2.cmd.id)) }) s2
  s3.putGang g { s3.gang g with colls := (s3.gang g).colls.filter (fun y => y.m != x.m) }

/-- A collective ends; one that met a fault sets E in every member's clasp, once their pages have answered (R100, R298). -/
def State.collEnd (s : State) (g : Nat) (x : Coll) (bad : Bool) : State :=
  if bad then
    match s.collClasp x with
    | some a => s.putGang g ((s.gang g).putColl { x with bad := true, fault := some a })
    | none => (x.cmds.foldl (fun s e => (s.claspNow e.2.ctx e.2.clasp e.2.stamp Clasp.setE).getD s) s).collOver g x
  else s.collOver g x

/-- Write each member's bytes and add them to its clasp (R100, R297); it stops at the first write that fails. -/
def collWrite (fab : FabData) : List (CopyCmd × Nat × List Byte) → EngM Unit
  | [] => pure ()
  | (q, dst, bs) :: r => do
    engPut q.id q.ctx fab dst bs
    modify (fun e => { e with s := ((e.s.claspNow q.ctx q.clasp e.stamp (fun c => c.add bs.length)).getD e.s).noteCounted q.ctx q.clasp q.id })
    collWrite fab r

/-- A member's bytes in the pieces that are counted one by one (R294). -/
def collPieces (w : CopyCmd × Nat × List Byte) : List (CopyCmd × Nat × List Byte) :=
  (List.range (ceilDiv w.2.2.length 4096)).map (fun i => (w.1, (w.2.1 + 4096 * i) % 2 ^ 64, (w.2.2.drop (4096 * i)).take 4096))

/-- The members' writes up to the first that fails, and how it failed. -/
def collWrites (fab : FabData) : List (CopyCmd × Nat × List Byte) → Eng → Eng × Option EngStop
  | [], e => (e, none)
  | w :: r, e =>
    match collWrite fab [w] e with
    | .ok (_, e1) => collWrites fab r e1
    | .error x => (e, some x)

/-- A collective whose accesses wait. -/
def State.collWait (s : State) (g : Nat) (x : Coll) (w : EngStop) : State :=
  match w with
  | .wait a => s.putGang g ((s.gang g).putColl { x with fault := some a })
  | .fabric win off a n b =>
    (s.askFabric (s.gang g).world win off n b.isSome (natOfBytes (b.getD []))).putGang g
      ((s.gang g).putColl { x with fabWait := some (0, a, n, b.isSome) })
  | .bad met => (match met with
    | some l => s.noteUnread l (s.gang g).world
    | none => s).collEnd g x true

/-- The addresses whose pages must answer before any member is written: destinations and clasps. -/
def State.collHeld (s : State) (x : Coll) (ws : List (CopyCmd × Nat × List Byte)) : Option Nat :=
  (s.collClasp x).or (ws.findSome? (fun w =>
    ((pieces 4096 w.2.1 w.2.2.length).find? (fun p => s.wouldWait w.1.ctx (p.1 % 2 ^ 64) p.2 true)).map (fun p => p.1 % 2 ^ 64)))

/-- Run a collective: gather, compare, combine and deliver (R297, R298). -/
def State.runColl (s : State) (g : Nat) (x : Coll) : State :=
  if x.bad then s.collEnd g x true else
  let n := (s.gang g).size
  let stamp := x.cmds.foldl (fun m e => max m e.2.stamp) 0
  match collGather n x ⟨s, stamp⟩ with
  | .error w => s.collWait g x w
  | .ok (none, e) => e.s.collEnd g x true
  | .ok (some (d, dsts, src), e) =>
    let ws := (x.cmds.map (fun c => c.2)).zip (dsts.zip (collResult d n src))
    match e.s.collHeld x ws with
    | some a => s.collWait g x (.wait a)
    | none =>
      let (e1, stop) := collWrites x.fab (ws.flatMap collPieces) e
      match stop with
      | none => e1.s.collEnd g x false
      | some (.bad met) => e1.s.collWait g x (.bad met)
      | some w => s.collWait g x w

/-- Whether a collective that has its places can run on. -/
def Coll.canRun (x : Coll) : Bool := x.running && x.fault.isNone && x.fabWait.isNone

/-- The least n with 2^n at least k. -/
def log2Up (k : Nat) : Nat := ((List.range 16).find? (fun n => decide (k ≤ 2 ^ n))).getD 16

/-- The farthest travel between two of a gang's setts (R103). -/
def State.gangSpan (s : State) (g : Nat) : Nat :=
  let cs := (s.gang g).cores
  cs.foldl (fun m a => cs.foldl (fun m b => max m (s.travelFor (s.gang g).world a (.spad b 0))) m) 0

/-- The time of a collective (R299): a level of the tree for each doubling of its members, each with the copy time of the
bytes and the travel between setts. The rule bounds the time from above; the model takes the bound (log 40). -/
def State.collTime (s : State) (g : Nat) (x : Coll) : Nat :=
  match x.cmds with
  | [] => 0
  | e :: _ => match engRead e.2.ctx x.fab e.2.desc 64 ⟨s, e.2.stamp⟩ with
    | .ok (d, _) => match collDesc (s.gang g).size d with
      | some c => log2Up (s.gang g).size * (ceilDiv (c.count * codeSize c.ty * (if c.kind = 1 ∨ c.kind = 2 then (s.gang g).size else 1)) 256 + s.gangSpan g)
      | none => 0
    | .error _ => 0

/-- COLLECTIVE_COMPLETE (R298, R299): the first time it comes it finds out when the collective is over. -/
def execCollectiveComplete (g m : Nat) (s : State) : Host.Outcome State Fault Refusal :=
  match (s.gang g).coll? m with
  | none => .next s
  | some x =>
    if x.canRun then match x.due with
      | none => .next (s.putGang g ((s.gang g).putColl { x with due := some (s.cycle + s.collTime g x) }))
      | some t => if t ≤ s.cycle then .next (s.runColl g x) else .next s
    else .next s

/-! ## The instructions (R293 to R298) -/

/-- `dma.cp` (R295). -/
def execDmaCp (c : EngCmd) (s : State) : Host.Outcome State Fault Refusal := s.copyIssue 0 c
/-- `dma.gt` (R296). -/
def execDmaGt (c : EngCmd) (s : State) : Host.Outcome State Fault Refusal := s.copyIssue 1 c
/-- `dma.sc` (R296). -/
def execDmaSc (c : EngCmd) (s : State) : Host.Outcome State Fault Refusal := s.copyIssue 2 c
/-- `dma.coll` (R297). -/
def execDmaColl (c : EngCmd) (s : State) : Host.Outcome State Fault Refusal := s.copyIssue 3 c

end Sys2Proof.Machine
end

