-- ==== Sys2Proof/Machine/Bead.lean ====
section
/-! DEFINITION. Beaded tensors: the visit of a bead and its words (R306 to R311), passes (R313 to R317), the `bd.*` commands
(R318 to R324) and the events of the sweep queue (R301, R320). -/

namespace Sys2Proof.Machine

/-! ## Tensors and records (R301 to R303) -/

/-- A tensor slot of a core. -/
def Core.tensor (k : Core) (t : Nat) : Tensor := AMap.get Tensor.reset k.tensors t
/-- Replace a tensor slot. -/
def Core.putTensor (k : Core) (t : Nat) (x : Tensor) : Core := { k with tensors := AMap.put k.tensors t x }
/-- Offset of record k (R302). -/
def Tensor.record (t : Tensor) (k : Nat) : Nat := t.base + 16 * k
/-- The local-alias address of a scratchpad offset (R67, R324). -/
def aliasOf (o : Nat) : Nat := (0x00FFFFFFFFF00000 + o) % 2 ^ 64

/-- ST of a context (R303). -/
def ctxSt (x : Nat) : Nat := bitsOf x 8 2
/-- PC of a context (R303). -/
def ctxPc (x : Nat) : Nat := bitsOf x 0 8
/-- WK of a context (R303). -/
def ctxWk (x : Nat) : Nat := bitsOf x 10 4
/-- WARG of a context (R303). -/
def ctxWarg (x : Nat) : Nat := bitsOf x 16 16

/-- A context from its fields (R303). -/
def ctxOf (l : BitVec 32) (warg wk st pc : Nat) : Nat :=
  l.toNat * 2 ^ 32 + warg % 65536 * 65536 + wk % 16 * 1024 + st % 4 * 256 + pc % 256

/-! ## The visit in hand (R306) -/

/-- Replace the acting core's visit. -/
def State.putVisit (s : State) (v : Visit) : State := s.modCore s.actCore (fun k => { k with visit := some v })

/-- The tensor of a visit. -/
def State.visitTensor (s : State) (v : Visit) : Tensor := s.cur.tensor v.t

/-- R(x): zr, e, l, ix, t0 to t3 (R306). -/
def Visit.reg (v : Visit) (x : BitVec 3) : Word :=
  if x = 0#3 then 0 else if x = 1#3 then v.e else if x = 2#3 then v.l.signExtend 64 else if x = 3#3 then wordOf v.k
  else AMap.get 0 v.regs x.toNat

/-- A write of a bead register (R306): zr discards it, l keeps 32 bits. -/
def Visit.set (v : Visit) (x : BitVec 3) (w : Word) : Visit :=
  if x = 0#3 ∨ x = 3#3 then v else if x = 1#3 then { v with e := w } else if x = 2#3 then { v with l := w.setWidth 32 }
  else { v with regs := AMap.put v.regs x.toNat w }

/-- One instruction has run and the next word follows (R307). -/
def Visit.step (v : Visit) : Visit := { v with pc := v.pc + 1, steps := v.steps + 1, ran := true }

/-- One instruction has run and the visit ends with a state: 1 waiting, 2 sleeping, 3 done (R304). -/
def Visit.stopAs (v : Visit) (st wk warg : Nat) : Visit := { v.step with stop := st, wk := wk, warg := warg }

/-- Act on the acting core's visit; without one a bead word does nothing (R305). -/
def State.bead (s : State) (f : Visit → State) : Host.Outcome State Fault Refusal :=
  match s.cur.visit with
  | none => .next s
  | some v => .next (f v)

/-- Count a load, a store or a neighbour read (R326). -/
def Visit.access (v : Visit) : Visit := { v with accesses := v.accesses + 1 }

/-- A bead fault: the instruction has no effect (R324). -/
def State.beadFault (s : State) (v : Visit) (t : Trap) : State :=
  s.putVisit { v with stop := 4, trap := some { t with eidx := some v.k } }

/-- Write a bead register and go on. -/
def State.beadReg (s : State) (v : Visit) (d : BitVec 3) (x : Word) : State := s.putVisit ((v.set d x).step)

/-- B of the bead ALU words (R307). -/
def Visit.opB (v : Visit) (t : BitVec 3) (i : BitVec 18) : Word := v.reg t + i.signExtend 64

/-! ## Accesses of a visit (R307, R308, R316, R324) -/

/-- BEAD_FAULT with FADDR at a scratchpad offset. -/
def beadTrapAt (sub o : Nat) : Trap := trapAt 0x0E sub (aliasOf o)

/-- Read n bytes of the own scratchpad as a bead event: WSPROT at register bytes, UE at poison; the observation raises pts
(R43, R324, R325, R432). -/
def State.beadRead (s : State) (o n : Nat) : Except Trap (Nat × State) :=
  if (s.cur.regHit o n).isSome then .error (trapAt 8 0 (aliasOf o))
  else if poisonHit s.cur.spoison o n then .error (trapAt 0x13 0 (aliasOf o))
  else
    let l : Loc := .spad s.actCore o
    .ok (natOfBytes (s.peekOpen s.cur.world l n), (s.loadedAt s.cur.world l n).raisePts s.actCore s.cur.hts)

/-- Why a bead store of n bytes cannot be made (R43, R315, R324). -/
def State.beadStoreTrap (s : State) (o n : Nat) : Option Trap :=
  if s.cur.skipHit o n then some (beadTrapAt 0x0A o)
  else if (s.cur.regHit o n).isSome then some (trapAt 8 0 (aliasOf o))
  else if s.cur.recordHit o n then some (trapAt 8 1 (aliasOf o))
  else if !(poisonCovered s.cur.spoison o n) then some (trapAt 0x13 0 (aliasOf o))
  else none

/-- Make a bead store; `put` sets the granule full after it (R307, R316). -/
def State.beadStore (s : State) (o n v : Nat) (put : Bool) : State :=
  let l : Loc := .spad s.actCore o
  let s1 := (s.pokeBy s.cur.world l (bytesOf n v)).raiseHts l (s.pts s.actCore)
  if put then s1.modCore s.actCore (fun k => k.setFull (o / 16) true) else s1

/-- Address of a bead load or store (R307). -/
def Visit.addr (v : Visit) (b : BitVec 3) (i : BitVec 16) : Nat := (v.reg b + i.signExtend 64).toNat

/-- Sub-cause 0x07 of a bead load or store (R324). -/
def beadPlaceTrap (a n : Nat) : Option Trap :=
  if 2 ^ 20 - n < a ∨ a % n ≠ 0 then some (beadTrapAt 7 a) else none

/-- Where a neighbour offset leads: `none` beyond the window, `some none` out of bounds (R308). -/
def neighbourOf (t : Tensor) (k : Nat) (o : Nat) : Option (Option Nat) :=
  let dx := sintOf o 6
  let dy := sintOf (o / 64) 5
  let dz := sintOf (o / 2048) 5
  let (d0, d1, d2) := t.dims
  if (dx + d0 * dy + d0 * d1 * dz).natAbs > t.window then none
  else
    let x : Int := ((k % d0 : Nat) : Int) + dx
    let y : Int := ((k / d0 % d1 : Nat) : Int) + dy
    let z : Int := ((k / (d0 * d1) : Nat) : Int) + dz
    if 0 ≤ x ∧ x < d0 ∧ 0 ≤ y ∧ y < d1 ∧ 0 ≤ z ∧ z < d2 then some (some ((x + d0 * (y + d1 * z)).toNat)) else some none

/-- A neighbour's DATA (0) or context (1) (R308). -/
def State.neighbour (s : State) (v : Visit) (o which : Nat) : Except Trap (Nat × State) :=
  let t := s.visitTensor v
  match neighbourOf t v.k o with
  | none => .error (trapOf 0x0E 6)
  | some none => .ok ((if which = 0 then t.edgev else t.edgec).toNat, s)
  | some (some j) => s.beadRead (t.record j + 8 * which) 8

/-- Whether a wait holds (R311): the kind, its WARG and the imm of its word. -/
def State.waitHolds (s : State) (v : Visit) (kind warg imm : Nat) : Except Trap (Bool × State) :=
  match kind with
  | 0 => (s.neighbour v warg 1).map (fun r => (ctxSt r.1 == 3, r.2))
  | 1 => (s.neighbour v warg 1).map (fun r =>
      (ctxSt r.1 == 3 || (decide (ctxSt r.1 < 2) && decide (imm % 256 ≤ ctxPc r.1)), r.2))
  | 2 => .ok (s.cur.isFull warg,
      (if s.cur.isFull warg then s.settleAt (.spad s.actCore (16 * warg)) 16 else s).raisePts s.actCore s.cur.hts)
  | 3 => (s.beadRead (warg * 16) 16).map (fun r =>
      let c := claspOf (bytesOf 16 r.1)
      (c.e || c.phc % 2 ^ 18 != imm % 2 ^ 18, r.2))
  | 4 => .ok (decide (((s.visitTensor v).pcnt + 65536 - warg % 65536) % 65536 < 32768), s)
  | _ => .ok (decide (sintOf warg 16 ≤ v.l.toInt), s)

/-- Run a wait word (R310, R311). -/
def State.beadWait (s : State) (v : Visit) (kind : Nat) (r : Word) (imm : Nat) : State :=
  if (kind = 2 ∨ kind = 3) ∧ 2 ^ 20 ≤ r.toNat then s.beadFault v (beadTrapAt 7 r.toNat)
  else
    let warg := if kind = 2 ∨ kind = 3 then r.toNat / 16 % 65536 else r.toNat % 65536
    match s.waitHolds v kind warg imm with
    | .error t => s.beadFault v t
    | .ok (true, s1) => s1.putVisit v.step
    | .ok (false, s1) => s1.putVisit (v.stopAs 1 kind warg)

/-! ## The skip map and wakes (R314, R315) -/

/-- Write one byte of a tensor's skip map back, as an engine write (R84, R315). -/
def State.skipByte (s : State) (c t b : Nat) : State :=
  let x := (s.core c).tensor t
  let o := x.skip + b
  if ((s.core c).regHit o 1).isSome then s
  else
    let v := [BitVec.ofNat 8 (x.bits >>> (8 * b))]
    (s.noteEngine 0 c (s.core c).world (.spad c o) v).engineWrite (s.core c).world (.spad c o) v (s.pts c)

/-- Set or clear a bead's skip bit. -/
def State.setSkip (s : State) (c t j : Nat) (f : Bool) : State :=
  let x := (s.core c).tensor t
  if bitOf x.bits j = f then s
  else (s.modCore c (fun k => k.putTensor t { x with bits := insertBits x.bits j 1 (if f then 1 else 0) })).skipByte c t (j / 8)

/-- Apply a wake: it reaches only a sleeping bead (R314). It answers whether it did. -/
def State.applyWake (s : State) (c t j : Nat) : State × Bool :=
  let x := (s.core c).tensor t
  let o := x.record j + 8
  let ctx := s.sNum c o 8
  if ctxSt ctx ≠ 2 ∨ ((s.core c).regHit o 8).isSome = true then (s, false)
  else
    let l : Loc := .spad c o
    let s1 := (s.poke (s.core c).world l (bytesOf 8 (insertBits ctx 8 2 0))).raiseHts l (s.pts c)
    (s1.setSkip c t j false, true)

/-- Apply wakes in order; it answers how many reached a bead. -/
def State.applyWakes (s : State) (c t : Nat) (js : List Nat) : State × Nat :=
  js.foldl (fun p j => let r := p.1.applyWake c t j; (r.1, p.2 + (if r.2 then 1 else 0))) (s, 0)

/-- Put an index into a rising list without repeats (R314: several wakes of one target act once). -/
def insertRising (j : Nat) : List Nat → List Nat
  | [] => [j]
  | a :: l => if j < a then j :: a :: l else if j = a then a :: l else a :: insertRising j l

/-- `b.wake` of a target (R314). -/
def State.beadWake (s : State) (v : Visit) (j : Nat) : State :=
  let x := s.visitTensor v
  if x.beads ≤ j then s.putVisit v.step
  else if v.k < j then
    let r := s.applyWake s.actCore v.t j
    r.1.putVisit { v.step with wakes := v.wakes + (if r.2 then 1 else 0) }
  else (s.modCore s.actCore (fun k => k.putTensor v.t { x with late := insertRising j x.late })).putVisit v.step

/-! ## The bead words (R307) -/

/-- `b.add` (R307). -/
def execBAdd (d s t : BitVec 3) (i : BitVec 18) (st : State) : Host.Outcome State Fault Refusal :=
  st.bead (fun v => st.beadReg v d (v.reg s + v.opB t i))

/-- `b.sub` (R307). -/
def execBSub (d s t : BitVec 3) (i : BitVec 18) (st : State) : Host.Outcome State Fault Refusal :=
  st.bead (fun v => st.beadReg v d (v.reg s - v.opB t i))

/-- `b.mul` (R307). -/
def execBMul (d s t : BitVec 3) (i : BitVec 18) (st : State) : Host.Outcome State Fault Refusal :=
  st.bead (fun v => st.beadReg v d (v.reg s * v.opB t i))

/-- `b.min` (R307). -/
def execBMin (d s t : BitVec 3) (i : BitVec 18) (st : State) : Host.Outcome State Fault Refusal :=
  st.bead (fun v => st.beadReg v d (minSigned (v.reg s) (v.opB t i)))

/-- `b.max` (R307). -/
def execBMax (d s t : BitVec 3) (i : BitVec 18) (st : State) : Host.Outcome State Fault Refusal :=
  st.bead (fun v => st.beadReg v d (maxSigned (v.reg s) (v.opB t i)))

/-- `b.and` (R307). -/
def execBAnd (d s t : BitVec 3) (i : BitVec 18) (st : State) : Host.Outcome State Fault Refusal :=
  st.bead (fun v => st.beadReg v d (v.reg s &&& v.opB t i))

/-- `b.or` (R307). -/
def execBOr (d s t : BitVec 3) (i : BitVec 18) (st : State) : Host.Outcome State Fault Refusal :=
  st.bead (fun v => st.beadReg v d (v.reg s ||| v.opB t i))

/-- `b.xor` (R307). -/
def execBXor (d s t : BitVec 3) (i : BitVec 18) (st : State) : Host.Outcome State Fault Refusal :=
  st.bead (fun v => st.beadReg v d (v.reg s ^^^ v.opB t i))

/-- `b.shi.shl` (R183, R307). -/
def execBShiShl (d s : BitVec 3) (n : BitVec 6) (st : State) : Host.Outcome State Fault Refusal :=
  st.bead (fun v => st.beadReg v d (v.reg s <<< n.toNat))

/-- `b.shi.shr` (R183, R307). -/
def execBShiShr (d s : BitVec 3) (n : BitVec 6) (st : State) : Host.Outcome State Fault Refusal :=
  st.bead (fun v => st.beadReg v d (v.reg s >>> n.toNat))

/-- `b.shi.sra` (R183, R307). -/
def execBShiSra (d s : BitVec 3) (n : BitVec 6) (st : State) : Host.Outcome State Fault Refusal :=
  st.bead (fun v => st.beadReg v d ((v.reg s).sshiftRight n.toNat))

/-- `b.shi.rot` (R183, R307). -/
def execBShiRot (d s : BitVec 3) (n : BitVec 6) (st : State) : Host.Outcome State Fault Refusal :=
  st.bead (fun v => st.beadReg v d ((v.reg s).rotateRight n.toNat))

/-- `b.li` (R307). -/
def execBLi (d : BitVec 3) (i : BitVec 18) (st : State) : Host.Outcome State Fault Refusal :=
  st.bead (fun v => st.beadReg v d (i.signExtend 64))

/-- `b.cmp.eq` (R307). -/
def execBCmpEq (d s t : BitVec 3) (i : BitVec 15) (st : State) : Host.Outcome State Fault Refusal :=
  st.bead (fun v => st.beadReg v d (boolWord (condHolds 0 (v.reg s) (v.reg t + i.signExtend 64))))

/-- `b.cmp.ne` (R307). -/
def execBCmpNe (d s t : BitVec 3) (i : BitVec 15) (st : State) : Host.Outcome State Fault Refusal :=
  st.bead (fun v => st.beadReg v d (boolWord (condHolds 1 (v.reg s) (v.reg t + i.signExtend 64))))

/-- `b.cmp.lt` (R307). -/
def execBCmpLt (d s t : BitVec 3) (i : BitVec 15) (st : State) : Host.Outcome State Fault Refusal :=
  st.bead (fun v => st.beadReg v d (boolWord (condHolds 2 (v.reg s) (v.reg t + i.signExtend 64))))

/-- `b.cmp.ge` (R307). -/
def execBCmpGe (d s t : BitVec 3) (i : BitVec 15) (st : State) : Host.Outcome State Fault Refusal :=
  st.bead (fun v => st.beadReg v d (boolWord (condHolds 3 (v.reg s) (v.reg t + i.signExtend 64))))

/-- `b.cmp.ltn` (R307). -/
def execBCmpLtn (d s t : BitVec 3) (i : BitVec 15) (st : State) : Host.Outcome State Fault Refusal :=
  st.bead (fun v => st.beadReg v d (boolWord (condHolds 4 (v.reg s) (v.reg t + i.signExtend 64))))

/-- `b.cmp.gen` (R307). -/
def execBCmpGen (d s t : BitVec 3) (i : BitVec 15) (st : State) : Host.Outcome State Fault Refusal :=
  st.bead (fun v => st.beadReg v d (boolWord (condHolds 5 (v.reg s) (v.reg t + i.signExtend 64))))

/-- `b.sel`: the old d decides (R307). -/
def execBSel (d s t : BitVec 3) (st : State) : Host.Outcome State Fault Refusal :=
  st.bead (fun v => st.beadReg v d (if v.reg d = 0 then v.reg t else v.reg s))

/-- Type of a bead float word (R307). -/
def beadTy (f : BitVec 1) : Ty := if f = 0#1 then .f32 else .f64

/-- Write a bead float result; its flags go to the tensor's accumulator, never to a trap (R307). -/
def State.beadFloat (s : State) (v : Visit) (d : BitVec 3) (x : Nat × Flags) : State :=
  let t := s.visitTensor v
  (s.modCore s.actCore (fun k => k.putTensor v.t { t with flags := t.flags ||| x.2 })).beadReg v d (wordOf x.1)

/-- `b.fop.fadd` (R185 to R187, R191, R307). -/
def execBFopFadd (d s t : BitVec 3) (r : BitVec 3) (f : BitVec 1) (st : State) : Host.Outcome State Fault Refusal :=
  st.bead (fun v => st.beadFloat v d (addVal (beadTy f) ((rmodeOfCode r.toNat).getD .rne) false 0 (fVal (beadTy f) (v.reg s)) (fVal (beadTy f) (v.reg t))))

/-- `b.fop.fmul` (R185 to R187, R191, R307). -/
def execBFopFmul (d s t : BitVec 3) (r : BitVec 3) (f : BitVec 1) (st : State) : Host.Outcome State Fault Refusal :=
  st.bead (fun v => st.beadFloat v d (mulVal (beadTy f) ((rmodeOfCode r.toNat).getD .rne) false 0 (fVal (beadTy f) (v.reg s)) (fVal (beadTy f) (v.reg t))))

/-- `b.fop.fmin` (R185 to R187, R191, R307). -/
def execBFopFmin (d s t : BitVec 3) (_r : BitVec 3) (f : BitVec 1) (st : State) : Host.Outcome State Fault Refusal :=
  st.bead (fun v => st.beadFloat v d (fminmax (beadTy f) false (fBits (beadTy f) (v.reg s)) (fBits (beadTy f) (v.reg t))))

/-- `b.fop.fmax` (R185 to R187, R191, R307). -/
def execBFopFmax (d s t : BitVec 3) (_r : BitVec 3) (f : BitVec 1) (st : State) : Host.Outcome State Fault Refusal :=
  st.bead (fun v => st.beadFloat v d (fminmax (beadTy f) true (fBits (beadTy f) (v.reg s)) (fBits (beadTy f) (v.reg t))))

/-- `b.fop.fma` (R185 to R187, R191, R307). -/
def execBFopFma (d s t : BitVec 3) (r : BitVec 3) (f : BitVec 1) (st : State) : Host.Outcome State Fault Refusal :=
  st.bead (fun v => st.beadFloat v d (fmaVal (beadTy f) ((rmodeOfCode r.toNat).getD .rne) false 0 (fVal (beadTy f) (v.reg s)) (fVal (beadTy f) (v.reg t)) (fVal (beadTy f) (v.reg d))))

/-- `b.nb` data (R308). -/
def execBNbData (d : BitVec 3) (o : BitVec 16) (st : State) : Host.Outcome State Fault Refusal :=
  st.bead (fun v => match st.neighbour v o.toNat 0 with
    | .error t => st.beadFault v t
    | .ok (x, s1) => s1.beadReg v.access d (wordOf x))

/-- `b.nb` ctx (R308). -/
def execBNbCtx (d : BitVec 3) (o : BitVec 16) (st : State) : Host.Outcome State Fault Refusal :=
  st.bead (fun v => match st.neighbour v o.toNat 1 with
    | .error t => st.beadFault v t
    | .ok (x, s1) => s1.beadReg v.access d (wordOf x))

/-- `b.ld` (R307). -/
def execBLd (d s : BitVec 3) (z : BitVec 2) (i : BitVec 16) (st : State) : Host.Outcome State Fault Refusal :=
  st.bead (fun v =>
    let a := v.addr s i
    match beadPlaceTrap a (sizeBytes z) with
    | some t => st.beadFault v t
    | none => match st.beadRead a (sizeBytes z) with
      | .error t => st.beadFault v t
      | .ok (x, s1) => s1.beadReg v.access d (wordOf x))

/-- `b.st` and `b.st.put` (R307). -/
def State.beadStoreWord (s : State) (v : Visit) (a n x : Nat) (put : Bool) : State :=
  match beadPlaceTrap a n with
  | some t => s.beadFault v t
  | none => match s.beadStoreTrap a n with
    | some t => s.beadFault v t
    | none => (s.beadStore a n x put).putVisit v.access.step

/-- `b.st` (R307). -/
def execBSt (s t : BitVec 3) (z : BitVec 2) (i : BitVec 16) (st : State) : Host.Outcome State Fault Refusal :=
  st.bead (fun v => st.beadStoreWord v (v.addr s i) (sizeBytes z) (v.reg t).toNat false)

/-- `b.st` with `.put` (R307). -/
def execBStPut (s t : BitVec 3) (z : BitVec 2) (i : BitVec 16) (st : State) : Host.Outcome State Fault Refusal :=
  st.bead (fun v => st.beadStoreWord v (v.addr s i) (sizeBytes z) (v.reg t).toNat true)

/-- A bead branch (R307). -/
def State.beadBranch (s : State) (v : Visit) (taken : Bool) (p : BitVec 8) : State :=
  s.putVisit (if taken then { v.step with pc := p.toNat } else v.step)

/-- `b.br.nz` (R307). -/
def execBBrNz (s : BitVec 3) (p : BitVec 8) (st : State) : Host.Outcome State Fault Refusal :=
  st.bead (fun v => st.beadBranch v (v.reg s != 0) p)

/-- `b.br.z` (R307). -/
def execBBrZ (s : BitVec 3) (p : BitVec 8) (st : State) : Host.Outcome State Fault Refusal :=
  st.bead (fun v => st.beadBranch v (v.reg s == 0) p)

/-- `b.jmp` (R307). -/
def execBJmp (p : BitVec 8) (st : State) : Host.Outcome State Fault Refusal :=
  st.bead (fun v => st.beadBranch v true p)

/-- `b.wait.nbdone` (R311). -/
def execBWaitNbdone (s : BitVec 3) (st : State) : Host.Outcome State Fault Refusal :=
  st.bead (fun v => st.beadWait v 0 (v.reg s) 0)

/-- `b.wait.nbpc` (R311). -/
def execBWaitNbpc (s : BitVec 3) (p : BitVec 8) (st : State) : Host.Outcome State Fault Refusal :=
  st.bead (fun v => st.beadWait v 1 (v.reg s) p.toNat)

/-- `b.wait.full` (R311). -/
def execBWaitFull (s : BitVec 3) (st : State) : Host.Outcome State Fault Refusal :=
  st.bead (fun v => st.beadWait v 2 (v.reg s) 0)

/-- `b.wait.phase` (R311). -/
def execBWaitPhase (s : BitVec 3) (i : BitVec 18) (st : State) : Host.Outcome State Fault Refusal :=
  st.bead (fun v => st.beadWait v 3 (v.reg s) i.toNat)

/-- `b.wait.pass` (R311). -/
def execBWaitPass (s : BitVec 3) (st : State) : Host.Outcome State Fault Refusal :=
  st.bead (fun v => st.beadWait v 4 (v.reg s) 0)

/-- `b.wait.local` (R311). -/
def execBWaitLocal (s : BitVec 3) (st : State) : Host.Outcome State Fault Refusal :=
  st.bead (fun v => st.beadWait v 5 (v.reg s) 0)

/-- `b.sleep` (R304, R307). -/
def execBSleep  (st : State) : Host.Outcome State Fault Refusal :=
  st.bead (fun v => st.putVisit (v.stopAs 2 0 0))

/-- `b.wake` (R307, R314). -/
def execBWake (s : BitVec 3) (i : BitVec 18) (st : State) : Host.Outcome State Fault Refusal :=
  st.bead (fun v => st.beadWake v (v.reg s + i.signExtend 64).toNat)

/-- `b.done` (R304, R307). -/
def execBDone  (st : State) : Host.Outcome State Fault Refusal :=
  st.bead (fun v => st.putVisit (v.stopAs 3 0 0))

/-- `b.sete`: DATA and the granule's bit as one store (R307, R316). -/
def execBSete (s : BitVec 3) (st : State) : Host.Outcome State Fault Refusal :=
  st.bead (fun v =>
    let o := (st.visitTensor v).record v.k
    match st.beadStoreTrap o 8 with
    | some t => st.beadFault v t
    | none => (st.beadStore o 8 (v.reg s).toNat true).putVisit { v.access.step with e := v.reg s })

/-- The meaning of a bead word in a visit (R305: no other word runs there). -/
def beadExec (i : BeadWord) (st : State) : Host.Outcome State Fault Refusal :=
  match i with
  | .bAdd d s t i => execBAdd d s t i st
  | .bSub d s t i => execBSub d s t i st
  | .bMul d s t i => execBMul d s t i st
  | .bMin d s t i => execBMin d s t i st
  | .bMax d s t i => execBMax d s t i st
  | .bAnd d s t i => execBAnd d s t i st
  | .bOr d s t i => execBOr d s t i st
  | .bXor d s t i => execBXor d s t i st
  | .bShiShl d s n => execBShiShl d s n st
  | .bShiShr d s n => execBShiShr d s n st
  | .bShiSra d s n => execBShiSra d s n st
  | .bShiRot d s n => execBShiRot d s n st
  | .bLi d i => execBLi d i st
  | .bCmpEq d s t i => execBCmpEq d s t i st
  | .bCmpNe d s t i => execBCmpNe d s t i st
  | .bCmpLt d s t i => execBCmpLt d s t i st
  | .bCmpGe d s t i => execBCmpGe d s t i st
  | .bCmpLtn d s t i => execBCmpLtn d s t i st
  | .bCmpGen d s t i => execBCmpGen d s t i st
  | .bSel d s t => execBSel d s t st
  | .bFopFadd d s t r f => execBFopFadd d s t r f st
  | .bFopFmul d s t r f => execBFopFmul d s t r f st
  | .bFopFmin d s t r f => execBFopFmin d s t r f st
  | .bFopFmax d s t r f => execBFopFmax d s t r f st
  | .bFopFma d s t r f => execBFopFma d s t r f st
  | .bNbData d o => execBNbData d o st
  | .bNbCtx d o => execBNbCtx d o st
  | .bLd d s z i => execBLd d s z i st
  | .bSt s t z i => execBSt s t z i st
  | .bStPut s t z i => execBStPut s t z i st
  | .bBrNz s p => execBBrNz s p st
  | .bBrZ s p => execBBrZ s p st
  | .bJmp p => execBJmp p st
  | .bWaitNbdone s => execBWaitNbdone s st
  | .bWaitNbpc s p => execBWaitNbpc s p st
  | .bWaitFull s => execBWaitFull s st
  | .bWaitPhase s i => execBWaitPhase s i st
  | .bWaitPass s => execBWaitPass s st
  | .bWaitLocal s => execBWaitLocal s st
  | .bSleep => execBSleep st
  | .bWake s i => execBWake s i st
  | .bDone => execBDone st
  | .bSete s => execBSete s st

/-! ## A visit (R304, R313) -/

/-- Run the visit's next word: past the program's end is a fault (R324). -/
def State.beadStep (s : State) (v : Visit) : Host.Outcome State Fault Refusal :=
  match (s.visitTensor v).prog[v.pc]? with
  | none => .next (s.beadFault v (trapOf 0x0E 8))
  | some w =>
    match beadWordOf w with
    | none => .next (s.beadFault v (trapOf 0x0E 4))
    | some i => beadExec i s

/-- Run words until the visit stops or 64 have run (R313). -/
def runVisit : Nat → State → State
  | 0, s => s
  | fuel + 1, s =>
    match s.cur.visit with
    | none => s
    | some v =>
      if v.stop ≠ 0 then s
      else match s.beadStep v with
        | .next s1 => runVisit fuel s1
        | _ => s

/-- The context a visit leaves in its record (R304). -/
def Visit.context (v : Visit) (pcnt : Nat) : Nat :=
  match v.stop with
  | 0 => ctxOf v.l (pcnt + 1) 4 1 v.pc
  | 1 => ctxOf v.l v.warg v.wk 1 v.pc
  | 4 => ctxOf v.l 0 0 0 v.pc
  | st => ctxOf v.l 0 0 st v.pc

/-- What visits have done so far: a fault's trap, whether an instruction ran, the wakes applied, and, counted from the
start of the pass, when each of the 16 lanes is free, the cycle after the last dealing and the last write (R326). -/
structure SweepRun where
  s : State
  trap : Option Trap
  ran : Bool
  wakes : Nat
  lanes : List Nat
  dealt : Nat
  last : Nat
  deriving DecidableEq, Repr

/-- Deal a visit of n cycles to the first free lane, one visit per cycle (R326). -/
def SweepRun.deal (r : SweepRun) (n : Nat) : SweepRun :=
  let m := r.lanes.foldl min (r.lanes.headD 0)
  let t := max r.dealt m
  { r with lanes := r.lanes.set (r.lanes.findIdx (fun x => x == m)) (t + n), dealt := t + 1, last := max r.last (t + n) }

/-- End a visit: its record write, its skip bit, and what it adds to the pass (R304, R313, R315). -/
def State.endVisit (s : State) (r : SweepRun) : SweepRun :=
  match s.cur.visit with
  | none => { r with s := s }
  | some v =>
    let c := s.actCore
    let x := s.visitTensor v
    let l : Loc := .spad c (x.record v.k)
    let s1 := (s.poke s.cur.world l (bytesOf 8 v.e.toNat ++ bytesOf 8 (v.context x.pcnt))).raiseHts l (s.pts c)
    let s2 := if v.stop = 2 ∨ v.stop = 3 then s1.setSkip c v.t v.k true else s1
    { r.deal (3 + v.steps + v.accesses) with
      s := s2.modCore c (fun k => { k with visit := none }), trap := v.trap, ran := r.ran || v.ran, wakes := r.wakes + v.wakes }

/-- The visit of bead k as it begins (R306). -/
def Visit.start (t k e ctx : Nat) (steps : Nat) : Visit :=
  ⟨t, k, wordOf e, BitVec.ofNat 32 (ctx / 2 ^ 32), [], ctxPc ctx, steps, 0, 0, 0, none, false, 0, 0⟩

/-- The imm of the wait a bead stands at: that of word PC - 1 (R310); the spec gives none for PC = 0, a free value
(log 55). -/
def waitImm (x : Tensor) (pc free : Nat) : Nat :=
  if pc = 0 then (Config.freeValue free).toNat % 2 ^ 18 else ((x.prog[pc - 1]?.getD 0).toNat) % 2 ^ 18

/-- Visit bead k (R313). -/
def visitBead (t k : Nat) (r : SweepRun) : SweepRun :=
  let s := r.s
  let c := s.actCore
  let x := s.cur.tensor t
  match s.beadRead (x.record k) 16 with
  | .error tr => { r with trap := some { tr with eidx := some k } }
  | .ok (w, s1) =>
    let ctx := w / 2 ^ 64
    let v := Visit.start t k (w % 2 ^ 64) ctx 0
    let run (s : State) : SweepRun := (runVisit 64 (s.putVisit v)).endVisit { r with s := s }
    match ctxSt ctx with
    | 0 => run s1
    | 1 =>
      let s2 := if ctxPc ctx = 0 then { s1 with freeCount := s1.freeCount + 1 } else s1
      match s2.waitHolds v (ctxWk ctx) (ctxWarg ctx) (waitImm x (ctxPc ctx) s1.freeCount) with
      | .error tr => ((s2.putVisit { v with pc := v.pc - 1 }).beadFault { v with pc := v.pc - 1 } tr).endVisit { r with s := s2 }
      | .ok (false, s3) => { r.deal 2 with s := s3 }
      | .ok (true, s3) => run s3
    | _ => { r.deal 2 with s := s1.setSkip c t k true }

/-- The beads from k on (R313, R315): it stops at a fault (R324). -/
def visitFrom (t : Nat) : Nat → Nat → SweepRun → SweepRun
  | 0, _, r => r
  | n + 1, k, r =>
    match r.trap with
    | some _ => r
    | none =>
      if bitOf (r.s.cur.tensor t).bits k then visitFrom t n (k + 1) r else visitFrom t n (k + 1) (visitBead t k r)

/-! ## Passes and the sweep queue (R301, R313, R320, R324) -/

/-- ST of every bead, from the records. -/
def State.beadStates (s : State) (c : Nat) (x : Tensor) : List Nat :=
  (List.range x.beads).map (fun k => ctxSt (s.sNum c (x.record k + 8) 8))

/-- Rebuild the skip map from the records (R315). -/
def State.rebuildSkip (s : State) (c t : Nat) : State :=
  let x := (s.core c).tensor t
  let sts := s.beadStates c x
  let bits := (sts.zip (List.range x.beads)).foldl (fun b p => if 2 ≤ p.1 then b + 2 ^ p.2 else b) 0
  (List.range x.skipBytes).foldl (fun s b => s.skipByte c t b) (s.modCore c (fun k => k.putTensor t { x with bits := bits }))

/-- The status counts of a pass boundary (R322). -/
def State.snapshot (s : State) (c t : Nat) (qui : Bool) : State :=
  let x := (s.core c).tensor t
  let done := ((s.beadStates c x).filter (fun st => st == 3)).length
  s.modCore c (fun k => k.putTensor t { x with qui := qui, alld := done == x.beads, ndone := done, nact := x.beads - popCount x.beads x.bits })

/-- The running pass command of a core. -/
def Core.runningPass (k : Core) : Option PassCmd := (k.sq.head?).bind (fun q => if q.running then some q else none)

/-- Replace the head of the sweep queue. -/
def Core.putPass (k : Core) (q : PassCmd) : Core := { k with sq := q :: k.sq.drop 1 }

/-- BD_PASS_START (R320): the head of the sweep queue starts; FLT is cleared and the skip map rebuilt. A gang that stops
starts none (R115). -/
def execBdPassStart (core : Nat) (s : State) : Host.Outcome State Fault Refusal :=
  match (s.core core).sq.head? with
  | none => .next s
  | some q =>
    if q.running || q.dead || s.stopping core then .next s
    else
      let s1 := s.modCore core (fun k => (k.putPass { q with running := true, free := s.cycle + ceilDiv (k.tensor q.t).beads 16 }).putTensor q.t { k.tensor q.t with flt := false })
      .next (s1.rebuildSkip core q.t)

/-- One pass of tensor t on the acting core (R313, R314), as one event of the model (log 6). -/
def State.sweep (s : State) (t : Nat) : SweepRun :=
  let c := s.actCore
  let p := (s.modCore c (fun k => k.putTensor t { k.tensor t with early := [] })).applyWakes c t (s.cur.tensor t).early
  let r := visitFrom t (s.cur.tensor t).beads 0 ⟨p.1, none, false, p.2, List.replicate 16 0, 0, 0⟩
  match r.trap with
  | some _ => r
  | none =>
    let x := (r.s.core c).tensor t
    let q := (r.s.modCore c (fun k => k.putTensor t { x with late := [] })).applyWakes c t x.late
    let s1 := q.1.modCore c (fun k => k.putTensor t { k.tensor t with pcnt := (x.pcnt + 1) % 2 ^ 32 })
    { r with s := s1, wakes := r.wakes + q.2 }

/-- The pass command after a pass that met no fault: the passes left, and whether it stops (R320). -/
def PassCmd.after (q : PassCmd) (quiet alld : Bool) : PassCmd :=
  let left := q.left - 1
  { q with left := left, stop := if (!q.unlimited && left == 0) || alld || (q.qstop && quiet) then some none else none }

/-- SWEEP_PASS (R313, R320, R324): the running command makes one pass; a gang that stops makes no further one (R115, R325). -/
def execSweepPass (core : Nat) (s : State) : Host.Outcome State Fault Refusal :=
  match (s.core core).runningPass with
  | none => .next s
  | some q =>
    if q.stop.isSome || q.dead || s.stopping core || decide (s.cycle < q.free) then .next s
    else
      let r := (s.actAs core q.slot).sweep q.t
      let q := { q with free := s.cycle + max (ceilDiv ((s.core core).tensor q.t).beads 64) r.last + 4 + r.wakes }
      match r.trap with
      | some t => .next (r.s.modCore core (fun k => (k.putPass { q with stop := some (some t) }).putTensor q.t { k.tensor q.t with flt := true }))
      | none =>
        let quiet := !r.ran && r.wakes == 0
        let s1 := r.s.snapshot core q.t quiet
        .next (s1.modCore core (fun k => k.putPass (q.after quiet ((k.tensor q.t).alld))))

/-- The access context of a pass command's clasp. -/
def PassCmd.ctx (q : PassCmd) (c : Nat) : EngCtx := ⟨c, q.world, q.pc.toNat⟩

/-- The end of a pass command for its issuer (R320, R324, R325): an error it consumed is the issuing thread's. -/
def State.passEnds (s : State) (c : Nat) (q : PassCmd) (t : Option Trap) : State :=
  match q.async, t with
  | true, none => (s.claspNow (q.ctx c) q.clasp (max q.stamp (s.pts c)) (fun x => x.add 16)).getD s
  | true, some t =>
    let s1 := if t.cause = 0x13 then s.consumeUE c q.ws (t.faddr.getD 0).toNat else s
    (s1.claspNow (q.ctx c) q.clasp (max q.stamp (s.pts c)) Clasp.setE).getD s1
  | false, none => (s.actAs c q.slot).resumeDone 8
  | false, some t =>
    let s1 := s.actAs c q.slot
    if t.cause = 0x13 then s1.serviceFault 0x13 (t.faddr.getD 0).toNat else s1.takeLateTrap t

/-- Whether a finished pass command's clasp page still waits for the service (R100). -/
def State.passWaits (s : State) (c : Nat) (q : PassCmd) : Bool := q.async && s.wouldWait (q.ctx c) q.clasp 16 true

/-- The pass commands of ended tasks are discarded, the running one at a visit boundary; an asynchronous one sets E
(R325). -/
def State.dropDeadPasses (s : State) (c : Nat) : State :=
  (((s.core c).sq.filter (fun q => q.dead && q.async)).foldl (fun s q => s.spoilClasp (q.ctx c) q.clasp q.stamp) s).modCore c
    (fun k => { k with sq := k.sq.filter (fun q => !q.dead) })

/-- BD_PASS_COMPLETE (R320, R325): flags, then the thread or the clasp. -/
def execBdPassComplete (core : Nat) (s : State) : Host.Outcome State Fault Refusal :=
  if (s.core core).sq.any (fun q => q.dead) then .next (s.dropDeadPasses core)
  else match (s.core core).runningPass with
  | none => .next s
  | some q =>
    match q.stop with
    | none => .next s
    | some t =>
      if s.passWaits core q || decide (s.cycle < q.free) then .next s
      else
        let fl := ((s.core core).tensor q.t).flags
        let s1 := s.modCore core (fun k => { (k.putTensor q.t { k.tensor q.t with flags := 0 }) with sq := k.sq.drop 1 })
        .next ((s1.lateFlags core q.ws fl).passEnds core q t)

/-! ## The commands (R318 to R323) -/

/-- Tensor slot of a command. -/
def bdSlot (c : EngCmd) : Nat := c.f.toNat % 4

/-- Own-scratchpad offset of an address. -/
def State.ownOff (s : State) (va : Nat) : Option Nat :=
  match s.spadOf s.actCore va with
  | some (o, off) => if o = s.actCore then some off else none
  | none => none

/-- The tensor a descriptor at a scratchpad offset describes, its program not yet read (R302). -/
def State.descTensor (s : State) (o : Nat) : Tensor :=
  let w (i : Nat) : Nat := s.sNum s.actCore (o + 8 * i) 8
  { Tensor.reset with
    declared := true, base := bitsOf (w 0) 0 20, skip := bitsOf (w 3) 0 20,
    dims := (bitsOf (w 1) 0 16 + 1, bitsOf (w 1) 16 16 + 1, bitsOf (w 1) 32 16 + 1),
    window := bitsOf (w 2) 8 12 + 1, plen := bitsOf (w 2) 0 8 + 1, edgev := wordOf (w 5), edgec := wordOf (w 6) }

/-- Whether a descriptor's fields are in their limits (R302, R319 step 2). -/
def State.descOk (s : State) (o : Nat) : Bool :=
  let w (i : Nat) : Nat := s.sNum s.actCore (o + 8 * i) 8
  let t := s.descTensor o
  decide (w 0 < 2 ^ 20) && decide (w 1 < 2 ^ 48) && decide (w 2 < 2 ^ 20) && decide (w 3 < 2 ^ 20) &&
    bitsOf (w 6) 14 2 == 0 && w 7 == 0 && decide (t.beads ≤ 65535) && t.base % 16 == 0 && t.skip % 8 == 0 && w 4 % 4 == 0

/-- Whether records and skip map are in place (R319 step 3). -/
def State.placesOk (s : State) (o : Nat) (t : Tensor) : Bool :=
  let n := 16 * t.beads
  let m := t.skipBytes
  decide (t.base + n ≤ 2 ^ 20) && decide (t.skip + m ≤ 2 ^ 20) && !(overlaps t.base n t.skip m) &&
    !(overlaps t.base n o 64) && !(overlaps t.skip m o 64) && (s.cur.regHit t.base n).isNone && (s.cur.regHit t.skip m).isNone

/-- Steps 1 to 3 of `bd.decl` (R319): the trap, or the descriptor's offset. -/
def State.declCheck (s : State) (t va : Nat) : Except Trap Nat :=
  if (s.cur.tensor t).declared then .error (trapOf 0x0E 3)
  else
    match s.ownOff va with
    | none => .error (trapAt 0x0E 2 va)
    | some o =>
      if va % 8 ≠ 0 ∨ 2 ^ 20 < o + 64 ∨ (s.cur.regHit o 64).isSome = true then .error (trapAt 0x0E 2 va)
      else if s.descOk o = false then .error (trapAt 0x0E 1 va)
      else if s.placesOk o (s.descTensor o) = false then .error (trapAt 0x0E 2 va)
      else .ok o

/-- Cycles `bd.decl` takes besides reading its program (R319). -/
def declCycles (t : Tensor) : Nat := 8 + ceilDiv (16 * t.beads) 256

/-- Travel of the program's first word, where it has a place (R103, R319). -/
def State.progTravel (s : State) (a : Nat) : Nat :=
  match s.engineCheck s.actCore s.cur.world s.curTask.pc.toNat a 4 false with
  | .ok l _ => s.travel s.actCore l
  | _ => 0

/-- `bd.decl` (R319): the first checks, then the thread parks until BD_DECL_COMPLETE. -/
def execBdDecl (c : EngCmd) (s : State) : Host.Outcome State Fault Refusal :=
  let s := s.drainReds
  match s.declCheck (bdSlot c) (s.rd c.x).toNat with
  | .error t => .next (s.takeTrap t)
  | .ok o =>
    let due := s.cycle + 6 + declCycles (s.descTensor o) + s.progTravel (s.sNum s.actCore (o + 0x20) 8)
    .next (s.parkCur (.bdDecl (bdSlot c) due none [] none))

/-- Whether a bead word is valid in a program of a length (R312). -/
def wordValid (plen : Nat) (w : IWord) : Bool :=
  match beadWordOf w with
  | none => false
  | some (.bBrNz _ p) => decide (p.toNat < plen)
  | some (.bBrZ _ p) => decide (p.toNat < plen)
  | some (.bJmp p) => decide (p.toNat < plen)
  | some _ => true

/-- Whether a record's context is valid (R312). -/
def ctxValid (plen ctx : Nat) : Bool :=
  decide (ctxPc ctx < plen) && bitsOf ctx 14 2 == 0 &&
    (if ctxSt ctx = 1 then decide (ctxWk ctx ≤ 5) else ctxWk ctx == 0 && ctxWarg ctx == 0)

/-- Steps 4 and 5 of `bd.decl` on a program that has been read: the trap, or the slot's contents (R319). -/
def State.declBody (s : State) (x : Tensor) (prog : Nat) (words : List IWord) : Except Trap Tensor :=
  match words.findIdx? (fun w => !(wordValid x.plen w)) with
  | some i => .error (trapAt 0x0E 4 ((prog + 4 * i) % 2 ^ 64))
  | none =>
    match (List.range x.beads).find? (fun k => !(ctxValid x.plen (s.sNum s.actCore (x.record k + 8) 8))) with
    | some k => .error ⟨0x0E, 5, none, some k⟩
    | none => .ok { x with prog := words }

/-- Declare a tensor slot (R319 step 6). -/
def State.declare (s : State) (t : Nat) (x : Tensor) : State :=
  ((s.modCore s.actCore (fun k => k.putTensor t x)).rebuildSkip s.actCore t).snapshot s.actCore t false

/-- The words of a program, each read by an engine read of its own (R83, R319). -/
def progRead (x : EngCtx) (fab : FabData) (prog n : Nat) : EngM (List IWord) :=
  (List.range n).mapM (fun i => do
    let w ← engNum x fab ((prog + 4 * i) % 2 ^ 64) 4
    pure (BitVec.ofNat 32 w))

/-- Finish `bd.decl` for the acting thread (R319); its program is asked for word by word where it lies behind a fabric
window. -/
def State.finishDecl (s : State) (t due : Nat) (fab : FabData) (x : BitVec 5) : State :=
  match s.declCheck t (s.rd x).toNat with
  | .error tr => s.takeLateTrap tr
  | .ok o =>
    let d := s.descTensor o
    let prog := s.sNum s.actCore (o + 0x20) 8
    if poisonHit s.cur.spoison o 64 || poisonHit s.cur.spoison d.base (16 * d.beads) then s.serviceFault 0x13 (aliasOf o)
    else
      match progRead ⟨s.actCore, s.cur.world, s.curTask.pc.toNat⟩ fab prog d.plen ⟨s, s.pts s.actCore⟩ with
      | .error (.wait a) => s.parkCur (.bdDecl t due (some a) fab none)
      | .error (.fabric win off a n _) => (s.askFabric s.cur.world win off n false 0).parkCur (.bdDecl t due none fab (some a))
      | .error (.bad met) => ((met.map (fun l => s.noteUnread l s.cur.world)).getD s).takeLateTrap (trapAt 0x0E 2 prog)
      | .ok (words, e) =>
        let s1 := e.s.raisePts s.actCore e.stamp
        match s1.declBody d prog words with
        | .error tr => s1.takeLateTrap tr
        | .ok y => (s1.declare t y).resumeDone 8

/-- BD_DECL_COMPLETE (R319): the program and the records are read and validated, and the thread is released. -/
def execBdDeclComplete (core slot : Nat) (s : State) : Host.Outcome State Fault Refusal :=
  let s1 := s.actAs core slot
  match s1.curTask.park with
  | .bdDecl t due none fab none =>
    -- X of the parked word is its field [20:16] (R155)
    if due ≤ s.cycle then .next (s1.finishDecl t due fab (s1.curTask.issue.iw0.extractLsb' 16 5)) else .next s
  | _ => .next s

/-- The pass command a thread queues (R320). -/
def State.passCmd (s : State) (c : EngCmd) : PassCmd where
  id := s.nextId
  slot := s.actSlot
  ws := s.curWs
  t := bdSlot c
  left := (s.rd c.x).toNat % 2 ^ 24
  unlimited := (s.rd c.x).toNat % 2 ^ 24 == 0
  async := bitOf c.f.toNat 2
  qstop := bitOf c.f.toNat 3
  clasp := (s.rd c.z).toNat
  world := s.cur.world
  pc := s.curTask.pc
  stamp := s.pts s.actCore
  running := false
  free := 0
  stop := none
  dead := false

/-- The issue checks of `bd.pass` (R320). -/
def State.passTrap (s : State) (c : EngCmd) : Option Trap :=
  if (s.cur.tensor (bdSlot c)).declared = false then some (trapOf 0x0E 3)
  else if (s.rd c.x).toNat % 2 ^ 24 = 0 ∧ bitOf c.f.toNat 3 = false then some (trapOf 0x0E 1)
  else if bitOf c.f.toNat 2 then s.claspIssue (s.rd c.z).toNat
  else none

/-- Queue a checked `bd.pass`: a synchronous one parks its thread (R301, R320). -/
def State.passEnqueue (s : State) (c : EngCmd) : State :=
  let q := s.passCmd c
  let s1 := { s with nextId := s.nextId + 1 }.modCore s.actCore (fun k => { k with sq := k.sq ++ [q] })
  if q.async then s1.finish 1 else s1.parkCur (.bdPass q.id)

/-- `bd.pass` (R320). -/
def execBdPass (c : EngCmd) (s : State) : Host.Outcome State Fault Refusal :=
  let s := s.drainReds
  match s.passTrap c with
  | some t => .next (s.takeTrap t)
  | none => if 4 ≤ s.cur.sq.length then .next (s.parkCur .sqFull) else .next (s.passEnqueue c)

/-- Whether a pass command of a tensor is running. -/
def Core.passRuns (k : Core) (t : Nat) : Bool := (k.runningPass.map (fun q => q.t)) == some t

/-- Post a wake from a thread (R314). -/
def State.postWake (s : State) (t j : Nat) : State :=
  if s.cur.passRuns t then
    s.modCore s.actCore (fun k => k.putTensor t { k.tensor t with early := insertRising j (k.tensor t).early })
  else (s.applyWake s.actCore t j).1

/-- `bd.wake` (R321). -/
def execBdWake (c : EngCmd) (s : State) : Host.Outcome State Fault Refusal :=
  let s := s.drainReds
  let x := s.cur.tensor (bdSlot c)
  let j := (s.rd c.x).toNat % 65536
  if x.declared = false then .next (s.takeTrap (trapOf 0x0E 3))
  else if x.beads ≤ j then .next (s.takeTrap (trapOf 0x0E 9))
  else .next ((s.postWake (bdSlot c) j).finish 1)

/-- The status word of a tensor slot (R322). -/
def Tensor.word (x : Tensor) (run : Bool) : Nat :=
  if x.declared then
    (if run then 2 ^ 63 else 0) + (if x.qui then 2 ^ 62 else 0) + (if x.alld then 2 ^ 61 else 0) +
      (if x.flt then 2 ^ 60 else 0) + x.pcnt % 2 ^ 24 * 2 ^ 32 + x.nact % 65536 * 65536 + x.ndone % 65536
  else 0

/-- `bd.stat` (R322): the destination is the X field. -/
def execBdStat (c : EngCmd) (s : State) : Host.Outcome State Fault Refusal :=
  .next ((s.wr c.x (wordOf ((s.cur.tensor (bdSlot c)).word (s.cur.passRuns (bdSlot c))))).finish 1)

/-- Whether a command of a tensor is queued or running (R323). -/
def Core.passQueued (k : Core) (t : Nat) : Bool := k.sq.any (fun q => q.t == t)

/-- Free a tensor slot (R323). -/
def Core.freeTensor (k : Core) (t : Nat) : Core := { k with tensors := AMap.del k.tensors t }

/-- `bd.free` (R323): it parks until no command of the tensor is queued or running. -/
def execBdFree (c : EngCmd) (s : State) : Host.Outcome State Fault Refusal :=
  if (s.cur.tensor (bdSlot c)).declared = false then .next (s.takeTrap (trapOf 0x0E 3))
  else if s.cur.passQueued (bdSlot c) then .next (s.parkCur (.bdFree (bdSlot c)))
  else .next ((s.modCore s.actCore (fun k => k.freeTensor (bdSlot c))).finish 1)

end Sys2Proof.Machine
end

