-- ==== Sys2Proof/Machine/Image.lean ====
section
/-! DEFINITION. Symbols, native images and relocation (R370 to R374): an image's parts and its bytes, the header checks of
a load, and the arithmetic of the eight relocation types. -/

namespace Sys2Proof.Machine

/-- A symbol (R370). -/
structure Sym where
  name : Nat
  glob : Bool
  kind : Nat
  value : Nat
  deriving DecidableEq, Repr

/-- A relocation record (R372). -/
structure Rel where
  off : Nat
  sect : Nat
  type : Nat
  sym : Nat
  addend : Nat
  deriving DecidableEq, Repr

/-- A native image (R371). -/
structure Image where
  pref : Nat
  text : List Byte
  const : List Byte
  data : List Byte
  dzero : Nat
  gotn : Nat
  entries : List Nat
  rels : List Rel
  provs : List (List Byte)
  syms : List Sym
  names : List Byte
  deriving DecidableEq, Repr

/-- The next multiple of 8. -/
def align8 (n : Nat) : Nat := ceilDiv n 8 * 8

/-- The next multiple of 64 KiB. -/
def align64K (n : Nat) : Nat := ceilDiv n 65536 * 65536

/-- Bytes followed by zeros up to the next 8-aligned offset. -/
def pad8 (b : List Byte) : List Byte := b ++ List.replicate (align8 b.length - b.length) 0#8

/-- The bytes of a symbol (R370). -/
def Sym.bytes (s : Sym) : List Byte :=
  bytesOf 8 (s.name * 2 ^ 32 + (if s.glob then 256 else 0) + s.kind % 256) ++ bytesOf 8 s.value

/-- A symbol from its bytes (R370); a reserved bit is checked apart (`symReserved`). -/
def symAt (b : List Byte) (o : Nat) : Sym :=
  let w := descNum b o 8
  ⟨w / 2 ^ 32, bitOf w 8, w % 256, descNum b (o + 8) 8⟩

/-- Whether a symbol's reserved bits hold a one (R370). -/
def symReserved (b : List Byte) (o : Nat) : Bool := bitsOf (descNum b o 8) 9 23 != 0

/-- The bytes of a record (R372). -/
def Rel.bytes (r : Rel) : List Byte :=
  bytesOf 8 (r.off * 2 ^ 32 + r.sect % 4 * 256 + r.type % 256) ++ bytesOf 8 (r.sym % 2 ^ 32) ++ bytesOf 8 r.addend

/-- A record from its bytes (R372). Its reserved bits are not looked at: what becomes of a record in which they are not zero
is the model's choice (log 31). -/
def relAt (b : List Byte) (o : Nat) : Rel :=
  let w := descNum b o 8
  ⟨w / 2 ^ 32, bitsOf w 8 2, w % 256, descNum b (o + 8) 4, descNum b (o + 16) 8⟩

/-- An image's bytes (R371). -/
def Image.bytes (x : Image) : List Byte :=
  bytesOf 8 (0x504E4931 * 2 ^ 32 + 2 ^ 16) ++ bytesOf 8 x.pref ++ bytesOf 8 (x.text.length * 2 ^ 32 + x.const.length) ++
  bytesOf 8 (x.data.length * 2 ^ 32 + x.dzero) ++
  bytesOf 8 (x.gotn * 2 ^ 48 + x.entries.length * 2 ^ 32 + x.rels.length) ++
  bytesOf 8 (x.provs.length * 2 ^ 32 + x.syms.length) ++ List.replicate 80 0#8 ++
  pad8 x.text ++ pad8 x.const ++ pad8 x.data ++ pad8 (x.entries.flatMap (bytesOf 4)) ++ x.rels.flatMap Rel.bytes ++
  x.provs.flatten ++ x.syms.flatMap Sym.bytes ++ x.names

/-- Where an image's symbols begin (R371). -/
def imageSyms (b : List Byte) : Nat :=
  let co := align8 (128 + descNum b 0x14 4)
  let do_ := align8 (co + descNum b 0x10 4)
  let eo := align8 (do_ + descNum b 0x1C 4)
  align8 (eo + 4 * descNum b 0x24 2) + 24 * descNum b 0x20 4 + 16 * descNum b 0x2C 4

/-- The parts of an image's bytes (R371). -/
def imageOf (b : List Byte) : Image :=
  let tl := descNum b 0x14 4
  let cl := descNum b 0x10 4
  let dl := descNum b 0x1C 4
  let ne := descNum b 0x24 2
  let nr := descNum b 0x20 4
  let np := descNum b 0x2C 4
  let ns := descNum b 0x28 4
  let co := align8 (128 + tl)
  let do_ := align8 (co + cl)
  let eo := align8 (do_ + dl)
  let ro := align8 (eo + 4 * ne)
  let po := ro + 24 * nr
  let so := po + 16 * np
  let part (o n : Nat) : List Byte := (b.drop o).take n ++ List.replicate (n - ((b.drop o).take n).length) 0#8
  { pref := descNum b 8 8, text := part 128 tl, const := part co cl, data := part do_ dl, dzero := descNum b 0x18 4
    gotn := descNum b 0x26 2, entries := (List.range ne).map (fun i => descNum b (eo + 4 * i) 4)
    rels := (List.range nr).map (fun i => relAt b (ro + 24 * i))
    provs := (List.range np).map (fun i => part (po + 16 * i) 16)
    syms := (List.range ns).map (fun i => symAt b (so + 16 * i)), names := b.drop (so + 16 * ns) }

/-- The first failing header check of a load (R370, R371, R374 step 1), by the field it names: 1 MAGIC, 2 SETVER, 3 the
reserved bits beside it, 4 PREF, 5 TEXTLEN, 6 GOTN, 7 NENTRY, 8 the reserved words, 9 bytes 64 to 127, 10 an entry, 11 a
symbol's KIND, 12 a symbol's reserved bits; 0 when none fails. -/
def imageField (b : List Byte) : Nat :=
  let x := imageOf b
  let bad : List (Nat × Bool) :=
    [(1, descNum b 4 4 != 0x504E4931), (2, descNum b 2 2 != 1), (3, descNum b 0 2 != 0), (4, x.pref % 65536 != 0),
     (5, x.text.length % 128 != 0), (6, decide (256 < x.gotn)), (7, x.entries.isEmpty), (8, descNum b 0x30 16 != 0),
     (9, descNum b 64 64 != 0), (10, x.entries.any (fun e => e % 128 != 8 || decide (x.text.length ≤ e))),
     (11, x.syms.any (fun s => s.kind == 0 || s.kind == 5 || decide (6 < s.kind))),
     (12, (List.range x.syms.length).any (fun i => symReserved b (imageSyms b + 16 * i)))]
  ((bad.find? (fun e => e.2)).map (fun e => e.1)).getD 0

/-! ## Relocation (R373, R374) -/

/-- Where an image is placed (R374): text, const and data, and the end of the object. -/
structure Layout where
  b : Nat
  c : Nat
  d : Nat
  e : Nat
  deriving DecidableEq, Repr

/-- The layout of an image at a base (R374 step 2). -/
def Image.layout (x : Image) (base : Nat) : Layout :=
  let c := base + align64K x.text.length
  let d := c + align64K x.const.length
  ⟨base, c, d, d + align64K (8 * x.gotn + x.data.length + x.dzero)⟩

/-- The three sections while they are patched: text, const, and the GOT with the data. -/
structure Sects where
  text : List Byte
  const : List Byte
  data : List Byte
  deriving DecidableEq, Repr

/-- The sections before relocation. -/
def Image.sects (x : Image) : Sects :=
  ⟨x.text, x.const, List.replicate (8 * x.gotn) 0#8 ++ x.data ++ List.replicate x.dzero 0#8⟩

/-- A section by SECT. -/
def Sects.get (t : Sects) (sect : Nat) : List Byte := match sect with
  | 0 => t.text
  | 1 => t.const
  | _ => t.data

/-- Write bytes into a section. -/
def Sects.put (t : Sects) (sect off : Nat) (v : List Byte) : Sects :=
  let f (l : List Byte) : List Byte := l.take off ++ v ++ l.drop (off + v.length)
  match sect with
  | 0 => { t with text := f t.text }
  | 1 => { t with const := f t.const }
  | _ => { t with data := f t.data }

/-- Address S of a symbol (R370). -/
def Sym.addr (s : Sym) (l : Layout) (gotn : Nat) : Nat :=
  (match s.kind with
    | 1 => l.b + s.value
    | 2 => l.c + s.value
    | 3 => l.d + 8 * gotn + s.value
    | 4 => s.value
    | _ => l.d) % 2 ^ 64

/-- V of a record, as a word (R373). -/
def relV (x : Image) (l : Layout) (r : Rel) : Nat :=
  (((x.syms[r.sym]?.map (fun s => s.addr l x.gotn)).getD 0) + r.addend) % 2 ^ 64

/-- P of a record (R373). -/
def relP (l : Layout) (r : Rel) : Nat :=
  ((match r.sect with
    | 0 => l.b
    | 1 => l.c
    | _ => l.d) + r.off) % 2 ^ 64

/-- A 64-bit pattern as a signed value. -/
def signed64 (v : Nat) : Int := sintOf v 64

/-- Check 1 of a record: TYPE and SECT (R374). -/
def relTypeOk (r : Rel) : Bool :=
  decide (1 ≤ r.type) && decide (r.type ≤ 8) && decide (r.sect ≤ 2) && ((r.type == 1) != (r.sect == 0))

/-- Check 2 of a record: OFF (R372 to R374). -/
def relOffOk (x : Image) (t : Sects) (r : Rel) : Bool :=
  let n := if r.type = 1 then 8 else 4
  r.off % n == 0 && decide (r.off + n ≤ (t.get r.sect).length) && (r.sect != 2 || decide (8 * x.gotn ≤ r.off)) &&
    (r.sect != 0 || decide (8 ≤ r.off % 128))

/-- Check 4 of a record: the word's major opcode and fields (R373). -/
def relWordOk (type w : Nat) : Bool :=
  let m := w / 2 ^ 26
  match type with
  | 1 => true
  | 2 => m == 0x08
  | 3 => (decide (0x10 ≤ m) && decide (m ≤ 0x14)) || m == 2
  | 4 => m == 0x21 || m == 0x22
  | 5 => m == 0x20
  | 6 => m == 0x10 && bitsOf w 16 5 == 31
  | 7 => m == 0x09
  | _ => (decide (0x10 ≤ m) && decide (m ≤ 0x14)) || m == 2

/-- The PHI20 record at the word that a PLO12's SYM labels (R373). -/
def phiOf (x : Image) (l : Layout) (r : Rel) : Option Rel :=
  let s := (x.syms[r.sym]?.map (fun s => s.addr l x.gotn)).getD 0
  x.rels.find? (fun q => q.type == 7 && q.sect == 0 && relP l q == s)

/-- The distinct (SYM, A) pairs of GOT records, in the order of their first records (R373). -/
def gotPairs : List Rel → List (Nat × Nat) → List (Nat × Nat)
  | [], l => l
  | r :: rs, l => gotPairs rs (if r.type = 6 ∧ l.contains (r.sym, r.addend) = false then l ++ [(r.sym, r.addend)] else l)

/-- Put the low n bits of a value into a word's low n bits. -/
def putLow (w n : Nat) (v : Int) : Nat := insertBits w 0 n (wrapInt v n)

/-- A patched word, or the reason the value is rejected (R373, R374 checks 5 to 7). -/
def relWord (x : Image) (l : Layout) (slots : List (Nat × Nat)) (r : Rel) (w : Nat) : Except Nat Nat :=
  let v := signed64 (relV x l r)
  let p : Int := (relP l r : Nat)
  let high (h : Int) : Except Nat Nat := if -(2 ^ 19 : Int) ≤ h ∧ h < 2 ^ 19 then .ok (putLow w 20 h) else .error 5
  let low (a : Int) : Except Nat Nat :=
    .ok (putLow w (if w / 2 ^ 26 = 2 then 16 else 12) (sintOf (wrapInt a 12) 12))
  let near (n : Nat) : Except Nat Nat :=
    let q := (v - p) / 4
    if (v - p) % 4 = 0 ∧ -(2 ^ (n - 1) : Int) ≤ q ∧ q < 2 ^ (n - 1) then .ok (putLow w n q) else .error 5
  match r.type with
  | 2 => high ((v + 0x800) / 4096)
  | 3 => low v
  | 4 => near 26
  | 5 => near 12
  | 6 =>
    let g := slots.findIdx (fun s => s == (r.sym, r.addend))
    if 255 < g ∨ x.gotn ≤ g then .error 7 else .ok (putLow w 12 (8 * (g : Int)))
  | 7 => high ((v - p + 0x800) / 4096)
  | _ => match phiOf x l r with
    | none => .error 6
    | some q => low (signed64 (relV x l q) - (relP l q : Nat))

/-- Apply one record, the slots so far being those of the records up to it (R374 step 3). -/
def applyRel (x : Image) (l : Layout) (slots : List (Nat × Nat)) (r : Rel) (t : Sects) : Except Nat Sects :=
  let w := descNum (t.get r.sect) r.off 4
  if relTypeOk r = false then .error 2
  else if relOffOk x t r = false then .error 1
  else if x.syms.length ≤ r.sym then .error 3
  else if relWordOk r.type w = false then .error 4
  else if r.type = 1 then .ok (t.put r.sect r.off (bytesOf 8 (relV x l r)))
  else match relWord x l slots r w with
    | .ok w1 => .ok (t.put 0 r.off (bytesOf 4 w1))
    | .error e => .error e

/-- Apply the records in their order, from record i: the sections and the GOT pairs, or the failing record and reason. -/
def applyRels (x : Image) (l : Layout) : Nat → List Rel → List (Nat × Nat) → Sects → Except (Nat × Nat) (Sects × List (Nat × Nat))
  | _, [], slots, t => .ok (t, slots)
  | i, r :: rs, slots, t =>
    let s1 := gotPairs [r] slots
    match applyRel x l s1 r t with
    | .ok t1 => applyRels x l (i + 1) rs s1 t1
    | .error e => .error (i, e)

/-- Fill the GOT (R373, R374 step 4). -/
def fillGot (x : Image) (l : Layout) (slots : List (Nat × Nat)) (t : Sects) : Sects :=
  (slots.zip (List.range slots.length)).foldl (fun t e =>
    t.put 2 (8 * e.2) (bytesOf 8 (relV x l ⟨0, 0, 6, e.1.1, e.1.2⟩))) t

/-- The relocated sections of an image, or the failing record and the reason (R374 steps 3 and 4). -/
def Image.relocate (x : Image) (l : Layout) : Except (Nat × Nat) Sects :=
  match applyRels x l 0 x.rels [] x.sects with
  | .ok (t, slots) => .ok (fillGot x l slots t)
  | .error e => .error e

end Sys2Proof.Machine
end

