-- ==== Sys2Proof/Machine/Container.lean ====
section
/-! DEFINITION. Selgil containers: the fields a run and its commit draw on (R365 to R368), and the checks that reject a
container before any run (R369). -/

namespace Sys2Proof.Machine

/-- NFUNC (R365). -/
def cnNfunc (b : List Byte) : Nat := descNum b 0 2
/-- CLEN (R365). -/
def cnClen (b : List Byte) : Nat := descNum b 0x0C 4
/-- TROFF (R365). -/
def cnTroff (b : List Byte) : Nat := descNum b 0x08 4
/-- TRLEN (R365). -/
def cnTrlen (b : List Byte) : Nat := descNum b 0x14 4
/-- FDOFF (R365). -/
def cnFdoff (b : List Byte) : Nat := descNum b 0x10 4
/-- NENTRY (R365). -/
def cnNentry (b : List Byte) : Nat := descNum b 0x2C 4
/-- ENOFF (R365). -/
def cnEnoff (b : List Byte) : Nat := descNum b 0x28 4
/-- NSYM (R365). -/
def cnNsym (b : List Byte) : Nat := descNum b 0x34 4
/-- SYOFF (R365). -/
def cnSyoff (b : List Byte) : Nat := descNum b 0x30 4
/-- LEVELS (R365). -/
def cnLevels (b : List Byte) : Nat := descNum b 0x38 1 % 8

/-- The entry list (R365). -/
def cnEntries (b : List Byte) : List Nat := (List.range (cnNentry b)).map (fun i => descNum b (cnEnoff b + 4 * i) 4)

/-- The symbols (R370). -/
def cnSyms (b : List Byte) : List Sym := (List.range (cnNsym b)).map (fun i => symAt b (cnSyoff b + 16 * i))

/-- Bytes up to and with the first zero, or none where there is no zero. -/
def zeroEnd : List Byte → Option Nat
  | [] => none
  | b :: r => if b = 0#8 then some 1 else (zeroEnd r).map (fun n => n + 1)

/-- Where the name strings start (R370). -/
def cnNames (b : List Byte) : Nat := cnSyoff b + 16 * cnNsym b

/-- Bytes of the name strings: up to the end of the last name a symbol has, or none where a name has no end (R370). -/
def cnNamesLen (b : List Byte) : Option Nat :=
  (cnSyms b).foldl (fun m s =>
    if s.name = 0xFFFFFFFF then m
    else match m, zeroEnd ((b.take (cnClen b)).drop (cnNames b + s.name)) with
      | some k, some n => some (max k (s.name + n))
      | _, _ => none) (some 0)

/-- The regions the header's fields name, in their order (R365): 6 FDOFF, 7 CNOFF, 8 DTOFF, 9 ENOFF, 10 SYOFF. -/
def cnRegions (b : List Byte) : List (Nat × Nat × Nat) :=
  [(6, cnFdoff b, 64 * cnNfunc b), (7, descNum b 0x18 4, descNum b 0x1C 4), (8, descNum b 0x20 4, descNum b 0x24 4),
   (9, cnEnoff b, 4 * cnNentry b), (10, cnSyoff b, 16 * cnNsym b)]

/-- The regions of a function's directory entry (R366): 14 to 17, its three sections and its cross-references. -/
def fdRegions (b : List Byte) (f : Nat) : List (Nat × Nat × Nat) :=
  (List.range 4).map (fun j =>
    let o := cnFdoff b + 64 * f + 8 * j
    (14 + j, descNum b o 4, descNum b (o + 4) 4))

/-- The first region that runs past CLEN or shares a byte with one before it (R369). -/
def badRegion (clen : Nat) : List (Nat × Nat × Nat) → List (Nat × Nat × Nat) → Option Nat
  | _, [] => none
  | before, r :: rs =>
    if clen < r.2.1 + r.2.2 ∧ r.2.2 ≠ 0 then some r.1
    else if before.any (fun q => q.2.1 < r.2.1 + r.2.2 && r.2.1 < q.2.1 + q.2.2 && q.2.2 != 0 && r.2.2 != 0) then some r.1
    else badRegion clen (r :: before) rs

/-- Whether a function's directory entry or its cross-references have a reserved field that is not zero (R366, R367). -/
def fdReserved (b : List Byte) (f : Nat) : Bool :=
  let o := cnFdoff b + 64 * f
  descNum b (o + 0x20) 32 != 0 ||
    (List.range (descNum b (o + 0x1C) 4 / 16)).any (fun i => bitsOf (descNum b (descNum b (o + 0x18) 4 + 16 * i) 8) 32 24 != 0)

/-- The first failing field of a function's directory entry, if any: a region's, or 12 a reserved field (R366, R367, R369). -/
def fdField (b : List Byte) (f : Nat) : Option Nat :=
  match badRegion (cnClen b) ((0, 0, 64) :: cnRegions b ++ (List.range f).flatMap (fdRegions b)) (fdRegions b f) with
  | some x => some x
  | none => if fdReserved b f then some 12 else none

/-- The first failing field after the directory, or 0: 13 an entry, 18 a symbol's reserved bits, 20 a name without an end,
21 the names' region, 19 TENTRY (R368 to R370). -/
def cnTail (b : List Byte) : Nat :=
  let before := (0, 0, 64) :: cnRegions b ++ (List.range (cnNfunc b)).flatMap (fdRegions b)
  let bad : List (Nat × Bool) :=
    [(13, (cnEntries b).any (fun e => decide (cnNfunc b ≤ e))),
     (18, (List.range (cnNsym b)).any (fun i => symReserved b (cnSyoff b + 16 * i))), (20, (cnNamesLen b).isNone),
     (21, (badRegion (cnClen b) before [(21, cnNames b, (cnNamesLen b).getD 0)]).isSome),
     (19, decide (descNum b (cnTroff b + 12) 4 ≤ descNum b (cnTroff b + 8) 4))]
  ((bad.find? (fun e => e.2)).map (fun e => e.1)).getD 0

/-- The first failing field of a container (R369), or 0. The fields come in the order in which the container holds them (the
spec does not number them; log 38): 1 MAGIC, 2 VERSION, 3 CLEN, 4 TROFF, 5 TRLEN, the header's regions, 11 its reserved bits,
then the directory entry by entry, and what follows it. -/
def containerField (b : List Byte) : Nat :=
  let text := descNum b (cnTroff b + 12) 4
  let early : List (Nat × Bool) :=
    [(1, descNum b 4 4 != 0x53474C31), (2, descNum b 2 2 != 1), (3, decide (cnClen b < 64) || decide (b.length < cnClen b)),
     (4, decide (cnTroff b < cnClen b) || decide (b.length < cnTroff b + cnTrlen b)),
     (5, decide (cnTrlen b < 16) || cnTrlen b != 16 + text)]
  match early.find? (fun e => e.2) with
  | some e => e.1
  | none => match badRegion (cnClen b) [(0, 0, 64)] (cnRegions b) with
    | some f => f
    | none =>
      if descNum b 0x38 4 / 8 ≠ 0 then 11
      else ((List.range (cnNfunc b)).findSome? (fdField b)).getD (cnTail b)

/-- The translator section as the container holds it (R368). -/
def cnTranslator (b : List Byte) : List Byte := (b.drop (cnTroff b)).take (cnTrlen b)

/-- The container copy (R343, R365). -/
def cnCopy (b : List Byte) : List Byte := b.take (cnClen b)

end Sys2Proof.Machine
end

