-- ==== Sys2Proof/Machine/Events.lean ====
section
/-! DEFINITION. What happens to threads between their instructions: returns and releases (R34, R37, R103, R221, R222),
late trap entry (R107), the resident service's answers (R111), switching (R46 to R50, R55, R244), line fills (R113,
R202), the barrier release (R61), and the timestamps' own events (R70, R74). -/

namespace Sys2Proof.Machine

/-! ## Returns and releases (R34, R37, R103) -/

/-- Give the acting thread the answer of its parked instruction; it goes on no earlier than a cycle (R34, R37). -/
def State.takeAnswer (s : State) (a : Answer) (at_ : Nat) : State :=
  match a.trap with
  | some t => ((s.raisePts s.actCore a.stamp).parkCur .run).takeLateTrap t
  | none => ((s.parkCur .run).applyAnswer a).goAt at_

/-- MEMORY_RETURN (R34): a parked access's data or acknowledgement has returned. -/
def execMemoryReturn (core slot : Nat) (s : State) : Host.Outcome State Fault Refusal :=
  let s1 := s.actAs core slot
  match s1.curTask.park with
  | .memory due => if due ≤ s.cycle then .next ((s1.parkCur .run).goAt (due + 8)) else .next s
  | .answered due a => if due ≤ s.cycle then .next (s1.takeAnswer a (due + 8)) else .next s
  | _ => .next s

/-- A request by number among those travelling. -/
def State.travelling (s : State) (id : Nat) : Option Request := s.inflight.find? (fun r => r.id == id)

/-- A request leaves the mesh. -/
def State.landed (s : State) (id : Nat) : State := { s with inflight := s.inflight.filter (fun x => x.id != id) }

/-- The cycle at which an answer given now returns to a request's thread: its half of the way after the memory stage for
which the model performs it (R32, R103). -/
def State.returnBy (s : State) (r : Request) : Nat := s.cycle + 6 + r.back

/-- A parked thread's answer is on its way. -/
def State.answerTo (s : State) (r : Request) (a : Answer) : State :=
  s.modTask r.core r.ws (fun t => { t with park := .answered (s.returnBy r) a })

/-- A withdrawal reaches the owner (R222): the waiting form or send leaves its list, and the acknowledgement returns. A
form that has been performed keeps its answer. -/
def State.recalled (s : State) (r : Request) (id : Nat) : State :=
  if s.cores.any (fun e => e.2.feWait.any (fun x => x.id == id) || e.2.sendWait.any (fun x => x.id == id)) then
    let s1 := { s with cores := s.cores.map (fun (e : Nat × Core) => (e.1, { e.2 with
      feWait := e.2.feWait.filter (fun x => x.id != id), sendWait := e.2.sendWait.filter (fun x => x.id != id) })) }
    s1.modTask r.core r.ws (fun t => { t with park := .recalled (s.returnBy r) })
  else s

/-- Whether a request's deadline has passed (R222). -/
def State.tooLate (s : State) (r : Request) : Bool :=
  match r.deadline with
  | some d => decide (d < s.cycle / 16)
  | none => false

/-- A request meets an uncorrectable error at its home: its thread consumes it (R23, R111, R425). -/
def State.errorHome (s : State) (r : Request) : State :=
  let e := (s.task r.core r.ws).pc
  let s1 := (s.consumeUE r.core r.ws r.va).modTask r.core r.ws (fun t => { t with park := .service 0x13 r.va e })
  match (s.core r.core).slotOf r.ws with
  | some i => s1.modSlot r.core i (fun sl => { sl with faultReg := ⟨0x13, r.va, e⟩ })
  | none => s1

/-- A request that has reached its home: it is performed there, or it waits there (R103, R221, R225, R233), unless its
deadline has passed (R222) or it meets an error. A `red` answers no one (R217). -/
def State.arriveHome (s : State) (r : Request) : State :=
  match r.op with
  | .red _ _ _ => s.performRed r
  | .recall id => (s.landed r.id).recalled r id
  | _ =>
    let s1 := s.landed r.id
    if s.tooLate r then s1.answerTo r (answerTrap (trapAt 9 0 r.va) (s.htsOf r.loc))
    else if s.errsAtHome r then s1.errorHome r
    else match (s1.cached r.world r.loc).perform r with
      | (s2, none) => s2.register r
      | (s2, some a) => s2.answerTo r a

/-- Whether a request's home is being settled (R23): it waits. -/
def State.homeSettling (s : State) (r : Request) : Bool :=
  match r.loc with
  | .mem pa _ => s.isSettling pa
  | _ => false

/-- HOME_REQUEST_ARRIVAL (R103). -/
def execHomeRequestArrival (id : Nat) (s : State) : Host.Outcome State Fault Refusal :=
  match s.travelling id with
  | none => .next s
  | some r => if r.arrive ≤ s.cycle ∧ s.homeSettling r = false then .next (s.arriveHome r) else .next s

/-- Whether the acting thread's parked condition holds (R36, R81, R243, R257, R291, R301, R323). Of a `ma.wait` R36 says that
the core's queue is empty and R291 that the commands issued before it have completed: the model goes by R291 (log 44). -/
def State.parkHolds (s : State) : Bool :=
  let k := s.cur
  match s.curTask.park with
  | .cbFill h n => decide (n ≤ (k.handleAt s.cycle h).available)
  | .cbFree h n => decide (n ≤ (k.handleAt s.cycle h).free)
  | .maWait last => k.mq.all (fun m => decide (last ≤ m.id))
  | .vqFull => decide (k.vq.length < 8)
  | .mqFull => decide (k.mqUsed < 16)
  | .cqFull => decide (k.cq.length < 8)
  | .sqFull => decide (k.sq.length < 4)
  | .meshFull => !(s.meshFull s.actCore)
  | .footprint off n => !(s.footHit s.actCore s.curWs off n)
  | .flagsDrain _ _ => !s.nestsOut
  | .bdFree t => !(k.passQueued t)
  | _ => false

/-- What a parked thread does once its condition holds: a wait completes, an instruction that was held reissues (R37). -/
def State.unpark (s : State) : State :=
  match s.curTask.park with
  | .cbFill _ _ => s.resumeDone 16
  | .cbFree _ _ => s.resumeDone 16
  | .maWait _ => s.resumeDone 16
  | .bdFree t => (s.modCore s.actCore (fun k => k.freeTensor t)).resumeDone 16
  | .flagsDrain put r => (if put then s.putSel 0x010 (s.rd r) else s.wr r (wordOf (s.getSel 0x010))).resumeDone 8
  | _ => (s.parkCur .run).goAt (s.cycle + 16)

/-- A full-empty form of a task that waits past its deadline (R97, R222). -/
def State.overdue (s : State) (core ws : Nat) : Option (Nat × Request) :=
  s.cores.findSome? (fun e => (e.2.feWait.find? (fun r => r.core == core && r.ws == ws &&
    (match r.deadline with
      | some d => decide (d < s.cycle / 16)
      | none => false))).map (fun r => (e.1, r)))

/-- FE_DEADLINE (R222): the owner withdraws the request, and the requester traps with FE_TIMEOUT. -/
def execFeDeadline (core ws : Nat) (s : State) : Host.Outcome State Fault Refusal :=
  match s.overdue core ws with
  | none => .next s
  | some (o, r) =>
    let s1 := s.modCore o (fun k => { k with feWait := k.feWait.filter (fun x => x.id != r.id) })
    .next (s1.modTask core ws (fun t => { t with park := .answered (s.cycle + r.back) (answerTrap (trapAt 9 0 r.va) (s.htsOf r.loc)) }))

/-- TRAP_ENTRY (R107): a task that was out of its slot takes its late trap in its first two beats after it enters one. -/
def execTrapEntry (core slot : Nat) (s : State) : Host.Outcome State Fault Refusal :=
  let s1 := s.actAs core slot
  match s1.curSlot.ws, s1.curTask.lateTrap with
  | some _, some t =>
    .next (((s1.modCurTask (fun k => { k with lateTrap := none, park := .run })).takeTrap t).goAt (beatAt slot s.cycle + 32))
  | _, _ => .next s

/-! ## The resident service's answers (R111, R119) -/

/-- The trap an unresolved page fault becomes (R111): PROT 0x0C for a malformed entry, else 0x01. -/
def State.escalated (s : State) (w a : Nat) : Trap := trapAt 7 (if s.walk w a = .malformed then 0x0C else 1) a

/-- End a task that is out of its slot (R110). -/
def State.endOut (s : State) (c ws cause sub : Nat) : State :=
  let s1 := ((s.reportEnd c ws cause sub 0).leaveReady c ws).setTstate c ws 6
  (s1.modTask c ws (fun t => { t with park := .run, lateTrap := none, resume := none })).modCore c (fun k => (k.settleHeld ws).dropCommands ws)

/-- End a task wherever it is. -/
def State.endAnywhere (s : State) (c ws cause sub : Nat) : State :=
  match (s.core c).slotOf ws with
  | some i => (s.actAs c i).endTask c i ws cause sub 0
  | none => s.endOut c ws cause sub

/-- The slot a task has, and is not leaving. -/
def State.staysIn (s : State) (c ws : Nat) : Option Nat :=
  ((s.core c).slotOf ws).filter (fun i => (s.slot c i).switching.isNone)

/-- Deliver a late trap to a task: at once, or, to one that has no slot or is leaving it (R50), when it next enters one
(R107). -/
def State.deliver (s : State) (c ws : Nat) (t : Trap) : State :=
  match s.staysIn c ws with
  | some i => ((s.actAs c i).parkCur .run).takeLateTrap t
  | none => s.modTask c ws (fun k => { k with park := .run, lateTrap := some t })

/-- A page fault of a nest is answered (R242): it goes on, or it traps at its element; a consumed error ends the task. -/
def State.nestAnswer (s : State) (c : Nat) (q : NestCmd) (ok : Bool) : State :=
  match q.fault with
  | none => s
  | some (cause, a) =>
    if ok then s.modCore c (fun k => k.putNest { q with fault := none })
    else if cause = 0x13 then (s.modCore c (fun k => (k.endWindows q.wins).freeNest q.id)).endAnywhere c q.ws 0x13 0
    else
      s.modCore c (fun k => k.putNest ({ q with fault := none }.refused a (s.escalated (s.core c).world a)))

/-- The nest a task is parked at. -/
def Core.nestById (k : Core) (id : Nat) : Option NestCmd := k.vq.find? (fun q => q.id == id)

/-- SERVICE_RESUME (R111, R113, R242): after a FETCHFAULT the text is paged in and no core of the world keeps a fetched line; the instruction at EPC reissues, or the waiting nest or declaration goes on. -/
def execServiceResume (core ws : Nat) (s : State) : Host.Outcome State Fault Refusal :=
  match (s.task core ws).park with
  | .service cause a _ =>
    let w := (s.core core).world
    let s1 := (if cause = 2 then (s.textIn w a).dropText w else s).modTask core ws (fun t => { t with park := .run })
    match (s.core core).slotOf ws with
    | some i => .next (s1.modSlot core i (fun sl => { sl with nextAt := s.cycle + 16 }))
    | none => .next s1
  | .nest id => match (s.core core).nestById id with
    | some q => .next (s.nestAnswer core q true)
    | none => .next s
  | .bdDecl t due (some _) fab _ => .next (s.modTask core ws (fun k => { k with park := .bdDecl t due none fab none }))
  | _ => .next s

/-- A declaration whose program cannot be read (R319 step 4). -/
def State.refuseDecl (s : State) (c ws : Nat) : State :=
  match (s.task c ws).park with
  | .bdDecl _ _ (some a) _ _ => s.deliver c ws (trapAt 0x0E 2 a)
  | _ => s

/-- SERVICE_ESCALATE (R111): a page fault becomes PROT, and a consumed error ends the task. -/
def execServiceEscalate (core ws : Nat) (s : State) : Host.Outcome State Fault Refusal :=
  match (s.task core ws).park with
  | .service cause a _ =>
    if cause = 0x13 then .next (s.endAnywhere core ws 0x13 0)
    else .next (s.deliver core ws (s.escalated (s.core core).world a))
  | .nest id => match (s.core core).nestById id with
    | some q => .next (s.nestAnswer core q false)
    | none => .next s
  | .bdDecl _ _ _ _ _ => .next (s.refuseDecl core ws)
  | _ => .next s

/-! ## Switching (R46 to R50, R244) -/

/-- Whether a detached nest outstanding on a core keeps a workspace from being loaded (R244). -/
def State.loadBlocked (s : State) (c ws : Nat) : Bool :=
  (s.core c).vq.any (fun q => !q.attached && q.boxed.any (fun w =>
    let r := q.addrRange w
    match s.ownRange c r.1 r.2 with
    | some (a, b) => overlaps a (b + 1 - a) (ws * 1024) 256
    | none => false))

/-- Keep a switch's load waiting while a detached nest is in its way, and start its beats when it is gone (R244). -/
def State.holdSwitch (s : State) (c i : Nat) : State :=
  match (s.slot c i).switching with
  | none => s
  | some x =>
    match x.incoming with
    | none => s
    | some w =>
      let beats := if (s.slot c i).dirtyCount ≤ 16 then 2 else 3
      let put (y : Switch) : State := s.modSlot c i (fun sl => { sl with switching := some y })
      match x.blocked, s.loadBlocked c w with
      | none, true => put { x with blocked := some beats }
      | some b, false => put { x with blocked := none, done := beatAt i s.cycle + 16 * b }
      | _, _ => s

/-- Put a task that has left its slot where its TSTATE says (R42, R47, R50, R55): a task that went to wait for a message
and finds one becomes ready. -/
def State.settleOut (s : State) (c ws st : Nat) : State :=
  if st = 0 ∨ st = 5 then s.joinReady c ws st
  else if st = 3 ∧ bitOf (s.sNum c (wsOff ws 0x170) 8) 0 = true then s.joinReady c ws 0
  else s.setTstate c ws st

/-- The outgoing half of a switch: registers and task record are written, and the workspace leaves (R41, R46). -/
def State.leave1 (s : State) (c i ws st : Nat) : State :=
  let s1 := (s.writeBack c i).writeRecord c i ws st
  let s2 := s1.modSlot c i (fun sl => { sl with ws := none, bank := [], live := 0, dirty := 0, bad := 0 })
  s2.settleOut c ws st

/-- The incoming half: the record is checked and loaded, and the task reissues what it waited on (R41, R42, R46). A task
that has been ended on its way in does not enter (R50). -/
def State.enter1 (s : State) (c i ws : Nat) : State :=
  if (s.task c ws).tstate = 6 then s
  else if s.recordOk c ws then
    ((s.loadWs c i ws).modTask c ws (fun t => { t with park := .run })).modSlot c i (fun sl => { sl with nextAt := beatAt i s.cycle })
  else s.endOut c ws 0x22 0

/-- SWITCH_COMPLETE (R46, R50). -/
def execSwitchComplete (core slot : Nat) (s : State) : Host.Outcome State Fault Refusal :=
  match (s.slot core slot).switching with
  | none => .next s
  | some x =>
    if s.cycle < x.done ∨ x.blocked.isSome = true then .next s
    else
      let s1 := match x.outgoing with
        | some (w, st) => s.leave1 core slot w st
        | none => s
      let s2 := s1.modSlot core slot (fun sl => { sl with switching := none })
      .next (match x.incoming with
        | some w => s2.enter1 core slot w
        | none => s2)

/-- Whether a slot is empty and may take a task (R48). -/
def State.slotEmpty (s : State) (c i : Nat) : Bool :=
  (s.slot c i).ws.isNone && (s.slot c i).switching.isNone && !(s.slot c i).burrow && !(s.stopping c)

/-- EMPTY_SLOT_FILL (R48): an empty slot takes, at its beat, the head of the ready queue if that has become ready by then,
and spends 2 beats on loading it, of which the model counts that beat as the first (log 30). -/
def execEmptySlotFill (core slot : Nat) (s : State) : Host.Outcome State Fault Refusal :=
  if s.slotEmpty core slot ∧ s.cycle % 16 = slot then
    match (s.core core).readyBy s.cycle with
    | none => .next s
    | some (_, w) =>
      let s1 := s.leaveReady core w
      .next (s1.modSlot core slot (fun sl => { sl with switching := some ⟨none, some w, s.cycle + 32, none⟩ }))
  else .next s

/-- Whether a request waits at its home, by number. -/
def State.waitingAtHome (s : State) (id : Nat) : Bool :=
  s.cores.any (fun e => e.2.feWait.any (fun r => r.id == id) || e.2.sendWait.any (fun r => r.id == id) ||
    e.2.clWait.any (fun r => r.id == id))

/-- Whether a withdrawal after a request is on its way (R222). -/
def State.recalling (s : State) (id : Nat) : Bool := s.inflight.any (fun r => r.op == .recall id)

/-- Whether a thread parked so gives up its slot when its quantum expires (R36, R111, R242). -/
def State.parkYields (s : State) (c : Nat) (p : Park) : Bool :=
  match p with
  | .run => true
  | .home id => s.waitingAtHome id && !(s.recalling id)
  | .cbFill _ _ => true
  | .cbFree _ _ => true
  | .maWait _ => true
  | .service _ _ _ => true
  | .settle => true
  | .nest id => match (s.core c).nestById id with
    | some q => !q.started && !(countsMet (s.core c) q)
    | none => false
  | _ => false

/-- Withdraw what a task waits for, so that it reissues when it next runs (R115, R222, R225, R242). -/
def State.withdrawAll (s : State) (c ws : Nat) : State := (s.withdraw c ws).withdrawNest c ws

/-- The park a task keeps while it is out of its slot: the service may still answer it (R111). -/
def Park.kept (p : Park) : Park :=
  match p with
  | .service cause a e => .service cause a e
  | _ => .run

/-- A full-empty form or a send that waits at another core, by number (R222). -/
def State.waitsAway (s : State) (c id : Nat) : Option Request :=
  s.cores.findSome? (fun e => if e.1 = c then none else (e.2.feWait ++ e.2.sendWait).find? (fun r => r.id == id))

/-- A full-empty form or a send that waits at another core or is on its way there, by number (R115, R222). -/
def State.formAway (s : State) (c id : Nat) : Option Request :=
  match s.inflight.find? (fun r => r.id == id) with
  | some r => match r.op with
    | .feLoad _ _ _ => some r
    | .feStore _ _ _ => some r
    | .send _ _ => some r
    | _ => none
  | none => s.waitsAway c id

/-- The core sends a withdrawal after a waiting request (R222). -/
def State.recallFrom (s : State) (c : Nat) (r : Request) : State :=
  let t := s.travel c r.loc
  { s with
    nextId := s.nextId + 1
    inflight := s.inflight ++ [⟨s.nextId, r.core, r.ws, r.world, s.cycle + (t + 1) / 2 - 6, t / 2, s.pts c, .recall r.id, r.va, r.loc, none⟩] }

/-- Switch a slot's task out to the tail of its list at the end of its quantum (R49): the highest task that is ready by now
enters (R47, R48). -/
def State.yieldSlot (s : State) (c i ws : Nat) : State :=
  let st := if (s.task c ws).park = .run then 0 else 5
  let s1 := if st = 0 then s else s.withdrawAll c ws
  let s2 := s1.modTask c ws (fun t => { t with park := t.park.kept })
  s2.leaveWith c i st (beatAt i (max s.cycle (s.slot c i).nextAt)) ((s2.core c).readyBy s.cycle)

/-- A quantum switch falls due (R49): a form or a send that waits at another core is first withdrawn (R222). -/
def State.preempt (s : State) (c i ws : Nat) : State :=
  match (s.task c ws).park with
  | .home id => match s.waitsAway c id with
    | some r => s.recallFrom c r
    | none => s.yieldSlot c i ws
  | _ => s.yieldSlot c i ws

/-- A parked thread keeps its instruction for reissue, with TSTATE 0x5 (R115 step 1). -/
def State.keepParked (s : State) (c ws : Nat) : State :=
  ((s.withdrawAll c ws).modTask c ws (fun t => { t with park := .run })).setTstate c ws 5

/-- The owner has acknowledged the withdrawal (R222): the switch goes on, or with no task ready any more the form reissues; in
a gang that is being pre-empted the thread stops (R115). -/
def State.afterRecall (s : State) (c i ws : Nat) : State :=
  if s.stopping c then s.keepParked c ws
  else if ((s.core c).readyBy s.cycle).isSome then s.yieldSlot c i ws
  else (s.modTask c ws (fun t => { t with park := .run })).modSlot c i (fun sl => { sl with nextAt := s.cycle + 16 })

/-- PARK_RELEASE (R37, R222). -/
def execParkRelease (core slot : Nat) (s : State) : Host.Outcome State Fault Refusal :=
  let s1 := s.actAs core slot
  match s1.curTask.park with
  | .released due a => if due ≤ s.cycle then .next (s1.takeAnswer a (due + 16)) else .next s
  | .recalled due => if due ≤ s.cycle then .next (s.afterRecall core slot s1.curWs) else .next s
  | _ => if s1.curSlot.ws.isSome ∧ s1.parkHolds = true then .next s1.unpark else .next s

/-- QUANTUM_EXPIRY (R49): QREM is reloaded, and the task leaves if one of equal or higher priority is ready. A task whose
QREM is 0 when TQ is raised from 0 meets this at once; the spec does not say what becomes of it (log 43). -/
def execQuantumExpiry (core slot : Nat) (s : State) : Host.Outcome State Fault Refusal :=
  let sl := s.slot core slot
  match sl.ws, sl.switching with
  | some ws, none =>
    if (s.task core ws).qrem ≠ 0 then .next s
    else
      let tq := (s.tqNow core).toNat
      let s1 := s.modTask core ws (fun t => { t with qrem := tq })
      match (s.core core).readyBy s.cycle with
      | some (p, _) =>
        if tq ≠ 0 ∧ p ≤ (s.task core ws).prio.toNat ∧ s.parkYields core (s.task core ws).park = true ∧ s.stopping core = false
        then .next (s1.preempt core slot ws) else .next s1
      | none => .next s1
  | _, _ => .next s

/-! ## Lines (R112, R113, R201, R202) -/

/-- Release the threads of a core that wait for a line; each reissues (R34, R113). -/
def State.lineReady (s : State) (c base at_ : Nat) : State :=
  (List.range 16).foldl (fun s i =>
    match (s.slot c i).ws with
    | some w => if (s.task c w).park = .line base
        then (s.modTask c w (fun t => { t with park := .run })).modSlot c i (fun sl => { sl with nextAt := at_ }) else s
    | none => s) s

/-- LINE_FILL (R202): the line enters the instruction cache, or is dropped if it would fault by now (R112). -/
def execLineFill (core line : Nat) (s : State) : Host.Outcome State Fault Refusal :=
  match (s.core core).ireq.find? (fun r => r.1 == line) with
  | none => .next s
  | some (_, due) =>
    if s.cycle < due then .next s
    else
      let s1 := s.modCore core (fun k => { k with ireq := k.ireq.filter (fun r => r.1 != line) })
      let s2 := match s1.fetchCheck core line with
        | .ok l x => ((s1.unreadLines core ((s1.core core).evicted line)).noteTlb core line x).modCore core
            (fun k => k.addLine (lineOfBytes line (s1.lineBytes core l)))
        | _ => s1
      .next (s2.lineReady core line (due + 8))

/-! ## Barriers (R61, R235) -/

/-- The members of a gang that wait at a barrier, as (core, slot). -/
def State.atBarrier (s : State) (g id : Nat) : List (Nat × Nat) :=
  (s.gang g).cores.flatMap (fun c => (List.range 16).filterMap (fun i =>
    match (s.slot c i).ws with
    | some w => if (s.task c w).gang = some g ∧ (s.task c w).park = .gbar id then some (c, i) else none
    | none => none))

/-- The release of an episode: the members' cores take the highest pts, and the members go on (R61, R235). -/
def State.openBarrier (s : State) (g id : Nat) : State :=
  let G := s.gang g
  let p := AMap.get 0 G.arrPts id
  let s1 := G.cores.foldl (fun s c => s.raisePts c p) s
  let s2 := (s.atBarrier g id).foldl (fun s e => (s.actAs e.1 e.2).resumeDone 16) s1
  s2.putGang g { s2.gang g with
    arrivals := AMap.del G.arrivals id, arrPts := AMap.del G.arrPts id, arrDue := AMap.del G.arrDue id }

/-- GBAR_RELEASE (R61, R235). -/
def execGbarRelease (g id : Nat) (s : State) : Host.Outcome State Fault Refusal :=
  match AMap.find (s.gang g).arrDue id with
  | none => .next s
  | some due => if (s.gang g).phase = 1 ∧ due ≤ s.cycle then .next (s.openBarrier g id) else .next s

/-! ## Timestamps (R70, R74) -/

/-- PTS_TICK (R70): every pts advances by one. -/
def execPtsTick (s : State) : Host.Outcome State Fault Refusal := .next { s with ptsTicks := s.ptsTicks + 1 }

/-- Lower the stamp of a request. -/
def Request.lower (d : Nat) (r : Request) : Request := { r with stamp := r.stamp - d }
/-- Lower the stamp of a copy. -/
def CopyCmd.lower (d : Nat) (q : CopyCmd) : CopyCmd := { q with stamp := q.stamp - d }

/-- Lower the stamp of an answer a thread waits for. -/
def Park.lower (d : Nat) (p : Park) : Park :=
  match p with
  | .answered due a => .answered due { a with stamp := a.stamp - d }
  | .released due a => .released due { a with stamp := a.stamp - d }
  | p => p

/-- Lower every stamp a core holds; its copies whose lease has ended go first, so that none of them comes back. -/
def Core.lower (d pts : Nat) (k : Core) : Core :=
  { k with
    hts := k.hts - d
    l1 := (k.l1.filter (fun e => e.2.owned || decide (pts ≤ e.2.rts))).map (fun e => (e.1, { e.2 with rts := e.2.rts - d }))
    feWait := k.feWait.map (Request.lower d), clWait := k.clWait.map (Request.lower d), sendWait := k.sendWait.map (Request.lower d)
    tasks := k.tasks.map (fun e => (e.1, { e.2 with park := e.2.park.lower d }))
    mq := k.mq.map (fun m => { m with stamp := m.stamp - d }), cq := k.cq.map (CopyCmd.lower d)
    sq := k.sq.map (fun q => { q with stamp := q.stamp - d }) }

/-- Lower the stamp of a copy in an engine place or a queue's window. -/
def CopyRun.lower (d : Nat) (r : CopyRun) : CopyRun := { r with cmd := r.cmd.lower d }

/-- Lower every timestamp of the package by the same amount (R74, R432), none below zero: a pts is the ticks and the core's
share above them. -/
def State.lowerStamps (s : State) (d : Nat) : State :=
  let rest := d - s.ptsTicks
  { s with
    ptsTicks := s.ptsTicks - d
    cores := s.cores.map (fun e => (e.1, { e.2.lower d (s.pts e.1) with ptsOff := e.2.ptsOff - rest }))
    homeFloor := s.homeFloor.map (fun e => (e.1, e.2 - d))
    home := s.home.map (fun e => (e.1, { e.2 with wts := e.2.wts - d, rts := e.2.rts - d }))
    l2hts := s.l2hts.map (fun e => (e.1, e.2 - d)), llchts := s.llchts.map (fun e => (e.1, e.2 - d))
    feStamp := s.feStamp - d
    inflight := s.inflight.map (Request.lower d)
    spoils := s.spoils.map (fun x => { x with stamp := x.stamp - d })
    fabIn := s.fabIn.map (fun e => (e.1, e.2.map (fun t => t - d)))
    setts := s.setts.map (fun e => (e.1, { e.2 with places := e.2.places.map (fun p => (p.1, p.2.lower d)) }))
    queues := s.queues.map (fun e => (e.1, { e.2 with window := e.2.window.map (fun x => { x with copy := x.copy.map (CopyRun.lower d) }) }))
    gangs := s.gangs.map (fun e => (e.1, { e.2 with
      arrPts := e.2.arrPts.map (fun p => (p.1, p.2 - d))
      colls := e.2.colls.map (fun x => { x with cmds := x.cmds.map (fun c => (c.1, c.2.lower d)) })
      saved := e.2.saved.map (fun k => { k.lower d 0 with ptsOff := k.ptsOff - d })
      savedSett := e.2.savedSett.map (fun x => (x.1, { x.2 with places := x.2.places.map (fun p => (p.1, p.2.lower d)) })) })) }

/-- TIMESTAMP_REBASE (R74): all timestamps fall by 2^46 together; which of two is later, and which lease still runs, stays as
it was. The spec gives no amount (log 70). -/
def execTimestampRebase (s : State) : Host.Outcome State Fault Refusal := .next (s.lowerStamps (2 ^ 46))

end Sys2Proof.Machine
end

