-- ==== Sys2Proof/Machine/Shake.lean ====
section
/-! DEFINITION. SHAKE256, the digest of the part's measurements, tables, keys and journal (R24, R362, R423, R428). The
spec names the function and leaves its definition to its standard; the permutation and padding here are that standard's
(log 21). -/

namespace Sys2Proof.Machine

/-- The 25 lanes of the permutation, lane (x, y) at place x + 5y. -/
abbrev Lanes := List Word

/-- A lane. -/
def lane (a : Lanes) (x y : Nat) : Word := a[x % 5 + 5 * (y % 5)]?.getD 0

/-- Make lanes place by place. -/
def lanesOf (f : Nat → Nat → Word) : Lanes := (List.range 25).map (fun i => f (i % 5) (i / 5))

/-- Column parities. -/
def column (a : Lanes) (x : Nat) : Word := lane a x 0 ^^^ lane a x 1 ^^^ lane a x 2 ^^^ lane a x 3 ^^^ lane a x 4

/-- The first step of a round: each lane takes its neighbouring columns' parities. -/
def theta (a : Lanes) : Lanes := lanesOf (fun x y => lane a x y ^^^ column a (x + 4) ^^^ (column a (x + 1)).rotateLeft 1)

/-- The walk over the lanes other than (0, 0): where it stands after n moves. -/
def laneWalk (n : Nat) : Nat × Nat :=
  (List.range n).foldl (fun p _ => (p.2, (2 * p.1 + 3 * p.2) % 5)) (1, 0)

/-- Rotation of each lane, by place: the triangular number of its turn in the walk. -/
def rhoOffsets : List Nat :=
  (List.range 25).map (fun i => (((List.range 24).find? (fun t => (laneWalk t).1 + 5 * (laneWalk t).2 == i)).map
    (fun t => (t + 1) * (t + 2) / 2 % 64)).getD 0)

/-- Rotate and move the lanes. -/
def rhoPi (a : Lanes) : Lanes :=
  lanesOf (fun x y =>
    let sx := x + 3 * y
    (lane a sx x).rotateLeft (rhoOffsets[sx % 5 + 5 * (x % 5)]?.getD 0))

/-- The nonlinear step. -/
def chi (a : Lanes) : Lanes := lanesOf (fun x y => lane a x y ^^^ (~~~(lane a (x + 1) y) &&& lane a (x + 2) y))

/-- The 8-bit shift register behind the round constants, after t shifts. -/
def rcRegister (t : Nat) : Nat :=
  (List.range t).foldl (fun r _ => if r < 128 then 2 * r else (2 * r % 256) ^^^ 0x71) 1

/-- The constant of round i: its bits 2^j - 1, for j from 0 to 6, are seven successive output bits of the register. -/
def roundConstant (i : Nat) : Word :=
  BitVec.ofNat 64 (((List.range 7).map (fun j => rcRegister (7 * i + j) % 2 * 2 ^ (2 ^ j - 1))).sum)

/-- The round constants. -/
def roundConstants : List Word := (List.range 24).map roundConstant

/-- Add a constant to the first lane. -/
def iota (a : Lanes) (c : Word) : Lanes := lanesOf (fun x y => if x = 0 ∧ y = 0 then lane a 0 0 ^^^ c else lane a x y)

/-- The permutation of 24 rounds. -/
def keccak (a : Lanes) : Lanes := roundConstants.foldl (fun a c => iota (chi (rhoPi (theta a))) c) a

/-- Bytes of a block. -/
def shakeRate : Nat := 136

/-- The message with its padding, in whole blocks. -/
def shakePad (m : List Byte) : List Byte :=
  let p := shakeRate - m.length % shakeRate
  if p = 1 then m ++ [0x9F#8] else m ++ [0x1F#8] ++ List.replicate (p - 2) 0#8 ++ [0x80#8]

/-- Take a block into the lanes. -/
def absorb (a : Lanes) (b : List Byte) : Lanes :=
  keccak (lanesOf (fun x y =>
    let i := x + 5 * y
    if i < 17 then lane a x y ^^^ wordOf (natOfBytes ((b.drop (8 * i)).take 8)) else lane a x y))

/-- Take n blocks. -/
def absorbAll : Nat → Lanes → List Byte → Lanes
  | 0, a, _ => a
  | n + 1, a, m => absorbAll n (absorb a (m.take shakeRate)) (m.drop shakeRate)

/-- The bytes of the lanes. -/
def laneBytes (a : Lanes) : List Byte := a.flatMap (fun w => bytesOf 8 w.toNat)

/-- The first n bytes, at most a block, of SHAKE256 over some bytes. -/
def shake256 (m : List Byte) (n : Nat) : List Byte :=
  let p := shakePad m
  (laneBytes (absorbAll (p.length / shakeRate) (List.replicate 25 0) p)).take n

end Sys2Proof.Machine
end

