-- ==== Sys2Proof/Machine/Gang.lean ====
section
/-! DEFINITION. Cores changing world (R39, R414), gangs: placement (R19, R58, R394), launch and release (R59, R62, R63),
failure (R114), pre-emption and resumption (R115, R116), and retirement (R236). -/

namespace Sys2Proof.Machine

/-! ## The scrub of a core that changes world (R414) -/

/-- Owned lines of a core are written back and forgotten at their homes (R71, R414). -/
def State.disown (s : State) (c : Nat) : State :=
  { s with home := s.home.map (fun e => (e.1, if e.2.owner = some c then { e.2 with owner := none } else e.2)) }

/-- L1 lines that a core owns. -/
def Core.ownedLines (k : Core) : Nat := (k.l1.filter (fun e => e.2.owned)).length

/-- A core after the scrub: what other cores' threads wait for at it stays (R221), and its stamps do not go back. -/
def Core.scrubbed (k : Core) (w now : Nat) : Core :=
  { Core.reset with
    world := w, gang := k.gang, hts := k.hts, ptsOff := k.ptsOff, feWait := k.feWait, sendWait := k.sendWait
    scrubUntil := now + 4096 + k.ownedLines }

/-- Scrub a core for a world (R39, R414): its sett's TLB drops every entry of the old world. -/
def State.scrub (s : State) (c w : Nat) : State :=
  let old := (s.core c).world
  let n := s.settOf c
  let s1 := (((s.settleCore c).unreadLines c ((s.core c).icache.flatMap (fun x => x.2))).disown c).modCore c (fun k => k.scrubbed w s.cycle)
  s1.putSett n { s1.sett n with tlb := (s1.sett n).tlb.filter (fun e => e.world != old) }

/-- CORE_SCRUB (R414): a core that holds no gang changes world. -/
def execCoreScrub (core w : Nat) (s : State) : Host.Outcome State Fault Refusal :=
  if (s.core core).gang.isSome then .next s else .next (s.scrub core w)

/-! ## Placement (R13, R18, R19, R58, R394) -/

/-- The logical sett at a grid position, if it is enabled (R13, R19). -/
def State.settAt (s : State) (gx gy : Nat) : Option Nat :=
  if 16 ≤ gx ∨ 16 ≤ gy ∨ s.enabled 1 (16 * gy + gx) = false then none
  else if s.units = [] then some (16 * gy + gx) else some (s.settList.findIdx (fun p => p == 16 * gy + gx))

/-- The cores of a rectangle in rank order (R59), or none where a sett or a core of the mask is missing (R19). -/
def State.rectCores (s : State) (gx gy w h mask : Nat) : Option (List Nat) :=
  let spots := (List.range h).flatMap (fun sy => (List.range w).map (fun sx => (gx + sx, gy + sy)))
  let picks : Option (List (List Nat)) := spots.mapM (fun p => match s.settAt p.1 p.2 with
    | none => none
    | some n => (setBits 8 mask).mapM (fun j => match (s.settCores n)[j]? with
      | some c => if s.enabled 2 (s.physCore c) then some c else none
      | none => none))
  picks.map (fun l => l.flatten)

/-- Whether a core is free: it holds no gang (R394). -/
def State.coreFree (s : State) (c : Nat) : Bool := (s.core c).gang.isNone

/-- What a launch asks for, its descriptor and argument block read (R392 to R394). -/
structure LaunchPlan where
  w : Nat
  h : Nat
  mask : Nat
  n : Nat
  x0 : Nat
  y0 : Nat
  anypos : Bool
  prio : Nat
  maw : Nat
  wsb : Nat
  entry : Word
  trapv : Word
  emulv : Word
  args : List Word
  seed : Word
  stream : Word
  fewait : Nat
  tq : Nat
  item : Option Nat
  lo : Nat
  text : Nat
  frame : Nat
  deriving DecidableEq, Repr

/-- Cores a launch takes. -/
def LaunchPlan.cores (p : LaunchPlan) : Nat := p.w * p.h * popCount 8 p.mask

/-- Cores a world holds (R394, R412). -/
def State.coresHeld (s : State) (w : Nat) : Nat :=
  (s.cores.filter (fun e => match e.2.gang with
    | some g => (s.gang g).world == w
    | none => false)).length

/-- The origins a launch may take, in order (R394). -/
def LaunchPlan.origins (p : LaunchPlan) : List (Nat × Nat) :=
  if p.anypos then (List.range (17 - p.h)).flatMap (fun y => (List.range (17 - p.w)).map (fun x => (x, y))) else [(p.x0, p.y0)]

/-- Whether a core is free for a world: it holds no gang, and no other world's scrub runs on it (R394, R414). -/
def State.coreFreeFor (s : State) (w c : Nat) : Bool :=
  s.coreFree c && ((s.core c).world == w || decide ((s.core c).scrubUntil ≤ s.cycle))

/-- A free rectangle for a world's launch, with its origin and cores; `avoid` are cores held for guarded launches (R391,
R394). -/
def State.findPlace (s : State) (w : Nat) (p : LaunchPlan) (avoid : Nat → Bool) : Option (Nat × Nat × List Nat) :=
  p.origins.findSome? (fun o => match s.rectCores o.1 o.2 p.w p.h p.mask with
    | some l => if l.all (fun c => s.coreFreeFor w c && !(avoid c)) then some (o.1, o.2, l) else none
    | none => none)

/-- Where a launch of a world can go now: a free rectangle within its core quota (R394 step 2). -/
def State.placeFor (s : State) (w : Nat) (p : LaunchPlan) (avoid : Nat → Bool) : Option (Nat × Nat × List Nat) :=
  if (s.world w).cquota < s.coresHeld w + p.cores then none else s.findPlace w p avoid

/-- The cores of a place that must be scrubbed before a world's launch may take them (R414). -/
def State.toScrub (s : State) (w : Nat) (cores : List Nat) : List Nat := cores.filter (fun c => (s.core c).world != w)

/-- Whether a scrub still runs on one of a launch's cores (R414). -/
def State.scrubbing (s : State) (cores : List Nat) : Bool := cores.any (fun c => decide (s.cycle < (s.core c).scrubUntil))

/-! ## Launch (R59, R62, R63, R394) -/

/-- The bytes of a member's workspace at launch (R41, R53, R63, R108, R208, R394). -/
def State.memberBytes (s : State) (c ws rank : Nat) (p : LaunchPlan) : State :=
  let regs := (List.range 8).map (fun i => (i + 1, (p.args[i]?.getD 0).toNat)) ++ (match p.item with
    | some x => [(9, x)]
    | none => [])
  let live : Nat := regs.foldl (fun m r => m + 2 ^ r.1) 0
  let s1 := regs.foldl (fun s r => s.sPut c (wsOff ws (8 * r.1)) 8 r.2) s
  let s1 := s1.sPut c (wsOff ws 0x100) 8 (insertBits (s1.sNum c (wsOff ws 0x100) 8) 30 2 0)
  let s1 := s1.sPut c (wsOff ws 0x170) 8 0
  let s1 := s1.sPut c (wsOff ws 0x180) 8 p.entry.toNat
  let s1 := s1.sPut c (wsOff ws 0x188) 8 (recWord (BitVec.ofNat 32 live) 0xFFFF 1 (BitVec.ofNat 2 p.prio))
  let s1 := s1.sPut c (wsOff ws 0x190) 8 (p.tq * 2 ^ 32)
  let s1 := (List.range 5).foldl (fun s i => s.sPut c (wsOff ws (0x198 + 8 * i)) 8 0) s1
  let s1 := s1.sPut c (wsOff ws 0x1C0) 8 rank
  let s1 := s1.sPut c (wsOff ws 0x1C8) 8 p.stream.toNat
  let s1 := s1.sPut c (wsOff ws 0x1D0) 8 0
  (List.range 8).foldl (fun s i => s.sPut c (wsOff ws (0x200 + 8 * i)) 1 (s.sNum c (wsOff ws (0x200 + 8 * i)) 1 / 2 * 2)) s1

/-- A member's thread state at launch (R63). -/
def LaunchPlan.member (p : LaunchPlan) (g : Nat) : Task :=
  { Task.reset with
    tstate := 1, pc := p.entry, prio := BitVec.ofNat 2 p.prio, trapv := p.trapv, emulv := p.emulv, seed := p.seed
    fewait := BitVec.ofNat 32 p.fewait, qrem := p.tq, gang := some g }

/-- Prepare one core of the world for a gang (R72, R252, R323, R394): its scrub is over (R414), and it starts from the front
end's stamp, so that it hits no L1 copy older than what its packet follows (R390). -/
def State.takeCore (s : State) (c w g : Nat) (p : LaunchPlan) : State :=
  (s.raisePts c s.feStamp).modCore c (fun k => { k with
    gang := some g, tq := BitVec.ofNat 32 p.tq, tqNew := [], lease := (s.world w).lease, handles := [], edits := [], tensors := [], slots := [], ready := [] })

/-- Prepare a core and write its members' workspaces (R59, R62 step 3). -/
def State.fillCore (s : State) (w g i c : Nat) (p : LaunchPlan) : State :=
  (List.range p.n).foldl (fun s m =>
    (s.memberBytes c (p.wsb + m) (i * p.n + m) p).modTask c (p.wsb + m) (fun _ => p.member g)) (s.takeCore c w g p)

/-- The gang a launch makes. -/
def LaunchPlan.gang (p : LaunchPlan) (w q k gx gy : Nat) (cores : List Nat) (at_ : Nat) : Gang :=
  { Gang.reset with
    phase := 0, world := w, q := q, k := k, item := p.item, gx := gx, gy := gy, w := p.w, h := p.h, mask := p.mask, n := p.n
    wsb := p.wsb, cores := cores, home := cores, prio := p.prio, maw := p.maw, entry := p.entry, trapv := p.trapv
    emulv := p.emulv, args := p.args, seed := p.seed, stream := p.stream, fewait := p.fewait, tq := p.tq, releaseAt := at_ }

/-- Cycles from dispatch to release, within R64's bound, for an image's bytes of text (log 20). -/
def launchCycles (text : Nat) : Nat := 256 + 32 * ceilDiv text 65536

/-- The lines of a launch's committed text that a core can fetch, in line order (R394 step 3): one in a page with V = 0 is
not there to send (R113). -/
def State.imageLines (s : State) (c : Nat) (p : LaunchPlan) : List ILine :=
  (List.range (p.text / 128)).filterMap (fun i => match s.fetchCheck c (p.lo + 128 * i) with
    | .ok _ _ => some (lineOfBytes (p.lo + 128 * i) (Memory.readN s.mem (p.frame + 128 * i) 128))
    | _ => none)

/-- The multicast puts the image's lines into a core's instruction cache (R62 step 2). -/
def Core.takeImage (k : Core) (ls : List ILine) : Core := ls.foldl (fun k l => k.addLine l) k

/-- The lines that a launch's image drives out of a core's instruction cache (R112, R201). -/
def Core.drivenOut (k : Core) (ls : List ILine) : List ILine :=
  let new := (k.takeImage ls).icache.flatMap (fun x => x.2)
  (k.icache.flatMap (fun x => x.2)).filter (fun l => !(new.contains l))

/-- The multicast reaches a core: an error in a line it drives out is journalled as unconsumed (R62, R112). -/
def State.sendImage (s : State) (ls : List ILine) (c : Nat) : State :=
  (s.unreadLines c ((s.core c).drivenOut ls)).modCore c (fun k => k.takeImage ls)

/-- Launch a gang at a place (R62 steps 1 to 4). It answers the gang's number. -/
def State.launch (s : State) (w q k : Nat) (p : LaunchPlan) (gx gy : Nat) (cores : List Nat) : State × Nat :=
  let g := s.nextId
  let ls := s.imageLines (cores.headD 0) p
  let s1 := { s with nextId := g + 1 }
  let s2 := (cores.zip (List.range cores.length)).foldl (fun s e => s.fillCore w g e.2 e.1 p) s1
  let s3 := cores.foldl (fun s c => s.sendImage ls c) s2
  (s3.putGang g (p.gang w q k gx gy cores (s.cycle + launchCycles p.text)), g)

/-- Sett hops from a gang's origin to its i-th core's sett (R62). -/
def Gang.hopsOf (g : Gang) (i : Nat) : Nat :=
  let n := i / max 1 (popCount 8 g.mask)
  n % g.w + n / g.w

/-- Release one member: it issues first at its beat in the first rotation after the release reaches its sett (R62). The rule
bounds the time that takes, and the model takes the bound itself (log 42). -/
def State.releaseMember (s : State) (G : Gang) (i c m : Nat) : State :=
  let at_ := (G.releaseAt + 2 * G.hopsOf i) / 16 * 16 + 16
  (s.loadWs c m (G.wsb + m)).modSlot c m (fun sl => { sl with nextAt := at_ + m })

/-- GANG_RELEASE (R60, R62). -/
def execGangRelease (g : Nat) (s : State) : Host.Outcome State Fault Refusal :=
  let G := s.gang g
  if G.phase = 0 ∧ G.releaseAt ≤ s.cycle then
    let s1 := (G.cores.zip (List.range G.cores.length)).foldl (fun s e =>
      (List.range G.n).foldl (fun s m => s.releaseMember G e.2 e.1 m) s) s
    .next (s1.putGang g { G with phase := 1 })
  else .next s

/-! ## The end of a gang (R114, R236, R386, R405) -/

/-- Change an entry of a queue's window. -/
def Queue.modEntry (q : Queue) (k : Nat) (f : WEntry → WEntry) : Queue :=
  { q with window := q.window.map (fun e => if e.k == k then f e else e) }

/-- A stage's gang is over: its item is retired, its reservation is owed back, and a failure stops the stage (R405). -/
def StageRun.gangOver (r : StageRun) (g x : Nat) (info : StatusInfo) : StageRun :=
  { r with
    gangs := r.gangs.filter (fun e => e.1 != g), retired := r.retired ++ [x]
    owed := r.owed + (if r.body.sqout = 0 then 0 else r.body.outn)
    stopped := if info.code = 0 then r.stopped else (if r.stopped.isSome then r.stopped else some info) }

/-- What names a gang, and no core, as the writer of bytes that its engines wrote before it was pre-empted. -/
def gangKey (g : Nat) : Nat := 65536 + g

/-- A gang is over: what its engines wrote is settled, the front end's stamp is not below its cores' (R390), and its packet or
its stage learns of it (R386, R394, R405). -/
def State.gangOver (s : State) (g : Nat) (info : StatusInfo) : State :=
  let G := s.gang g
  let s1 := { s.settleBy (gangKey g :: G.cores) with
    gangs := AMap.del s.gangs g, feStamp := G.cores.foldl (fun m c => max m (s.pts c)) s.feStamp }
  if G.translation then s1
  else match G.item with
    | none => { s1 with inbox := s1.inbox ++ [.packetComplete G.q G.k info] }
    | some x =>
      let s2 := s1.putQueue G.q ((s1.queue G.q).modEntry G.k (fun e => { e with stage := e.stage.map (fun r => r.gangOver g x info) }))
      { s2 with inbox := s2.inbox ++ [.stageQueueObserve G.q G.k] }

/-- Workspaces of a core that hold live tasks. -/
def Core.liveTasks (k : Core) : List Nat := (k.tasks.filter (fun e => liveState e.2.tstate)).map (fun e => e.1)

/-- Copies of a core that have been issued stop, and their clasps take E (R114). -/
def State.stopCopies (s : State) (c : Nat) : State :=
  let qs := (s.core c).cq.filter (fun q => q.coll.isNone)
  let s1 := qs.foldl (fun s q => s.spoilClasp q.ctx q.clasp q.stamp) s
  let n := s.settOf c
  (s1.putSett n { s1.sett n with places := (s1.sett n).places.filter (fun p => p.2.cmd.core != c || p.2.cmd.coll.isSome) }).modCore c
    (fun k => { k with cq := [] })

/-- A core's matrix job is abandoned and its queue emptied (R114, R285). -/
def State.stopMatrix (s : State) (c : Nat) : State :=
  let n := s.settOf c
  let t := s.sett n
  let s1 := if t.granted = some c then s.putSett n { t with granted := none, freeAt := s.cycle + 2, jobBad := false } else s
  s1.modCore c (fun k => { k with mq := [], jobOpen := false })

/-- A core's bead commands are discarded; an asynchronous one sets E (R325). -/
def State.stopPasses (s : State) (c : Nat) : State :=
  let qs := (s.core c).sq.filter (fun q => q.async)
  (qs.foldl (fun s q => s.spoilClasp (q.ctx c) q.clasp q.stamp) s).modCore c (fun k => { k with sq := [], visit := none })

/-- A slot's task stops at its instruction boundary with TSTATE 0x6 (R41, R114). -/
def State.stopSlot (s : State) (c i : Nat) : State :=
  match (s.slot c i).ws with
  | none => s
  | some w => (s.writeBack c i).writeRecord c i w 6

/-- Every live task of a core takes TSTATE 0x6 (R114). -/
def State.endTasks (s : State) (c : Nat) : State :=
  (s.core c).liveTasks.foldl (fun s w =>
    ((s.withdraw c w).modTask c w (fun t => { t with park := .run, lateTrap := none, resume := none, gang := none })).setTstate c w 6) s

/-- The generations of a world's handles, which its run reports carry (R378). -/
def State.gens (s : State) (w : Nat) : AMap Nat := (s.world w).handles.map (fun e => (e.1, e.2.gen))

/-- The report of a run that ends (R347, R378): R347's items with the generations of the world's handles, since the spec does
not say of which object a run's report gives GEN (log 36). -/
def Burrow.ends (b : Burrow) (gens : AMap Nat) (cause sub faddr code : Nat) : Report :=
  .run b.world b.committed cause sub b.pc faddr b.meter code b.log b.dropped gens

/-- A 64-byte measurement (R423). -/
def measure (m : List Byte) : BitVec 512 := BitVec.ofNat 512 (natOfBytes (shake256 m 64))

/-- Return a run's report, and the image of a committed one, to its requester and to every request that waits for the run
(R347, R363). A run that ends without a commit is measured now (R423; log 74). -/
def State.tellRun (s : State) (b : Burrow) (r : Report) : State :=
  let x := s.world b.world
  let n := 1 + (x.waiting.filter (fun e => e.1 == b.key)).length
  let img := if b.committed then List.replicate n (Report.image b.world b.published) else []
  let log := if b.committed then x.attest else x.attest ++ [measure (bytesOf 32 b.key.toNat)]
  { s.putWorld b.world { x with waiting := x.waiting.filter (fun e => e.1 != b.key), attest := log } with
    reports := s.reports ++ List.replicate n r ++ img }

/-- Burrows of a core end with their gang (R114, R347). -/
def State.stopBurrows (s : State) (c : Nat) : State :=
  let bs := s.burrows.filter (fun e => e.1 / 16 == c && e.2.active)
  bs.foldl (fun s e => s.tellRun e.2 (e.2.ends (s.gens e.2.world) 0x14 0 0 0)) { s with burrows := s.burrows.filter (fun e => e.1 / 16 != c) }

/-- Where the burrow of a pre-empted translation gang is kept: beyond every slot. -/
def savedBurrow (g : Nat) : Nat := gangKey g

/-- The saved burrow of a pre-empted gang ends with it (R114, R347). -/
def State.stopSaved (s : State) (g : Nat) : State :=
  match AMap.find s.burrows (savedBurrow g) with
  | none => s
  | some b => { s with burrows := AMap.del s.burrows (savedBurrow g) }.tellRun b (b.ends (s.gens b.world) 0x14 0 0 0)

/-- Stop everything on one core of a gang that has failed (R114, R245, R325). -/
def State.stopCore (s : State) (c : Nat) : State :=
  let s1 := (List.range 16).foldl (fun s i => s.stopSlot c i) s
  let s2 := (((s1.endTasks c).stopPasses c).stopMatrix c).stopCopies c
  (s2.stopBurrows c).modCore c (fun k =>
    { k.vq.foldr (fun q k => k.unwrite q) k with gang := none, slots := [], ready := [], vq := [], held := [] })

/-- The saved asynchronous pass commands of a pre-empted gang that ends set E (R325). -/
def State.spoilSaved (s : State) (g : Nat) : State :=
  ((s.gang g).cores.zip (s.gang g).saved).foldl (fun s e =>
    (e.2.sq.filter (fun q => q.async)).foldl (fun s q => s.spoilClasp (q.ctx e.1) q.clasp q.stamp) s) s

/-- End a gang as a failure (R114): collectives, then its cores, then its token. -/
def State.endGang (s : State) (g : Nat) (info : StatusInfo) : State :=
  let s1 := (s.gang g).colls.foldl (fun s x =>
    (x.cmds.foldl (fun s e => s.spoilClasp e.2.ctx e.2.clasp e.2.stamp) s).collOver g x) s
  let s2 := if (s.gang g).phase = 2 then (s1.spoilSaved g).stopSaved g else (s.gang g).cores.foldl (fun s c => s.stopCore c) s1
  s2.gangOver g info

/-- GANG_FAILURE (R114). -/
def execGangFailure (g : Nat) (f : FailInfo) (s : State) : Host.Outcome State Fault Refusal :=
  if (s.gang g).phase = 3 then .next s else .next (s.endGang g ⟨1, f.cause, f.rank, f.jidx⟩)

/-! ## Retirement (R236) -/

/-- Whether nothing of a gang is left on one of its cores (R236). -/
def State.coreQuiet (s : State) (g c : Nat) : Bool :=
  let k := s.core c
  k.tasks.all (fun e => e.2.tstate != 0 && e.2.tstate != 1 && e.2.tstate != 5 && (e.2.gang != some g || e.2.tstate == 4)) &&
    (List.range 16).all (fun i => (k.slot i).ws.isNone && (k.slot i).switching.isNone && !(k.slot i).burrow) &&
    k.vq.isEmpty && k.mq.isEmpty && k.cq.isEmpty && k.sq.isEmpty && !k.jobOpen && (s.sett (s.settOf c)).granted != some c &&
    !(s.inflight.any (fun r => r.core == c))

/-- Whether a gang retires now (R236). -/
def State.canRetire (s : State) (g : Nat) : Bool :=
  (s.gang g).phase == 1 && (s.gang g).failure.isNone && (s.gang g).cores.all (fun c => s.coreQuiet g c)

/-- A core is freed as its gang retires: sleepers and waiters take TSTATE 0x6 (R236). -/
def State.freeCore (s : State) (c : Nat) : State :=
  let s1 := ((s.core c).tasks.filter (fun e => e.2.tstate == 2 || e.2.tstate == 3)).foldl (fun s e => s.setTstate c e.1 6) s
  s1.modCore c (fun k => { k with gang := none, tasks := k.tasks.map (fun e => (e.1, { e.2 with gang := none })) })

/-- GANG_RETIRE (R236). -/
def execGangRetire (g : Nat) (s : State) : Host.Outcome State Fault Refusal :=
  if s.canRetire g then .next (((s.gang g).cores.foldl (fun s c => s.freeCore c) s).gangOver g ⟨0, 0, 0, 0⟩) else .next s

/-! ## Pre-emption (R115) -/

/-- Make a switch in progress complete: a switch always does once started (R50). -/
def State.forceSwitch (s : State) (c i : Nat) : State :=
  match (s.slot c i).switching with
  | none => s
  | some x =>
    let s1 := match x.outgoing with
      | some (w, st) => s.leave1 c i w st
      | none => s
    let s2 := s1.modSlot c i (fun sl => { sl with switching := none })
    match x.incoming with
    | some w => s2.enter1 c i w
    | none => s2

/-- Stop one thread at an instruction boundary (R115 step 1): an access that has its place completes. A form or a send at
another core is first withdrawn, and the thread waits for the acknowledgement (R222). Every other parked
thread takes TSTATE 0x5; a member in `gbar` stays recorded as arrived, and a nest that has started and a bead command go on
(R115 step 2; log 9). -/
def State.stopThread (s : State) (c i : Nat) : State :=
  match (s.slot c i).ws with
  | none => s
  | some ws =>
    match (s.task c ws).park with
    | .run => s
    | .memory _ => s.modTask c ws (fun t => { t with park := .run })
    | .answered _ a => (s.actAs c i).takeAnswer a s.cycle
    | .released _ a => (s.actAs c i).takeAnswer a s.cycle
    | .home id => match s.formAway c id with
      | some r => if s.recalling id then s else s.recallFrom c r
      | none => s.keepParked c ws
    | .recalled _ => s
    | .gbar _ => s.setTstate c ws 5
    | .bdPass _ => s.setTstate c ws 5
    | .bdDecl t due f fab _ => (s.setTstate c ws 5).modTask c ws (fun k => { k with park := .bdDecl t due f fab none })
    | .nest id => match (s.core c).nestById id with
      | some q => if q.started then s.setTstate c ws 5 else s.keepParked c ws
      | none => s.keepParked c ws
    | _ => s.keepParked c ws

/-- Perform the `red` requests a core's threads have sent (R115, R217). -/
def State.landReds (s : State) (c : Nat) : State :=
  (s.inflight.filter (fun r => r.core == c && r.isRed)).foldl (fun s r =>
    if s.inflight.any (fun x => x.id == r.id) then s.performRed r else s) s

/-- Step 1 of R115 on one core. -/
def State.stopThreads (s : State) (c : Nat) : State :=
  let s1 := (List.range 16).foldl (fun s i => s.forceSwitch c i) s
  (List.range 16).foldl (fun s i => s.stopThread c i) (s1.landReds c)

/-- Whether no withdrawal of a core's threads is still to be acknowledged (R115 step 1, R222). -/
def State.threadsStopped (s : State) (c : Nat) : Bool :=
  (List.range 16).all (fun i => match (s.slot c i).ws with
    | some w => (match (s.task c w).park with
      | .home _ => false
      | .recalled _ => false
      | .answered _ _ => false
      | _ => true)
    | none => true)

/-- Whether steps 1 to 4 of R115 are done on a core: a job without its closing command holds the array, and commands of
later jobs and pending collectives stay queued (R285, R298, R325). -/
def State.coreDrained (s : State) (c : Nat) : Bool :=
  let k := s.core c
  let t := s.sett (s.settOf c)
  s.threadsStopped c && k.vq.isEmpty && (k.runningPass.map (fun q => q.stop.isNone)).getD true &&
    (t.granted != some c || ((jobPart k.mq).isEmpty && k.jobOpen)) &&
    k.cq.all (fun q => s.pending q) && !(t.places.any (fun p => p.2.cmd.core == c))

/-- Save the array of a core whose job is held open, as the i-th core of its gang (R285). -/
def State.saveJob (s : State) (g i c : Nat) : State :=
  let n := s.settOf c
  let t := s.sett n
  if t.granted = some c then
    (s.putSett n { t with granted := none, freeAt := s.cycle + 2, jobBad := false }).putGang g
      { s.gang g with savedSett := (s.gang g).savedSett ++ [(i, t)] }
  else s

/-- A thread leaves its slot with its gang (R41, R46, R115): its registers and its task record are written, with its
TSTATE. -/
def State.saveSlot (s : State) (c i : Nat) : State :=
  match (s.slot c i).ws with
  | none => s
  | some w => (s.writeBack c i).writeRecord c i w (s.task c w).tstate

/-- Write the registers and task records of a core's threads. -/
def State.saveSlots (s : State) (c : Nat) : State := (List.range 16).foldl (fun s i => s.saveSlot c i) s

/-- A core's state as it is saved (R115): its pts is kept as a whole number. -/
def State.savedCore (s : State) (c : Nat) : Core :=
  let k := s.core c
  { k with ptsOff := s.pts c, sq := k.sq.map (fun q => { q with running := false }), feWait := [], sendWait := [], clWait := [] }

/-- Requests of other threads that wait at a core whose gang leaves: they reissue (R221, R233). -/
def State.sendBack (s : State) (c : Nat) : State :=
  ((s.core c).feWait ++ (s.core c).sendWait).foldl (fun s r =>
    s.modTask r.core r.ws (fun t => { t with park := .run })) (s.modCore c (fun k => { k with feWait := [], sendWait := [] }))

/-- A core that its pre-empted gang has left. -/
def Core.vacated (k : Core) : Core :=
  { k with gang := none, slots := [], tasks := [], ready := [], mq := [], jobOpen := false, cq := [], sq := [], tensors := [], held := [] }

/-- A burrow leaves its core with its gang (R115, R348). -/
def State.stashBurrow (s : State) (g c : Nat) : State :=
  match AMap.find s.burrows (16 * c) with
  | none => s
  | some b => { s with burrows := AMap.put (AMap.del s.burrows (16 * c)) (savedBurrow g) b }

/-- A burrow goes on at the core its gang resumes on (R116, R348). -/
def State.unstashBurrow (s : State) (g c : Nat) : State :=
  match AMap.find s.burrows (savedBurrow g) with
  | none => s
  | some b => { s with burrows := AMap.put (AMap.del s.burrows (savedBurrow g)) (16 * c) b }

/-- What a gang's engines have written and nobody has acquired stays the gang's when it leaves its cores (R84, R390). -/
def State.keepUnsettled (s : State) (g : Nat) (cs : List Nat) : State :=
  { s with unsettled := s.unsettled.map (fun (u : Unsettled) => if cs.contains u.core then { u with core := gangKey g } else u) }

/-- Step 5 of R115: everything is saved, and the cores are free. Where in memory and in what layout the front end saves it, the spec
does not say: the model keeps it in the gang's record, not in bytes of memory (log 81). -/
def State.saveGang (s : State) (g : Nat) : State :=
  let cs := (s.gang g).cores
  let s1 := (cs.zip (List.range cs.length)).foldl (fun s e => s.saveJob g e.2 e.1) s
  let s2 := cs.foldl (fun s c => (s.saveSlots c).sendBack c) s1
  let saved := cs.map (fun c => s2.savedCore c)
  let s3 := cs.foldl (fun s c => ((s.settleCore c).stashBurrow g c).modCore c (fun k => k.vacated)) s2
  (s3.keepUnsettled g cs).putGang g { s3.gang g with phase := 2, saved := saved }

/-- When the switches of a pre-empted gang's threads are over: each takes its slot's next 2 or 3 beats (R46). -/
def State.switchesEnd (s : State) (g : Nat) : Nat :=
  (s.gang g).cores.foldl (fun m c => (List.range 16).foldl (fun m i =>
    if (s.slot c i).ws.isNone then m
    else max m (beatAt i s.cycle + 16 * (if (s.slot c i).dirtyCount ≤ 16 then 2 else 3))) m) s.cycle

/-- GANG_PREEMPT (R115): the first call stops the threads; once the engines have drained, the threads are switched out, and
the gang is saved when the switches are over (R46). -/
def execGangPreempt (g : Nat) (s : State) : Host.Outcome State Fault Refusal :=
  let G := s.gang g
  if G.phase = 1 then
    let s1 := s.putGang g { G with phase := 4, leaveAt := none }
    .next (G.cores.foldl (fun s c => s.stopThreads c) s1)
  else if G.phase = 4 ∧ G.cores.all (fun c => s.coreDrained c) = true then
    match G.leaveAt with
    | none => .next (s.putGang g { G with leaveAt := some (s.switchesEnd g) })
    | some t => if t ≤ s.cycle then .next (s.saveGang g) else .next s
  else .next s

/-! ## Resumption (R116) -/

/-- A saved command of a core of a gang, on the core that takes its place. -/
def CopyCmd.moved (q : CopyCmd) (old new : List Nat) : CopyCmd :=
  let i := old.findIdx (fun x => x == q.core)
  { q with core := new[i]?.getD q.core }

/-- Restore a saved core on a core of the new rectangle (R116): pts := max(pts, saved pts), and each slot's thread is loaded
from its workspace in the slot's next 2 beats (R41, R46, R48). -/
def State.restoreCore (s : State) (w g : Nat) (old new : List Nat) (c : Nat) (k : Core) : State :=
  let s1 := if (s.core c).world = w then s else s.scrub c w
  let cur := s1.core c
  let at_ := max s1.cycle cur.scrubUntil
  let p := max (s1.pts c) k.ptsOff
  let s2 := s1.putCore c { k with
    gang := some g, world := w, ptsOff := p - s1.ptsTicks, hts := max k.hts cur.hts, l1 := cur.l1, lmiss := [], icache := cur.icache, ireq := []
    tlb := cur.tlb, hcache := cur.hcache, feWait := cur.feWait, sendWait := cur.sendWait, clWait := cur.clWait, scrubUntil := cur.scrubUntil
    cq := k.cq.map (fun q => q.moved old new)
    slots := k.slots.map (fun e => (e.1, { e.2 with nextAt := beatAt e.1 at_ + 32 })) }
  (List.range 16).foldl (fun s i => match (s.slot c i).ws with
    | some ws => s.loadWs c i ws
    | none => s) s2

/-- Resume a saved gang on a rectangle's cores (R116): its threads keep its launch-time core numbers. -/
def State.resumeGang (s : State) (g gx gy : Nat) (cores : List Nat) : State :=
  let G := s.gang g
  let s1 := (cores.zip G.saved).foldl (fun s e => s.restoreCore G.world g G.cores cores e.1 e.2) s
  ((cores.head?).elim s1 (fun c => s1.unstashBurrow g c)).putGang g { G with
    phase := 1, gx := gx, gy := gy, cores := cores, saved := []
    colls := G.colls.map (fun x => { x with cmds := x.cmds.map (fun e => (e.1, e.2.moved G.cores cores)) }) }

end Sys2Proof.Machine
end

