-- ==== Sys2Proof/Machine/Front.lean ====
section
/-! DEFINITION. The front end: its accesses and what stops them (R382, R383), packets (R384, R385), completion, tokens
and the window (R386 to R390), launches (R392 to R395), control packets (R396 to R402), stages (R403 to R405), and the
queues' own events (R380, R383, R387, R391, R408). -/

namespace Sys2Proof.Machine

/-! ## Accesses (R382, R383) -/

/-- Why an access of the front end stops: a page fault, a refusal (with the error it met), a malformed packet, or it must
be tried again: at once, or after the scrub of cores (R414). -/
inductive FeStop where
  | fault (a : Nat)
  | refused (a : Nat) (met : Option Loc)
  | malformed (a : Nat)
  | again
  | scrub (cores : List Nat)
  deriving DecidableEq, Repr

/-- What a stopped engine access means to a queue (R383). -/
def State.feStopOf (s : State) (w va : Nat) (x : EngStop) : FeStop :=
  match x with
  | .wait a => match s.walk w a with
    | .invalid => .fault a
    | .malformed => .refused a none
    | .lost pa => .refused a (some (.mem pa 0))
    | .settling => .again
    | .leaf _ _ => .again
  | .fabric _ _ a _ _ => .refused a none
  | .bad met => .refused va met

/-- The front end's permissions: those of the world, from outside every sealed object (R377, R382; log 59). -/
def feCtx (w : Nat) : EngCtx := ⟨2048, w, 2 ^ 56⟩

/-- Make accesses of the front end: they carry its stamp, and what it reads and writes raises it (R390, R432; log 73). -/
def State.feRun {α : Type} (s : State) (w va : Nat) (m : EngM α) : Except FeStop (α × State) :=
  match m ⟨s, s.feStamp⟩ with
  | .ok (a, e) => .ok (a, { e.s with feStamp := e.stamp })
  | .error x => .error (s.feStopOf w va x)

/-- Read bytes as the front end. -/
def State.feRead (s : State) (w va n : Nat) : Except FeStop (List Byte × State) := s.feRun w va (engRead (feCtx w) [] va n)

/-- Read an 8-byte number as the front end. -/
def State.feNum (s : State) (w va : Nat) : Except FeStop (Nat × State) := s.feRun w va (engNum (feCtx w) [] va 8)

/-- Write an 8-byte number as the front end. -/
def State.fePut (s : State) (w va v : Nat) : Except FeStop State :=
  match s.feRun w va (engWrite (feCtx w) [] va (bytesOf 8 v)) with
  | .ok (_, s1) => .ok s1
  | .error x => .error x

/-- The world whose translations reach a queue's control block (R381): a REMOTE queue's lies in service memory. -/
def Queue.qcbWorld (q : Queue) : Nat := if q.remote then 0 else q.world

/-- Write a field of a queue's control block. -/
def State.qcbPut (s : State) (q off v : Nat) : Except FeStop State :=
  s.fePut (s.queue q).qcbWorld ((s.queue q).qcb + off) v

/-- STATE and REASON as the control block holds them (R381). -/
def Queue.stateWord (q : Queue) : Nat := q.state * 2 ^ 40 + q.reason * 2 ^ 32

/-- Write all that the front end keeps in a control block. -/
def State.qcbAll (s : State) (q : Nat) : Except FeStop State := do
  let x := s.queue q
  let s1 ← s.qcbPut q 0x10 x.ridx
  let s2 ← s1.qcbPut q 0x18 x.stateWord
  let s3 ← s2.qcbPut q 0x20 x.faddr
  s3.qcbPut q 0x28 x.tokens.toNat

/-- Change a queue. -/
def State.modQueue (s : State) (q : Nat) (f : Queue → Queue) : State := s.putQueue q (f (s.queue q))

/-- Write a control block if it can be written; else the unit holds the values until it can (R383). -/
def State.showQcb (s : State) (q : Nat) : State :=
  match s.qcbAll q with
  | .ok s1 => s1.modQueue q (fun x => { x with owes := false })
  | .error _ => s.modQueue q (fun x => { x with owes := true })

/-- Control blocks that could not be written are written as soon as they can be (R383). -/
def State.serveQcbs (s : State) : State :=
  s.queues.foldl (fun s e => if e.2.made && e.2.owes && (s.qcbAll e.1).toOption.isSome then s.showQcb e.1 else s) s

/-- The WAITMEMs of a queue do not count the cycles it has been in FAULT (R383). -/
def State.pauseTimers (s : State) (q : Nat) : State :=
  let lost := if (s.queue q).state = 2 then s.cycle - (s.queue q).faultAt else 0
  s.modQueue q (fun x => { x with window := x.window.map (fun e => { e with expire := e.expire.map (fun t => t + lost) }) })

/-- Put a queue into FAULT or HALTED (R383). -/
def State.stopQueue (s : State) (q st reason a : Nat) : State :=
  ((s.pauseTimers q).modQueue q (fun x => { x with state := st, reason := reason, faddr := a % 2 ^ 64, faultAt := s.cycle, stuck := none })).showQcb q

/-- What a stopped access does to an ACTIVE queue (R383); an error it met is journalled (R425). -/
def State.feStopped (s : State) (q : Nat) (x : FeStop) : State :=
  if (s.queue q).state ≠ 1 then s
  else match x with
    | .fault a => s.stopQueue q 2 1 a
    | .refused a met => (match met with
      | some l => s.noteUnread l (s.queue q).world
      | none => s).stopQueue q 3 5 a
    | .malformed a => s.stopQueue q 3 2 a
    | .again => s
    | .scrub cs => cs.foldl (fun s c => s.scrub c (s.queue q).world) s

/-- Do something for a queue, or leave everything as it was but for the queue's state (R383: the access is repeated). -/
def State.feTry (s : State) (q : Nat) (r : Except FeStop State) : State :=
  match r with
  | .ok s1 => s1
  | .error x => s.feStopped q x

/-! ## Packets (R384, R385, R392, R395 to R404) -/

/-- The launch fields from the three words at 0x18, 0x20 and 0x28 (R392). -/
def launchBody (a b c : Nat) (resv : Bool) : LaunchBody where
  handle := bitsOf a 48 16
  entry := bitsOf a 32 16
  wm := bitsOf a 20 4
  hm := bitsOf a 16 4
  x0 := bitsOf a 12 4
  y0 := bitsOf a 8 4
  cmask := bitsOf a 0 8
  nm := bitsOf b 60 4
  prio := bitsOf b 58 2
  mawm := bitsOf b 55 3
  anypos := bitOf b 54
  wsb := bitsOf b 32 10
  trape := bitsOf b 16 16
  emule := bitsOf b 0 16
  argp := c
  resv := resv || bitsOf a 24 8 != 0 || bitsOf b 42 12 != 0

/-- The tested word of IF and WAITMEM (R397, R398). -/
def condBody (a b c d : Nat) : CondBody := ⟨a, BitVec.ofNat 64 b, BitVec.ofNat 64 c, bitsOf d 12 4⟩

/-- A code and an address that IF and WAITMEM allow (R397). -/
def condOk (b : CondBody) : Bool := decide (b.cc ≤ 5) && b.addr % 8 == 0

/-- The instruction of a packet's bytes, or none where it is malformed (R385). -/
def packetOf (world q k : Nat) (bs : List Byte) : Option Instr :=
  let f (i : Nat) : Nat := natOfBytes ((bs.drop (8 * i)).take 8)
  let h : PktHdr := ⟨bitOf (f 0) 11, bitOf (f 0) 10, BitVec.ofNat 64 (f 1), BitVec.ofNat 64 (f 2)⟩
  let a := f 3
  let b := f 4
  let c := f 5
  let d := f 6
  let ok (p : Bool) (i : Instr) : Option Instr := if p then some i else none
  if bitsOf (f 0) 32 32 ≠ 0 ∨ bitsOf (f 0) 12 4 ≠ 0 ∨ bitsOf (f 0) 8 2 ≠ 0 then none
  else match f 0 % 256 with
    | 0 => ok (a == 0 && b == 0 && c == 0 && d == 0) (.pktNop q k h)
    | 1 => ok (!(launchBody a b c false).resv && d == 0 && c % 64 == 0) (.pktLaunch q k h (launchBody a b c false))
    | 2 => ok (a % 64 == 0 && b % 64 == 0 && c == 0 && d == 0) (.pktLaunchi q k h a (BitVec.ofNat 64 b))
    | 3 => ok (a != 0 && decide (a < 2 ^ 32) && b == 0 && c == 0 && d == 0) (.pktLoop q k h a)
    | 4 => ok (a == 0 && b == 0 && c == 0 && d == 0) (.pktEndloop q k h)
    | 5 => ok (condOk (condBody a b c d) && bitsOf d 16 48 == 0 && bitsOf d 8 4 == 0 && d % 256 != 0)
        (.pktIf q k h (condBody a b c d) (d % 256))
    | 6 => ok (condOk (condBody a b c d) && bitsOf d 48 16 == 0 && bitsOf d 0 12 == 0)
        (.pktWaitmem q k h (condBody a b c d) (bitsOf d 16 32))
    | 7 => ok (decide (a < 1024) && c == 0 && d == 0) (.pktSignal q k h a (BitVec.ofNat 64 b))
    | 8 => ok (b % 16 == 0 && c == 0 && d == 0) (.pktCopy q k h a b)
    | 9 => ok (a % 64 == 0 && b % 64 == 0 && c % 64 == 0 && bitsOf d 1 31 == 0 && decide (1 ≤ bitsOf d 48 16) && decide (bitsOf d 48 16 ≤ 1024))
        (.pktStage q k h ⟨a, b, c, bitsOf d 48 16, bitsOf d 32 16, bitOf d 0⟩)
    | 10 =>
      let page := if bitOf d 0 then 2 ^ 29 else 65536
      ok (world == 0 && decide (a < 4096) && b % page == 0 && c != 0 && c % page == 0 && d / 2 == 0)
        (.pktShoot q k h ⟨a, b, c, bitOf d 0⟩)
    | _ => none

/-- The common fields of a packet. -/
def pktHdr : Instr → PktHdr
  | .pktNop _ _ h => h
  | .pktLaunch _ _ h _ => h
  | .pktLaunchi _ _ h _ _ => h
  | .pktLoop _ _ h _ => h
  | .pktEndloop _ _ h => h
  | .pktIf _ _ h _ _ => h
  | .pktWaitmem _ _ h _ _ => h
  | .pktSignal _ _ h _ _ => h
  | .pktCopy _ _ h _ _ => h
  | .pktStage _ _ h _ => h
  | .pktShoot _ _ h _ => h
  | _ => ⟨false, false, 0, 0⟩

/-- Barrier packets (R385). -/
def isBarrier : Instr → Bool
  | .pktLoop _ _ _ _ => true
  | .pktEndloop _ _ _ => true
  | .pktIf _ _ _ _ _ => true
  | _ => false

/-- Packets that no skip range may contain (R397). -/
def isLoopPacket : Instr → Bool
  | .pktLoop _ _ _ _ => true
  | .pktEndloop _ _ _ => true
  | _ => false

/-! ## The window (R386 to R389) -/

/-- Address of packet k of a queue (R381). -/
def Queue.packetAt (q : Queue) (k : Nat) : Nat := (q.ring + 64 * (k % 2 ^ q.log2n)) % 2 ^ 64

/-- An entry as it is read. -/
def WEntry.of (k : Nat) (i : Instr) : WEntry := ⟨k, i, .loaded, false, none, 0, none, none, none, none⟩

/-- The entry of a packet. -/
def Queue.entry? (q : Queue) (k : Nat) : Option WEntry := q.window.find? (fun e => e.k == k)

/-- The entries before an entry in the window. -/
def Queue.before (q : Queue) (k : Nat) : List WEntry := q.window.takeWhile (fun e => e.k != k)

/-- Whether an entry may dispatch (R388). -/
def Queue.ready (q : Queue) (e : WEntry) : Bool :=
  let l := q.before e.k
  e.state == .loaded && e.status.isNone && ((pktHdr e.instr).wait &&& ~~~q.tokens) == 0 &&
    !(l.any (fun x => isBarrier x.instr && x.state != .done)) && (!(isBarrier e.instr) || l.all (fun x => x.state == .done))

/-- STATUS of a completed packet (R386). -/
def statusWord (st : StatusInfo) : Nat :=
  st.code % 256 * 2 ^ 56 + st.cause % 256 * 2 ^ 48 + st.rank % 65536 * 2 ^ 32 + st.jidx % 2 ^ 32

/-- Whether a completion applies SET (R386). -/
def statusSets (st : StatusInfo) (h : PktHdr) : Bool := st.code == 0 || st.code == 2 || h.soe

/-- Set tokens of a queue and show them (R381, R387). -/
def State.setTokens (s : State) (q : Nat) (m : BitVec 64) : State :=
  let s1 := s.modQueue q (fun x => { x with tokens := x.tokens ||| m })
  s1.feTry q (s1.qcbPut q 0x28 (s1.queue q).tokens.toNat)

/-- Write an entry's STATUS and then set its tokens (R386, R390). -/
def State.completeEntry (s : State) (q : Nat) (e : WEntry) (st : StatusInfo) : State :=
  match s.fePut (s.queue q).world ((s.queue q).packetAt e.k + 0x38) (statusWord st) with
  | .error x => s.feStopped q x
  | .ok s1 =>
    let s2 := s1.modQueue q (fun x => x.modEntry e.k (fun y => { y with state := .done, stage := none, copy := none }))
    if statusSets st (pktHdr e.instr) then s2.setTokens q (pktHdr e.instr).set else s2

/-- Complete every entry whose work is over. -/
def State.completeAll (s : State) (q : Nat) : State :=
  (s.queue q).window.foldl (fun s e => match e.status with
    | some st => if e.state = .done then s else s.completeEntry q e st
    | none => s) s

/-- RIDX (R381, R396): an open loop holds it at the outermost LOOP. -/
def Queue.retirePos (q : Queue) : Nat :=
  match q.loops.getLast? with
  | some l => l.1
  | none => match q.window.head? with
    | some e => e.k
    | none => q.readPos

/-- Retire the lowest entries that are DONE (R388). -/
def State.retire (s : State) (q : Nat) : State :=
  let s1 := s.modQueue q (fun x => { x with window := x.window.dropWhile (fun e => e.state == .done) })
  let r := (s1.queue q).retirePos
  if (s1.queue q).ridx = r then s1
  else
    let s2 := s1.modQueue q (fun x => { x with ridx := r })
    s2.feTry q (s2.qcbPut q 0x10 r)

/-- Put a packet that has been read into the window; one that an IF skips completes at once (R397). -/
def State.loadEntry (s : State) (q : Nat) (i : Instr) : State :=
  let x := s.queue q
  let e := WEntry.of x.readPos i
  let put (e : WEntry) : State := s.modQueue q (fun x => { x with window := x.window ++ [e], readPos := x.readPos + 1 })
  if x.readPos < x.skip then
    if isLoopPacket i then s.stopQueue q 3 2 (x.packetAt x.readPos)
    else put { e with state := .dispatched, status := some ⟨2, 0, 0, 0⟩ }
  else put e

/-- Read the next packet into the window, if there is one and room for it (R382, R388); a malformed one halts the
queue when it is read (R385; log 57). -/
def State.readPacket (s : State) (q : Nat) : State :=
  let x := s.queue q
  if x.state = 1 ∧ x.window.length < 32 ∧ x.readPos < x.widx then
    match s.feRead x.world (x.packetAt x.readPos) 64 with
    | .error e => s.feStopped q e
    | .ok (bs, s1) => match packetOf x.world q x.readPos bs with
      | none => s1.stopQueue q 3 2 (x.packetAt x.readPos)
      | some i => s1.loadEntry q i
  else s

/-- Read packets while there are some. -/
def State.readPackets : Nat → Nat → State → State
  | 0, _, s => s
  | n + 1, q, s => State.readPackets n q (s.readPacket q)

/-- Complete, retire and read on, until nothing more can be done; what is left follows at the next event. -/
def State.settleQueue : Nat → Nat → State → State
  | 0, _, s => s
  | n + 1, q, s =>
    let s1 := State.readPackets 32 q ((s.completeAll q).retire q)
    if (s1.queue q).window.any (fun e => e.status.isSome && e.state != .done) ∧ (s1.queue q).state = 1
    then State.settleQueue n q s1 else s1

/-- Bring a queue up to date. -/
def State.settled (s : State) (q : Nat) : State := State.settleQueue 12 q s

/-- Note a packet's completion; `settled` writes it. -/
def State.finishEntry (s : State) (q k : Nat) (st : StatusInfo) : State :=
  s.modQueue q (fun x => x.modEntry k (fun e => { e with state := .dispatched, status := some st }))

/-- A front-end unit. -/
def State.feUnit (s : State) (u : Nat) : FeUnit := AMap.get FeUnit.reset s.feUnits u

/-- Count a dispatch for its queue's turn and its unit's interval (R389, R391): past its weight a new round begins. -/
def State.noteTurn (s : State) (q : Nat) : State :=
  let x := s.queue q
  let u := s.feUnit (q / 256)
  let same := AMap.get 0 u.pos x.cls == q + 1
  let s1 := { s with feUnits := AMap.put s.feUnits (q / 256) { u with pos := AMap.put u.pos x.cls (q + 1), nextAt := s.cycle + 8 } }
  s1.putQueue q { x with turn := if same ∧ x.turn < x.weight then x.turn + 1 else 1 }

/-- The entry of a queue that has been ready longest (R391). -/
def Queue.oldest (q : Queue) : Option WEntry :=
  (q.window.filter (fun e => e.isReady)).foldl (fun m e => match m with
    | none => some e
    | some x => if e.readySince.getD 0 < x.readySince.getD 0 then some e else some x) none

/-- The guard ends when the entry it serves dispatches (R391). -/
def Queue.unguard (q : Queue) (k : Nat) : Queue :=
  if (q.oldest.map (fun e => e.k)) == some k then { q with guard := false } else q

/-- Take an entry as dispatched: CLR clears its WAIT tokens (R387, R388). -/
def State.takeEntry (s : State) (q k : Nat) (h : PktHdr) : Except FeStop State :=
  let s1 := (s.modQueue q (fun x => (x.unguard k).modEntry k (fun e => { e with state := .dispatched, isReady := false, readySince := none }))).noteTurn q
  if h.clr then
    let s2 := s1.modQueue q (fun x => { x with tokens := x.tokens &&& ~~~h.wait })
    s2.qcbPut q 0x28 (s2.queue q).tokens.toNat
  else .ok s1

/-- The work of packet k has stopped its queue: that packet is read afresh at a restart (R383). -/
def State.noteStuck (s : State) (q k : Nat) : State :=
  if (s.queue q).state = 1 then s else s.modQueue q (fun x => { x with stuck := some k })

/-- Do something for packet k of a queue, or leave everything as it was but for the queue's state; the packet that stops an ACTIVE
queue is noted (R383). -/
def State.feTryFor (s : State) (q k : Nat) (r : Except FeStop State) : State :=
  if (s.queue q).state = 1 then (s.feTry q r).noteStuck q k else s.feTry q r

/-- Dispatch a ready entry and do its work; where an access of it stops, the entry stays LOADED (R383, R388). -/
def State.dispatch (s : State) (q k : Nat) (h : PktHdr) (f : State → Except FeStop State) : Host.Outcome State Fault Refusal :=
  match (s.queue q).entry? k with
  | none => .next s
  | some e =>
    if (s.queue q).state = 1 ∧ (s.queue q).ready e = true then
      .next ((s.feTryFor q k (do
        let s1 ← s.takeEntry q k h
        f s1)).settled q)
    else .next s

/-- NOP (R399). -/
def execPktNop (q k : Nat) (h : PktHdr) (s : State) : Host.Outcome State Fault Refusal :=
  s.dispatch q k h (fun s => .ok (s.finishEntry q k ⟨0, 0, 0, 0⟩))

/-! ## Launches (R391 to R395) -/

/-- Step 1 of R394 on the fields alone, for a world's object. -/
def launchBad (x : World) (o : ObjEntry) (w : Nat) (b : LaunchBody) : Bool :=
  let far (e : Nat) : Bool := e != 0xFFFF && decide (o.entries.length ≤ e)
  !o.valid || o.owner != w || decide (o.entries.length ≤ b.entry) || far b.trape || far b.emule || b.cmask == 0 ||
    decide (16 < b.x0 + b.wm + 1) || decide (16 < b.y0 + b.hm + 1) || decide (1024 < b.wsb + b.nm + 1) ||
    decide (x.cquota < (b.wm + 1) * (b.hm + 1) * popCount 8 b.cmask) || b.resv || b.argp % 64 != 0

/-- The plan of a launch from its fields and its argument block (R392, R393). -/
def launchPlan (o : ObjEntry) (b : LaunchBody) (a : List Byte) (item : Option Nat) : LaunchPlan where
  w := b.wm + 1
  h := b.hm + 1
  mask := b.cmask
  n := b.nm + 1
  x0 := b.x0
  y0 := b.y0
  anypos := b.anypos
  prio := b.prio
  maw := b.mawm + 1
  wsb := b.wsb
  lo := o.lo
  text := o.textLen
  frame := o.frame
  entry := o.entries[b.entry]?.getD 0
  trapv := if b.trape = 0xFFFF then 0 else o.entries[b.trape]?.getD 0
  emulv := if b.emule = 0xFFFF then 0 else o.entries[b.emule]?.getD 0
  args := (List.range 8).map (fun i => wordOf (descNum a (8 * i) 8))
  seed := wordOf (descNum a 0x40 8)
  stream := wordOf (descNum a 0x48 8 + item.getD 0)
  fewait := descNum a 0x54 4
  tq := descNum a 0x50 4
  item := item

/-- The plan of a launch, or none where step 1 of R394 rejects it. -/
def State.planLaunch (s : State) (w : Nat) (b : LaunchBody) (item : Option Nat) : Except FeStop (Option LaunchPlan × State) :=
  let o := AMap.get ObjEntry.reset (s.world w).handles b.handle
  if launchBad (s.world w) o w b then .ok (none, s)
  else do
    let (a, s1) ← s.feRead w b.argp 96
    if descNum a 0x58 8 ≠ 0 then .ok (none, s1) else .ok (some (launchPlan o b a item), s1)

/-- Read a launch descriptor (R392, R395). -/
def State.readLaunch (s : State) (w va : Nat) : Except FeStop (LaunchBody × State) := do
  let (d, s1) ← s.feRead w ((va + 0x18) % 2 ^ 64) 24
  .ok (launchBody (descNum d 0 8) (descNum d 8 8) (descNum d 16 8) false, s1)

/-- The iteration index of the innermost open LOOP, or 0 (R395). -/
def Queue.iteration (q : Queue) : Nat := (q.loops.head?.map (fun l => l.2.2)).getD 0

/-- Where a LAUNCHI's descriptor lies (R395). -/
def Queue.descAt (q : Queue) (desc : Nat) (stride : BitVec 64) : Nat := (desc + q.iteration * stride.toNat) % 2 ^ 64

/-- The launch fields an entry gives, if it is a launch or a stage. -/
def State.entryLaunch (s : State) (q : Nat) (i : Instr) : Option (Except FeStop (LaunchBody × State)) :=
  match i with
  | .pktLaunch _ _ _ b => some (.ok (b, s))
  | .pktLaunchi _ _ _ d st => some (s.readLaunch (s.queue q).world ((s.queue q).descAt d st))
  | .pktStage _ _ _ b => some (s.readLaunch (s.queue q).world b.ldesc)
  | _ => none

/-- Whether the launch that a guarded queue waits with needs a core (R391): with ANYPOS it may need any. -/
def State.guardWants (s : State) (q c : Nat) : Bool :=
  match (s.queue q).oldest with
  | none => false
  | some e => match s.entryLaunch q e.instr with
    | some (.ok (b, _)) => b.anypos || (match s.rectCores b.x0 b.y0 (b.wm + 1) (b.hm + 1) b.cmask with
      | some l => l.contains c
      | none => false)
    | _ => false

/-- Since when a queue's oldest entry has been ready. -/
def Queue.since (q : Queue) : Nat := (q.oldest.bind (fun e => e.readySince)).getD 0

/-- Whether a core is held against entry k of queue q: for a guarded queue that goes before it, or for the entry its own queue
is guarded for (R391). -/
def State.heldFor (s : State) (q k c : Nat) : Bool :=
  s.queues.any (fun e => e.2.made && e.2.guard && e.2.state == 1 &&
    (if e.1 = q then (e.2.oldest.map (fun x => x.k)) != some k
      else !(s.queue q).guard || decide (e.2.since < (s.queue q).since) || (e.2.since == (s.queue q).since && decide (e.1 < q))) &&
    s.guardWants e.1 c)

/-- Whether a core is held for some guarded launch: nothing but that launch takes it (R391). -/
def State.guardHolds (s : State) (c : Nat) : Bool :=
  s.queues.any (fun e => e.2.made && e.2.guard && e.2.state == 1 && s.guardWants e.1 c)

/-- GANG_RESUME (R116): on any free rectangle of the same shape, none of whose cores is held for a guarded launch (R391). -/
def execGangResume (g gx gy : Nat) (s : State) : Host.Outcome State Fault Refusal :=
  let G := s.gang g
  if G.phase = 2 then
    match s.rectCores gx gy G.w G.h G.mask with
    | some l => if l.all (fun c => s.coreFree c && !(s.guardHolds c)) then .next (s.resumeGang g gx gy l) else .next s
    | none => .next s
  else .next s

/-- A place that a planned launch takes now (R394 step 2, R414): with none, it waits, and cores of another world are first
scrubbed while the packet stays LOADED (log 13). -/
def State.placeNow (s : State) (q k w : Nat) (p : LaunchPlan) : Except FeStop (Nat × Nat × List Nat) :=
  match s.placeFor w p (s.heldFor q k) with
  | none => .error .again
  | some x =>
    if s.toScrub w x.2.2 ≠ [] then .error (.scrub (s.toScrub w x.2.2))
    else if s.scrubbing x.2.2 then .error .again
    else .ok x

/-- Launch a planned gang for a packet, or complete it as rejected; with no place it stays LOADED (R394). -/
def State.launchFor (s : State) (q k : Nat) (r : Option LaunchPlan × State) : Except FeStop State :=
  match r.1 with
  | none => .ok (r.2.finishEntry q k ⟨5, 0, 0, 0⟩)
  | some p => match r.2.placeNow q k (s.queue q).world p with
    | .error x => .error x
    | .ok (gx, gy, cores) => .ok (r.2.launch (s.queue q).world q k p gx gy cores).1

/-- LAUNCH (R394). -/
def execPktLaunch (q k : Nat) (h : PktHdr) (b : LaunchBody) (s : State) : Host.Outcome State Fault Refusal :=
  s.dispatch q k h (fun s1 => do
    let r ← s1.planLaunch (s.queue q).world b none
    s1.launchFor q k r)

/-- LAUNCHI (R395). -/
def execPktLaunchi (q k : Nat) (h : PktHdr) (desc : Nat) (stride : BitVec 64) (s : State) : Host.Outcome State Fault Refusal :=
  s.dispatch q k h (fun s1 => do
    let (b, s2) ← s1.readLaunch (s.queue q).world ((s.queue q).descAt desc stride)
    let r ← s2.planLaunch (s.queue q).world b none
    s2.launchFor q k r)

/-! ## Control packets (R396 to R400) -/

/-- LOOP (R396): a fifth open loop is malformed. -/
def execPktLoop (q k : Nat) (h : PktHdr) (count : Nat) (s : State) : Host.Outcome State Fault Refusal :=
  s.dispatch q k h (fun s =>
    if 4 ≤ (s.queue q).loops.length then .error (.malformed ((s.queue q).packetAt k))
    else .ok ((s.modQueue q (fun x => { x with loops := (k, count, 0) :: x.loops })).finishEntry q k ⟨0, 0, 0, 0⟩))

/-- The queue after an ENDLOOP at k (R396): another iteration drops the later entries and goes back to the packet after
LOOP. -/
def Queue.endLoop (q : Queue) (k : Nat) : Queue :=
  match q.loops with
  | [] => q
  | (p, count, i) :: r =>
    if i + 1 < count then
      { q with loops := (p, count, i + 1) :: r, window := q.before k ++ (q.entry? k).toList, readPos := p + 1, skip := 0 }
    else { q with loops := r }

/-- ENDLOOP (R396). -/
def execPktEndloop (q k : Nat) (h : PktHdr) (s : State) : Host.Outcome State Fault Refusal :=
  s.dispatch q k h (fun s =>
    if (s.queue q).loops = [] then .error (.malformed ((s.queue q).packetAt k))
    else .ok ((s.modQueue q (fun x => x.endLoop k)).finishEntry q k ⟨0, 0, 0, 0⟩))

/-- Cond(CC, x and MASK, VALUE) (R204, R397). -/
def condTest (b : CondBody) (x : Nat) : Bool := condHolds b.cc (wordOf x &&& b.mask) b.value

/-- The entries after k that a failed IF skips. -/
def Queue.skipped (q : Queue) (k n : Nat) : List WEntry := q.window.filter (fun e => decide (k < e.k) && decide (e.k ≤ k + n))

/-- Skip the next n packets after packet k (R397). -/
def State.skipAfter (s : State) (q k n : Nat) : Except FeStop State :=
  match ((s.queue q).skipped k n).find? (fun e => isLoopPacket e.instr) with
  | some e => .error (.malformed ((s.queue q).packetAt e.k))
  | none =>
    let s1 := ((s.queue q).skipped k n).foldl (fun s e => s.finishEntry q e.k ⟨2, 0, 0, 0⟩) s
    .ok (s1.modQueue q (fun x => { x with skip := k + n + 1 }))

/-- IF (R397). That its range holds a LOOP or ENDLOOP, which makes the range malformed, stops it only where it skips the range: one whose
condition holds completes (log 85). -/
def execPktIf (q k : Nat) (h : PktHdr) (b : CondBody) (skip : Nat) (s : State) : Host.Outcome State Fault Refusal :=
  s.dispatch q k h (fun s => do
    let (x, s1) ← s.feNum (s.queue q).world b.addr
    let s2 := s1.finishEntry q k ⟨0, 0, 0, 0⟩
    if condTest b x then .ok s2 else s2.skipAfter q k skip)

/-- WAITMEM (R398): it reads the word at once. -/
def execPktWaitmem (q k : Nat) (h : PktHdr) (b : CondBody) (tmo : Nat) (s : State) : Host.Outcome State Fault Refusal :=
  s.dispatch q k h (fun s => do
    let (x, s1) ← s.feNum (s.queue q).world b.addr
    if condTest b x then .ok (s1.finishEntry q k ⟨0, 0, 0, 0⟩)
    else .ok (s1.modQueue q (fun y => y.modEntry k (fun e => { e with
      poll := s.cycle + 512, expire := if tmo = 0 then none else some (s.cycle + 1024 * tmo) }))))

/-- The tested word of a WAITMEM that is dispatched and not complete. -/
def Queue.waiting (q : Queue) (k : Nat) : Option CondBody :=
  match q.entry? k with
  | some e => if e.state = .dispatched ∧ e.status = none then (match e.instr with
    | .pktWaitmem _ _ _ b _ => some b
    | _ => none) else none
  | none => none

/-- WAITMEM_POLL (R398): the word is read again, every 512 cycles, and so within 512 cycles of any write to its line
(log 26); work already dispatched goes on in FAULT and HALTED (R383). -/
def execWaitmemPoll (q k : Nat) (s : State) : Host.Outcome State Fault Refusal :=
  match (s.queue q).waiting k with
  | none => .next s
  | some b =>
    .next ((s.feTryFor q k (do
      let (x, s1) ← s.feNum (s.queue q).world b.addr
      if condTest b x then .ok (s1.finishEntry q k ⟨0, 0, 0, 0⟩)
      else .ok (s1.modQueue q (fun y => y.modEntry k (fun e => { e with poll := s.cycle + 512 }))))).settled q)

/-- Whether a WAITMEM's limit has passed (R398); in FAULT it does not count (R383). -/
def State.waitmemOver (s : State) (q k : Nat) : Bool :=
  ((s.queue q).waiting k).isSome && (s.queue q).state != 2 && (match (s.queue q).entry? k with
    | some e => (match e.expire with
      | some t => decide (t ≤ s.cycle)
      | none => false)
    | none => false)

/-- WAITMEM_TIMEOUT (R398). -/
def execWaitmemTimeout (q k : Nat) (s : State) : Host.Outcome State Fault Refusal :=
  if s.waitmemOver q k then .next ((s.finishEntry q k ⟨3, 0, 0, 0⟩).settled q) else .next s

/-- Whether SIGNAL may set tokens in a queue (R400). -/
def State.canSignal (s : State) (q target : Nat) : Bool := (s.queue target).made && (s.queue target).world == (s.queue q).world

/-- SIGNAL (R400): it sets even in FAULT or HALTED. -/
def execPktSignal (q k : Nat) (h : PktHdr) (target : Nat) (tset : BitVec 64) (s : State) : Host.Outcome State Fault Refusal :=
  s.dispatch q k h (fun s =>
    if s.canSignal q target then .ok ((s.setTokens target tset).finishEntry q k ⟨0, 0, 0, 0⟩)
    else .ok (s.finishEntry q k ⟨5, 0, 0, 0⟩))

/-! ## COPY and SHOOT (R121, R401, R402) -/

/-- The command a bridge runs for a packet (R401). -/
def bridgeCmd (id w q k desc clasp stamp : Nat) : CopyCmd :=
  ⟨id, 2048 + q, k, w, BitVec.ofNat 64 (2 ^ 56), 0, desc, clasp, stamp, none⟩

/-- A bridge's descriptor may name no handle (R401). -/
def CopyRun.bridged (r : CopyRun) : CopyRun :=
  match r.bytes with
  | some d => if bitOf (descNum d 0x10 8) 63 then { r with bad := true } else r
  | none => r

/-- Run a bridge's copy until it is over or waits. -/
def bridgeSteps : Nat → State → CopyRun → State × CopyRun
  | 0, s, r => (s, r)
  | n + 1, s, r =>
    let r1 := r.bridged
    if s.copyCanStep r1 then
      let p := s.copyStep r1
      bridgeSteps n p.1 p.2
    else (s, r1)

/-- Steps a bridge's copy can need. -/
def CopyRun.bridgeFuel (r : CopyRun) : Nat :=
  match r.bytes with
  | some d => (cpPlan d).elim 4 (fun p => p.pieces + 4)
  | none => 2

/-- Let the bridge of a COPY packet go on (R294, R401): a copy that is over completes its packet. -/
def State.runBridge (s : State) (q k : Nat) : State :=
  match ((s.queue q).entry? k).bind (fun e => e.copy) with
  | none => s
  | some r =>
    let p := bridgeSteps 2 s r
    let p := bridgeSteps p.2.bridgeFuel p.1 p.2
    let s1 := p.1.modQueue q (fun x => x.modEntry k (fun e => { e with copy := some p.2 }))
    if p.2.over then ({ s1.settleCommand r.cmd.id with feStamp := max s1.feStamp p.2.cmd.stamp }).finishEntry q k
        ⟨if p.2.bad then 4 else 0, 0, 0, 0⟩
    else s1

/-- COPY (R401). -/
def execPktCopy (q k : Nat) (h : PktHdr) (desc clasp : Nat) (s : State) : Host.Outcome State Fault Refusal :=
  s.dispatch q k h (fun s =>
    .ok (({ s with nextId := s.nextId + 1 }.modQueue q (fun x => x.modEntry k (fun e => { e with
      copy := some (CopyRun.of (bridgeCmd s.nextId x.world q k desc clasp s.feStamp)) }))).runBridge q k))

/-- SHOOT (R402): a world that is not in use has nothing to drop. -/
def execPktShoot (q k : Nat) (h : PktHdr) (b : ShootBody) (s : State) : Host.Outcome State Fault Refusal :=
  s.dispatch q k h (fun s =>
    if (s.world b.world).used then
      .ok { s with nextId := s.nextId + 1, shoots := s.shoots ++ [⟨s.nextId, b.world, b.va, b.len, b.big, some (q, k)⟩] }
    else .ok (s.finishEntry q k ⟨0, 0, 0, 0⟩))

/-- Whether an address lies in a shootdown's range. -/
def Shoot.covers (x : Shoot) (va : Nat) : Bool := decide (x.va ≤ va) && decide (va < x.va + x.len)

/-- Whether every access through an entry that is dropped has its place (R121): no request travels or waits at its home, and
neither a thread nor an engine waits for the answer of a fabric window that such a page leads to (a registered `cl.wait`,
log 49). -/
def State.shootReady (s : State) (x : Shoot) : Bool :=
  let at_ (w a : Nat) : Bool := w == x.world && x.covers a
  !(s.inflight.any (fun r => at_ r.world r.va)) &&
  s.cores.all (fun e =>
    !(e.2.clWait.any (fun r => at_ r.world r.va)) &&
    !(e.2.tasks.any (fun t => match t.2.park with
      | .fabric _ ea _ => at_ e.2.world ea
      | .bdDecl _ _ _ _ (some a) => at_ e.2.world a
      | _ => false)) &&
    !(e.2.vq.any (fun q => q.fabWait.any (fun a => at_ e.2.world a)))) &&
  s.setts.all (fun t => !(t.2.places.any (fun p => p.2.fabWait.any (fun a => at_ p.2.cmd.world a.1)))) &&
  s.gangs.all (fun g => !(g.2.colls.any (fun c => c.fabWait.any (fun a => at_ g.2.world a.2.1)))) &&
  s.queues.all (fun q => !(q.2.window.any (fun y => y.copy.any (fun r => r.fabWait.any (fun a => at_ r.cmd.world a.1)))))

/-- Drop a range's translations and L1 lines on one core (R121). -/
def State.shootCore (s : State) (x : Shoot) (c : Nat) : State :=
  let k := s.core c
  let gone := (k.l1.filter (fun e => x.covers (32 * e.1) && e.2.owned)).map (fun e => e.2.pa / 32)
  let dis (e : Nat × HomeLine) : Nat × HomeLine := (e.1, if gone.contains e.1 && e.2.owner == some c then { e.2 with owner := none } else e.2)
  ({ s with home := s.home.map dis }).modCore c (fun k => { k with
    l1 := k.l1.filter (fun e => !(x.covers (32 * e.1)))
    tlb := k.tlb.filter (fun e => !(e.world == x.world && e.big == x.big && x.covers e.vbase)) })

/-- The effect of a shootdown (R121). -/
def State.shootdown (s : State) (x : Shoot) : State :=
  let cs := (s.cores.filter (fun e => e.2.world == x.world)).map (fun e => e.1)
  let s1 := cs.foldl (fun s c => s.shootCore x c) s
  { s1 with
    setts := s1.setts.map (fun e => (e.1, { e.2 with
      tlb := e.2.tlb.filter (fun t => !(t.world == x.world && t.big == x.big && x.covers t.vbase)) }))
    shoots := s1.shoots.filter (fun y => y.id != x.id) }

/-- SHOOTDOWN_COMPLETE (R121, R402). -/
def execShootdownComplete (id : Nat) (s : State) : Host.Outcome State Fault Refusal :=
  match s.shoots.find? (fun x => x.id == id) with
  | none => .next s
  | some x =>
    if s.shootReady x then
      let s1 := s.shootdown x
      match x.origin with
      | some (q, k) => .next ((s1.finishEntry q k ⟨0, 0, 0, 0⟩).settled q)
      | none => .next s1
    else .next s

/-! ## Stages (R403 to R405) -/

/-- A stage queue's record (R403). -/
structure StageQ where
  prod : Nat
  cons : Nat
  freed : Nat
  rsv : Nat
  closed : Bool
  cap : Nat
  deriving DecidableEq, Repr

/-- Read a stage queue (R403). What its reserved bits hold is ignored: the spec states no fate for them (log 31). -/
def State.stageQ (s : State) (w va : Nat) : Except FeStop (StageQ × State) := do
  let (d, s1) ← s.feRead w va 40
  .ok (⟨descNum d 0 8, descNum d 8 8, descNum d 16 8, descNum d 24 8, bitOf (descNum d 32 8) 63, descNum d 32 4⟩, s1)

/-- Change a dispatched stage. -/
def State.putStage (s : State) (q k : Nat) (r : StageRun) : State :=
  s.modQueue q (fun x => x.modEntry k (fun e => { e with stage := some r }))

/-- A dispatched stage. -/
def Queue.stage? (q : Queue) (k : Nat) : Option StageRun := (q.entry? k).bind (fun e => if e.status.isNone then e.stage else none)

/-- FREED after every leading retired item (R405). -/
def freedAfter (retired : List Nat) : Nat → Nat → Nat
  | 0, f => f
  | n + 1, f => if retired.contains f then freedAfter retired n (f + 1) else f

/-- Give back the output reservations a stage owes (R405). -/
def State.payBack (s : State) (w : Nat) (r : StageRun) : Except FeStop State := do
  if r.owed = 0 then .ok s
  else
    let (o, s1) ← s.stageQ w r.body.sqout
    s1.fePut w (r.body.sqout + 0x18) (o.rsv - r.owed)

/-- Advance FREED of a stage's input queue (R405). -/
def State.advanceFreed (s : State) (w : Nat) (r : StageRun) (i : StageQ) : Except FeStop State :=
  let f := freedAfter r.retired r.retired.length i.freed
  if f = i.freed then .ok s else s.fePut w (r.body.sqin + 0x10) f

/-- Whether a stage is over, and with what status (R405). -/
def StageRun.over (r : StageRun) (i : StageQ) : Option StatusInfo :=
  if r.gangs ≠ [] then none
  else match r.stopped with
    | some st => some st
    | none => if i.closed ∧ i.cons = i.prod then some ⟨0, 0, 0, 0⟩ else none

/-- Close a stage's output at its completion (R404, R405). -/
def State.closeOut (s : State) (w : Nat) (b : StageBody) : Except FeStop State := do
  if b.closeOut ∧ b.sqout ≠ 0 then
    let (x, s1) ← s.feNum w (b.sqout + 0x20)
    s1.fePut w (b.sqout + 0x20) (insertBits x 63 1 1)
  else .ok s

/-- Bring a stage's counters up to date, observe its input, and complete it when it is over (R403, R405). -/
def State.settleStage (s : State) (q k : Nat) (r : StageRun) : Except FeStop State := do
  let w := (s.queue q).world
  let s1 ← s.payBack w r
  let (i, s2) ← s1.stageQ w r.body.sqin
  let s3 ← s2.advanceFreed w r i
  let f := freedAfter r.retired r.retired.length i.freed
  let s4 := s3.putStage q k { r with owed := 0, retired := r.retired.filter (fun x => decide (f ≤ x)), seen := (i.prod, i.closed) }
  match r.over i with
  | none => .ok s4
  | some st =>
    let s5 ← s4.closeOut w r.body
    .ok (s5.finishEntry q k st)

/-- STAGE (R405): it stays dispatched until it is over. -/
def execPktStage (q k : Nat) (h : PktHdr) (b : StageBody) (s : State) : Host.Outcome State Fault Refusal :=
  s.dispatch q k h (fun s =>
    let r : StageRun := ⟨b, [], [], 0, (0, false), none⟩
    (s.putStage q k r).settleStage q k r)

/-- STAGE_QUEUE_OBSERVE (R403): the front end takes note of a stage's queues, and settles its ended gangs. -/
def execStageQueueObserve (q k : Nat) (s : State) : Host.Outcome State Fault Refusal :=
  match (s.queue q).stage? k with
  | none => .next s
  | some r => .next ((s.feTryFor q k (s.settleStage q k r)).settled q)

/-- Whether a stage's output has room for one more launch (R405). -/
def outputRoom (b : StageBody) (o : StageQ) : Bool := decide (b.outn + (o.prod - o.freed) + o.rsv ≤ o.cap)

/-- A runnable stage's input queue (R405). -/
def State.stageRunnable (s : State) (q : Nat) (r : StageRun) : Except FeStop (Option StageQ × State) := do
  let w := (s.queue q).world
  if r.body.maxg ≤ r.gangs.length ∨ r.stopped.isSome = true then .ok (none, s)
  else
    let (i, s1) ← s.stageQ w r.body.sqin
    if r.seen.1 ≤ i.cons then .ok (none, s1)
    else if r.body.sqout = 0 then .ok (some i, s1)
    else
      let (o, s2) ← s1.stageQ w r.body.sqout
      .ok (if outputRoom r.body o then some i else none, s2)

/-- Reserve output and take an item for a stage's launch (R405). -/
def State.takeItem (s : State) (w : Nat) (b : StageBody) (x : Nat) : Except FeStop State := do
  let s1 ← (if b.sqout = 0 then .ok s else do
    let (o, s1) ← s.stageQ w b.sqout
    s1.fePut w (b.sqout + 0x18) (o.rsv + b.outn))
  s1.fePut w (b.sqin + 8) (x + 1)

/-- Launch a runnable stage's next item; a launch that step 1 of R394 rejects stops the stage (R405). -/
def State.launchStage (s : State) (q k : Nat) (r : StageRun) : Except FeStop State := do
  let w := (s.queue q).world
  let (i, s1) ← s.stageRunnable q r
  match i with
  | none => .error .again
  | some i =>
    let (b, s2) ← s1.readLaunch w r.body.ldesc
    let (p, s3) ← s2.planLaunch w b (some i.cons)
    match p with
    | none =>
      let r1 := { r with stopped := some ⟨5, 0, 0, 0⟩ }
      (s3.putStage q k r1).settleStage q k r1
    | some p => match s3.placeNow q k w p with
      | .error x => .error x
      | .ok (gx, gy, cores) =>
        let s4 ← s3.takeItem w r.body i.cons
        let (s5, g) := (s4.noteTurn q).launch w q k p gx gy cores
        .ok ((s5.modQueue q (fun x => (x.unguard k).modEntry k (fun e => { e with isReady := false, readySince := none }))).putStage q k { r with gangs := r.gangs ++ [(g, i.cons)] })

/-- STAGE_LAUNCH (R405). -/
def execStageLaunch (q k : Nat) (s : State) : Host.Outcome State Fault Refusal :=
  match (s.queue q).stage? k with
  | none => .next s
  | some r => if (s.queue q).state = 1 then .next ((s.feTryFor q k (s.launchStage q k r)).settled q) else .next s

/-! ## Queue events (R380, R382, R383, R386, R387, R391, R408) -/

/-- WIDX_OBSERVE (R382): an overrun halts the queue. -/
def execWidxObserve (q : Nat) (s : State) : Host.Outcome State Fault Refusal :=
  let x := s.queue q
  if x.made ∧ x.state = 1 then
    match s.feNum x.qcbWorld (x.qcb + 8) with
    | .error e => .next (s.feStopped q e)
    | .ok (v, s1) =>
      if x.ridx + 2 ^ x.log2n < v then .next (s1.stopQueue q 3 3 (x.qcb + 8))
      else .next ((s1.modQueue q (fun y => { y with widx := v })).settled q)
  else .next s

/-- PACKET_COMPLETE (R386, R390). -/
def execPacketComplete (q k : Nat) (r : StatusInfo) (s : State) : Host.Outcome State Fault Refusal :=
  match (s.queue q).entry? k with
  | none => .next s
  | some e => if e.state = .dispatched then .next ((s.finishEntry q k (e.status.getD r)).settled q) else .next s

/-- STARVATION_GUARD (R391). -/
def execStarvationGuard (q : Nat) (s : State) : Host.Outcome State Fault Refusal :=
  let x := s.queue q
  if x.oldest.isSome ∧ x.since + 2000000 ≤ s.cycle then .next (s.putQueue q { x with guard := true }) else .next s

/-- A queue goes on (R383). -/
def State.activate (s : State) (q : Nat) : State :=
  let s1 := (s.pauseTimers q).modQueue q (fun x => { x with state := 1, reason := 0, stuck := none })
  (s1.feTry q (s1.qcbAll q)).settled q

/-- QUEUE_FAULT_RESOLVED (R383). -/
def execQueueFaultResolved (q : Nat) (ok : Bool) (s : State) : Host.Outcome State Fault Refusal :=
  if (s.queue q).state = 2 then .next (if ok then s.activate q else s.stopQueue q 3 4 (s.queue q).faddr) else .next s

/-- An entry whose packet has been read afresh (R383): a WAITMEM or a STAGE that is dispatched goes on with its new fields if it is
still one, any other is a LOADED packet (log 84). -/
def WEntry.reread (e : WEntry) (i : Instr) (now : Nat) : WEntry :=
  let loaded := { e with instr := i, state := .loaded, isReady := false, readySince := none, expire := none, stage := none }
  if e.state = .loaded then loaded
  else match i, e.instr with
    | .pktWaitmem _ _ _ _ _, .pktWaitmem _ _ _ _ _ => { e with instr := i, poll := now }
    | .pktStage _ _ _ b, .pktStage _ _ _ _ => { e with instr := i, stage := e.stage.map (fun r => { r with body := b }) }
    | _, _ => loaded

/-- Read an entry's packet afresh (R383). -/
def State.rereadEntry (s : State) (q : Nat) (e : WEntry) : Except FeStop State := do
  let x := s.queue q
  let (bs, s1) ← s.feRead x.world (x.packetAt e.k) 64
  match packetOf x.world q e.k bs with
  | none => .error (.malformed (x.packetAt e.k))
  | some i => .ok (s1.modQueue q (fun y => y.modEntry e.k (fun z => z.reread i s.cycle)))

/-- Whether an entry may still be read afresh: it waits to be dispatched, or its access to memory is repeated. -/
def Queue.mayReread (x : Queue) (e : WEntry) : Bool := e.state == .loaded || (x.waiting e.k).isSome || (x.stage? e.k).isSome

/-- Read what halted its queue afresh, where it stands in the window (R383): the packet whose work stopped, and the one at
FADDR. -/
def State.rereadHalted (s : State) (q : Nat) : Except FeStop State :=
  let x := s.queue q
  (x.window.filter (fun e => x.mayReread e && (x.stuck == some e.k || x.packetAt e.k == x.faddr))).foldlM (fun s e => s.rereadEntry q e) s

/-- QUEUE_RESTART (R383). -/
def execQueueRestart (q : Nat) (s : State) : Host.Outcome State Fault Refusal :=
  if (s.queue q).made ∧ (s.queue q).state = 3 ∧ (s.world (s.queue q).world).dying = false then
    let s1 := s.modQueue q (fun x => { x with state := 1 })
    match s1.rereadHalted q with
    | .error x => .next (s1.feStopped q x)
    | .ok s2 => .next (s2.activate q)
  else .next s

/-- The lowest queue number that is free (R380). Which free number a new queue takes, the spec does not say (log 86). -/
def State.freeQueue (s : State) : Option Nat := (List.range 1024).find? (fun q => !(s.queue q).made)

/-- Queues a world holds (R380, R412). -/
def State.queuesOf (s : State) (w : Nat) : Nat := (s.queues.filter (fun e => e.2.made && e.2.world == w)).length

/-- Whether a queue may be created as asked (R380, R381). -/
def State.canCreate (s : State) (b : QueueSpec) : Bool :=
  (s.world b.world).used && !(s.world b.world).dying && decide (b.cls ≤ 3) && decide (1 ≤ b.weight) && decide (b.weight ≤ 16) && b.qcb % 64 == 0 &&
    decide (s.queuesOf b.world < min 64 (s.world b.world).nqmax)

/-- A queue as it is created; RING and LOG2N are read once (R381). -/
def Queue.created (b : QueueSpec) (word : Nat) : Queue :=
  { Queue.reset with
    made := true, world := b.world, cls := b.cls, weight := b.weight, remote := b.remote, qcb := b.qcb
    ring := word / 4096 * 4096, log2n := word % 32 }

/-- WIDX at its reset value (R381), where the control block can be written. -/
def State.clearWidx (s : State) (q : Nat) : State :=
  match s.qcbPut q 8 0 with
  | .ok s1 => s1
  | .error _ => s

/-- QUEUE_CREATE (R380, R381): the spec states no fate for a control block whose reserved bits are not zero; the model
refuses the queue, as it does for a LOG2N outside 6 to 16 (log 31). -/
def execQueueCreate (b : QueueSpec) (s : State) : Host.Outcome State Fault Refusal :=
  match s.freeQueue, s.canCreate b with
  | some q, true =>
    match s.feNum (if b.remote then 0 else b.world) b.qcb with
    | .error _ => .next (s.report (.queueRefused b.world))
    | .ok (v, s1) =>
      if bitsOf v 5 7 ≠ 0 ∨ v % 32 < 6 ∨ 16 < v % 32 then .next (s1.report (.queueRefused b.world))
      else .next ((((s1.putQueue q (Queue.created b v)).clearWidx q).showQcb q).report (.queueMade q))
  | _, _ => .next (s.report (.queueRefused b.world))

/-- SERVICE_TOKEN_SET (R387). -/
def execServiceTokenSet (q : Nat) (tset : BitVec 64) (s : State) : Host.Outcome State Fault Refusal :=
  if (s.queue q).made then .next ((s.setTokens q tset).settled q) else .next s

/-- Write a forwarded packet and advance WIDX, unless the ring is full (R408). -/
def State.forward (s : State) (q : Nat) (bytes : BitVec 512) : Except FeStop (Option State) := do
  let x := s.queue q
  let (v, s1) ← s.feNum x.qcbWorld (x.qcb + 8)
  if x.ridx + 2 ^ x.log2n ≤ v then .ok none
  else
    let (_, s2) ← s1.feRun x.world (x.packetAt v) (engWrite (feCtx x.world) [] (x.packetAt v) (bytesOf 64 bytes.toNat))
    let s3 ← s2.qcbPut q 8 (v + 1)
    .ok (some s3)

/-- REMOTE_PACKET (R408): a packet that cannot be taken is refused, and the node sends it again. -/
def execRemotePacket (q : Nat) (bytes : BitVec 512) (s : State) : Host.Outcome State Fault Refusal :=
  if (s.queue q).made ∧ (s.queue q).remote = true then
    match s.forward q bytes with
    | .ok (some s1) => .next s1
    | _ => .next (s.report (.remoteRefused q))
  else .next (s.report (.remoteRefused q))

end Sys2Proof.Machine
end

