-- ==== Sys2Proof/Machine/Nst.lean ====
section
/-! DEFINITION. The native set table's generation section: its header, its records and its digest (R24, R349 to R352). -/

namespace Sys2Proof.Machine

/-- A record: KIND, KEY, AUX, VALUE (R350). -/
abbrev NstRec := Nat × Nat × Nat × Nat

/-- The records of one major: its codes, ILEN and the rotations of each code (R351). -/
def majorRecs (major : Nat) (codes : List Nat) (ilen : Nat) (rot : Nat → Nat) : List NstRec :=
  codes.map (fun c => (1, major * 2048 + c, ilen, rot c))

/-- The ALU codes of R160. -/
def aluCodes : List Nat := List.range 0x19 ++ (List.range 6).map (0x20 + ·) ++ (List.range 6).map (0x28 + ·)

/-- The vop codes of R165. -/
def vopCodes : List Nat := List.range 0x1E ++ (List.range 17).map (0x40 + ·) ++ (List.range 6).map (0x60 + ·)

/-- The Instruction records by rising major (R351). -/
def instrRecs : List NstRec :=
  majorRecs 0x01 aluCodes 0 (fun c => if 5 ≤ c ∧ c ≤ 8 then 4 else 1) ++
  (List.range 8).flatMap (fun m => majorRecs (m + 2) [0] 0 (fun _ => 1)) ++
  majorRecs 0x0A (List.range 10) 0 (fun c => if c = 3 ∨ c = 4 then 0 else 1) ++
  majorRecs 0x0B (List.range 3) 0 (fun _ => 1) ++
  majorRecs 0x0C [0] 0 (fun _ => 1) ++
  (List.range 5).flatMap (fun m => majorRecs (m + 0x10) [0] 0 (fun _ => 1)) ++
  majorRecs 0x15 (List.range 11) 0 (fun _ => 1) ++
  majorRecs 0x16 [0] 0 (fun _ => 1) ++
  majorRecs 0x17 (List.range 8) 0 (fun _ => 1) ++
  majorRecs 0x18 (List.range 8 ++ [16]) 0 (fun _ => 1) ++
  (List.range 3).flatMap (fun m => majorRecs (m + 0x20) [0] 0 (fun _ => 1)) ++
  majorRecs 0x23 (List.range 3) 0 (fun _ => 1) ++
  majorRecs 0x24 [0] 0 (fun _ => 2) ++
  majorRecs 0x28 (List.range 12) 0 (fun _ => 1) ++
  (List.range 2).flatMap (fun m => majorRecs (m + 0x29) [0] 0 (fun _ => 1)) ++
  majorRecs 0x2B (List.range 5) 0 (fun _ => 1) ++
  majorRecs 0x30 (List.range 7) 1 (fun _ => 1) ++
  majorRecs 0x31 (List.range 4) 1 (fun _ => 1) ++
  majorRecs 0x32 (List.range 5) 1 (fun _ => 1) ++
  majorRecs 0x33 (List.range 6) 0 (fun _ => 1) ++
  majorRecs 0x3C vopCodes 2 (fun _ => 1)

/-- The figures of R352, from key 1. -/
def figures : List Nat :=
  [8, 16, 1048576, 64, 16, 128, 256, 64, 65536, 16, 8, 8, 256, 4, 30, 2]

/-- The Figure records (R352). -/
def figureRecs : List NstRec := (figures.zip (List.range figures.length)).map (fun e => (2, e.2 + 1, 0, e.1))

/-- Width and scope (0 thread, 1 core, 2 gang) of a selector (R166). -/
def selectorShape (sel : Nat) : Nat × Nat :=
  match sel with
  | 0x001 => (20, 0)
  | 0x002 => (16, 0)
  | 0x003 => (16, 0)
  | 0x004 => (4, 0)
  | 0x006 => (32, 2)
  | 0x007 => (12, 0)
  | 0x008 => (64, 1)
  | 0x009 => (60, 1)
  | 0x010 => (5, 0)
  | 0x011 => (3, 0)
  | 0x012 => (6, 0)
  | 0x013 => (32, 0)
  | 0x014 => (32, 0)
  | 0x015 => (32, 1)
  | 0x016 => (2, 0)
  | 0x040 => (4, 2)
  | 0x050 => (7, 1)
  | _ => (64, 0)

/-- The Selector records (R166, R351). -/
def selectorRecs : List NstRec :=
  selectorTable.map (fun e => (3, e.1, (selectorShape e.1).1 + (if e.2 then 256 else 0), (selectorShape e.1).2))

/-- A nest with nothing but its types. -/
def typedNest (td ta tb : BitVec 4) : Nest :=
  ⟨td, ta, tb, 0, 0, 0, 0, 0, 0, 0, 0, 0, 0, 0, 0, 0, 0, 0, 0, 0, 0, 0, 0, 0, 0, 0, 0, 0, 0, 0, 0, 0, 0, 0, 0, 0, 0, 0⟩

/-- The type codes. -/
def typeCodes : List (BitVec 4) := (List.range 16).map (BitVec.ofNat 4)

/-- Whether R259 allows a code for TD (0), TA (1) or TB (2) of a vop in some combination. -/
def typeAllowed (v which : Nat) (t : BitVec 4) : Bool :=
  typeCodes.any (fun x => typeCodes.any (fun y => (match which with
    | 0 => typedNest t x y
    | 1 => typedNest x t y
    | _ => typedNest x y t).typesOk (vopKindOf v)))

/-- A set of allowed codes as bits. -/
def typeBits (v which : Nat) : Nat := typeCodes.foldl (fun m t => if typeAllowed v which t then m + 2 ^ t.toNat else m) 0

/-- The Vop types records (R351; log 58). -/
def vopRecs : List NstRec :=
  vopCodes.map (fun v => (4, v, 0, typeBits v 0 + typeBits v 1 * 2 ^ 16 + typeBits v 2 * 2 ^ 32))

/-- All records, sorted by KIND and KEY, the end record last (R350). -/
def nstRecs : List NstRec := instrRecs ++ figureRecs ++ selectorRecs ++ vopRecs ++ [(0xFF, 0, 0, 0)]

/-- The bytes of a record (R350). -/
def nstRecBytes (r : NstRec) : List Byte := bytesOf 8 (r.1 * 2 ^ 56 + r.2.1 * 2 ^ 32 + r.2.2.1) ++ bytesOf 8 r.2.2.2

/-- The generation section (R349): LINEVER 0b01, SETVER 1. -/
def nstSection : List Byte :=
  bytesOf 8 (2 ^ 16 + 1) ++ bytesOf 8 (nstRecs.length * 2 ^ 32 + 64) ++ List.replicate 48 0#8 ++ nstRecs.flatMap nstRecBytes

/-- The NST digest (R24). -/
def nstDigest : List Byte := shake256 nstSection 32

/-- Where a record of a kind and key stands among the records (R354 service 0). -/
def nstFind (kind key : Nat) : Option Nat :=
  let i := nstRecs.findIdx (fun r => r.1 == kind && r.2.1 == key)
  if i < nstRecs.length then some i else none

end Sys2Proof.Machine
end

