-- ==== Sys2Proof/Machine/Burrow.lean ====
section
/-! DEFINITION. The bootstrap set and burrows: the effects of R334 to R338, burrow space and its faults (R342 to R346),
the services (R353 to R361), the end of a run (R347), and the translation cache (R362, R363). -/

namespace Sys2Proof.Machine

/-! ## Registers and the course of a run (R330, R339, R346, R347) -/

/-- Base of IN (R342). -/
def inBase : Nat := 0x100000000000
/-- Base of OUT (R342). -/
def outBase : Nat := 0x200000000000
/-- Base of SCRATCH (R342). -/
def scrBase : Nat := 0x300000000000
/-- Bytes of SCRATCH (R342). -/
def scrSize : Nat := 2 ^ 24

/-- The burrow of the acting slot. -/
def State.burrowNow (s : State) : Burrow := AMap.get Burrow.reset s.burrows (16 * s.actCore + s.actSlot)

/-- Replace the burrow of the acting slot. -/
def State.putBurrow (s : State) (b : Burrow) : State := { s with burrows := AMap.put s.burrows (16 * s.actCore + s.actSlot) b }

/-- z(x): z0 reads as zero (R330). -/
def Burrow.reg (b : Burrow) (x : BitVec 4) : Word := if x = 0#4 then 0 else AMap.get 0 b.z x.toNat

/-- Write z(x): a write to z0 is discarded (R330). -/
def Burrow.setReg (b : Burrow) (x : BitVec 4) (v : Word) : Burrow := if x = 0#4 then b else { b with z := AMap.put b.z x.toNat v }

/-- A directory field of IN (R343). -/
def Burrow.dir (b : Burrow) (off n : Nat) : Nat := descNum b.inBytes off n

/-- Check of R336: a PC in the translator text, aligned to 4. -/
def Burrow.inText (b : Burrow) (tgt : Nat) : Bool :=
  tgt % 4 == 0 && decide (inBase + b.dir 0 4 ≤ tgt) && decide (tgt < inBase + b.dir 0 4 + b.dir 4 4)

/-- An instruction completes: the meter counts it, and the next one issues a rotation later (R339, R346). -/
def State.zDone (s : State) (b : Burrow) (next : Nat) : State :=
  (s.putBurrow { b with meter := b.meter + 1, pc := next % 2 ^ 64 }).modCurSlot (fun sl => { sl with nextAt := s.cycle + 16 })

/-- The end of a run: its report goes out and its gang is over (R347, R360). -/
def State.endRun (s : State) (b : Burrow) (cause sub faddr code : Nat) : State :=
  let s1 := s.tellRun b (b.ends (s.gens b.world) cause sub faddr code)
  let s2 := { s1 with burrows := AMap.del s1.burrows (16 * s.actCore + s.actSlot), gangs := AMap.del s1.gangs b.gang }
  s2.modCore s.actCore (fun k => { k with gang := none, slots := AMap.put k.slots s.actSlot Slot.reset })

/-- A confinement fault (R345, R347). -/
def State.zFault (s : State) (b : Burrow) (sub faddr : Nat) : State := s.endRun b 0x10 sub faddr 0

/-- Act on the acting slot's burrow: outside burrow mode a word of the set is data (R329). -/
def State.burrow (s : State) (f : Burrow → State) : Host.Outcome State Fault Refusal :=
  if s.burrowNow.active then .next (f s.burrowNow) else .next s

/-- Write a result and go on (R334). -/
def State.zWrite (s : State) (b : Burrow) (d : BitVec 4) (v : Word) : State := s.zDone (b.setReg d v) (b.pc + 4)

/-- An R form (R334). -/
def State.zOp (s : State) (d a b : BitVec 4) (f : Word → Word → Word) : Host.Outcome State Fault Refusal :=
  s.burrow (fun x => s.zWrite x d (f (x.reg a) (x.reg b)))

/-- An I form with the sign-extended immediate (R334). -/
def State.zImm (s : State) (d a : BitVec 4) (i : BitVec 18) (f : Word → Word → Word) : Host.Outcome State Fault Refusal :=
  s.burrow (fun x => s.zWrite x d (f (x.reg a) (i.signExtend 64)))

/-! ## Arithmetic (R334) -/

/-- `zadd` (R334). -/
def execZadd (d a b : BitVec 4) (s : State) : Host.Outcome State Fault Refusal := s.zOp d a b (fun x y => x + y)
/-- `zsub` (R334). -/
def execZsub (d a b : BitVec 4) (s : State) : Host.Outcome State Fault Refusal := s.zOp d a b (fun x y => x - y)
/-- `zmul` (R334). -/
def execZmul (d a b : BitVec 4) (s : State) : Host.Outcome State Fault Refusal := s.zOp d a b (fun x y => x * y)
/-- `zmulh` (R334). -/
def execZmulh (d a b : BitVec 4) (s : State) : Host.Outcome State Fault Refusal :=
  s.zOp d a b (fun x y => BitVec.ofInt 64 (x.toInt * y.toInt / 2 ^ 64))
/-- `zdiv` (R135, R334). -/
def execZdiv (d a b : BitVec 4) (s : State) : Host.Outcome State Fault Refusal :=
  s.zOp d a b (fun x y => if y = 0 then BitVec.allOnes 64 else x.sdiv y)
/-- `zdivn` (R135, R334). -/
def execZdivn (d a b : BitVec 4) (s : State) : Host.Outcome State Fault Refusal :=
  s.zOp d a b (fun x y => if y = 0 then BitVec.allOnes 64 else x / y)
/-- `zrem` (R135, R334). -/
def execZrem (d a b : BitVec 4) (s : State) : Host.Outcome State Fault Refusal :=
  s.zOp d a b (fun x y => if y = 0 then x else x.srem y)
/-- `zremn` (R135, R334). -/
def execZremn (d a b : BitVec 4) (s : State) : Host.Outcome State Fault Refusal :=
  s.zOp d a b (fun x y => if y = 0 then x else x % y)
/-- `zand` (R334). -/
def execZand (d a b : BitVec 4) (s : State) : Host.Outcome State Fault Refusal := s.zOp d a b (fun x y => x &&& y)
/-- `zor` (R334). -/
def execZor (d a b : BitVec 4) (s : State) : Host.Outcome State Fault Refusal := s.zOp d a b (fun x y => x ||| y)
/-- `zxor` (R334). -/
def execZxor (d a b : BitVec 4) (s : State) : Host.Outcome State Fault Refusal := s.zOp d a b (fun x y => x ^^^ y)
/-- `zshl` (R334): the count is B[5:0]. -/
def execZshl (d a b : BitVec 4) (s : State) : Host.Outcome State Fault Refusal := s.zOp d a b (fun x y => x <<< (y.toNat % 64))
/-- `zshr` (R334). -/
def execZshr (d a b : BitVec 4) (s : State) : Host.Outcome State Fault Refusal := s.zOp d a b (fun x y => x >>> (y.toNat % 64))
/-- `zsra` (R334). -/
def execZsra (d a b : BitVec 4) (s : State) : Host.Outcome State Fault Refusal := s.zOp d a b (fun x y => x.sshiftRight (y.toNat % 64))
/-- `zslt` (R334). -/
def execZslt (d a b : BitVec 4) (s : State) : Host.Outcome State Fault Refusal := s.zOp d a b (fun x y => if x.slt y then 1 else 0)
/-- `zsltn` (R334). -/
def execZsltn (d a b : BitVec 4) (s : State) : Host.Outcome State Fault Refusal := s.zOp d a b (fun x y => if x.ult y then 1 else 0)
/-- `zaddi` (R334). -/
def execZaddi (d a : BitVec 4) (i : BitVec 18) (s : State) : Host.Outcome State Fault Refusal := s.zImm d a i (fun x y => x + y)
/-- `zandi` (R334). -/
def execZandi (d a : BitVec 4) (i : BitVec 18) (s : State) : Host.Outcome State Fault Refusal := s.zImm d a i (fun x y => x &&& y)
/-- `zori` (R334). -/
def execZori (d a : BitVec 4) (i : BitVec 18) (s : State) : Host.Outcome State Fault Refusal := s.zImm d a i (fun x y => x ||| y)
/-- `zxori` (R334). -/
def execZxori (d a : BitVec 4) (i : BitVec 18) (s : State) : Host.Outcome State Fault Refusal := s.zImm d a i (fun x y => x ^^^ y)
/-- `zshli` (R334). -/
def execZshli (d a : BitVec 4) (n : BitVec 6) (s : State) : Host.Outcome State Fault Refusal :=
  s.burrow (fun x => s.zWrite x d (x.reg a <<< n.toNat))
/-- `zshri` (R334). -/
def execZshri (d a : BitVec 4) (n : BitVec 6) (s : State) : Host.Outcome State Fault Refusal :=
  s.burrow (fun x => s.zWrite x d (x.reg a >>> n.toNat))
/-- `zsrai` (R334). -/
def execZsrai (d a : BitVec 4) (n : BitVec 6) (s : State) : Host.Outcome State Fault Refusal :=
  s.burrow (fun x => s.zWrite x d ((x.reg a).sshiftRight n.toNat))
/-- `zhi` (R334). -/
def execZhi (d : BitVec 4) (i : BitVec 22) (s : State) : Host.Outcome State Fault Refusal :=
  s.burrow (fun x => s.zWrite x d (i.signExtend 64 <<< 10))

/-! ## Burrow space (R335, R342, R345) -/

/-- A window: 0 IN, 1 OUT, 2 SCRATCH, with the offset of n bytes that lie in it whole (R342). -/
def Burrow.window (b : Burrow) (ea n : Nat) : Option (Nat × Nat) :=
  if inBase ≤ ea ∧ ea + n ≤ inBase + b.inBytes.length then some (0, ea - inBase)
  else if outBase ≤ ea ∧ ea + n ≤ outBase + b.outSize then some (1, ea - outBase)
  else if scrBase ≤ ea ∧ ea + n ≤ scrBase + scrSize then some (2, ea - scrBase)
  else none

/-- The bytes of a place in burrow space. -/
def Burrow.bytesAt (b : Burrow) (w off n : Nat) : List Byte :=
  match w with
  | 0 => (b.inBytes.drop off).take n
  | 1 => Memory.readN b.out off n
  | _ => Memory.readN b.scr off n

/-- Write bytes at a place in burrow space. -/
def Burrow.putBytes (b : Burrow) (w off : Nat) (bs : List Byte) : Burrow :=
  match w with
  | 0 => b
  | 1 => { b with out := Memory.writeN b.out off bs }
  | _ => { b with scr := Memory.writeN b.scr off bs }

/-- The place of a data access, or the sub-cause of its fault, in R345's order. -/
def Burrow.place (b : Burrow) (ea n : Nat) (store : Bool) : Except Nat (Nat × Nat) :=
  if ea % n ≠ 0 then .error 3
  else match b.window ea n with
    | none => .error 1
    | some (w, off) => if store ∧ (w = 0 ∨ (w = 1 ∧ b.committed = true)) then .error 2 else .ok (w, off)

/-- A load of n bytes (R335). -/
def State.zLoad (s : State) (n : Nat) (d a : BitVec 4) (i : BitVec 18) : Host.Outcome State Fault Refusal :=
  s.burrow (fun b =>
    let ea := (b.reg a + i.signExtend 64).toNat
    match b.place ea n false with
    | .error sub => s.zFault b sub ea
    | .ok (w, off) => s.zWrite b d (wordOf (natOfBytes (b.bytesAt w off n))))

/-- A store of n bytes (R335). -/
def State.zStore (s : State) (n : Nat) (x a : BitVec 4) (i : BitVec 18) : Host.Outcome State Fault Refusal :=
  s.burrow (fun b =>
    let ea := (b.reg a + i.signExtend 64).toNat
    match b.place ea n true with
    | .error sub => s.zFault b sub ea
    | .ok (w, off) => s.zDone (b.putBytes w off (bytesOf n (b.reg x).toNat)) (b.pc + 4))

/-- `zldb` (R335). -/
def execZldb (d a : BitVec 4) (i : BitVec 18) (s : State) : Host.Outcome State Fault Refusal := s.zLoad 1 d a i
/-- `zldh` (R335). -/
def execZldh (d a : BitVec 4) (i : BitVec 18) (s : State) : Host.Outcome State Fault Refusal := s.zLoad 2 d a i
/-- `zldw` (R335). -/
def execZldw (d a : BitVec 4) (i : BitVec 18) (s : State) : Host.Outcome State Fault Refusal := s.zLoad 4 d a i
/-- `zldd` (R335). -/
def execZldd (d a : BitVec 4) (i : BitVec 18) (s : State) : Host.Outcome State Fault Refusal := s.zLoad 8 d a i
/-- `zstb` (R335). -/
def execZstb (x a : BitVec 4) (i : BitVec 18) (s : State) : Host.Outcome State Fault Refusal := s.zStore 1 x a i
/-- `zsth` (R335). -/
def execZsth (x a : BitVec 4) (i : BitVec 18) (s : State) : Host.Outcome State Fault Refusal := s.zStore 2 x a i
/-- `zstw` (R335). -/
def execZstw (x a : BitVec 4) (i : BitVec 18) (s : State) : Host.Outcome State Fault Refusal := s.zStore 4 x a i
/-- `zstd` (R335). -/
def execZstd (x a : BitVec 4) (i : BitVec 18) (s : State) : Host.Outcome State Fault Refusal := s.zStore 8 x a i

/-! ## Transfers (R336) -/

/-- PC + 4 × a signed displacement (R331, R336). -/
def Burrow.target (b : Burrow) (disp : Word) : Nat := (wordOf b.pc + 4 * disp).toNat

/-- A branch (R336). -/
def State.zBranch (s : State) (a b : BitVec 4) (disp : BitVec 18) (f : Word → Word → Bool) : Host.Outcome State Fault Refusal :=
  s.burrow (fun x =>
    let tgt := x.target (disp.signExtend 64)
    if f (x.reg a) (x.reg b) then (if x.inText tgt then s.zDone x tgt else s.zFault x 4 tgt)
    else s.zDone x (x.pc + 4))

/-- `zbeq` (R336). -/
def execZbeq (a b : BitVec 4) (disp : BitVec 18) (s : State) : Host.Outcome State Fault Refusal := s.zBranch a b disp (fun x y => x == y)
/-- `zbne` (R336). -/
def execZbne (a b : BitVec 4) (disp : BitVec 18) (s : State) : Host.Outcome State Fault Refusal := s.zBranch a b disp (fun x y => x != y)
/-- `zblt` (R336). -/
def execZblt (a b : BitVec 4) (disp : BitVec 18) (s : State) : Host.Outcome State Fault Refusal := s.zBranch a b disp (fun x y => x.slt y)
/-- `zbge` (R336). -/
def execZbge (a b : BitVec 4) (disp : BitVec 18) (s : State) : Host.Outcome State Fault Refusal := s.zBranch a b disp (fun x y => !(x.slt y))
/-- `zbltn` (R336). -/
def execZbltn (a b : BitVec 4) (disp : BitVec 18) (s : State) : Host.Outcome State Fault Refusal := s.zBranch a b disp (fun x y => x.ult y)
/-- `zbgen` (R336). -/
def execZbgen (a b : BitVec 4) (disp : BitVec 18) (s : State) : Host.Outcome State Fault Refusal := s.zBranch a b disp (fun x y => !(x.ult y))

/-- A jump that links (R336). -/
def State.zJump (s : State) (b : Burrow) (d : BitVec 4) (tgt : Nat) : State :=
  if b.inText tgt then s.zDone (b.setReg d (wordOf (b.pc + 4))) tgt else s.zFault b 4 tgt

/-- `zjal` (R336). -/
def execZjal (d : BitVec 4) (p : BitVec 22) (s : State) : Host.Outcome State Fault Refusal :=
  s.burrow (fun b => s.zJump b d (b.target (p.signExtend 64)))
/-- `zjalr` (R336): a is read before d is written. -/
def execZjalr (d a : BitVec 4) (i : BitVec 18) (s : State) : Host.Outcome State Fault Refusal :=
  s.burrow (fun b => s.zJump b d (b.reg a + i.signExtend 64).toNat)

/-! ## Services (R353 to R361) -/

/-- A service's error, or a value with what it changed (R353). -/
abbrev Served := Except Nat (Nat × Burrow)

/-- A service answers: z1 takes its result, and an error changes nothing else (R337, R353); after a commit only services 7
and 8 are allowed (R354). -/
def State.service (s : State) (late : Bool) (f : Burrow → Served) : Host.Outcome State Fault Refusal :=
  s.burrow (fun b =>
    match (if b.committed && !late then Except.error 2 else f b) with
    | .ok (v, b1) => s.zDone (b1.setReg 1 (wordOf v)) (b.pc + 4)
    | .error e => s.zDone (b.setReg 1 (0 - wordOf e)) (b.pc + 4))

/-- The first argument of a service. -/
def Burrow.z1 (b : Burrow) : Nat := (b.reg 1).toNat
/-- The second argument. -/
def Burrow.z2 (b : Burrow) : Nat := (b.reg 2).toNat
/-- The third argument. -/
def Burrow.z3 (b : Burrow) : Nat := (b.reg 3).toNat

/-- Service 0 (R354): the burrow address of a record of the NST copy. -/
def Burrow.readRecord (b : Burrow) : Served :=
  match nstFind (b.z1 % 256) (b.z2 % 2 ^ 24) with
  | some i => .ok (inBase + b.dir 0x10 4 + 64 + 16 * i, b)
  | none => .error 4

/-- Service 1 (R355): the first failing condition decides. -/
def Burrow.beginFunction (b : Burrow) : Served :=
  if b.dir 0x24 4 ≤ b.z1 then .error 1
  else if b.begun.any (fun e => e.1 == b.z1) then .error 2
  else if b.openF.isSome then .error 2
  else if b.z2 % 128 ≠ 0 ∨ b.outSize ≤ b.z2 then .error 1
  else if b.ended.any (fun e => decide (b.z2 < e.2.2)) then .error 2
  else .ok (0, { b with begun := b.begun ++ [(b.z1, b.z2)], openF := some (b.z1, b.z2) })

/-- The header of a line of OUT. -/
def Burrow.header (b : Burrow) (off : Nat) : Nat := Memory.num b.out off 8

/-- The header checks of R355 over a function's lines. -/
def Burrow.headersOk (b : Burrow) (lo hi : Nat) : Bool :=
  (List.range ((hi - lo) / 128)).all (fun i =>
    let h := b.header (lo + 128 * i)
    bitsOf h 30 2 == 1 && !(bitOf h 63) && bitOf h 62 == decide (lo + 128 * i + 128 = hi)) &&
  bitOf (b.header lo) 0 && bitOf (b.header lo) 32

/-- Service 2 (R355). -/
def Burrow.endFunction (b : Burrow) : Served :=
  match b.openF with
  | none => .error 2
  | some (f, lo) =>
    if f ≠ b.z1 then .error 2
    else if b.z2 % 128 ≠ 0 ∨ b.z2 ≤ lo ∨ b.outSize < b.z2 then .error 1
    else if b.headersOk lo b.z2 = false then .error 1
    else .ok (0, { b with ended := b.ended ++ [(f, lo, b.z2)], openF := none })

/-- Whether a range lies within one open or ended function (R357, R358). -/
def Burrow.inFunction (b : Burrow) (lo hi : Nat) : Bool :=
  b.ended.any (fun e => decide (e.2.1 ≤ lo) && decide (hi ≤ e.2.2)) ||
    (match b.openF with
      | some (_, o) => decide (o ≤ lo) && decide (hi ≤ b.outSize)
      | none => false)

/-- Service 3 (R357). -/
def Burrow.provenance (b : Burrow) : Served :=
  let level := b.z3 / 2 ^ 60
  let n := b.z3 % 65536
  if b.z1 % 4 ≠ 0 ∨ n = 0 ∨ 4096 < n ∨ b.dir 0x0C 4 ≤ b.z2 ∨ 2 < level ∨ b.inFunction b.z1 (b.z1 + 4 * n) = false then .error 1
  else .ok (0, { b with provs := b.provs ++ [(b.z1, b.z2, level, n)] })

/-- Service 4 (R356). -/
def Burrow.grow (b : Burrow) : Served :=
  if b.z1 = 0 ∨ b.z1 % 65536 ≠ 0 then .error 1
  else if b.heapMax < b.outSize + b.z1 then .error 3
  else .ok (b.outSize + b.z1, { b with outSize := b.outSize + b.z1 })

/-- The container copy in IN (R343). -/
def Burrow.container (b : Burrow) : List Byte := (b.inBytes.drop (b.dir 8 4)).take (b.dir 0x0C 4)

/-- Service 5 (R358): the field of an ABS64 record is 8 bytes wide, any other's one word (R373). -/
def Burrow.relocation (b : Burrow) : Served :=
  let sym := b.z2 / 2 ^ 32
  let type := b.z2 % 256
  let n := if type = 1 then 8 else 4
  if b.z1 % 4 ≠ 0 ∨ b.inFunction b.z1 (b.z1 + n) = false ∨ type = 0 ∨ 8 < type ∨ cnNsym b.container ≤ sym then .error 1
  else .ok (0, { b with relocs := b.relocs ++ [(b.z1, sym, type, b.z3)] })

/-- Service 8 (R361). -/
def Burrow.logBytes (b : Burrow) : Served :=
  if b.z2 = 0 ∨ 256 < b.z2 then .error 1
  else match b.window b.z1 b.z2 with
    | none => .error 1
    | some (w, off) =>
      let room := 65536 - b.log.length
      .ok (0, { b with log := b.log ++ (b.bytesAt w off b.z2).take room, dropped := b.dropped + (b.z2 - room) })

/-! ## Commit (R357, R359, R370, R371) -/

/-- Insert a provenance record after those of no greater offset (R357). -/
def insertProv (p : Nat × Nat × Nat × Nat) : List (Nat × Nat × Nat × Nat) → List (Nat × Nat × Nat × Nat)
  | [] => [p]
  | q :: r => if p.1 < q.1 then p :: q :: r else q :: insertProv p r

/-- The provenance table, sorted by offset, equal offsets in call order (R357). -/
def Burrow.provTable (b : Burrow) : List (List Byte) :=
  (b.provs.foldl (fun l p => insertProv p l) []).map (fun p =>
    bytesOf 8 (p.1 % 2 ^ 32) ++ bytesOf 8 (p.2.2.1 * 2 ^ 60 + p.2.2.2 * 2 ^ 32 + p.2.1 % 2 ^ 32))

/-- Whether a function has ended. -/
def Burrow.endOf (b : Burrow) (f : Nat) : Option (Nat × Nat) := (b.ended.find? (fun e => e.1 == f)).map (fun e => e.2)

/-- The text: the ended functions' lines, and zero lines between them (R359). -/
def Burrow.text (b : Burrow) : List Byte :=
  let hi := b.ended.foldl (fun m e => max m e.2.2) 0
  (List.range (hi / 128)).flatMap (fun i =>
    if b.ended.any (fun e => decide (e.2.1 ≤ 128 * i) && decide (128 * i < e.2.2)) then Memory.readN b.out (128 * i) 128
    else List.replicate 128 0#8)

/-- A container's symbol in the image: a FUNC symbol of an ended function becomes TEXT (R370). -/
def Burrow.symbol (b : Burrow) (s : Sym) : Sym :=
  if s.kind = 5 then
    match b.endOf s.value with
    | some (lo, _) => { s with kind := 1, value := lo + 8 }
    | none => s
  else s

/-- The image a commit publishes (R359, R371). -/
def Burrow.image (b : Burrow) (pref : Nat) : Image :=
  let c := b.container
  let rels := b.relocs.map (fun r => (⟨r.1, 0, r.2.2.1, r.2.1, r.2.2.2⟩ : Rel))
  { pref := pref, text := b.text, const := (c.drop (descNum c 0x18 4)).take (descNum c 0x1C 4)
    data := (c.drop (descNum c 0x20 4)).take (descNum c 0x24 4), dzero := descNum c 0x3C 4
    gotn := (gotPairs rels []).length, entries := (cnEntries c).map (fun f => ((b.endOf f).getD (0, 0)).1 + 8)
    rels := rels, provs := b.provTable, syms := (cnSyms c).map (fun s => b.symbol s)
    names := (c.drop (cnNames c)).take ((cnNamesLen c).getD 0) }

/-- The error a commit's own checks give, or 0 (R359, R370). -/
def Burrow.commitError (b : Burrow) : Nat :=
  let c := b.container
  if b.openF.isSome then 2
  else if (cnEntries c).any (fun f => (b.endOf f).isNone) then 2
  else if b.ended.any (fun e => !(b.headersOk e.2.1 e.2.2)) then 1
  else if b.relocs.any (fun r => match (cnSyms c)[r.2.1]? with
      | some s => s.kind == 5 && (b.endOf s.value).isNone
      | none => false) then 1
  else 0

/-- Evict the least recently loaded entries until an image fits (R363). -/
def evict (cap n : Nat) : List (BitVec 256 × List Byte) → List (BitVec 256 × List Byte)
  | [] => []
  | e :: r => if (e :: r).foldl (fun m x => m + x.2.length) 0 + n ≤ cap then e :: r else evict cap n r

/-- Publish an image: the cache takes it, and the world's log the run's key and the image's measurement, in the order of
commit (R359, R363, R423; log 74). -/
def State.publish (s : State) (w : Nat) (key : BitVec 256) (img : List Byte) : State :=
  let x := s.world w
  s.putWorld w { x with
    tcache := evict (x.tccap * 2 ^ 20) img.length (x.tcache.filter (fun e => e.1 != key)) ++ [(key, img)]
    attest := x.attest ++ [measure (bytesOf 32 key.toNat), measure img] }

/-- Service 6 (R359). -/
def State.commitRun (s : State) (b : Burrow) : State :=
  let x := s.world b.world
  let img := (b.image x.pref).bytes
  let fail (e : Nat) : State := s.zDone (b.setReg 1 (0 - wordOf e)) (b.pc + 4)
  if b.committed then fail 2
  else if b.commitError ≠ 0 then fail b.commitError
  else if x.tccap * 2 ^ 20 < img.length then fail 3
  else (s.publish b.world b.key img).zDone ({ b with committed := true, published := img }.setReg 1 0) (b.pc + 4)

/-- Service 0 (R354). -/
def execZsvcReadNstRecord (s : State) : Host.Outcome State Fault Refusal := s.service false Burrow.readRecord
/-- Service 1 (R355). -/
def execZsvcFunctionBegin (s : State) : Host.Outcome State Fault Refusal := s.service false Burrow.beginFunction
/-- Service 2 (R355). -/
def execZsvcFunctionEnd (s : State) : Host.Outcome State Fault Refusal := s.service false Burrow.endFunction
/-- Service 3 (R357). -/
def execZsvcProvenanceRecord (s : State) : Host.Outcome State Fault Refusal := s.service false Burrow.provenance
/-- Service 4 (R356). -/
def execZsvcGrowHeap (s : State) : Host.Outcome State Fault Refusal := s.service false Burrow.grow
/-- Service 5 (R358). -/
def execZsvcRelocationRecord (s : State) : Host.Outcome State Fault Refusal := s.service false Burrow.relocation
/-- Service 6 (R359). -/
def execZsvcCommit (s : State) : Host.Outcome State Fault Refusal := s.burrow (fun b => s.commitRun b)
/-- Service 7 (R347, R354): it completes and ends the run with the code in bits 31:0. -/
def execZsvcFail (s : State) : Host.Outcome State Fault Refusal :=
  s.burrow (fun b => s.endRun { b with meter := b.meter + 1 } 0 0 0 (b.z1 % 2 ^ 32))
/-- Service 8 (R361). -/
def execZsvcLog (s : State) : Host.Outcome State Fault Refusal := s.service true Burrow.logBytes
/-- `zhalt` (R337, R346, R347). -/
def execZhalt (s : State) : Host.Outcome State Fault Refusal :=
  s.burrow (fun b => s.endRun { b with meter := b.meter + 1 } 0 0 0 0)

/-- METER_OUT (R346): the next instruction of an exhausted run ends it. -/
def execMeterOut (core slot : Nat) (s : State) : Host.Outcome State Fault Refusal :=
  let s1 := s.actAs core slot
  s1.burrow (fun b => if b.budget ≤ b.meter then s1.endRun b 0x0F 0 0 0 else s)

/-! ## Translation requests (R340 to R344, R346, R362, R363, R369) -/

/-- The cache key of a request (R362). -/
def translationKey (x : World) (b : List Byte) : BitVec 256 :=
  let tr := cnTranslator b
  let c := cnCopy b
  BitVec.ofNat 256 (natOfBytes (shake256
    (bytesOf 8 tr.length ++ tr ++ bytesOf 8 c.length ++ c ++ nstDigest ++ bytesOf 64 x.policy.toNat) 32))

/-- IN of a run (R343): directory, text, container copy, NST copy. -/
def inImage (x : World) (b : List Byte) : List Byte :=
  let text := (cnTranslator b).drop 16
  let coff := align8 (64 + text.length)
  let c := cnCopy b
  let noff := ceilDiv (coff + c.length) 16 * 16
  let budget := min (descNum b (cnTroff b) 8) x.mcap
  bytesOf 8 (text.length * 2 ^ 32 + 64) ++ bytesOf 8 (c.length * 2 ^ 32 + coff) ++
  bytesOf 8 (nstSection.length * 2 ^ 32 + noff) ++ bytesOf 8 (descNum b (cnTroff b + 8) 4) ++
  bytesOf 8 (cnNfunc b * 2 ^ 32 + cnLevels b) ++ bytesOf 8 budget ++ bytesOf 8 x.heapx ++ List.replicate 8 0#8 ++
  pad8 text ++ c ++ List.replicate (noff - (coff + c.length)) 0#8 ++ nstSection

/-- A burrow at launch (R341 to R344). -/
def launchBurrow (x : World) (w g : Nat) (key : BitVec 256) (b : List Byte) : Burrow :=
  let size := min x.heapi x.heapx
  let budget := min (descNum b (cnTroff b) 8) x.mcap
  { Burrow.reset with
    active := true, world := w, gang := g, z := [(1, wordOf inBase), (2, wordOf size), (3, wordOf budget)]
    pc := inBase + 64 + descNum b (cnTroff b + 8) 4, inBytes := inImage x b, outSize := size, budget := budget
    heapMax := x.heapx, key := key }

/-- The first free core that is not held for a guarded launch, if the world may hold one more (R340, R391, R412). -/
def State.burrowCore (s : State) (w : Nat) : Option Nat :=
  if (s.world w).cquota ≤ s.coresHeld w then none
  else (List.range s.coreList.length).find? (fun c => s.coreFree c && !(s.guardHolds c) && s.enabled 2 (s.physCore c) && s.enabled 1 (s.physCore c / 8))

/-- Memory that the runs in flight have reserved: OUT and SCRATCH of each (R341). -/
def State.reserved (s : State) : Nat := s.burrows.foldl (fun m e => if e.2.active then m + e.2.heapMax + 2 ^ 24 else m) 0

/-- Whether a world can hold the reservations of one more run (R341). The spec gives a world no memory quota: the bound is
what the part's channels back, less what runs in flight have reserved (log 37). -/
def State.canReserve (s : State) (w : Nat) : Bool := decide (s.reserved + (s.world w).heapx + 2 ^ 24 ≤ s.physTop)

/-- Start a run on a core: a translation gang of one slot in burrow mode (R340, R414). -/
def State.startRun (s : State) (w c : Nat) (key : BitVec 256) (b : List Byte) : State :=
  let x := s.world w
  let g := s.nextId
  let s1 := if (s.core c).world = w then s else s.scrub c w
  let s2 := s1.modCore c (fun k => { k with
    gang := some g, slots := [(0, { Slot.reset with burrow := true, nextAt := max s1.cycle k.scrubUntil })] })
  let s3 := s2.putGang g { Gang.reset with phase := 1, world := w, cores := [c], home := [c], translation := true }
  { s3 with
    nextId := g + 1, burrows := AMap.put s3.burrows (16 * c) (launchBurrow x w g key b) }

/-- Whether a run with a key is in flight in a world (R363). -/
def State.runInFlight (s : State) (w : Nat) (key : BitVec 256) : Bool :=
  s.burrows.any (fun e => e.2.active && e.2.world == w && e.2.key == key)

/-- Make a cached image the most recently loaded (R363). -/
def World.useImage (x : World) (key : BitVec 256) : World :=
  { x with tcache := x.tcache.filter (fun e => e.1 != key) ++ x.tcache.filter (fun e => e.1 == key) }

/-- TRANSLATION_REQUEST (R341, R363, R369): a request that finds no free core waits for one. -/
def execTranslationRequest (w : Nat) (container : List Byte) (s : State) : Host.Outcome State Fault Refusal :=
  let x := s.world w
  if x.used = false ∨ x.dying = true then .next (s.report (.rejected w 0))
  else if containerField container ≠ 0 then .next (s.report (.rejected w (containerField container)))
  else
    let key := translationKey x container
    match x.tcache.find? (fun e => e.1 == key) with
    | some e => .next ((s.putWorld w (x.useImage key)).report (.image w e.2))
    | none =>
      let wait : State := s.putWorld w { x with waiting := x.waiting ++ [(key, container)] }
      if s.runInFlight w key then .next wait
      else if s.canReserve w = false then .next (s.report (.rejected w 0))
      else match s.burrowCore w with
        | some c => .next (s.startRun w c key container)
        | none => .next wait

end Sys2Proof.Machine
end

