-- ==== Sys2Proof/Machine/Units.lean ====
section
/-! DEFINITION. Units and power: idle rotations and the cap (R17, R431), a unit that fails (R20 to R22, R114), the
settlement of the memory it held (R23), the scrubbers and the coalesced journal entries (R424 to R427). -/

namespace Sys2Proof.Machine

/-! ## Power (R17, R431) -/

/-- POWER_CAP_SET (R431). -/
def execPowerCapSet (watts : Nat) (s : State) : Host.Outcome State Fault Refusal := .next { s with cap := watts }

/-- CAP_MEASUREMENT (R431): the controller sets how many of 16 rotations are idle; the spec gives no law for it. The next
measurement is due 10 µs later. -/
def execCapMeasurement (watts : Nat) (s : State) : Host.Outcome State Fault Refusal :=
  .next { s with share := Config.idleShare watts s.cap % 16, capDue := s.time / 2000 + 10 }

/-- THERMAL_ALARM (R431). -/
def execThermalAlarm (s : State) : Host.Outcome State Fault Refusal := .next { s with alarm := true }

/-- THERMAL_ALARM_CLEAR (R431). -/
def execThermalAlarmClear (s : State) : Host.Outcome State Fault Refusal := .next { s with alarm := false }

/-- Idle rotations in every 16 (R17, R431). -/
def State.idleNow (s : State) : Nat := if s.alarm then 15 else s.share

/-- IDLE_ROTATION (R17): a rotation of time passes, and every counted unit stays where it is. -/
def execIdleRotation (s : State) : Host.Outcome State Fault Refusal :=
  if s.cycle % 16 = 0 then .next { s with time := s.time + 16, idle := (s.idle + 1) % 16 } else .next s

/-! ## Failing units (R20 to R22, R114) -/

/-- Key of a unit's record. -/
def UnitRef.number (u : UnitRef) : Nat := u.kind * 65536 + u.phys

/-- A unit and what is mapped out with it: an LLC slice and its HBM channel go together, and so do the two ends of a
die-to-die link, which lie on dies side by side for port stops 8 and up and one above the other below (R11, R21, R25). -/
def pairedUnits (u : UnitRef) : List UnitRef :=
  if u.kind = 4 ∨ u.kind = 5 then [⟨4, u.phys⟩, ⟨5, u.phys⟩]
  else if u.kind = 8 then [u, ⟨8, 16 * ((u.phys / 16) ^^^ (if u.phys % 16 < 8 then 2 else 1)) + u.phys % 16⟩]
  else [u]

/-- Map units out with a state and a journal index (R22, R25). -/
def State.mapOut (s : State) (st j : Nat) (us : List UnitRef) : State :=
  { s with units := us.foldl (fun m u => AMap.put m (UnitRef.number u) ⟨st, j⟩) s.units }

/-- Whether a core is, or lies in, a failed unit. -/
def State.coreIn (s : State) (u : UnitRef) (c : Nat) : Bool :=
  (u.kind == 1 && s.physCore c / 8 == u.phys) || (u.kind == 2 && s.physCore c == u.phys)

/-- The gangs placed on a failed sett or core fail (R114). -/
def State.failOn (s : State) (u : UnitRef) (j : Nat) : State :=
  s.gangs.foldl (fun s e =>
    if e.2.phase = 2 ∨ e.2.phase = 3 then s
    else match e.2.cores.find? (fun c => s.coreIn u c) with
      | some c => s.failGang e.1 ⟨e.2.rankOn c, 0x20, j⟩
      | none => s) s

/-- Lanes of a port that are enabled: UALink ports are 0 to 15, Ultra Ethernet ports 16 to 23 (R25, R429; log 15). -/
def State.lanesOn (s : State) (port : Nat) : Nat :=
  let k := if port < 16 then 6 else 7
  ((List.range 4).filter (fun i => s.enabled k (4 * (port % 16) + i))).length

/-- Whether a port is mapped out (R21). -/
def State.portOut (s : State) (port : Nat) : Bool := if port < 16 then decide (s.lanesOn port < 2) else s.lanesOn port != 4

/-- UNIT_FAILURE (R22): journalled and mapped out for the rest of the boot; its gangs fail, and a memory unit is to be
settled. A port that loses its last needed lane goes down. -/
def execUnitFailure (u : UnitRef) (s : State) : Host.Outcome State Fault Refusal :=
  if s.enabled u.kind u.phys then
    let (s1, j) := s.journalEvent u.kind u.phys 4 0 0
    let s2 := (s1.mapOut 2 j (pairedUnits u)).failOn u j
    let s3 := if u.kind = 3 then { s2 with settling := s2.settling ++ [u] }
      else if u.kind = 4 ∨ u.kind = 5 then { s2 with settling := s2.settling ++ [⟨5, u.phys⟩] } else s2
    let p := u.phys / 4 + (if u.kind = 7 then 16 else 0)
    .next (if (u.kind = 6 ∨ u.kind = 7) ∧ s3.portOut p = true
      then { s3 with links := AMap.put s3.links p { s3.link p with down := true } } else s3)
  else .next s

/-! ## Settlement (R23) -/

/-- The larger of a bound and the values of a list. -/
def maxOver {α : Type} (f : α → Nat) (l : List α) (b : Nat) : Nat := l.foldl (fun m x => max m (f x)) b

/-- The highest timestamp the package holds. -/
def State.topStamp (s : State) : Nat :=
  maxOver (fun e : Nat × Core => max (max e.2.hts (s.ptsTicks + e.2.ptsOff)) (maxOver (fun l : Nat × L1Line => l.2.rts) e.2.l1 0)) s.cores
    (maxOver (fun e : Nat × HomeLine => max e.2.wts e.2.rts) s.home
      (maxOver (fun e : Nat × Nat => e.2) s.l2hts (maxOver (fun e : Nat × Nat => e.2) s.llchts
        (maxOver (fun e : Nat × Nat => e.2) s.homeFloor (max s.feStamp s.ptsTicks)))))

/-- L1 copies of the lines a slice homed are written back and dropped on every core (R23). -/
def State.dropCopies (s : State) (p : Nat) : State :=
  { s with
    cores := s.cores.map (fun e => (e.1, { e.2 with l1 := e.2.l1.filter (fun l => s.sliceOf l.2.pa != p) }))
    home := s.home.map (fun e => (e.1, if s.sliceOf (32 * e.1) = p then { e.2 with owner := none } else e.2)) }

/-- A dirty line that cannot be read any more is poisoned at the LLC and journalled (R23, R425). The entry names the failed
L2 slice, whose storage held the line (R426; log 32). -/
def State.loseLine (s : State) (line : Nat) : State :=
  let pa := 32 * line
  let s1 := (s.journalEvent 3 (s.sliceOf pa) 2 pa 0).1
  { s1 with poison := s1.poison.filter (fun w => w / 4 != line) ++ (List.range 4).map (fun i => 4 * line + i) }

/-- The lines a slice holds dirty. Of a line that a core owns the newest bytes lie in its L1, from where they are written
back (R23, R71). -/
def State.dirtyLines (s : State) (p : Nat) : List Nat :=
  (((s.l2.filter (fun e => e.1 / 8192 == p)).flatMap (fun e => e.2)).filter (fun x =>
    x.dirty && (s.homeLine (32 * x.line)).owner.isNone)).map (fun x => x.line) |>.eraseDups

/-- Dirty lines of a failed slice that cannot be read any more are lost (R23); which they are, the spec does not say. -/
def State.loseLines (s : State) (p : Nat) : State :=
  let n := s.freeCount
  ((s.dirtyLines p).filter (fun x => Config.lineLost n x)).foldl (fun s x => s.loseLine x) { s with freeCount := n + 1 }

/-- The home-table entries that name a slice, in increasing index, and the slices that take them round-robin (R23). -/
def State.rehomes (s : State) (p : Nat) : List (Nat × Nat) :=
  let idx := (List.range 4096).filter (fun i => s.homeEntry i == p)
  let l := s.bootSlices.filter (fun q => s.enabled 3 q)
  (idx.zip (List.range idx.length)).map (fun e => (e.1, l[e.2 % max 1 l.length]?.getD 0))

/-- Reassign the home-table entries of a slice; each re-homed line starts at the highest stamp h (R23). -/
def State.rehome (s : State) (p h : Nat) : State :=
  let moved := s.rehomes p
  let inIt (e : Nat × HomeLine) : Nat × HomeLine :=
    if moved.any (fun m => m.1 == homeIndex (32 * e.1)) then (e.1, { e.2 with wts := h, rts := h, owner := none }) else e
  { s with
    homeTab := moved.foldl (fun m e => AMap.put m e.1 e.2) s.homeTab
    homeFloor := moved.foldl (fun m e => AMap.put m e.1 h) s.homeFloor
    home := s.home.map inIt }

/-- pts := max(pts, h) on every core (R23). -/
def State.liftAll (s : State) (h : Nat) : State :=
  let t := max s.ptsTicks h
  { s with
    ptsTicks := t
    cores := s.cores.map (fun (e : Nat × Core) => (e.1, { e.2 with ptsOff := s.ptsTicks + e.2.ptsOff - t })) }

/-- Update-log records held on chip in a slice are lost, and their logs marked (R23, R93). -/
def World.loseRecords (x : World) (p : Nat) : World :=
  let gone := x.ulogs.filter (fun r => r.slice == p && !r.spilled)
  { x with
    ulogs := x.ulogs.filter (fun r => !(r.slice == p && !r.spilled))
    lost := (x.lost ++ gone.map (fun r => r.log)).eraseDups }

/-- The lines a failed L2 slice held go to the LLC, and the slice holds none (R23). -/
def State.emptySlice (s : State) (p : Nat) : State :=
  let held := (s.l2.filter (fun e => e.1 / 8192 == p)).flatMap (fun e => e.2)
  let s1 := held.foldl (fun s x => s.fillLlc x.world (32 * x.line)) s
  { s1 with l2 := s1.l2.filter (fun e => e.1 / 8192 != p) }

/-- The settlement of an L2 slice (R23). -/
def State.settleSlice (s : State) (p : Nat) : State :=
  let h := s.topStamp
  let s1 := ((s.loseLines p).dropCopies p).emptySlice p
  let s2 := { s1 with worlds := s1.worlds.map (fun (e : Nat × World) => (e.1, e.2.loseRecords p)) }
  (s2.rehome p h).liftAll h

/-- The leaves of a third-level table: entry address, entry, virtual page, and that the page is small. -/
def State.leaves3 (s : State) (w t va : Nat) : List (Nat × Nat × Nat × Bool) :=
  (List.range 8192).filterMap (fun k =>
    let a := t + 8 * k
    let p := s.pteAt a
    if bitOf p 0 && !(pteReserved p) && bitOf p 4 && s.leafOk w p false then some (a, p, va + 65536 * k, false) else none)

/-- The leaves below a second-level table. -/
def State.leaves2 (s : State) (w t va : Nat) : List (Nat × Nat × Nat × Bool) :=
  (List.range 8192).flatMap (fun j =>
    let a := t + 8 * j
    let p := s.pteAt a
    if !(bitOf p 0) || pteReserved p then []
    else if bitOf p 4 then (if s.leafOk w p true then [(a, p, va + 2 ^ 29 * j, true)] else [])
    else if nonLeafOk p then s.leaves3 w (pteFrame p) (va + 2 ^ 29 * j) else [])

/-- Every leaf of a world's tables (R117 to R119). -/
def State.leaves (s : State) (w : Nat) : List (Nat × Nat × Nat × Bool) :=
  (List.range 15360).flatMap (fun i =>
    let p := s.pteAt ((s.world w).root + 8 * i)
    if bitOf p 0 && !(pteReserved p) && !(bitOf p 4) && nonLeafOk p then s.leaves2 w (pteFrame p) (2 ^ 42 * i) else [])

/-- Bytes of a page. -/
def pageSize (big : Bool) : Nat := if big then 2 ^ 29 else 65536

/-- Invalidate a page of a world: V is cleared and the translation dropped by a shootdown (R121, R379). -/
def State.unmap (s : State) (w : Nat) (l : Nat × Nat × Nat × Bool) : State :=
  let s1 := s.memPut l.1 (bytesOf 8 (insertBits l.2.1 0 1 0))
  { s1 with nextId := s1.nextId + 1, shoots := s1.shoots ++ [⟨s1.nextId, w, l.2.2.1, pageSize l.2.2.2, l.2.2.2, none⟩] }

/-- The pages of a world whose frames a channel backed are lost: the world is told, and they are invalidated (R23). -/
def State.losePages (s : State) (w p : Nat) : State :=
  ((s.leaves w).filter (fun l => (pteMt l.2.1 == 0 || pteMt l.2.1 == 2) && s.llcOf (pteFrame l.2.1) == p)).foldl
    (fun s l => (s.report (.pageLost w l.2.2.1)).unmap w l) s

/-- No slice holds a line that a lost channel backed. -/
def State.emptyChannel (s : State) (p : Nat) : State :=
  { s with
    llc := s.llc.filter (fun e => e.1 != p)
    l2 := (s.l2.map (fun (e : Nat × List CacheLine) => (e.1, e.2.filter (fun x => s.llcOf (32 * x.line) != p)))).filter (fun e => !e.2.isEmpty) }

/-- The settlement of an HBM channel (R23). -/
def State.settleChannel (s : State) (p : Nat) : State :=
  let s := s.emptyChannel p
  ((s.worlds.filter (fun e => e.2.used)).map (fun e => e.1)).foldl (fun s w => s.losePages w p) s

/-- Threads that were parked for a settlement reissue (R23, R37). -/
def State.wakeSettled (s : State) : State :=
  { s with cores := s.cores.map (fun e => (e.1, { e.2 with
      tasks := e.2.tasks.map (fun t => (t.1, if t.2.park = .settle then { t.2 with park := .run } else t.2))
      slots := e.2.slots.map (fun x => (x.1, match x.2.ws with
        | some w => if (e.2.task w).park = .settle then { x.2 with nextAt := s.cycle + 16 } else x.2
        | none => x.2)) })) }

/-- Whether an engine's waiting address has a translation again. -/
def State.mapped (s : State) (w a : Nat) : Bool :=
  match s.walk w a with
  | .leaf _ _ => true
  | _ => false

/-- What an engine waits for, unless its page has a translation: then the access is tried again. -/
def State.still (s : State) (w : Nat) (f : Option Nat) : Option Nat :=
  match f with
  | some a => if s.mapped w a then none else some a
  | none => none

/-- A declaration that waited is tried again once its page has a translation. -/
def State.retryDecl (s : State) (w : Nat) (p : Park) : Park :=
  match p with
  | .bdDecl t due f fab ask => .bdDecl t due (s.still w f) fab ask
  | p => p

/-- Engine accesses that waited for a settlement are tried again (R23). -/
def State.retryEngines (s : State) : State :=
  { s with
    cores := s.cores.map (fun e => (e.1, { e.2 with
      mq := e.2.mq.map (fun m => { m with fault := s.still m.world m.fault })
      tasks := e.2.tasks.map (fun t => (t.1, { t.2 with park := s.retryDecl e.2.world t.2.park })) }))
    setts := s.setts.map (fun e => (e.1, { e.2 with places := e.2.places.map (fun p => (p.1, { p.2 with fault := s.still p.2.cmd.world p.2.fault })) }))
    gangs := s.gangs.map (fun e => (e.1, { e.2 with colls := e.2.colls.map (fun x => { x with fault := s.still e.2.world x.fault }) }))
    queues := s.queues.map (fun e => (e.1, { e.2 with window := e.2.window.map (fun y => { y with copy := y.copy.map (fun r => { r with fault := s.still r.cmd.world r.fault }) }) })) }

/-- SETTLEMENT_COMPLETE (R23). -/
def execSettlementComplete (u : UnitRef) (s : State) : Host.Outcome State Fault Refusal :=
  if s.settling.contains u then
    let s1 := if u.kind = 3 then s.settleSlice u.phys else s.settleChannel u.phys
    .next ({ s1 with settling := s1.settling.filter (fun x => x != u) }.wakeSettled.retryEngines)
  else .next s

/-! ## Scrubbers and the journal (R424 to R427) -/

/-- JOURNAL_COALESCE_FLUSH (R427): the entry of a second that has ended is written. -/
def execJournalCoalesceFlush (u : UnitRef) (addr : Nat) (s : State) : Host.Outcome State Fault Refusal :=
  match s.coalesce.find? (fun e => e.kind == u.kind && e.phys == u.phys && e.addr == addr) with
  | none => .next s
  | some e => if s.secondOver e then .next (s.flushEntry e) else .next s

/-- The poisoned words of a core's L1 copies, each once (R424, R425). -/
def Core.copyErrors (k : Core) : List Nat := (k.l1.flatMap (fun e => e.2.bad)).eraseDups

/-- SRAM_SCRUB (R424, R425): corrected words are journalled as such, poisoned ones of the scratchpad and of L1 as unconsumed. The
core is scanned again 10 ms later. -/
def execSramScrub (core : Nat) (fixed : List Nat) (s : State) : Host.Outcome State Fault Refusal :=
  let k := s.core core
  let p := s.physCore core
  let s1 := fixed.foldl (fun s a => s.journalCorrected 2 p a k.world) s
  .next (((k.spoison ++ k.copyErrors).foldl (fun s w => (s.journalEvent 2 p 2 (8 * w) k.world).1) s1).modCore core (fun k =>
    { k with scanDue := s.micros + 10000 }))

/-- The poisoned words that the slices and channels hold: of a line that a core owns, its L1 holds the newest data (R71,
R424). -/
def State.sharedErrors (s : State) : List Nat :=
  s.poison.filter (fun w => !(s.cores.any (fun e => e.2.l1.any (fun x => x.2.owned && x.2.bad.contains w))))

/-- MEMORY_SCRUB (R424, R425): the unit named is the one that holds the word (R426; log 19), and the world is 0 (log 62).
Memory is scanned again 24 h later. -/
def execMemoryScrub (fixed : List Nat) (s : State) : Host.Outcome State Fault Refusal :=
  let s1 := fixed.foldl (fun s a => s.journalCorrected (s.holderOf a).kind (s.holderOf a).phys a 0) s
  .next { s.sharedErrors.foldl (fun s w => (s.journalEvent (s.holderOf (8 * w)).kind (s.holderOf (8 * w)).phys 2 (8 * w) 0).1) s1 with
    memScanDue := s.micros + 86400000000 }

end Sys2Proof.Machine
end

