-- ==== Sys2Proof/Machine/Platform.lean ====
section
/-! DEFINITION. The platform: worlds made and destroyed (R410 to R415), the windows and exports the resident service
writes (R143, R416, R417), residency reports (R407), quotes and the journal's reading (R423, R428), configuration records
and boot (R18 to R26, R430). -/

namespace Sys2Proof.Machine

/-! ## Creation of worlds (R410, R412, R413) -/

/-- Whether a policy record keeps its reserved fields and limits (R412). One that does not makes no world: the spec states no
other fate (log 31). -/
def policyOk (p : BitVec 512) : Bool :=
  let n := p.toNat
  let lease := bitsOf n 192 7
  let nq := bitsOf n 200 7
  bitsOf n 199 1 == 0 && bitsOf n 207 17 == 0 && bitsOf n 324 60 == 0 && bitsOf n 384 128 == 0 && decide (1 ≤ lease) &&
    decide (lease ≤ 64) && decide (1 ≤ nq) && decide (nq ≤ 64) && decide (bitsOf n 320 4 ≤ 8)

/-- L2 ways all worlds reserve (R413). -/
def State.waysHeld (s : State) : Nat := s.worlds.foldl (fun m e => if e.2.used then m + e.2.l2w else m) 0

/-- L2 ways that no world has reserved, of every slice alike (R413). -/
def State.freeWays (s : State) : List Nat :=
  (List.range 16).filter (fun n => s.worlds.all (fun e => !(e.2.used && e.2.ways.contains n)))

/-- The lowest free tenant identifier (R410). -/
def State.freeWorld (s : State) : Option Nat := ((List.range 4095).map (fun i => i + 1)).find? (fun w => !(s.world w).used)

/-- L2 slices that are enabled (R94). -/
def State.slicesOn (s : State) : Nat := ((List.range 384).filter (fun p => s.enabled 3 p)).length

/-- The resident service lays a record out for a world's threads to read (R143, R412): where, comes with the event, for the spec
gives no place (log 35). They read it by their loads, through a page that maps it. -/
def State.showAt (s : State) (place : Option Nat) (bs : List Byte) : State :=
  match place with
  | some pa =>
    if pa % 64 = 0 ∧ pa + bs.length ≤ s.physTop then
      ((List.range (ceilDiv bs.length 32)).foldl (fun s i => s.homeWrite (pa + 32 * i) s.feStamp) s).memPut pa bs
    else s
  | none => s

/-- A world's policy record as its threads read it (R412). -/
def World.policyBytes (x : World) : List Byte := bytesOf 64 x.policy.toNat

/-- WORLD_CREATE (R410, R412, R413): the firmware core admits the world or refuses it. -/
def execWorldCreate (b : WorldSpec) (s : State) : Host.Outcome State Fault Refusal :=
  match s.freeWorld with
  | none => .next (s.report .refusedWorld)
  | some w =>
    let y : World := { World.reset with used := true, policy := b.policy, root := b.root, m0 := s.slicesOn }
    let x := { y with ways := s.freeWays.take y.l2w }
    if s.booted ∧ policyOk b.policy = true ∧ s.waysHeld + x.l2w ≤ 12 then .next (((s.putWorld w x).showAt b.shown x.policyBytes).report (.worldMade w))
    else .next (s.report .refusedWorld)

/-! ## Destruction of worlds (R415) -/

/-- Whether a note to the front end is for a queue of a world. -/
def State.noteFor (s : State) (w : Nat) (i : Instr) : Bool :=
  match i with
  | .packetComplete q _ _ => (s.queue q).world == w
  | .stageQueueObserve q _ => (s.queue q).world == w
  | _ => false

/-- Run a note to the front end. -/
def State.runNote (s : State) (i : Instr) : State :=
  match i with
  | .packetComplete q k r => s.after (execPacketComplete q k r s)
  | .stageQueueObserve q k => s.after (execStageQueueObserve q k s)
  | _ => s

/-- What the ended gangs of a world tell their queues (R386). -/
def State.runNotes (s : State) (w : Nat) : State :=
  (s.inbox.filter (s.noteFor w)).foldl (fun s i => s.runNote i) { s with inbox := s.inbox.filter (fun i => !(s.noteFor w i)) }

/-- Step 1 of R415: queues HALTED, gangs ended with cause 0x21. -/
def State.endWorld (s : State) (w : Nat) : State :=
  let qs := (s.queues.filter (fun e => e.2.made && e.2.world == w && e.2.state != 3)).map (fun e => e.1)
  let s1 := qs.foldl (fun s q => s.stopQueue q 3 0 0) s
  let gs := (s1.gangs.filter (fun e => e.2.world == w)).map (fun e => e.1)
  (gs.foldl (fun s g => s.endGang g ⟨1, 0x21, 0, 0⟩) s1).runNotes w

/-- The world an export serves (R417). -/
def exWorld (d : BitVec 256) : Nat := bitsOf d.toNat 36 12

/-- A key slot that a revocation reaches (R421). -/
def KeySlot.revoke (k : KeySlot) : KeySlot := if k.state = 1 then { k with state := 2 } else k

/-- Step 2 of R415: exports and fabric windows closed, key slots revoked. -/
def State.closeWorld (s : State) (w : Nat) : State :=
  let s1 := { s with
    exports := s.exports.filter (fun e => exWorld e.2 != w)
    keys := s.keys.map (fun (e : Nat × KeySlot) => (e.1, if e.2.world = w then e.2.revoke else e.2)) }
  s1.putWorld w { s1.world w with fwins := [], dying := true, waiting := [] }

/-- A physical range a leaf maps, if it is ordinary memory. -/
def leafFrame (l : Nat × Nat × Nat × Bool) : Option (Nat × Nat) :=
  if pteMt l.2.1 = 0 ∨ pteMt l.2.1 = 2 then some (pteFrame l.2.1, pageSize l.2.2.2) else none

/-- The frames of a world that no other world maps (R415; log 63). -/
def State.ownFrames (s : State) (w : Nat) : List (Nat × Nat) :=
  let others := (s.worlds.filter (fun e => e.2.used && e.1 != w)).flatMap (fun e => (s.leaves e.1).filterMap leafFrame)
  ((s.leaves w).filterMap leafFrame).filter (fun f => !(others.any (fun g => overlaps f.1 f.2 g.1 g.2)))

/-- Zero frames that are freed (R415 step 5). -/
def State.zeroFrames (s : State) (fs : List (Nat × Nat)) : State :=
  let hit (a n : Nat) : Bool := fs.any (fun f => overlaps a n f.1 f.2)
  { s with mem := s.mem.filter (fun e => !(hit e.1 1)), poison := s.poison.filter (fun w => !(hit (8 * w) 8)) }

/-- Step 3 of R415: a core of the world is scrubbed, and nothing of the world waits at it. -/
def State.releaseCore (s : State) (c : Nat) : State :=
  (s.scrub c 0).modCore c (fun k => { k with feWait := [], sendWait := [], clWait := [] })

/-- Step 4 of R415: translations of the world are dropped everywhere. -/
def State.dropTlbs (s : State) (w : Nat) : State :=
  { s with
    cores := s.cores.map (fun (e : Nat × Core) => (e.1, { e.2 with tlb := e.2.tlb.filter (fun t => t.world != w) }))
    setts := s.setts.map (fun (e : Nat × Sett) => (e.1, { e.2 with tlb := e.2.tlb.filter (fun t => t.world != w) }))
    inflight := s.inflight.filter (fun r => r.world != w)
    unsettled := s.unsettled.filter (fun u => u.world != w) }

/-- Step 3 of R415 begins: the world's cores are scrubbed; the destruction goes on when the last scrub is over. -/
def State.scrubWorld (s : State) (w : Nat) : State :=
  let cs := (s.cores.filter (fun e => e.2.world == w)).map (fun e => e.1)
  let s1 := cs.foldl (fun s c => s.releaseCore c) s
  s1.putWorld w { s1.world w with ends := some (maxOver (fun c => (s1.core c).scrubUntil) cs s1.cycle) }

/-- Steps 4 and 5 of R415; the identifier is free again (R410). -/
def State.finishWorld (s : State) (w : Nat) : State :=
  let s1 := (s.dropTlbs w).dropCached (fun x => x.world == w)
  let s2 := s1.zeroFrames (s1.ownFrames w)
  { s2 with
    queues := s2.queues.filter (fun e => e.2.world != w)
    fmtWins := s2.fmtWins.filter (fun e => fwWorld e.2 != w)
    spoils := s2.spoils.filter (fun x => x.world != w)
    shoots := s2.shoots.filter (fun x => x.world != w || x.origin.isSome)
    worlds := AMap.del s2.worlds w }

/-- Whether a world's revocations are all complete (R415, R421). -/
def State.keysClear (s : State) (w : Nat) : Bool := !(s.keys.any (fun e => e.2.world == w && e.2.state == 2))

/-- Go on with a destruction: once the key slots are EMPTY the scrubs begin, and once they are over the rest follows. -/
def State.destroyOn (s : State) (w : Nat) : State :=
  if (s.world w).dying ∧ s.keysClear w = true then match (s.world w).ends with
    | none => s.scrubWorld w
    | some t => if t ≤ s.cycle then s.finishWorld w else s
  else s

/-- WORLD_DESTROY (R415): the first one begins the destruction; while it runs, the event stands for its next step. -/
def execWorldDestroy (w : Nat) (s : State) : Host.Outcome State Fault Refusal :=
  if w ≠ 0 ∧ (s.world w).used = true ∧ (s.world w).dying = false then .next (((s.endWorld w).closeWorld w).destroyOn w)
  else .next (s.destroyOn w)

/-! ## Windows, exports and residency (R143, R407, R416, R417) -/

/-- A 256-bit word from its four 64-bit words with masks. -/
def maskWords (d : BitVec 256) (m0 m1 m2 m3 : BitVec 64) : BitVec 256 := d &&& (m3 ++ m2 ++ m1 ++ m0)

/-- A format window's descriptor as a world's thread reads it (R143). -/
def State.fmtWindowBytes (s : State) (n : Nat) : List Byte := bytesOf 32 (AMap.get 0 s.fmtWins n).toNat

/-- FORMAT_WINDOW_WRITE (R143): reserved bits are zero, and the service shows the descriptor to a world's threads. -/
def execFormatWindowWrite (n : Nat) (desc : WindowSpec) (s : State) : Host.Outcome State Fault Refusal :=
  if n < 64 then
    let d := maskWords desc.bits 0x000FFFFFFFFFFFFF 0x000FFFFFFFFFFFFF 0x000FFFFFFFFF0000 0x000FFFFFFFFFFF01
    let s1 := { s with fmtWins := AMap.put s.fmtWins n d }
    .next (s1.showAt desc.shown (s1.fmtWindowBytes n))
  else .next s

/-- FABRIC_WINDOW_WRITE (R416). What the service writes to reserved bits is not kept: they read zero (log 31). -/
def execFabricWindowWrite (w n : Nat) (desc : BitVec 256) (s : State) : Host.Outcome State Fault Refusal :=
  if n < 4096 ∧ (s.world w).used = true ∧ (s.world w).dying = false then
    .next (s.putWorld w { s.world w with
      fwins := AMap.put (s.world w).fwins n (maskWords desc 0x807FFFFE00000FFF 0xFFFFFFFFFFFFFFFF 0x0000000FFFFFFFFF 0) })
  else .next s

/-- EXPORT_WRITE (R417). What the service writes to reserved bits is not kept: they read zero (log 31). -/
def execExportWrite (n : Nat) (desc : BitVec 256) (s : State) : Host.Outcome State Fault Refusal :=
  let d := maskWords desc 0xE000FFFFFFFFFFFF 0xFFFFFFFFFFFFFFFF 0xFFFFFFFFFFFFFFFF 0xFFFFFFFFFFFFFFF0
  if n < 4096 ∧ (s.world (exWorld d)).used = true ∧ (s.world (exWorld d)).dying = false then .next { s with exports := AMap.put s.exports n d } else .next s

/-- Enabled setts with no core in use. -/
def State.freeSetts (s : State) : List Nat :=
  (List.range s.settList.length).filter (fun n => s.enabled 1 (s.settList[n]?.getD 0) && (s.settCores n).all (fun c => s.coreFree c))

/-- Ready packets of a world's queues. -/
def State.readyPackets (s : State) (w : Nat) : Nat :=
  (s.queues.filter (fun e => e.2.made && e.2.world == w)).foldl (fun m e => m + (e.2.window.filter (fun x => e.2.ready x)).length) 0

/-- RESIDENCY_REPORT (R407): worlds with work on the part are listed; the next report is due 20 µs later. -/
def execResidencyReport (s : State) : Host.Outcome State Fault Refusal :=
  let use := (s.worlds.map (fun e => (e.1, s.coresHeld e.1, s.readyPackets e.1))).filter (fun x => x.2.1 != 0 || x.2.2 != 0)
  .next ({ s with residencySeq := s.residencySeq + 1, residencyDue := s.micros + 20 }.report (.residency Config.deviceId s.residencySeq s.freeSetts use))

/-! ## The part section, quotes and the journal (R24 to R26, R423, R428) -/

/-- Units of each kind that can be mapped out, by rising PHYS (R25; lanes and links, log 15). -/
def unitsOf (kind : Nat) : List Nat :=
  match kind with
  | 1 => List.range 256
  | 2 => List.range 2048
  | 3 => List.range 384
  | 4 => List.range 256
  | 5 => List.range 256
  | 6 => List.range 64
  | 7 => List.range 32
  | _ => (List.range 4).flatMap (fun d => ((List.range 6) ++ (List.range 8).map (fun r => 8 + r)).map (fun i => 16 * d + i))

/-- LOGICAL of a unit (R18, R25). R18 numbers setts and cores only: of the other kinds a unit's logical number counts the
units of its kind with a lower physical number that boot enabled, in the way of R18; this is the model's (log 34). A core whose sett
was mapped out at test, its own record not, has no logical number: LOGICAL is 0xFFFF beside its STATE of 0 (log 80). -/
def State.logicalOf (s : State) (kind phys : Nat) : Nat :=
  if s.numbered kind phys = false then 0xFFFF
  else if kind = 2 then (s.logCore phys).getD 0xFFFF
  else ((unitsOf kind).filter (fun p => s.numbered kind p && decide (p < phys))).length

/-- A 16-byte unit record (R25). -/
def State.unitBytes (s : State) (kind phys : Nat) : List Byte :=
  let u := (AMap.find s.units (kind * 65536 + phys)).getD ⟨0, 0⟩
  let aux := if kind = 2 then phys / 8 else if kind = 4 then phys else 0
  bytesOf 8 (kind * 2 ^ 56 + u.state % 256 * 2 ^ 48 + phys % 65536 * 2 ^ 32 + s.logicalOf kind phys % 65536 * 65536 + aux % 65536) ++
    bytesOf 8 (u.jidx % 2 ^ 32 * 2 ^ 32)

/-- The home table, as the resident service reports it to a world that asks for it (R26). -/
def State.homeTable (s : State) : List Nat := (List.range 4096).map s.homeEntry

/-- The NST part section: unit records by KIND and PHYS, then the home table (R24 to R26). -/
def State.partSection (s : State) : List Byte :=
  ((List.range 8).flatMap (fun i => (unitsOf (i + 1)).flatMap (fun p => s.unitBytes (i + 1) p))) ++
    s.homeTable.flatMap (bytesOf 2)

/-- The five items of a quote (R423). -/
def State.quoteItems (s : State) (w : Nat) (nonce : BitVec 256) : List Byte :=
  bytesOf 32 nonce.toNat ++ bytesOf 64 (Config.logDigest s.platformLog).toNat ++ bytesOf 64 (Config.logDigest (s.world w).attest).toNat ++
    shake256 s.partSection 32 ++ nstDigest

/-- QUOTE_REQUEST (R423): the service gives with the quote the part section that its fourth item digests, whose home table it
reports to a world on request (R26; log 35). -/
def execQuoteRequest (w : Nat) (nonce : BitVec 256) (s : State) : Host.Outcome State Fault Refusal :=
  .next (s.report (.quote w (s.quoteItems w nonce) (Config.signature (s.quoteItems w nonce)) s.partSection))

/-- Bytes 0x00 to 0x2F of an entry (R426). -/
def JEntry.bytes (e : JEntry) : List Byte :=
  bytesOf 8 (e.boot % 65536 * 2 ^ 48 + e.time % 2 ^ 48) ++
    bytesOf 8 (e.kind % 256 * 2 ^ 56 + e.phys % 65536 * 2 ^ 40 + e.cls % 256 * 2 ^ 32 + e.count % 2 ^ 32) ++
    bytesOf 8 e.synd.toNat ++ bytesOf 8 (e.addr % 2 ^ 64) ++ bytesOf 8 (e.world % 4096) ++ List.replicate 8 0#8

/-- CHAIN(0) (R428). -/
def chainStart : List Byte := shake256 ((List.range 1793).map Config.identityKey) 16

/-- The entries with their chains, and the chain of the last (R428). -/
def chained : List JEntry → List Byte → List (List Byte) × List Byte
  | [], c => ([], c)
  | e :: r, c =>
    let d := shake256 (c ++ e.bytes) 16
    let (l, z) := chained r d
    ((e.bytes ++ d) :: l, z)

/-- JOURNAL_READ (R428): entries numbered from `first`, with the signed snapshot. -/
def execJournalRead (first count : Nat) (nonce : BitVec 256) (s : State) : Host.Outcome State Fault Refusal :=
  let (l, z) := chained s.journal chainStart
  let head := s.journal.length
  let sig := Config.signature (bytesOf 32 nonce.toNat ++ bytesOf 8 head ++ bytesOf 8 s.ovf ++ z)
  .next (s.report (.journal ((l.drop (first - 1)).take count).flatten head s.ovf z sig))

/-! ## Configuration and boot (R22, R27, R28, R430) -/

/-- CONFIGURATION_RECORD (R22, R27): a verified record takes effect at the next boot. -/
def execConfigurationRecord (verified : Bool) (out : List UnitRef) (s : State) : Host.Outcome State Fault Refusal :=
  .next (if verified then { s with pendingConfig := some out } else s)

/-- The policy the resident service has for its own world 0 (log 20). -/
def servicePolicy : BitVec 512 := BitVec.ofNat 512 (2048 * 2 ^ 224 + 64 * 2 ^ 200 + 16 * 2 ^ 192)

/-- The device as a boot finds it: the journal and the configuration last across it (R22, R426). -/
def State.fresh (s : State) : State :=
  { State.reset with
    journal := s.journal, ovf := s.ovf, bootCount := s.bootCount + 1, config := s.pendingConfig.getD s.config
    freeCount := s.freeCount + 64, nextId := s.nextId, reports := s.reports, inbox := s.inbox, turn := s.turn }

/-- The links as boot trains them: a port that is mapped out is down, and every other has fresh keys (R21, R422, R430). -/
def State.trainLinks (s : State) (n : Nat) : State :=
  { s with links := (List.range 24).map (fun l =>
      (l, if s.portOut l then { Link.reset with down := true }
        else { Link.reset with keySent := Config.freshKey (n + 2 * l), keyReceived := Config.freshKey (n + 2 * l + 1) })) }

/-- Steps 1 to 4 of R430 on a part whose verifications succeed. -/
def State.bootUp (s : State) : State :=
  let s1 := s.fresh
  let s2 := (s1.mapOut 1 0 (s1.config.flatMap pairedUnits)).trainLinks s.freeCount
  let n := 4 * s1.bootCount
  { s2 with
    booted := true
    platformLog := (List.range 4).map (fun i => Config.bootDigest (n + i))
    worlds := [(0, { World.reset with used := true, policy := servicePolicy, m0 := s2.slicesOn })] }

/-- BOOT (R28, R430): a part that does not verify stays in recovery. -/
def execBoot (verified : Bool) (s : State) : Host.Outcome State Fault Refusal :=
  .next (if verified then s.bootUp else { s.fresh with recovery := true })

end Sys2Proof.Machine
end

