-- ==== Sys2Proof/Machine/Links.lean ====
section
/-! DEFINITION. Requests and answers of the fabric (R418, R419), what a lost link loses (R422, R425), links (R422), cipher
engines and key slots (R420, R421), and the service's answers to engine faults (R100, R119, R242, R294, R298, R319). -/

namespace Sys2Proof.Machine

/-! ## Inbound requests (R417, R418) -/

/-- VALID of an export (R417). -/
def exValid (d : BitVec 256) : Bool := bitOf d.toNat 63
/-- Whether an export allows a write or a read (R417). -/
def exAllows (d : BitVec 256) (write : Bool) : Bool := bitOf d.toNat (if write then 61 else 62)
/-- LIMITM of an export (R417). -/
def exLimit (d : BitVec 256) : Nat := bitsOf d.toNat 0 36
/-- KEY of an export (R417). -/
def exKey (d : BitVec 256) : Nat := bitsOf d.toNat 64 64
/-- BASE of an export (R417). -/
def exBase (d : BitVec 256) : Nat := bitsOf d.toNat 128 64
/-- CLASP of an export (R417). -/
def exClasp (d : BitVec 256) : Nat := bitsOf d.toNat 192 64

/-- What serving a request comes to: refused, to be tried again when a page answers, written with its addition to the
clasp still to be made at the write's timestamp, or served with its data. -/
inductive FabServed where
  | refuse (s : State)
  | hold
  | owed (s : State) (stamp : Nat)
  | done (s : State) (data : List Byte)
  deriving DecidableEq, Repr

/-- An accepted write's addition to its clasp (R87, R418). -/
def State.exportClasp (s : State) (d : BitVec 256) (id stamp n : Nat) : Option State :=
  if exClasp d = 0 then some s
  else (s.claspNow (feCtx (exWorld d)) (exClasp d) stamp (fun c => c.add n)).map (fun t =>
    t.noteCounted (feCtx (exWorld d)) (exClasp d) id)

/-- What stands for a request's writer among those whose bytes are unsettled: commands of engines have their own numbers, and
a request's is known by its window and its offset. -/
def exWriter (b : FabricReq) : Nat := 2 ^ 200 + b.expix * 2 ^ 64 + b.off

/-- Make a checked request's access (R418 step 5). -/
def State.serveAccess (s : State) (d : BitVec 256) (b : FabricReq) : FabServed :=
  let x := feCtx (exWorld d)
  let va := (exBase d + b.off) % 2 ^ 64
  let stop (e : EngStop) : FabServed :=
    match e with
    | .wait _ => .hold
    | .fabric _ _ _ _ _ => .refuse s
    | .bad (some l) => .refuse (s.noteUnread l (exWorld d))
    | .bad none => .refuse s
  if 0x00F0000000000000 < va + b.len then .refuse s
  else if b.write then
    match engPut (exWriter b) x [] va (b.data.take b.len) ⟨s, 0⟩ with
    | .ok (_, e) => match e.s.exportClasp d (exWriter b) e.stamp b.len with
      | some s1 => .done s1 []
      | none => .owed e.s e.stamp
    | .error e => stop e
  else match engRead x [] va b.len ⟨s, 0⟩ with
    | .ok (bs, e) => .done e.s bs
    | .error e => stop e

/-- The checks of R418 in their order, then the access. -/
def State.serveRequest (s : State) (b : FabricReq) : FabServed :=
  let d := AMap.get 0 s.exports b.expix
  if exValid d = false then .refuse s
  else if exKey d ≠ b.key.toNat then .refuse (s.journalEvent 0x12 b.expix 6 0 (exWorld d)).1
  else if exLimit d + 1 < b.off + b.len then .refuse s
  else if exAllows d b.write = false then .refuse s
  else s.serveAccess d b

/-- The text of an answer on a link (R419; log 52). -/
def answerText (ok : Bool) (data : List Byte) : List Byte := (if ok then 1#8 else 0#8) :: data

/-- The answer to a request leaves on the link it came by, sealed (R418, R420, R422); none leaves on one that is down. -/
def State.answerOut (s : State) (l : Nat) (ok : Bool) (data : List Byte) : State :=
  if (s.link l).down then s
  else (s.sendFlits l (Config.flits data.length)).report (.fabricAns l ok (s.sealFlits l (Config.flits data.length) (answerText ok data)))

/-- Serve a request whose flits have come (R418): one that meets a page fault waits for the service. -/
def State.runRequest (s : State) (b : FabricReq) : State :=
  match s.serveRequest b with
  | .refuse t => t.answerOut b.port false []
  | .hold => { s with fabIn := s.fabIn ++ [(b, none)] }
  | .owed t stamp => { t with fabIn := t.fabIn ++ [(b, some stamp)] }
  | .done t data => t.answerOut b.port true data

/-- The service's answer for the oldest request that waits (R418). -/
def State.inboundAnswer (s : State) (ok : Bool) : State :=
  match s.fabIn with
  | [] => s
  | (b, some stamp) :: r =>
    let s1 := { s with fabIn := r }
    let d := AMap.get 0 s.exports b.expix
    let x := feCtx (exWorld d)
    if ok then match s1.exportClasp d (exWriter b) stamp b.len with
      | some s2 => s2.answerOut b.port true []
      | none => s
    else (s1.report (.claspLost x.world x.core x.pc (exClasp d) 6)).answerOut b.port true []
  | (b, none) :: r =>
    let s1 := { s with fabIn := r }
    if ok then s1.runRequest b else s1.answerOut b.port false []

/-! ## Answers to this device's requests (R419) -/

/-- The fabric window an address leads to. -/
def State.winOf (s : State) (w va : Nat) : Option Nat :=
  match fabricOf va with
  | some (n, _) => some n
  | none => match s.walk w va with
    | .leaf pte big => match leafLoc pte big va with
      | .fabric n _ => some n
      | _ => none
    | _ => none

/-- The answer a thread's access through a window completes with (R194, R419). -/
def fabricAnswer (ea : Nat) (op : ReqOp) (ok : Bool) (data : List Byte) : Answer :=
  if ok = false then answerTrap (trapAt 7 6 ea) 0
  else match op with
    | .load n sg d upd => { answerOk (some (d, loadWord n sg (natOfBytes (data.take n)))) 0 with upd := upd.map (fun b => (b, wordOf ea)) }
    | .store _ _ upd => { answerOk none 0 with upd := upd.map (fun b => (b, wordOf ea)) }
    | _ => answerOk none 0

/-- An answer for a thread (R419). -/
def State.threadFabric (s : State) (c i : Nat) (ok : Bool) (data : List Byte) : State :=
  let s1 := s.actAs c i
  match s1.curSlot.ws, s1.curTask.park with
  | some _, .fabric _ ea op => s1.takeAnswer (fabricAnswer ea op ok data) (s.cycle + 8)
  | some _, .bdDecl t due f fab (some a) =>
    if ok then s1.parkCur (.bdDecl t due f (fab ++ [(a, data.take 4)]) none) else s1.takeLateTrap (trapAt 0x0E 2 a)
  | _, _ => s

/-- An answer for the running nest of a core (R247, R419). -/
def State.nestFabric (s : State) (c : Nat) (ok : Bool) (data : List Byte) : State :=
  match (s.core c).vq.find? (fun q => q.fabWait.isSome) with
  | none => s
  | some q =>
    let a := q.fabWait.getD 0
    let q1 := if ok then { q with fabWait := none, fabData := AMap.put q.fabData a (natOfBytes data) }
      else { q with fabWait := none }.refused (a % 2 ^ 64) (trapAt 7 6 (a % 2 ^ 64))
    s.modCore c (fun k => k.putNest q1)

/-- What an answer gives a copy that waits for it. -/
def CopyRun.answered (r : CopyRun) (data : List Byte) : CopyRun :=
  match r.fabWait with
  | none => r
  | some (a, n, w) => { r with fabWait := none, fab := r.fab ++ [(if w then a + 2 ^ 64 else a, if w then [] else data.take n)] }

/-- An answer for a copy: a refusal sets E (R294, R419). -/
def State.runAnswer (s : State) (r : CopyRun) (ok : Bool) (data : List Byte) : State × CopyRun :=
  match r.fabWait with
  | none => (s, r)
  | some _ => if ok then (s, r.answered data) else s.copyFail r

/-- An answer for a copy in a place of a sett. -/
def State.placeFabric (s : State) (n i : Nat) (ok : Bool) (data : List Byte) : State :=
  match AMap.find (s.sett n).places i with
  | none => s
  | some r =>
    let p := s.runAnswer r ok data
    p.1.putSett n { p.1.sett n with places := AMap.put (p.1.sett n).places i p.2 }

/-- An answer for the copy of a bridge, which goes on with it (R401). -/
def State.bridgeFabric (s : State) (q k : Nat) (ok : Bool) (data : List Byte) : State :=
  match ((s.queue q).entry? k).bind (fun e => e.copy) with
  | none => s
  | some r =>
    let p := s.runAnswer r ok data
    ((p.1.modQueue q (fun x => x.modEntry k (fun e => { e with copy := some p.2 }))).runBridge q k).settled q

/-- An answer for a collective that waits for it: a refusal sets E for every member (R298, R419). -/
def State.collFabric (s : State) (g : Nat) (ok : Bool) (data : List Byte) : State :=
  match (s.gang g).colls.find? (fun x => x.fabWait.isSome) with
  | none => s
  | some x =>
    let (_, a, n, w) := x.fabWait.getD (0, 0, 0, false)
    if ok then s.putGang g ((s.gang g).putColl { x with
      fabWait := none, fab := x.fab ++ [(if w then a + 2 ^ 64 else a, if w then [] else data.take n)] })
    else s.collEnd g { x with fabWait := none } true

/-- Who asked through a fabric window, by an answer's core and slot. Core numbers from 2048 on name a queue whose bridge asked,
with its packet; slots 0 to 15 are a core's threads, 16 its vector engine, 19 to 22 the copy places of its sett, 24 its
gang's collective. -/
inductive Asker where
  | bridge (q k : Nat)
  | thread (core slot : Nat)
  | nest (core : Nat)
  | place (sett i : Nat)
  | coll (g : Nat)
  deriving DecidableEq, Repr

/-- Who is named by an answer's core and slot. -/
def State.askerOf (s : State) (core slot : Nat) : Option Asker :=
  if 2048 ≤ core then some (.bridge (core - 2048) slot)
  else if slot < 16 then some (.thread core slot)
  else if slot = 16 then some (.nest core)
  else if 19 ≤ slot ∧ slot ≤ 22 then some (.place (s.settOf core) (slot - 19))
  else if slot = 24 then (s.core core).gang.map (fun g => .coll g)
  else none

/-- The world and the window that an asker's access goes through. -/
def State.askedOf (s : State) (k : Asker) : Option (Nat × Nat) :=
  let by_ (w a : Nat) : Option (Nat × Nat) := (s.winOf w (a % 2 ^ 64)).map (fun n => (w, n))
  let copy (r : Option CopyRun) : Option (Nat × Nat) := (r.bind (fun r => r.fabWait.map (fun f => (r.cmd.world, f.1)))).bind (fun p => by_ p.1 p.2)
  match k with
  | .bridge q e => copy (((s.queue q).entry? e).bind (fun x => x.copy))
  | .thread c i =>
    match (s.slot c i).ws.map (fun ws => (s.task c ws).park) with
    | some (.fabric win _ _) => some ((s.core c).world, win)
    | some (.bdDecl _ _ _ _ (some a)) => by_ (s.core c).world a
    | _ => none
  | .nest c => (((s.core c).vq.find? (fun q => q.fabWait.isSome)).bind (fun q => q.fabWait)).bind (by_ (s.core c).world)
  | .place n i => copy (AMap.find (s.sett n).places i)
  | .coll g => (((s.gang g).colls.find? (fun x => x.fabWait.isSome)).bind (fun x => x.fabWait)).bind (fun f => by_ (s.gang g).world f.2.1)

/-- Give an answer to who asked (R419). -/
def State.giveAnswer (s : State) (k : Asker) (ok : Bool) (data : List Byte) : State :=
  match k with
  | .bridge q e => s.bridgeFabric q e ok data
  | .thread c i => s.threadFabric c i ok data
  | .nest c => s.nestFabric c ok data
  | .place n i => s.placeFabric n i ok data
  | .coll g => s.collFabric g ok data

/-! ## Links (R422, R425) -/

/-- Everyone who may wait for an answer: threads and nests of cores, copies of setts, bridges of queues, collectives of
gangs. -/
def State.askers (s : State) : List Asker :=
  s.cores.flatMap (fun e => (List.range 16).map (fun i => Asker.thread e.1 i) ++ [.nest e.1]) ++
    s.setts.flatMap (fun e => (List.range 4).map (fun i => Asker.place e.1 i)) ++
    s.queues.flatMap (fun e => e.2.window.map (fun x => Asker.bridge e.1 x.k)) ++
    s.gangs.map (fun e => Asker.coll e.1)

/-- The link that an asker's request is in flight on (R422). -/
def State.askLink (s : State) (k : Asker) : Option Nat := (s.askedOf k).map (fun p => s.portOf p.1 p.2)

/-- Every request in flight on a link fails, and so does one that was to leave on a link that is down (R419, R422, R425); of a
request that came by it and waits for a page nothing more is done, but what it has written is still counted. -/
def State.loseLink (s : State) (l : Nat) : State :=
  s.askers.foldl (fun s k => if s.askLink k = some l then s.giveAnswer k false [] else s)
    { s with fabIn := s.fabIn.filter (fun e => e.1.port != l || e.2.isSome) }

/-- The lane that the journal names for an error of a port: of its enabled lanes the one a free value picks, for the spec
does not say which lane a failing flit crossed (R426; log 15). -/
def State.errorLane (s : State) (l : Nat) : UnitRef :=
  let k := if l < 16 then 6 else 7
  let on := (List.range 4).filter (fun i => s.enabled k (4 * (l % 16) + i))
  ⟨k, 4 * (l % 16) + on[(Config.freeValue s.freeCount).toNat % max 1 on.length]?.getD 0⟩

/-- A link is torn down: journalled with the lane the error was found in, and its requests in flight fail (R422, R425,
R426). -/
def State.tearDown (s : State) (l : Nat) : State :=
  let u := s.errorLane l
  let s1 := ({ s with freeCount := s.freeCount + 1 }.journalEvent u.kind u.phys 5 u.phys 0).1
  { s1 with links := AMap.put s1.links l { s1.link l with down := true } }.loseLink l

/-- Requests that wait for a link that is down fail (R422). -/
def State.serveLost (s : State) : State :=
  ((s.links.filter (fun e => e.2.down)).map (fun e => e.1)).foldl (fun s l => s.loseLink l) s

/-- A message comes on a link (R422): its flits are decrypted and authenticated, and it is served; a link whose flits fail is
torn down; on one that is down nothing comes. -/
def State.arriveOn (s : State) (l n : Nat) (msg : List Byte) (flits : List (List Byte)) (serve : State → State) : State :=
  if 24 ≤ l ∨ (s.link l).down = true then s
  else if flits = s.dueFlits l n msg then serve (s.takeFlits l n)
  else s.tearDown l

/-- FABRIC_REQUEST (R418). -/
def execFabricRequest (b : FabricReq) (s : State) : Host.Outcome State Fault Refusal :=
  .next (s.arriveOn b.port (Config.flits b.len) (requestText b.key b.expix b.off b.len b.write b.data) b.flits (fun t => t.runRequest b))

/-- FABRIC_ANSWER (R419): to nobody who waits it does nothing. -/
def execFabricAnswer (core slot : Nat) (ok : Bool) (data : FabricReply) (s : State) :
    Host.Outcome State Fault Refusal :=
  match s.askerOf core slot with
  | none => .next s
  | some k => match s.askLink k with
    | none => .next s
    | some l => .next (s.arriveOn l (Config.flits data.data.length) (answerText ok data.data) data.flits
      (fun t => t.giveAnswer k ok data.data))

/-- LINK_AUTH_FAILURE (R422). -/
def execLinkAuthFailure (link : Nat) (s : State) : Host.Outcome State Fault Refusal :=
  if link < 24 then .next (s.tearDown link) else .next s

/-- LINK_FLIT_FAILS_AFTER_RETRIES (R425). -/
def execLinkFlitFailsAfterRetries (link : Nat) (s : State) : Host.Outcome State Fault Refusal :=
  if link < 24 then .next (s.tearDown link) else .next s

/-- LINK_REKEYED (R422): a port that is mapped out stays down. -/
def execLinkRekeyed (link : Nat) (s : State) : Host.Outcome State Fault Refusal :=
  if link < 24 ∧ s.portOut link = false then
    let s1 := s.rekey link
    .next { s1 with links := AMap.put s1.links link { s1.link link with down := false } }
  else .next s

/-- LINK_COUNTER_EXHAUSTION (R422): both directions are re-keyed before the next flit. -/
def execLinkCounterExhaustion (link : Nat) (s : State) : Host.Outcome State Fault Refusal :=
  if link < 24 then .next (s.rekey link) else .next s

/-! ## Cipher engines and key slots (R420, R421) -/

/-- A key slot's place among the storage and network slots. -/
def keyIndex (net : Bool) (slot : Nat) : Nat := (if net then 1024 else 0) + slot % 1024

/-- A key slot. -/
def State.keySlot (s : State) (net : Bool) (slot : Nat) : KeySlot := AMap.get KeySlot.reset s.keys (keyIndex net slot)

/-- Replace a key slot. -/
def State.putKey (s : State) (net : Bool) (slot : Nat) (k : KeySlot) : State := { s with keys := AMap.put s.keys (keyIndex net slot) k }

/-- CIPHER_COMMAND (R420, R421): status 0 accepted, 1 KEY_SLOT, 2 XTS_ALIGN. -/
def execCipherCommand (b : CipherCmd) (s : State) : Host.Outcome State Fault Refusal :=
  let k := s.keySlot b.net b.slot
  if 1024 ≤ b.slot ∨ k.state ≠ 1 ∨ k.world ≠ b.world then .next (s.report (.cipher b.slot 1))
  else if b.net = false ∧ (b.first % 4096 ≠ 0 ∨ b.len % 4096 ≠ 0) then .next (s.report (.cipher b.slot 2))
  else
    let k1 := { k with
      accepted := k.accepted ++ [(b.decrypt, if b.net && !b.decrypt then k.counter else b.first, b.data.take b.len)]
      counter := if b.net && !b.decrypt then k.counter + 1 else k.counter }
    .next ((s.putKey b.net b.slot k1).report (.cipher b.slot 0))

/-- The data units of a storage transfer, with their numbers on the namespace (R420). -/
def dataUnits (first : Nat) (m : List Byte) : List (Nat × List Byte) :=
  (List.range (ceilDiv m.length 4096)).map (fun i => (first / 4096 + i, (m.drop (4096 * i)).take 4096))

/-- What a command's data leaves the package as (R420): a storage transfer by data units of 4 KiB, each with its number on
the namespace as tweak; a network packet under the nonce of the slot's salt and its counter. -/
def KeySlot.sealed (k : KeySlot) (net : Bool) (first : Nat) (m : List Byte) : List (List Byte) :=
  if net then [gcmSeal k.key1 (k.salt ++ BitVec.ofNat 64 first) m] else (dataUnits first m).map (fun u => xtsSeal k.key1 k.key2 u.1 u.2)

/-- What data that has come into the package is (R420): of a packet whose tag is wrong, nothing. -/
def KeySlot.opened (k : KeySlot) (net : Bool) (first : Nat) (m : List Byte) : List (Option (List Byte)) :=
  if net then [gcmOpen k.key1 (k.salt ++ BitVec.ofNat 64 first) m] else (dataUnits first m).map (fun u => some (xtsOpen k.key1 k.key2 u.1 u.2))

/-- What an engine gives of a command that it completes (R420). -/
def KeySlot.outcome (k : KeySlot) (i : Nat) (c : Bool × Nat × List Byte) : Report :=
  let net := decide (1024 ≤ i)
  if c.1 then .deciphered net (i % 1024) (k.opened net c.2.1 c.2.2) else .ciphered net (i % 1024) (k.sealed net c.2.1 c.2.2)

/-- The engines complete the oldest command that each slot has accepted, with the slot's key (R421); how long a command
takes, the spec does not say (log 54). -/
def State.serveCiphers (s : State) : State :=
  s.keys.foldl (fun s e => match e.2.accepted with
    | [] => s
    | c :: r => ({ s with keys := AMap.put s.keys e.1 { e.2 with accepted := r } }).report (e.2.outcome e.1 c)) s

/-- KEY_SLOT_INSTALL (R420): into an EMPTY slot, for one world. -/
def execKeySlotInstall (b : KeySpec) (s : State) : Host.Outcome State Fault Refusal :=
  if b.slot < 1024 ∧ (s.keySlot b.net b.slot).state = 0 ∧ (s.world b.world).used = true ∧ (s.world b.world).dying = false then
    .next (s.putKey b.net b.slot ⟨1, b.world, b.key1, if b.net then 0 else b.key2, if b.net then b.salt else 0, [], 0⟩)
  else .next s

/-- KEY_SLOT_REVOKE (R421). -/
def execKeySlotRevoke (net : Bool) (slot : Nat) (s : State) : Host.Outcome State Fault Refusal :=
  if slot < 1024 ∧ (s.keySlot net slot).state = 1 then .next (s.putKey net slot (s.keySlot net slot).revoke) else .next s

/-- REVOKE_COMPLETE (R421): once the last accepted command has completed, the keys are zeroed and the slot is EMPTY; a
world's destruction may go on (R415). -/
def execRevokeComplete (net : Bool) (slot : Nat) (s : State) : Host.Outcome State Fault Refusal :=
  let k := s.keySlot net slot
  if slot < 1024 ∧ k.state = 2 ∧ k.accepted = [] then
    .next (((s.putKey net slot KeySlot.reset).report (.revoked net slot)).destroyOn k.world)
  else .next s

/-! ## Engine faults (R119) -/

/-- The cause a clasp that cannot be reached is reported with (R100). -/
def lostCause : Nat := 6

/-- The service's answer for a drain that waits for its clasp's page (R100, R290). -/
def State.drainAnswer (s : State) (n : Nat) (ok : Bool) : State :=
  match s.maDraining n with
  | none => s
  | some (c, m) => match m.fault with
    | none => s
    | some _ =>
      if ok then s.modCore c (fun k => k.putMa { m with fault := none })
      else (s.report (.claspLost m.world c m.pc.toNat m.clasp lostCause)).modCore c (fun k =>
        k.putMa { m with rows := if m.bad then maRows m.c else m.rows, owed := 0, fault := none })

/-- The service's answer for a copy (R100, R119, R294): a refused page of its data sets E, of its clasp is reported. -/
def State.copyAnswer (s : State) (r : CopyRun) (ok : Bool) : State × CopyRun :=
  match r.fault with
  | none => (s, r)
  | some a =>
    if ok then (s, { r with fault := none })
    else if a = r.cmd.clasp ∧ (r.bad = true ∨ r.owed ≠ 0) then
      (s.report (.claspLost r.cmd.world r.cmd.core r.cmd.pc.toNat a lostCause), { r with done := r.bad, owed := 0, fault := none })
    else s.copyFail { r with fault := none }

/-- The service's answer for a copy in a place. -/
def State.placeAnswer (s : State) (n i : Nat) (ok : Bool) : State :=
  match AMap.find (s.sett n).places i with
  | none => s
  | some r =>
    let p := s.copyAnswer r ok
    p.1.putSett n { p.1.sett n with places := AMap.put (p.1.sett n).places i p.2 }

/-- The service's answer for a bridge's copy, which goes on (R401). -/
def State.bridgeAnswer (s : State) (q k : Nat) (ok : Bool) : State :=
  match ((s.queue q).entry? k).bind (fun e => e.copy) with
  | none => s
  | some r =>
    let p := s.copyAnswer r ok
    ((p.1.modQueue q (fun x => x.modEntry k (fun e => { e with copy := some p.2 }))).runBridge q k).settled q

/-- The service refuses the clasp page of a finished pass: it is reported, and the command ends (R100, R320). -/
def State.passRefused (s : State) (c : Nat) : State :=
  match (s.core c).runningPass with
  | none => s
  | some q =>
    if q.stop.isSome ∧ q.free ≤ s.cycle ∧ s.passWaits c q = true then
      let fl := ((s.core c).tensor q.t).flags
      let s1 := s.modCore c (fun k => { (k.putTensor q.t { k.tensor q.t with flags := 0 }) with sq := k.sq.drop 1 })
      (s1.lateFlags c q.ws fl).report (.claspLost q.world c q.pc.toNat q.clasp lostCause)
    else s

/-- The service's answer for a declaration (R319). -/
def State.declAnswer (s : State) (c i : Nat) (ok : Bool) : State :=
  match (s.slot c i).ws with
  | none => s
  | some ws => match (s.task c ws).park with
    | .bdDecl t due (some a) fab _ =>
      if ok then s.modTask c ws (fun k => { k with park := .bdDecl t due none fab none }) else s.deliver c ws (trapAt 0x0E 2 a)
    | _ => s

/-- The service's answer for a collective (R298). -/
def State.collAnswer (s : State) (g m : Nat) (ok : Bool) : State :=
  match (s.gang g).coll? m with
  | none => s
  | some x => match x.fault with
    | none => s
    | some a =>
      if ok then s.putGang g ((s.gang g).putColl { x with fault := none })
      else match x.cmds.find? (fun e => e.2.clasp == a) with
        | some e => (s.report (.claspLost (s.gang g).world e.2.core e.2.pc.toNat a lostCause)).putGang g
            ((s.gang g).putColl { x with fault := none, lost := a :: x.lost })
        | none => s.collEnd g { x with fault := none } true

/-- The service's answer for the oldest setting of E that waits (R100, R114). -/
def State.spoilAnswer (s : State) (ok : Bool) : State :=
  match s.spoils with
  | [] => s
  | p :: r =>
    let s1 := { s with spoils := r }
    if ok then (s1.claspNow ⟨p.core, p.world, p.pc⟩ p.clasp p.stamp Clasp.setE).getD s
    else s1.report (.claspLost p.world p.core p.pc p.clasp lostCause)

/-- ENGINE_FAULT_RESOLVED (R119): the waiting command goes on, or it sets E or traps. -/
def execEngineFaultResolved (u : EngineRef) (ok : Bool) (s : State) : Host.Outcome State Fault Refusal :=
  match u with
  | .vector c => match (s.core c).vq.find? (fun q => q.started && q.fault.isSome) with
    | some q => .next (s.nestAnswer c q ok)
    | none => .next s
  | .matrix n => .next (s.drainAnswer n ok)
  | .copy n i => .next (s.placeAnswer n i ok)
  | .sweep c => .next (if ok then s else s.passRefused c)
  | .decl c i => .next (s.declAnswer c i ok)
  | .coll g m => .next (s.collAnswer g m ok)
  | .bridge q k => .next (s.bridgeAnswer q k ok)
  | .inbound => .next (s.inboundAnswer ok)
  | .clasp => .next (s.spoilAnswer ok)

end Sys2Proof.Machine
end

