-- ==== Sys2Proof/Machine/Loader.lean ====
section
/-! DEFINITION. Loading and unloading native images (R86, R374, R376 to R379). -/

namespace Sys2Proof.Machine

/-! ## Page tables as the service writes them (R117, R118) -/

/-- A non-leaf entry that names a table. -/
def tableEntry (frame : Nat) : Nat := frame / 65536 * 65536 + 1

/-- Write a page-table entry. -/
def State.putPte (s : State) (a p : Nat) : State := s.memPut a (bytesOf 8 p)

/-- Zero a 64 KiB frame. -/
def State.zeroFrame (s : State) (f : Nat) : State := s.zeroFrames [(f, 65536)]

/-- The table an entry names, made of a free frame where the entry is not valid; and the free frames left. -/
def State.tableAt (s : State) (a : Nat) (tabs : List Nat) : Option (State × Nat × List Nat) :=
  let p := s.pteAt a
  if bitOf p 0 then (if bitOf p 4 then none else some (s, pteFrame p, tabs))
  else match tabs with
    | [] => none
    | f :: r => some ((s.zeroFrame f).putPte a (tableEntry f), f / 65536 * 65536, r)

/-- Map one page of a world to a frame (R117); none where no table can be had or the page is mapped. -/
def State.mapPage (s : State) (w va frame perms : Nat) (tabs : List Nat) : Option (State × List Nat) := do
  let (s1, t2, r1) ← s.tableAt ((s.world w).root + 8 * bitsOf va 42 14) tabs
  let (s2, t3, r2) ← s1.tableAt (t2 + 8 * bitsOf va 29 13) r1
  if bitOf (s2.pteAt (t3 + 8 * bitsOf va 16 13)) 0 then none
  else some (s2.putPte (t3 + 8 * bitsOf va 16 13) (leafEntry frame perms), r2)

/-- Map n pages from an address to frames in a row, writing their bytes (R86, R374 step 5). -/
def State.mapPages (w perms : Nat) : Nat → Nat → Nat → List Byte → State → List Nat → Option (State × List Nat)
  | 0, _, _, _, s, tabs => some (s, tabs)
  | n + 1, va, frame, bs, s, tabs => do
    let (s1, r) ← s.mapPage w va frame perms tabs
    State.mapPages w perms n (va + 65536) (frame + 65536) (bs.drop 65536) ((s1.zeroFrame frame).memPut frame (bs.take 65536)) r

/-! ## Loading (R374, R378) -/

/-- A report of a load that has failed, by its reason, record and field. -/
def State.loadFails (s : State) (w reason : Nat) (rec_ : Option Nat) (field : Nat) : State := s.report (.load w 0 0 reason rec_ field)

/-- Whether an unloaded object's pages are still being unmapped by shootdown (R379 step 2). -/
def State.unloading (s : State) (w : Nat) (o : ObjEntry) : Bool :=
  s.shoots.any (fun x => x.world == w && decide (o.lo ≤ x.va) && decide (x.va < o.hi))

/-- The lowest handle index that is free (R378): index 0 is never valid, and an unload frees its index as its last step
(R379). -/
def State.freeHandle (s : State) (w : Nat) : Option Nat :=
  ((List.range 65535).map (fun i => i + 1)).find? (fun h =>
    let o := AMap.get ObjEntry.reset (s.world w).handles h
    !o.valid && !(s.unloading w o))

/-- The entry of a loaded object; GEN counts each reuse of the index (R376, R378). ETAB is a service address, which the spec
leaves open (log 69). -/
def objEntry (old : Option ObjEntry) (w : Nat) (x : Image) (l : Layout) (frame etab : Nat) : ObjEntry where
  valid := true
  owner := w
  gen := match old with
    | some o => (o.gen + 1) % 65536
    | none => 0
  lo := l.b
  hi := l.e
  textEnd := l.c
  dataLo := l.d
  textLen := x.text.length
  frame := frame
  entries := x.entries.map (fun e => wordOf (l.b + e))
  etab := etab

/-- Whether the service can place an image at a base (R374). -/
def State.baseOk (s : State) (w : Nat) (l : Layout) : Bool :=
  l.b % 65536 == 0 && decide (l.e ≤ 0x00F0000000000000) &&
    !((s.world w).handles.any (fun e => e.2.valid && decide (e.2.lo < l.e) && decide (l.b < e.2.hi)))

/-- Whether a world's range is free for an object: the service can place it there, and no page of it is mapped (R374). -/
def State.rangeFree (s : State) (w : Nat) (l : Layout) : Bool :=
  s.baseOk w l && (List.range ((l.e - l.b) / 65536)).all (fun i => match s.walk w (l.b + 65536 * i) with
    | .leaf _ _ => false
    | _ => true)

/-- The base of a load: the preferred one where its range is free, else the one the service chooses (R374). -/
def State.loadBase (s : State) (b : LoadSpec) (x : Image) : Nat :=
  if s.rangeFree b.world (x.layout x.pref) then x.pref else b.base

/-- Steps 5 and 6 of R374 for relocated sections: text pages have X only, const pages R, data pages R and W. -/
def State.install (s : State) (b : LoadSpec) (x : Image) (l : Layout) (t : Sects) : Option State := do
  let nt := (l.c - l.b) / 65536
  let nc := (l.d - l.c) / 65536
  let nd := (l.e - l.d) / 65536
  let f := b.frame / 65536 * 65536
  let (s1, r1) ← State.mapPages b.world 4 nt l.b f t.text s b.tabs
  let (s2, r2) ← State.mapPages b.world 1 nc l.c (f + 65536 * nt) t.const s1 r1
  let (s3, _) ← State.mapPages b.world 3 nd l.d (f + 65536 * (nt + nc)) t.data s2 r2
  let h ← s3.freeHandle b.world
  let o := objEntry (AMap.find (s3.world b.world).handles h) b.world x l f (Config.freeValue s3.freeCount).toNat
  let s4 := ({ s3 with freeCount := s3.freeCount + 1 }.dropText b.world).putWorld b.world { s3.world b.world with handles := AMap.put (s3.world b.world).handles h o }
  pure (s4.report (.load b.world h o.gen 0 none 0))

/-- IMAGE_LOAD (R374): a load that fails maps nothing. Reason 9 is the model's: the service found no room. -/
def execImageLoad (b : LoadSpec) (s : State) : Host.Outcome State Fault Refusal :=
  let x := imageOf b.image
  let l := x.layout (s.loadBase b x)
  if (s.world b.world).used = false ∨ (s.world b.world).dying = true then .next (s.loadFails b.world 9 none 0)
  else if imageField b.image ≠ 0 then .next (s.loadFails b.world 8 none (imageField b.image))
  else if s.baseOk b.world l = false then .next (s.loadFails b.world 9 none 0)
  else match x.relocate l with
    | .error e => .next (s.loadFails b.world e.2 (some e.1) 0)
    | .ok t => match s.install b x l t with
      | some s1 => .next s1
      | none => .next (s.loadFails b.world 9 none 0)

/-! ## Unloading (R379) -/

/-- Held copies of a handle are dropped (R207, R379). -/
def State.dropHandle (s : State) (w h : Nat) : State :=
  { s with cores := s.cores.map (fun (e : Nat × Core) => (e.1, if e.2.world = w then { e.2 with hcache := e.2.hcache.filter (fun x => x != h) } else e.2)) }

/-- The leaf of a 64 KiB page, with its entry's address, as the service finds it in its tables (R118): a unit that is being settled or
an error on the way does not hide it, as it does from a walk. -/
def State.leafAt (s : State) (w va : Nat) : Option (Nat × Nat × Nat × Bool) :=
  let p1 := s.pteAt ((s.world w).root + 8 * bitsOf va 42 14)
  let p2 := s.pteAt (pteFrame p1 + 8 * bitsOf va 29 13)
  let a := pteFrame p2 + 8 * bitsOf va 16 13
  let p := s.pteAt a
  let down (x : Nat) : Bool := bitOf x 0 && !(bitOf x 4)
  if down p1 && down p2 && bitOf p 0 && bitOf p 4 then some (a, p, va, false) else none

/-- Unmap the pages of an object by shootdown (R121, R379). -/
def State.unmapObject (s : State) (w : Nat) (o : ObjEntry) : State :=
  (List.range ((o.hi - o.lo) / 65536)).foldl (fun s i => match s.leafAt w (o.lo + 65536 * i) with
    | some l => s.unmap w l
    | none => s) s

/-- IMAGE_UNLOAD (R379). -/
def execImageUnload (w handle : Nat) (s : State) : Host.Outcome State Fault Refusal :=
  let o := AMap.get ObjEntry.reset (s.world w).handles handle
  if o.valid then
    let s1 := s.putWorld w { s.world w with handles := AMap.put (s.world w).handles handle { o with valid := false } }
    .next ((s1.dropHandle w handle).unmapObject w o)
  else .next s

end Sys2Proof.Machine
end

