-- ==== Sys2Proof/Machine/Dispatch.lean ====
section
/-! DEFINITION. One arm for each instruction and event of the opcode table, each a direct call of its meaning. -/

namespace Sys2Proof.Machine

def exec (i : Instr) (s : State) : Host.Outcome State Fault Refusal :=
  match i with
  | .add d a b => Sys2Proof.Machine.execAdd d a b s
  | .sub d a b => Sys2Proof.Machine.execSub d a b s
  | .mul d a b => Sys2Proof.Machine.execMul d a b s
  | .mulh d a b => Sys2Proof.Machine.execMulh d a b s
  | .mulhn d a b => Sys2Proof.Machine.execMulhn d a b s
  | .div d a b => Sys2Proof.Machine.execDiv d a b s
  | .divn d a b => Sys2Proof.Machine.execDivn d a b s
  | .rem d a b => Sys2Proof.Machine.execRem d a b s
  | .remn d a b => Sys2Proof.Machine.execRemn d a b s
  | .and d a b => Sys2Proof.Machine.execAnd d a b s
  | .or d a b => Sys2Proof.Machine.execOr d a b s
  | .xor d a b => Sys2Proof.Machine.execXor d a b s
  | .andn d a b => Sys2Proof.Machine.execAndn d a b s
  | .shl d a b => Sys2Proof.Machine.execShl d a b s
  | .shr d a b => Sys2Proof.Machine.execShr d a b s
  | .sra d a b => Sys2Proof.Machine.execSra d a b s
  | .rot d a b => Sys2Proof.Machine.execRot d a b s
  | .min d a b => Sys2Proof.Machine.execMin d a b s
  | .max d a b => Sys2Proof.Machine.execMax d a b s
  | .minn d a b => Sys2Proof.Machine.execMinn d a b s
  | .maxn d a b => Sys2Proof.Machine.execMaxn d a b s
  | .clz d a => Sys2Proof.Machine.execClz d a s
  | .ctz d a => Sys2Proof.Machine.execCtz d a s
  | .popc d a => Sys2Proof.Machine.execPopc d a s
  | .sel d a b => Sys2Proof.Machine.execSel d a b s
  | .cmpEq d a b => Sys2Proof.Machine.execCmpEq d a b s
  | .cmpNe d a b => Sys2Proof.Machine.execCmpNe d a b s
  | .cmpLt d a b => Sys2Proof.Machine.execCmpLt d a b s
  | .cmpGe d a b => Sys2Proof.Machine.execCmpGe d a b s
  | .cmpLtn d a b => Sys2Proof.Machine.execCmpLtn d a b s
  | .cmpGen d a b => Sys2Proof.Machine.execCmpGen d a b s
  | .sxb d a => Sys2Proof.Machine.execSxb d a s
  | .sxh d a => Sys2Proof.Machine.execSxh d a s
  | .sxw d a => Sys2Proof.Machine.execSxw d a s
  | .zxb d a => Sys2Proof.Machine.execZxb d a s
  | .zxh d a => Sys2Proof.Machine.execZxh d a s
  | .zxw d a => Sys2Proof.Machine.execZxw d a s
  | .addi d a i1 => Sys2Proof.Machine.execAddi d a i1 s
  | .andi d a i1 => Sys2Proof.Machine.execAndi d a i1 s
  | .ori d a i1 => Sys2Proof.Machine.execOri d a i1 s
  | .xori d a i1 => Sys2Proof.Machine.execXori d a i1 s
  | .shiShl d a n => Sys2Proof.Machine.execShiShl d a n s
  | .shiShr d a n => Sys2Proof.Machine.execShiShr d a n s
  | .shiSra d a n => Sys2Proof.Machine.execShiSra d a n s
  | .shiRot d a n => Sys2Proof.Machine.execShiRot d a n s
  | .cmpiEq d a i1 => Sys2Proof.Machine.execCmpiEq d a i1 s
  | .cmpiNe d a i1 => Sys2Proof.Machine.execCmpiNe d a i1 s
  | .cmpiLt d a i1 => Sys2Proof.Machine.execCmpiLt d a i1 s
  | .cmpiGe d a i1 => Sys2Proof.Machine.execCmpiGe d a i1 s
  | .cmpiLtn d a i1 => Sys2Proof.Machine.execCmpiLtn d a i1 s
  | .cmpiGen d a i1 => Sys2Proof.Machine.execCmpiGen d a i1 s
  | .lhi d i1 => Sys2Proof.Machine.execLhi d i1 s
  | .phi d i1 => Sys2Proof.Machine.execPhi d i1 s
  | .fadd d a b f r => Sys2Proof.Machine.execFadd d a b f r s
  | .fsub d a b f r => Sys2Proof.Machine.execFsub d a b f r s
  | .fmul d a b f r => Sys2Proof.Machine.execFmul d a b f r s
  | .fdiv d a b f r => Sys2Proof.Machine.execFdiv d a b f r s
  | .fsqrt d a f r => Sys2Proof.Machine.execFsqrt d a f r s
  | .fmin d a b f => Sys2Proof.Machine.execFmin d a b f s
  | .fmax d a b f => Sys2Proof.Machine.execFmax d a b f s
  | .fsgnCopy d a b f => Sys2Proof.Machine.execFsgnCopy d a b f s
  | .fsgnNeg d a b f => Sys2Proof.Machine.execFsgnNeg d a b f s
  | .fsgnXor d a b f => Sys2Proof.Machine.execFsgnXor d a b f s
  | .fcmpEq d a b f => Sys2Proof.Machine.execFcmpEq d a b f s
  | .fcmpLt d a b f => Sys2Proof.Machine.execFcmpLt d a b f s
  | .fcmpLe d a b f => Sys2Proof.Machine.execFcmpLe d a b f s
  | .fcmpUnordered d a b f => Sys2Proof.Machine.execFcmpUnordered d a b f s
  | .fclass d a f => Sys2Proof.Machine.execFclass d a f s
  | .fma d a b f r => Sys2Proof.Machine.execFma d a b f r s
  | .fms d a b f r => Sys2Proof.Machine.execFms d a b f r s
  | .fnma d a b f r => Sys2Proof.Machine.execFnma d a b f r s
  | .fcvt d a t u r => Sys2Proof.Machine.execFcvt d a t u r s
  | .ld d a z o => Sys2Proof.Machine.execLd d a z o s
  | .ldSx d a z o => Sys2Proof.Machine.execLdSx d a z o s
  | .ldUp d a z o => Sys2Proof.Machine.execLdUp d a z o s
  | .st s1 a z o => Sys2Proof.Machine.execSt s1 a z o s
  | .stUp s1 a z o => Sys2Proof.Machine.execStUp s1 a z o s
  | .ldFeKeep d a z o => Sys2Proof.Machine.execLdFeKeep d a z o s
  | .ldFeTake d a z o => Sys2Proof.Machine.execLdFeTake d a z o s
  | .stFeFill s1 a z o => Sys2Proof.Machine.execStFeFill s1 a z o s
  | .stFePut s1 a z o => Sys2Proof.Machine.execStFePut s1 a z o s
  | .stFeClear a z o => Sys2Proof.Machine.execStFeClear a z o s
  | .dpref a o => Sys2Proof.Machine.execDpref a o s
  | .ipref a o => Sys2Proof.Machine.execIpref a o s
  | .amoAdd d a b z => Sys2Proof.Machine.execAmoAdd d a b z s
  | .amoAnd d a b z => Sys2Proof.Machine.execAmoAnd d a b z s
  | .amoOr d a b z => Sys2Proof.Machine.execAmoOr d a b z s
  | .amoXor d a b z => Sys2Proof.Machine.execAmoXor d a b z s
  | .amoMin d a b z => Sys2Proof.Machine.execAmoMin d a b z s
  | .amoMax d a b z => Sys2Proof.Machine.execAmoMax d a b z s
  | .amoMinn d a b z => Sys2Proof.Machine.execAmoMinn d a b z s
  | .amoMaxn d a b z => Sys2Proof.Machine.execAmoMaxn d a b z s
  | .amoSwap d a b z => Sys2Proof.Machine.execAmoSwap d a b z s
  | .amoFaddF32 d a b => Sys2Proof.Machine.execAmoFaddF32 d a b s
  | .amoFaddF64 d a b => Sys2Proof.Machine.execAmoFaddF64 d a b s
  | .cas d a b z => Sys2Proof.Machine.execCas d a b z s
  | .redAdd a b z => Sys2Proof.Machine.execRedAdd a b z s
  | .redAnd a b z => Sys2Proof.Machine.execRedAnd a b z s
  | .redOr a b z => Sys2Proof.Machine.execRedOr a b z s
  | .redXor a b z => Sys2Proof.Machine.execRedXor a b z s
  | .redMin a b z => Sys2Proof.Machine.execRedMin a b z s
  | .redMax a b z => Sys2Proof.Machine.execRedMax a b z s
  | .redMinn a b z => Sys2Proof.Machine.execRedMinn a b z s
  | .redMaxn a b z => Sys2Proof.Machine.execRedMaxn a b z s
  | .ulogAppAddF32 a b l => Sys2Proof.Machine.execUlogAppAddF32 a b l s
  | .ulogAppAddF64 a b l => Sys2Proof.Machine.execUlogAppAddF64 a b l s
  | .ulogAppAddI32 a b l => Sys2Proof.Machine.execUlogAppAddI32 a b l s
  | .ulogAppAddI64 a b l => Sys2Proof.Machine.execUlogAppAddI64 a b l s
  | .ulogAppMaxF32 a b l => Sys2Proof.Machine.execUlogAppMaxF32 a b l s
  | .ulogAppMinF32 a b l => Sys2Proof.Machine.execUlogAppMinF32 a b l s
  | .ulogAppMaxF64 a b l => Sys2Proof.Machine.execUlogAppMaxF64 a b l s
  | .ulogAppMinF64 a b l => Sys2Proof.Machine.execUlogAppMinF64 a b l s
  | .ulogMerge l => Sys2Proof.Machine.execUlogMerge l s
  | .brEq a b disp => Sys2Proof.Machine.execBrEq a b disp s
  | .brNe a b disp => Sys2Proof.Machine.execBrNe a b disp s
  | .brLt a b disp => Sys2Proof.Machine.execBrLt a b disp s
  | .brGe a b disp => Sys2Proof.Machine.execBrGe a b disp s
  | .brLtn a b disp => Sys2Proof.Machine.execBrLtn a b disp s
  | .brGen a b disp => Sys2Proof.Machine.execBrGen a b disp s
  | .brZ a disp => Sys2Proof.Machine.execBrZ a disp s
  | .brNz a disp => Sys2Proof.Machine.execBrNz a disp s
  | .jmp disp => Sys2Proof.Machine.execJmp disp s
  | .call disp => Sys2Proof.Machine.execCall disp s
  | .jr a => Sys2Proof.Machine.execJr a s
  | .callr a => Sys2Proof.Machine.execCallr a s
  | .ret a => Sys2Proof.Machine.execRet a s
  | .callx a i1 => Sys2Proof.Machine.execCallx a i1 s
  | .wswap d a => Sys2Proof.Machine.execWswap d a s
  | .spawn d a b => Sys2Proof.Machine.execSpawn d a b s
  | .wake d a => Sys2Proof.Machine.execWake d a s
  | .msgSend a b => Sys2Proof.Machine.execMsgSend a b s
  | .gbar i1 => Sys2Proof.Machine.execGbar i1 s
  | .swtrap h l => Sys2Proof.Machine.execSwtrap h l s
  | .dead a => Sys2Proof.Machine.execDead a s
  | .gets d s1 => Sys2Proof.Machine.execGets d s1 s
  | .puts d s1 => Sys2Proof.Machine.execPuts d s1 s
  | .getc d c => Sys2Proof.Machine.execGetc d c s
  | .putc d c => Sys2Proof.Machine.execPutc d c s
  | .clInit a b => Sys2Proof.Machine.execClInit a b s
  | .clArm a b => Sys2Proof.Machine.execClArm a b s
  | .clAdd a b => Sys2Proof.Machine.execClAdd a b s
  | .clWait d a b => Sys2Proof.Machine.execClWait d a b s
  | .clTest d a => Sys2Proof.Machine.execClTest d a s
  | .cbDef d h b => Sys2Proof.Machine.execCbDef d h b s
  | .cbFill h b => Sys2Proof.Machine.execCbFill h b s
  | .cbDrain h b => Sys2Proof.Machine.execCbDrain h b s
  | .cbWfill h b => Sys2Proof.Machine.execCbWfill h b s
  | .cbWfree h b => Sys2Proof.Machine.execCbWfree h b s
  | .cbStat d h => Sys2Proof.Machine.execCbStat d h s
  | .meterOut core slot => Sys2Proof.Machine.execMeterOut core slot s
  | .capMeasurement watts => Sys2Proof.Machine.execCapMeasurement watts s
  | .powerCapSet watts => Sys2Proof.Machine.execPowerCapSet watts s
  | .quantumExpiry core slot => Sys2Proof.Machine.execQuantumExpiry core slot s
  | .memoryReturn core slot => Sys2Proof.Machine.execMemoryReturn core slot s
  | .homeRequestArrival id => Sys2Proof.Machine.execHomeRequestArrival id s
  | .parkRelease core slot => Sys2Proof.Machine.execParkRelease core slot s
  | .feDeadline core ws => Sys2Proof.Machine.execFeDeadline core ws s
  | .trapEntry core slot => Sys2Proof.Machine.execTrapEntry core slot s
  | .serviceResume core ws => Sys2Proof.Machine.execServiceResume core ws s
  | .serviceEscalate core ws => Sys2Proof.Machine.execServiceEscalate core ws s
  | .switchComplete core slot => Sys2Proof.Machine.execSwitchComplete core slot s
  | .emptySlotFill core slot => Sys2Proof.Machine.execEmptySlotFill core slot s
  | .lineFill core line => Sys2Proof.Machine.execLineFill core line s
  | .gangRelease g => Sys2Proof.Machine.execGangRelease g s
  | .gbarRelease g id => Sys2Proof.Machine.execGbarRelease g id s
  | .gangFailure g f => Sys2Proof.Machine.execGangFailure g f s
  | .gangPreempt g => Sys2Proof.Machine.execGangPreempt g s
  | .gangResume g gx gy => Sys2Proof.Machine.execGangResume g gx gy s
  | .gangRetire g => Sys2Proof.Machine.execGangRetire g s
  | .unitFailure u => Sys2Proof.Machine.execUnitFailure u s
  | .settlementComplete u => Sys2Proof.Machine.execSettlementComplete u s
  | .journalCoalesceFlush u addr => Sys2Proof.Machine.execJournalCoalesceFlush u addr s
  | .sramScrub core fixed => Sys2Proof.Machine.execSramScrub core fixed s
  | .memoryScrub fixed => Sys2Proof.Machine.execMemoryScrub fixed s
  | .shootdownComplete id => Sys2Proof.Machine.execShootdownComplete id s
  | .nestStart core => Sys2Proof.Machine.execNestStart core s
  | .nestComplete core => Sys2Proof.Machine.execNestComplete core s
  | .maGrant sett => Sys2Proof.Machine.execMaGrant sett s
  | .maCommandStart sett i1 => Sys2Proof.Machine.execMaCommandStart sett i1 s
  | .maDrainRow sett => Sys2Proof.Machine.execMaDrainRow sett s
  | .maCommandComplete sett i1 => Sys2Proof.Machine.execMaCommandComplete sett i1 s
  | .maJobAutoClose core => Sys2Proof.Machine.execMaJobAutoClose core s
  | .copyCommandStart sett => Sys2Proof.Machine.execCopyCommandStart sett s
  | .copyRunWritten sett place => Sys2Proof.Machine.execCopyRunWritten sett place s
  | .copyCommandComplete sett place => Sys2Proof.Machine.execCopyCommandComplete sett place s
  | .collectiveComplete g m => Sys2Proof.Machine.execCollectiveComplete g m s
  | .bdPassStart core => Sys2Proof.Machine.execBdPassStart core s
  | .sweepPass core => Sys2Proof.Machine.execSweepPass core s
  | .bdPassComplete core => Sys2Proof.Machine.execBdPassComplete core s
  | .widxObserve q => Sys2Proof.Machine.execWidxObserve q s
  | .stageQueueObserve q k => Sys2Proof.Machine.execStageQueueObserve q k s
  | .pktNop q k h => Sys2Proof.Machine.execPktNop q k h s
  | .pktLaunch q k h b => Sys2Proof.Machine.execPktLaunch q k h b s
  | .pktLaunchi q k h desc stride => Sys2Proof.Machine.execPktLaunchi q k h desc stride s
  | .pktLoop q k h count => Sys2Proof.Machine.execPktLoop q k h count s
  | .pktEndloop q k h => Sys2Proof.Machine.execPktEndloop q k h s
  | .pktIf q k h b skip => Sys2Proof.Machine.execPktIf q k h b skip s
  | .pktWaitmem q k h b tmo => Sys2Proof.Machine.execPktWaitmem q k h b tmo s
  | .waitmemPoll q k => Sys2Proof.Machine.execWaitmemPoll q k s
  | .waitmemTimeout q k => Sys2Proof.Machine.execWaitmemTimeout q k s
  | .pktSignal q k h target tset => Sys2Proof.Machine.execPktSignal q k h target tset s
  | .pktCopy q k h desc clasp => Sys2Proof.Machine.execPktCopy q k h desc clasp s
  | .pktStage q k h b => Sys2Proof.Machine.execPktStage q k h b s
  | .pktShoot q k h b => Sys2Proof.Machine.execPktShoot q k h b s
  | .stageLaunch q k => Sys2Proof.Machine.execStageLaunch q k s
  | .packetComplete q k r => Sys2Proof.Machine.execPacketComplete q k r s
  | .starvationGuard q => Sys2Proof.Machine.execStarvationGuard q s
  | .queueFaultResolved q ok => Sys2Proof.Machine.execQueueFaultResolved q ok s
  | .queueRestart q => Sys2Proof.Machine.execQueueRestart q s
  | .queueCreate b => Sys2Proof.Machine.execQueueCreate b s
  | .serviceTokenSet q tset => Sys2Proof.Machine.execServiceTokenSet q tset s
  | .remotePacket q bytes => Sys2Proof.Machine.execRemotePacket q bytes s
  | .worldCreate b => Sys2Proof.Machine.execWorldCreate b s
  | .worldDestroy w => Sys2Proof.Machine.execWorldDestroy w s
  | .coreScrub core w => Sys2Proof.Machine.execCoreScrub core w s
  | .fabricRequest b => Sys2Proof.Machine.execFabricRequest b s
  | .fabricAnswer core slot ok data => Sys2Proof.Machine.execFabricAnswer core slot ok data s
  | .cipherCommand b => Sys2Proof.Machine.execCipherCommand b s
  | .keySlotInstall b => Sys2Proof.Machine.execKeySlotInstall b s
  | .keySlotRevoke net slot => Sys2Proof.Machine.execKeySlotRevoke net slot s
  | .revokeComplete net slot => Sys2Proof.Machine.execRevokeComplete net slot s
  | .linkAuthFailure link => Sys2Proof.Machine.execLinkAuthFailure link s
  | .linkCounterExhaustion link => Sys2Proof.Machine.execLinkCounterExhaustion link s
  | .translationRequest w container => Sys2Proof.Machine.execTranslationRequest w container s
  | .imageLoad b => Sys2Proof.Machine.execImageLoad b s
  | .imageUnload w handle => Sys2Proof.Machine.execImageUnload w handle s
  | .quoteRequest w nonce => Sys2Proof.Machine.execQuoteRequest w nonce s
  | .journalRead first count nonce => Sys2Proof.Machine.execJournalRead first count nonce s
  | .configurationRecord verified out => Sys2Proof.Machine.execConfigurationRecord verified out s
  | .boot verified => Sys2Proof.Machine.execBoot verified s
  | .linkRekeyed link => Sys2Proof.Machine.execLinkRekeyed link s
  | .linkFlitFailsAfterRetries link => Sys2Proof.Machine.execLinkFlitFailsAfterRetries link s
  | .engineFaultResolved unit ok => Sys2Proof.Machine.execEngineFaultResolved unit ok s
  | .bdDeclComplete core slot => Sys2Proof.Machine.execBdDeclComplete core slot s
  | .formatWindowWrite n desc => Sys2Proof.Machine.execFormatWindowWrite n desc s
  | .fabricWindowWrite w n desc => Sys2Proof.Machine.execFabricWindowWrite w n desc s
  | .exportWrite n desc => Sys2Proof.Machine.execExportWrite n desc s
  | .yield => Sys2Proof.Machine.execYield s
  | .sleep => Sys2Proof.Machine.execSleep s
  | .halt => Sys2Proof.Machine.execHalt s
  | .msgWait => Sys2Proof.Machine.execMsgWait s
  | .eret => Sys2Proof.Machine.execEret s
  | .maLdst c => Sys2Proof.Machine.execMaLdst c s
  | .maSwap c => Sys2Proof.Machine.execMaSwap c s
  | .maZero c => Sys2Proof.Machine.execMaZero c s
  | .maStream c => Sys2Proof.Machine.execMaStream c s
  | .maDrain c => Sys2Proof.Machine.execMaDrain c s
  | .maEnd c => Sys2Proof.Machine.execMaEnd c s
  | .maWait c => Sys2Proof.Machine.execMaWait c s
  | .dmaCp c => Sys2Proof.Machine.execDmaCp c s
  | .dmaGt c => Sys2Proof.Machine.execDmaGt c s
  | .dmaSc c => Sys2Proof.Machine.execDmaSc c s
  | .dmaColl c => Sys2Proof.Machine.execDmaColl c s
  | .bdDecl c => Sys2Proof.Machine.execBdDecl c s
  | .bdPass c => Sys2Proof.Machine.execBdPass c s
  | .bdWake c => Sys2Proof.Machine.execBdWake c s
  | .bdStat c => Sys2Proof.Machine.execBdStat c s
  | .bdFree c => Sys2Proof.Machine.execBdFree c s
  | .vxCopy n => Sys2Proof.Machine.execVxCopy n s
  | .vxAdd n => Sys2Proof.Machine.execVxAdd n s
  | .vxSub n => Sys2Proof.Machine.execVxSub n s
  | .vxMul n => Sys2Proof.Machine.execVxMul n s
  | .vxFma n => Sys2Proof.Machine.execVxFma n s
  | .vxMin n => Sys2Proof.Machine.execVxMin n s
  | .vxMax n => Sys2Proof.Machine.execVxMax n s
  | .vxAbs n => Sys2Proof.Machine.execVxAbs n s
  | .vxNeg n => Sys2Proof.Machine.execVxNeg n s
  | .vxDiv n => Sys2Proof.Machine.execVxDiv n s
  | .vxCvt n => Sys2Proof.Machine.execVxCvt n s
  | .vxSel n => Sys2Proof.Machine.execVxSel n s
  | .vxCmpeq n => Sys2Proof.Machine.execVxCmpeq n s
  | .vxCmplt n => Sys2Proof.Machine.execVxCmplt n s
  | .vxCmple n => Sys2Proof.Machine.execVxCmple n s
  | .vxAnd n => Sys2Proof.Machine.execVxAnd n s
  | .vxOr n => Sys2Proof.Machine.execVxOr n s
  | .vxXor n => Sys2Proof.Machine.execVxXor n s
  | .vxShl n => Sys2Proof.Machine.execVxShl n s
  | .vxShr n => Sys2Proof.Machine.execVxShr n s
  | .vxSra n => Sys2Proof.Machine.execVxSra n s
  | .vxQuant n => Sys2Proof.Machine.execVxQuant n s
  | .vxDequant n => Sys2Proof.Machine.execVxDequant n s
  | .vxRsum n => Sys2Proof.Machine.execVxRsum n s
  | .vxRmax n => Sys2Proof.Machine.execVxRmax n s
  | .vxRmin n => Sys2Proof.Machine.execVxRmin n s
  | .vxRargmax n => Sys2Proof.Machine.execVxRargmax n s
  | .vxGather n => Sys2Proof.Machine.execVxGather n s
  | .vxIota n => Sys2Proof.Machine.execVxIota n s
  | .vxFill n => Sys2Proof.Machine.execVxFill n s
  | .vxExp n => Sys2Proof.Machine.execVxExp n s
  | .vxExp2 n => Sys2Proof.Machine.execVxExp2 n s
  | .vxExpm1 n => Sys2Proof.Machine.execVxExpm1 n s
  | .vxLog n => Sys2Proof.Machine.execVxLog n s
  | .vxLog2 n => Sys2Proof.Machine.execVxLog2 n s
  | .vxLog1p n => Sys2Proof.Machine.execVxLog1p n s
  | .vxSin n => Sys2Proof.Machine.execVxSin n s
  | .vxCos n => Sys2Proof.Machine.execVxCos n s
  | .vxSinpi n => Sys2Proof.Machine.execVxSinpi n s
  | .vxCospi n => Sys2Proof.Machine.execVxCospi n s
  | .vxTanh n => Sys2Proof.Machine.execVxTanh n s
  | .vxSigmoid n => Sys2Proof.Machine.execVxSigmoid n s
  | .vxErf n => Sys2Proof.Machine.execVxErf n s
  | .vxAtan n => Sys2Proof.Machine.execVxAtan n s
  | .vxSqrt n => Sys2Proof.Machine.execVxSqrt n s
  | .vxRsqrt n => Sys2Proof.Machine.execVxRsqrt n s
  | .vxRcp n => Sys2Proof.Machine.execVxRcp n s
  | .vxXaExp2 n => Sys2Proof.Machine.execVxXaExp2 n s
  | .vxXaLog2 n => Sys2Proof.Machine.execVxXaLog2 n s
  | .vxXaRcp n => Sys2Proof.Machine.execVxXaRcp n s
  | .vxXaRsqrt n => Sys2Proof.Machine.execVxXaRsqrt n s
  | .vxXaTanh n => Sys2Proof.Machine.execVxXaTanh n s
  | .vxXaSigmoid n => Sys2Proof.Machine.execVxXaSigmoid n s
  | .bAdd d s1 t i1 => Sys2Proof.Machine.execBAdd d s1 t i1 s
  | .bSub d s1 t i1 => Sys2Proof.Machine.execBSub d s1 t i1 s
  | .bMul d s1 t i1 => Sys2Proof.Machine.execBMul d s1 t i1 s
  | .bMin d s1 t i1 => Sys2Proof.Machine.execBMin d s1 t i1 s
  | .bMax d s1 t i1 => Sys2Proof.Machine.execBMax d s1 t i1 s
  | .bAnd d s1 t i1 => Sys2Proof.Machine.execBAnd d s1 t i1 s
  | .bOr d s1 t i1 => Sys2Proof.Machine.execBOr d s1 t i1 s
  | .bXor d s1 t i1 => Sys2Proof.Machine.execBXor d s1 t i1 s
  | .bShiShl d s1 n => Sys2Proof.Machine.execBShiShl d s1 n s
  | .bShiShr d s1 n => Sys2Proof.Machine.execBShiShr d s1 n s
  | .bShiSra d s1 n => Sys2Proof.Machine.execBShiSra d s1 n s
  | .bShiRot d s1 n => Sys2Proof.Machine.execBShiRot d s1 n s
  | .bLi d i1 => Sys2Proof.Machine.execBLi d i1 s
  | .bCmpEq d s1 t i1 => Sys2Proof.Machine.execBCmpEq d s1 t i1 s
  | .bCmpNe d s1 t i1 => Sys2Proof.Machine.execBCmpNe d s1 t i1 s
  | .bCmpLt d s1 t i1 => Sys2Proof.Machine.execBCmpLt d s1 t i1 s
  | .bCmpGe d s1 t i1 => Sys2Proof.Machine.execBCmpGe d s1 t i1 s
  | .bCmpLtn d s1 t i1 => Sys2Proof.Machine.execBCmpLtn d s1 t i1 s
  | .bCmpGen d s1 t i1 => Sys2Proof.Machine.execBCmpGen d s1 t i1 s
  | .bSel d s1 t => Sys2Proof.Machine.execBSel d s1 t s
  | .bFopFadd d s1 t r f => Sys2Proof.Machine.execBFopFadd d s1 t r f s
  | .bFopFmul d s1 t r f => Sys2Proof.Machine.execBFopFmul d s1 t r f s
  | .bFopFmin d s1 t r f => Sys2Proof.Machine.execBFopFmin d s1 t r f s
  | .bFopFmax d s1 t r f => Sys2Proof.Machine.execBFopFmax d s1 t r f s
  | .bFopFma d s1 t r f => Sys2Proof.Machine.execBFopFma d s1 t r f s
  | .bNbData d o => Sys2Proof.Machine.execBNbData d o s
  | .bNbCtx d o => Sys2Proof.Machine.execBNbCtx d o s
  | .bLd d s1 z i1 => Sys2Proof.Machine.execBLd d s1 z i1 s
  | .bSt s1 t z i1 => Sys2Proof.Machine.execBSt s1 t z i1 s
  | .bStPut s1 t z i1 => Sys2Proof.Machine.execBStPut s1 t z i1 s
  | .bBrNz s1 p => Sys2Proof.Machine.execBBrNz s1 p s
  | .bBrZ s1 p => Sys2Proof.Machine.execBBrZ s1 p s
  | .bJmp p => Sys2Proof.Machine.execBJmp p s
  | .bWaitNbdone s1 => Sys2Proof.Machine.execBWaitNbdone s1 s
  | .bWaitNbpc s1 p => Sys2Proof.Machine.execBWaitNbpc s1 p s
  | .bWaitFull s1 => Sys2Proof.Machine.execBWaitFull s1 s
  | .bWaitPhase s1 i1 => Sys2Proof.Machine.execBWaitPhase s1 i1 s
  | .bWaitPass s1 => Sys2Proof.Machine.execBWaitPass s1 s
  | .bWaitLocal s1 => Sys2Proof.Machine.execBWaitLocal s1 s
  | .bSleep => Sys2Proof.Machine.execBSleep s
  | .bWake s1 i1 => Sys2Proof.Machine.execBWake s1 i1 s
  | .bDone => Sys2Proof.Machine.execBDone s
  | .bSete s1 => Sys2Proof.Machine.execBSete s1 s
  | .zadd d a b => Sys2Proof.Machine.execZadd d a b s
  | .zsub d a b => Sys2Proof.Machine.execZsub d a b s
  | .zmul d a b => Sys2Proof.Machine.execZmul d a b s
  | .zmulh d a b => Sys2Proof.Machine.execZmulh d a b s
  | .zdiv d a b => Sys2Proof.Machine.execZdiv d a b s
  | .zdivn d a b => Sys2Proof.Machine.execZdivn d a b s
  | .zrem d a b => Sys2Proof.Machine.execZrem d a b s
  | .zremn d a b => Sys2Proof.Machine.execZremn d a b s
  | .zand d a b => Sys2Proof.Machine.execZand d a b s
  | .zor d a b => Sys2Proof.Machine.execZor d a b s
  | .zxor d a b => Sys2Proof.Machine.execZxor d a b s
  | .zshl d a b => Sys2Proof.Machine.execZshl d a b s
  | .zshr d a b => Sys2Proof.Machine.execZshr d a b s
  | .zsra d a b => Sys2Proof.Machine.execZsra d a b s
  | .zslt d a b => Sys2Proof.Machine.execZslt d a b s
  | .zsltn d a b => Sys2Proof.Machine.execZsltn d a b s
  | .zaddi d a i1 => Sys2Proof.Machine.execZaddi d a i1 s
  | .zandi d a i1 => Sys2Proof.Machine.execZandi d a i1 s
  | .zori d a i1 => Sys2Proof.Machine.execZori d a i1 s
  | .zxori d a i1 => Sys2Proof.Machine.execZxori d a i1 s
  | .zshli d a n => Sys2Proof.Machine.execZshli d a n s
  | .zshri d a n => Sys2Proof.Machine.execZshri d a n s
  | .zsrai d a n => Sys2Proof.Machine.execZsrai d a n s
  | .zhi d i1 => Sys2Proof.Machine.execZhi d i1 s
  | .zldb d a i1 => Sys2Proof.Machine.execZldb d a i1 s
  | .zldh d a i1 => Sys2Proof.Machine.execZldh d a i1 s
  | .zldw d a i1 => Sys2Proof.Machine.execZldw d a i1 s
  | .zldd d a i1 => Sys2Proof.Machine.execZldd d a i1 s
  | .zstb s1 a i1 => Sys2Proof.Machine.execZstb s1 a i1 s
  | .zsth s1 a i1 => Sys2Proof.Machine.execZsth s1 a i1 s
  | .zstw s1 a i1 => Sys2Proof.Machine.execZstw s1 a i1 s
  | .zstd s1 a i1 => Sys2Proof.Machine.execZstd s1 a i1 s
  | .zbeq a b disp => Sys2Proof.Machine.execZbeq a b disp s
  | .zbne a b disp => Sys2Proof.Machine.execZbne a b disp s
  | .zblt a b disp => Sys2Proof.Machine.execZblt a b disp s
  | .zbge a b disp => Sys2Proof.Machine.execZbge a b disp s
  | .zbltn a b disp => Sys2Proof.Machine.execZbltn a b disp s
  | .zbgen a b disp => Sys2Proof.Machine.execZbgen a b disp s
  | .zjal d p => Sys2Proof.Machine.execZjal d p s
  | .zjalr d a i1 => Sys2Proof.Machine.execZjalr d a i1 s
  | .zsvcReadNstRecord => Sys2Proof.Machine.execZsvcReadNstRecord s
  | .zsvcFunctionBegin => Sys2Proof.Machine.execZsvcFunctionBegin s
  | .zsvcFunctionEnd => Sys2Proof.Machine.execZsvcFunctionEnd s
  | .zsvcProvenanceRecord => Sys2Proof.Machine.execZsvcProvenanceRecord s
  | .zsvcGrowHeap => Sys2Proof.Machine.execZsvcGrowHeap s
  | .zsvcRelocationRecord => Sys2Proof.Machine.execZsvcRelocationRecord s
  | .zsvcCommit => Sys2Proof.Machine.execZsvcCommit s
  | .zsvcFail => Sys2Proof.Machine.execZsvcFail s
  | .zsvcLog => Sys2Proof.Machine.execZsvcLog s
  | .zhalt => Sys2Proof.Machine.execZhalt s
  | .idleRotation => Sys2Proof.Machine.execIdleRotation s
  | .thermalAlarm => Sys2Proof.Machine.execThermalAlarm s
  | .ptsTick => Sys2Proof.Machine.execPtsTick s
  | .timestampRebase => Sys2Proof.Machine.execTimestampRebase s
  | .residencyReport => Sys2Proof.Machine.execResidencyReport s
  | .thermalAlarmClear => Sys2Proof.Machine.execThermalAlarmClear s

end Sys2Proof.Machine
end

