-- ==== Sys2Proof/Machine/Errors.lean ====
section
/-! DEFINITION. How errors arise (R424, R425): what a cycle's errors do to the data they lie in, and to the journal. -/

namespace Sys2Proof.Machine

/-- Put a word among poisoned ones, once. -/
def addWord (w : Nat) (p : List Nat) : List Nat := if p.contains w then p else w :: p

/-- An error that its code corrects is journalled, and the data is used as corrected (R424): a core's storage is named by the
core, a link's retry by the lane. -/
def State.corrected (s : State) (p : Config.Upset) : State :=
  let core (c a : Nat) : State := s.journalCorrected 2 (s.physCore c) a (s.core c).world
  match p with
  | .sram c w => core c (8 * w)
  | .bank c i _ => core c i
  | .copy c l w => match AMap.find (s.core c).l1 l with
    | some y => core c (y.pa + 8 * (w % 4))
    | none => s
  | .text c b _ => if ((s.core c).line? b).isSome then core c b else s
  | .memory w => s.journalCorrected (s.holderOf (8 * w)).kind (s.holderOf (8 * w)).phys (8 * w) 0
  | .flit l =>
    let u := s.errorLane l
    { s with freeCount := s.freeCount + 1 }.journalCorrected u.kind u.phys u.phys 0

/-- An error in a register of a bank (R424): its value is whatever a free value says until it is written; R425 names nobody who
meets it there, and its poison goes with the register to the workspace's bytes (log 77). -/
def State.spoilRegister (s : State) (c i n : Nat) : State :=
  if (s.slot c i).live.getLsbD n then
    { s with freeCount := s.freeCount + 1 }.modSlot c i (fun sl => { sl with
      bank := AMap.put sl.bank n (Config.freeValue s.freeCount), bad := sl.bad ||| (1#32 <<< n) })
  else s

/-- An error in an L1 copy (R425); that of an owned copy lies in the line's newest data. -/
def State.spoilCopy (s : State) (c l w : Nat) : State :=
  match AMap.find (s.core c).l1 l with
  | none => s
  | some y =>
    let n := y.pa / 8 + w % 4
    let s1 := s.modCore c (fun k => { k with l1 := AMap.put k.l1 l { y with bad := addWord n y.bad } })
    if y.owned then { s1 with poison := addWord n s1.poison } else s1

/-- An error in a line of the instruction cache (R112). -/
def State.spoilText (s : State) (c b w : Nat) : State :=
  let hit (l : ILine) : ILine := if l.base = b then { l with bad := addWord (w % 16) l.bad } else l
  s.modCore c (fun k => { k with icache := AMap.put k.icache (lineSet b) ((AMap.get [] k.icache (lineSet b)).map hit) })

/-- An error that its code does not correct poisons the data it lies in (R425). In memory it lies in a slice or a channel: where a
core owns the line, that data is not the newest, and is replaced. A flit is sent again until it is right, or its link is torn
down by an event of its own (R422, R425). -/
def State.spoil (s : State) (p : Config.Upset) : State :=
  match p with
  | .sram c w => if w < 131072 then s.modCore c (fun k => { k with spoison := addWord w k.spoison }) else s
  | .bank c i n => s.spoilRegister c i (n % 32)
  | .copy c l w => s.spoilCopy c l w
  | .text c b w => if ((s.core c).line? b).isSome then s.spoilText c b w else s
  | .memory w => if 8 * w < s.physTop ∧ (s.homeLine (8 * w)).owner = none then { s with poison := addWord w s.poison } else s
  | .flit _ => s.corrected p

/-- The core that an error lies in, where it lies in one. -/
def upsetCore (p : Config.Upset) : Option Nat :=
  match p with
  | .sram c _ => some c
  | .bank c _ _ => some c
  | .copy c _ _ => some c
  | .text c _ _ => some c
  | .memory _ => none
  | .flit _ => none

/-- The errors of a cycle arise, in units that the part has (R424, R425). -/
def State.arise (s : State) : State :=
  ((Config.upsets s.freeCount).filter (fun p => match upsetCore p.1 with
    | some c => decide (c < s.coreList.length)
    | none => true)).foldl (fun s p => if p.2 then s.corrected p.1 else s.spoil p.1) { s with freeCount := s.freeCount + 1 }

end Sys2Proof.Machine
end

