-- ==== Sys2Proof/Machine/Schedule.lean ====
section
/-! DEFINITION. The course of the machine: how a thread's, a burrow's and a bead's next word is fetched, decoded and run
(R147 to R151, R158, R202, R229, R330, R336, R346), how a cycle passes (R10, R17, R30, R49, R70), and which turn comes
next (R30 to R37, R389 to R391). The spec orders few of the device's own events of one cycle; the order here is the
model's (log 22). -/

namespace Sys2Proof.Machine

/-! ## A thread's beat (R147 to R151, R158, R202) -/

/-- The record of a beat at which no word issues: a trap then names no word, and the pc plus 4 as NPC (log 17). -/
def noIssue : Issue := ⟨2 ^ 62, 0, 1, 0, 0⟩

/-- Latch the word that issues (R108). -/
def State.latch (s : State) (i : Issue) : State := s.modCurTask (fun t => { t with issue := i })

/-- The index of the word at an address within its line (R147). -/
def wordIndex (a : Nat) : Nat := (a % 128 - 8) / 4

/-- A word of a line. -/
def ILine.word (l : ILine) (i : Nat) : IWord := l.words[i]?.getD 0

/-- The record of word i of a line (R108, R153). -/
def ILine.issue (l : ILine) (i : Nat) : Issue := ⟨l.header, i, lengthOf (l.word i), l.word i, if lengthOf (l.word i) = 1 then 0 else l.word (i + 1)⟩

/-- The checks of R149 on word i of a line for an instruction of n words, in order: LINEFMT's sub-cause, or 0. -/
def lineCheck (h : Word) (i n : Nat) : Nat :=
  if h.extractLsb' 30 2 ≠ 1#2 ∨ h.getLsbD 63 = true then 4
  else if h.getLsbD i = false then 1
  else if 30 < i + n then 2
  else if (List.range (n - 1)).any (fun j => h.getLsbD (i + 1 + j)) then 3
  else 0

/-- The words of an instruction after its first. -/
def ILine.rest (l : ILine) (i : Nat) : List IWord := (List.range (lengthOf (l.word i) - 1)).map (fun j => l.word (i + 1 + j))

/-- The state in which word i of a present line runs: the word is latched, its line is the most recently used of its set,
and the next line is fetched ahead (R108, R201, R202). -/
def State.issued (s : State) (l : ILine) (i : Nat) : State :=
  ((s.latch (l.issue i)).modCore s.actCore (fun k => k.touchLine l.base)).fetchAhead s.actCore l

/-- Run a decoded word, or take UNDEF with the sub-cause of its failing check (R158). -/
def State.runDecoded (s : State) (d : Decoded) : Host.Outcome State Fault Refusal :=
  match d with
  | .ok i => exec i s
  | .bad sub => .next (s.undef sub)

/-- Whether an error lies in the header of a line or in the words that issue at index i (R112). -/
def ILine.meets (l : ILine) (i : Nat) : Bool := l.bad.any (fun w => w == 0 || overlaps (8 * w) 8 (8 + 4 * i) (4 * lengthOf (l.word i)))

/-- Issue word i of a present line (R149, R158); a word that meets an error is fetched again (R112). -/
noncomputable def State.issueWord (s : State) (l : ILine) (i : Nat) : Host.Outcome State Fault Refusal :=
  if l.meets i then ((s.latch noIssue).refetch l).demandLine s.curTask.pc.toNat
  else match lineCheck l.header i (lengthOf (l.word i)) with
  | 0 => (s.issued l i).runDecoded (decodeNative (l.word i) (l.rest i))
  | n + 1 => .next ((s.latch (l.issue i)).takeTrap (trapOf 3 (n + 1)))

/-- The checks of an issue address that no transfer has made: a forged resume address (R109, R151; log 17). -/
def State.issueAt (s : State) (a : Nat) : Option Trap :=
  if s.curTask.pastEnd then some (trapOf 3 6)
  else if a % 4 ≠ 0 then some (trapAt 4 1 a)
  else if a % 128 < 8 then some (trapAt 3 5 a)
  else none

/-- Issue from the line that holds the pc, or fetch it (R202). -/
noncomputable def State.issueHere (s : State) : Host.Outcome State Fault Refusal :=
  let a := s.curTask.pc.toNat
  match s.issueAt a with
  | some t => .next ((s.latch noIssue).takeTrap t)
  | none => match s.cur.line? (lineOf a) with
    | some l => s.issueWord l (wordIndex a)
    | none => (s.latch noIssue).demandLine a

/-- Whether a word's instruction makes no access and acts on no engine or other thread: arithmetic, a transfer, a prefetch, a
state register, and of the thread group what only ends, leaves or traps (R76, R157, R163). -/
def quietWord (w : IWord) : Bool :=
  let m := major w
  if m = 0x28 then [0, 1, 2, 9, 10, 11].contains (w.extractLsb' 0 11).toNat
  else !((decide (0x10 ≤ m) && decide (m ≤ 0x18) && m != 0x14) || [0x2A, 0x2B, 0x30, 0x31, 0x32, 0x33, 0x3C].contains m)

/-- Before an instruction with an event of its own the acting thread's queued detached nests make their accesses (R80). -/
def State.settleBefore (s : State) : State :=
  let a := s.curTask.pc.toNat
  match s.cur.line? (lineOf a) with
  | none => s
  | some l => if quietWord (l.word (wordIndex a)) then s else s.settleNests s.actCore s.curWs

/-- A thread's beat: its queued detached nests have made their accesses (R80), and a spawned task first checks its start as
a landing (R229). -/
noncomputable def State.threadBeat (s : State) : Host.Outcome State Fault Refusal :=
  let s := s.settleBefore
  if s.curTask.fresh then
    match s.checkLanding s.curTask.pc.toNat 0 with
    | .ok => (s.modCurTask (fun t => { t with fresh := false })).issueHere
    | .trap t => .next ((s.latch noIssue).takeTrap t)
    | .fetch => (s.latch noIssue).demandLine s.curTask.pc.toNat
  else s.issueHere

/-! ## A burrow's and a bead's word -/

/-- The word at a burrow's PC (R330). -/
def Burrow.word (b : Burrow) : IWord := BitVec.ofNat 32 (descNum b.inBytes (b.pc - inBase) 4)

/-- A burrow's beat: the PC, the meter, the word (R336, R338, R346; log 23). -/
noncomputable def State.burrowBeat (s : State) : Host.Outcome State Fault Refusal :=
  let b := s.burrowNow
  if b.inText b.pc = false then .next (s.zFault b 4 b.pc)
  else if b.budget ≤ b.meter then exec (.meterOut s.actCore s.actSlot) s
  else match decodeZbs b.word with
    | .ok i => exec i s
    | .bad sub => .next (s.zFault b sub 0)

/-- The word of the bead in hand (R306). -/
def State.beadHere (s : State) : Option IWord := s.cur.visit.map (fun v => (s.cur.tensor v.t).prog[v.pc]?.getD 0)

/-- The next word of the bead in hand, as a pass runs it (R306, R313). -/
noncomputable def State.beadBeat (s : State) : Host.Outcome State Fault Refusal :=
  match s.beadHere with
  | none => .next s
  | some w => match decodeBead w with
    | .ok i => exec i s
    | .bad _ => .next s

/-! ## The passing of a cycle (R10, R17, R30, R49) -/

/-- QREM of the tasks in slots falls by one at the end of a rotation, 0 staying 0 (R49; log 67). -/
def Core.rotation (k : Core) : Core :=
  (k.slots.filterMap (fun e => e.2.ws)).foldl (fun k w => k.putTask w { k.task w with qrem := (k.task w).qrem - 1 }) k

/-- The next cycle (R10, R30); the cipher engines work on meanwhile (R421), and errors arise (R424). -/
def State.tick (s : State) : State :=
  let s := s.serveCiphers.arise
  let s1 := { s with cycle := s.cycle + 1, time := s.time + 1 }
  if s1.cycle % 16 = 0 then
    { s1 with idle := (s.idle + 1) % 16, cores := s1.cores.map (fun (e : Nat × Core) => (e.1, e.2.rotation)) }
  else s1

/-- Run the turn in hand. -/
noncomputable def State.runTurn (s : State) : Host.Outcome State Fault Refusal :=
  match s.turn with
  | .event i => exec i s
  | .thread c i => (s.actAs c i).threadBeat
  | .burrow c i => (s.actAs c i).burrowBeat
  | .bead c => (s.actAs c s.actSlot).beadBeat
  | .cycle => .next s.tick

/-! ## What follows every turn -/

/-- Bridges that can go on do (R294, R401). -/
def State.serveBridges (s : State) : State :=
  s.queues.foldl (fun s e => e.2.window.foldl (fun s x => match x.copy with
    | some r => if x.status.isNone && s.copyCanStep r.bridged then s.runBridge e.1 x.k else s
    | none => s) s) s

/-- Loads of switches wait for detached nests (R244). -/
def State.holdSwitches (s : State) : State :=
  s.cores.foldl (fun s e => (e.2.slots.filter (fun x => x.2.switching.isSome)).foldl (fun s x => s.holdSwitch e.1 x.1) s) s

/-- Whether a stage is runnable (R405). -/
def State.stageReady (s : State) (q k : Nat) : Bool :=
  match (s.queue q).stage? k with
  | none => false
  | some r => match s.stageRunnable q r with
    | .ok (some _, _) => true
    | _ => false

/-- Whether an entry is ready, and since when it first was (R391). -/
def State.readyMark (s : State) (q : Nat) (e : WEntry) : WEntry :=
  if (s.queue q).ready e || s.stageReady q e.k then { e with isReady := true, readySince := some (e.readySince.getD s.cycle) }
  else { e with isReady := false }

/-- Mark the ready entries of every queue (R391). -/
def State.markReady (s : State) : State :=
  { s with queues := s.queues.map (fun (e : Nat × Queue) => (e.1, { e.2 with window := e.2.window.map (s.readyMark e.1) })) }

/-- Where gangs are placed. -/
def State.placement (s : State) : List (Nat × Nat) := s.cores.filterMap (fun e => e.2.gang.map (fun g => (e.1, g)))

/-- A change of placement is reported at once (R407). -/
def State.notePlacement (s t : State) : State :=
  if s.placement = t.placement then t else { t with residencyDue := min t.residencyDue t.micros }

/-- What the device does of itself after a turn that has taken it from s to t: waiters whose condition now holds are served
(R221, R225, R233), requests on a link that is down fail (R422), bridges go on, loads wait, ready entries and placements are noted. -/
def State.served (s t : State) : State :=
  s.notePlacement (t.serveLost.serveAll.serveBridges.serveQcbs.holdSwitches).markReady

/-! ## The device's own events -/

/-- Whether an event does anything now. -/
def State.moves (s : State) (i : Instr) : Bool :=
  match exec i s with
  | .next t => decide (t ≠ s)
  | _ => true

/-- Events of a slot. -/
def State.slotEvents (s : State) (c i : Nat) (sl : Slot) : List Instr :=
  match sl.ws, sl.switching with
  | _, some x => if x.done ≤ s.cycle ∧ x.blocked = none then [.switchComplete c i] else []
  | none, none => if i = s.cycle % 16 ∧ ((s.core c).readyBy s.cycle).isSome then [.emptySlotFill c i] else []
  | some w, none =>
    let t := s.task c w
    (match t.park with
      | .run => []
      | .memory due => if due ≤ s.cycle then [.memoryReturn c i] else []
      | .answered due _ => if due ≤ s.cycle then [.memoryReturn c i] else []
      | .bdDecl _ due _ _ _ => if due ≤ s.cycle then [.bdDeclComplete c i] else []
      | _ => [.parkRelease c i]) ++
    (if t.lateTrap.isSome then [.trapEntry c i] else []) ++ (if t.qrem = 0 then [.quantumExpiry c i] else [])

/-- Events of a core. -/
def State.coreEvents (s : State) (c : Nat) (k : Core) : List Instr :=
  (if k.slots = [] ∧ k.readyHead = none then [] else (List.range 16).flatMap (fun i => s.slotEvents c i (k.slot i))) ++
    (k.ireq.filter (fun r => decide (r.2 ≤ s.cycle))).map (fun r => .lineFill c r.1) ++
    (k.feWait.filter (fun r => r.deadline.isSome)).map (fun r => .feDeadline r.core r.ws) ++
    (if k.vq = [] then [] else [.nestStart c, .nestComplete c]) ++
    (if k.jobOpen then [.maJobAutoClose c] else []) ++
    (if k.sq = [] then [] else [.bdPassStart c, .sweepPass c, .bdPassComplete c])

/-- Setts whose array or copy engine has something to do. -/
def State.busySetts (s : State) : List Nat :=
  ((s.cores.filter (fun e => !(e.2.mq.isEmpty && e.2.cq.isEmpty))).map (fun e => s.settOf e.1) ++
    (s.setts.filter (fun e => e.2.granted.isSome || !e.2.places.isEmpty)).map (fun e => e.1)).eraseDups

/-- What the arbiters of the setts decide once a cycle's commands have all arrived (R280, R292). -/
def State.arbiterEvents (s : State) : List Instr := s.busySetts.flatMap (fun n => [.maGrant n, .copyCommandStart n])

/-- Events of a sett's array and copy engine. -/
def State.settEvents (s : State) (n : Nat) : List Instr :=
  let m := match (s.sett n).granted with
    | some c => (jobPart (s.core c).mq).length
    | none => 0
  [.maDrainRow n] ++ (List.range m).map (fun i => .maCommandComplete n i) ++
    (List.range m).map (fun i => .maCommandStart n i) ++
    (s.sett n).places.flatMap (fun p => [.copyRunWritten n p.1, .copyCommandComplete n p.1])

/-- Events of a gang besides its end. -/
def State.gangEvents (g : Nat) (G : Gang) : List Instr :=
  (if G.phase = 0 then [.gangRelease g] else if G.phase = 4 then [.gangPreempt g]
    else if G.phase = 1 then G.arrDue.map (fun e => .gbarRelease g e.1) else []) ++
  (G.colls.filter (fun x => x.running)).map (fun x => .collectiveComplete g x.m)

/-- Events of a queue besides its dispatches and its completions. -/
def State.queueEvents (q : Nat) (x : Queue) : List Instr :=
  (if x.made && x.state == 1 then [.widxObserve q] else []) ++ (if x.guard then [] else [.starvationGuard q])

/-- How a gang ends (R114, R236). -/
def gangEnds (g : Nat) (G : Gang) : List Instr :=
  (match G.failure with
    | some f => [.gangFailure g f]
    | none => []) ++ (if G.phase = 1 then [.gangRetire g] else [])

/-- What completes packets of a queue (R114, R236, R386, R398, R402, R405). -/
def State.completions (s : State) (q : Nat) (x : Queue) : List Instr :=
  (s.gangs.filter (fun e => e.2.q == q && !e.2.translation)).flatMap (fun e => gangEnds e.1 e.2) ++
    x.window.flatMap (fun e =>
      (if (x.waiting e.k).isSome && decide (e.poll ≤ s.cycle) then [.waitmemPoll q e.k] else []) ++
      (if s.waitmemOver q e.k then [.waitmemTimeout q e.k] else []) ++
      (if (x.stage? e.k).isSome then [.stageQueueObserve q e.k] else []) ++
      (match e.status with
        | some st => if e.state = .done then [] else [.packetComplete q e.k st]
        | none => [])) ++
    (s.shoots.filter (fun y => y.origin.any (fun o => o.1 == q))).map (fun y => .shootdownComplete y.id)

/-- What ends in a cycle, once all else of it has happened, so that failures that arrive together are one (R114) and the
completions set their tokens in increasing queue number (R389). -/
def State.endings (s : State) : List Instr :=
  (s.gangs.filter (fun e => e.2.translation)).flatMap (fun e => gangEnds e.1 e.2) ++ s.queues.flatMap (fun e => s.completions e.1 e.2)

/-- Events of the platform (R74, R121, R415, R421, R422, R424, R427, R431). -/
def State.platformEvents (s : State) : List Instr :=
  (s.shoots.filter (fun x => x.origin.isNone)).map (fun x => .shootdownComplete x.id) ++
    (s.keys.filter (fun e => e.2.state == 2 && e.2.accepted.isEmpty)).map (fun e => .revokeComplete (decide (1024 ≤ e.1)) (e.1 % 1024)) ++
    s.coalesce.map (fun e => .journalCoalesceFlush ⟨e.kind, e.phys⟩ e.addr) ++
    (s.links.filter (fun e => e.2.sent.toNat == 2 ^ 64 - 1 || e.2.received.toNat == 2 ^ 64 - 1)).map (fun e => .linkCounterExhaustion e.1) ++
    (if 2 ^ 47 ≤ s.topStamp then [.timestampRebase] else []) ++
    (if s.residencyDue ≤ s.micros then [.residencyReport] else []) ++
    (s.worlds.filter (fun e => e.2.dying)).map (fun e => .worldDestroy e.1) ++
    (s.cores.filter (fun e => decide (e.2.scanDue ≤ s.micros))).map (fun e => .sramScrub e.1 (Config.softErrors s.freeCount)) ++
    (if s.memScanDue ≤ s.micros then [.memoryScrub (Config.softErrors s.freeCount)] else []) ++
    (if s.cap ≠ 0 ∧ s.capDue ≤ s.micros then [.capMeasurement (Config.railPower s.freeCount)] else []) ++
    s.settling.map (fun u => .settlementComplete u)

/-! ## Dispatch (R389, R391, R405) -/

/-- The runnable stage of a queue that a turn launches from: the greatest (PROD − CONS) ÷ CAP, then the earlier (R405). -/
def State.bestStage (s : State) (q : Nat) : Option Nat :=
  ((s.queue q).window.foldl (fun (m : Option (Nat × Nat × Nat)) e =>
    match (s.queue q).stage? e.k with
    | none => m
    | some r => match s.stageRunnable q r with
      | .ok (some i, _) =>
        let a := r.seen.1 - i.cons
        (match m with
          | none => some (e.k, a, i.cap)
          | some (k, b, cap) => if b * i.cap < a * cap then some (e.k, a, i.cap) else some (k, b, cap))
      | _ => m) none).map (fun x => x.1)

/-- A stage whose queues cannot be read: its launch meets the stop (R383). -/
def State.stoppedStage (s : State) (q : Nat) : Option Nat :=
  ((s.queue q).window.find? (fun e => match (s.queue q).stage? e.k with
    | some r => (s.stageRunnable q r).toOption.isNone
    | none => false)).map (fun e => e.k)

/-- What a queue may dispatch, the lowest entry first, then a stage's launch (R389, R405). -/
def State.dispatches (s : State) (q : Nat) : List Instr :=
  let x := s.queue q
  if x.state ≠ 1 then []
  else (x.window.filter (fun e => x.ready e)).map (fun e => e.instr) ++ ((s.bestStage q).map (fun k => Instr.stageLaunch q k)).toList ++
    ((s.stoppedStage q).map (fun k => Instr.stageLaunch q k)).toList

/-- Put a queue into a list by how long it has waited (R391). -/
def State.insertOld (s : State) (q : Nat) : List Nat → List Nat
  | [] => [q]
  | a :: r => if (s.queue q).since < (s.queue a).since then q :: a :: r else a :: s.insertOld q r

/-- The queues of a class in weighted round-robin order (R391). -/
def State.classOrder (s : State) (u c : Nat) (qs : List Nat) : List Nat :=
  let l := qs.filter (fun q => (s.queue q).cls == c)
  let p := AMap.get 0 (s.feUnit u).pos c
  let last := p - 1
  let after := l.filter (fun q => decide (p ≤ q)) ++ l.filter (fun q => decide (q < last))
  if p ≠ 0 ∧ l.contains last = true then
    (if (s.queue last).turn < (s.queue last).weight then last :: after else after ++ [last])
  else after

/-- The order in which a unit asks its queues (R391). -/
def State.unitOrder (s : State) (u : Nat) : List Nat :=
  let qs := (s.queues.filter (fun e => e.2.made && e.1 / 256 == u)).map (fun e => e.1)
  let g := qs.filter (fun q => (s.queue q).guard)
  let r := qs.filter (fun q => !(s.queue q).guard)
  g.foldl (fun l q => s.insertOld q l) [] ++ (List.range 4).flatMap (fun c => s.classOrder u c r)

/-- What the units may dispatch, unit 0 first (R389, R391). -/
def State.unitEvents (s : State) : List Instr :=
  (List.range 4).flatMap (fun u => if (s.feUnit u).nextAt ≤ s.cycle then (s.unitOrder u).flatMap (fun q => s.dispatches q) else [])

/-- A list from its element k on, and then what stands before: which of several comes first is open. -/
def turned {α : Type} (k : Nat) (l : List α) : List α := l.drop (k % max 1 l.length) ++ l.take (k % max 1 l.length)

/-- The requests that have reached their homes, of each thread the oldest: the device serves them in an order it does not
state (R76). -/
def State.arrived (s : State) : List Request :=
  (s.inflight.filter (fun r => decide (r.arrive ≤ s.cycle))).foldl (fun l r =>
    if l.any (fun x => x.core == r.core && x.ws == r.ws) then l else l ++ [r]) []

/-- The device's own events that may be due, in the model's order (log 22); which arrived request is served first is a free
value (R76). -/
def State.events (s : State) : List Instr :=
  (turned (Config.freeValue s.freeCount).toNat s.arrived).map (fun r => .homeRequestArrival r.id) ++
    s.gangs.flatMap (fun e => State.gangEvents e.1 e.2) ++
    s.cores.flatMap (fun e => s.coreEvents e.1 e.2) ++
    s.busySetts.flatMap (fun n => s.settEvents n) ++
    s.queues.flatMap (fun e => State.queueEvents e.1 e.2) ++ s.platformEvents

/-! ## The next turn -/

/-- Whether a thread issues in this cycle (R30, R34, R46, R107, R115, R414). -/
def State.threadDue (s : State) (c i : Nat) : Bool :=
  let sl := s.slot c i
  i == s.cycle % 16 && sl.switching.isNone && decide (sl.nextAt ≤ s.cycle) && decide ((s.core c).scrubUntil ≤ s.cycle) &&
    !(s.stopping c) && (match sl.ws with
      | some w => (s.task c w).park == .run && (s.task c w).lateTrap.isNone
      | none => false)

/-- Whether a burrow issues in this cycle (R30, R340). -/
def State.burrowDue (s : State) (c i : Nat) : Bool :=
  let sl := s.slot c i
  i == s.cycle % 16 && sl.burrow && decide (sl.nextAt ≤ s.cycle) && decide ((s.core c).scrubUntil ≤ s.cycle) &&
    !(s.stopping c) && (AMap.get Burrow.reset s.burrows (16 * c + i)).active

/-- The cores with a beat left in this cycle (R30). -/
def State.beatsDue (s : State) : List Nat :=
  let i := s.cycle % 16
  (s.cores.filter (fun e => s.threadDue e.1 i || s.burrowDue e.1 i)).map (fun e => e.1)

/-- A beat of this cycle, if a slot has one left (R30); whose comes first is a free value (R76; log 4). When no beat is left, and
with them the cycle's arrivals, what ends in it ends, and then the setts' arbiters and the front-end units decide (R280, R292,
R389). -/
def State.beatTurn (s : State) : Turn :=
  let i := s.cycle % 16
  match turned (Config.freeValue s.freeCount).toNat s.beatsDue with
  | [] => match (s.endings ++ s.arbiterEvents ++ s.unitEvents).find? s.moves with
    | some e => .event e
    | none => .cycle
  | c :: _ => if s.threadDue c i then .thread c i else .burrow c i

/-- The free value of a choice among several is used up. -/
def State.chose (s : State) : State :=
  if 1 < s.arrived.length ∨ 1 < s.beatsDue.length then { s with freeCount := s.freeCount + 1 } else s

/-- A translation request that waits and can go on (R363). -/
def State.nextRequest (s : State) : Option (Nat × BitVec 256 × List Byte) :=
  s.worlds.findSome? (fun e => match e.2.waiting.find? (fun r => (e.2.tcache.any (fun y => y.1 == r.1)) ||
      (!(s.runInFlight e.1 r.1) && (s.burrowCore e.1).isSome)) with
    | some r => some (e.1, r)
    | none => none)

/-- Drop one waiting request: it is asked again. -/
def World.unwait (x : World) (r : BitVec 256 × List Byte) : World := { x with waiting := x.waiting.erase r }

/-- Whether an event reaches a part that is in recovery: the management port's alone (R28, R430;
log 53). -/
def managed (i : Instr) : Bool :=
  match i with
  | .boot _ => true
  | .configurationRecord _ _ => true
  | .powerCapSet _ => true
  | .journalRead _ _ _ => true
  | .quoteRequest _ _ => true
  | _ => false

/-- What comes first of what has come from outside: of a command and a revocation that reach a cipher engine in the same
cycle the command is first (R421). -/
def firstOf (i : Instr) (r : List Instr) : Instr :=
  match i with
  | .keySlotRevoke net slot => (r.find? (fun j => match j with
      | .cipherCommand b => b.net == net && b.slot == slot
      | _ => false)).getD i
  | _ => i

/-- Choose the next turn: an idle rotation, what has come from outside, the device's own events, then the slots' beats. -/
def State.arm (s : State) : State :=
  if s.booted ∧ s.cycle % 16 = 0 ∧ s.idle < s.idleNow then { s with turn := .event .idleRotation }
  else match s.inbox with
    | i :: r =>
      let e := firstOf i r
      { s with inbox := s.inbox.erase e, turn := if s.booted || managed e then .event e else .cycle }
    | [] =>
      if s.booted = false then { s with turn := .cycle }
      else match s.events.find? s.moves with
        | some i => { s.chose with turn := .event i }
        | none => match s.nextRequest with
          | some (w, r) => { s.putWorld w ((s.world w).unwait r) with turn := .event (.translationRequest w r.2) }
          | none => { s.chose with turn := s.beatTurn }

/-- After a turn: the device serves what it serves of itself, and the next turn is chosen. A cycle that is a multiple of
64 begins with the tick of R70. -/
def State.settleStep (s t : State) : State :=
  let u := s.served t
  if t.turn = .cycle ∧ t.booted = true ∧ t.cycle % 64 = 0 then { u with turn := .event .ptsTick } else u.arm

end Sys2Proof.Machine
end

