-- ==== Sys2Proof/Machine/Step.lean ====
section
/-! DEFINITION. One step of the machine, and the placing of one table word where the next step fetches. -/

namespace Sys2Proof.Machine

/-- One step: the turn in hand, then what follows every turn. -/
noncomputable def step (s : State) : Host.Outcome State Fault Refusal :=
  match s.runTurn with
  | .next t => .next (s.settleStep t)
  | .fault r => .fault r
  | .refused r => .refused r

/-- The eight words of a table word, those above nbits zero. -/
def tableWords (nbits w : Nat) : List IWord := wordsOf 8 (w % 2 ^ (max nbits 32))

/-- The fetch line that holds words from its word 0 on: VER 0b01, FEND, and one instruction, at word 0 (R147). -/
def placedLine (ws : List IWord) : ILine :=
  ⟨0x10000, 0x4000000140000001, ws ++ List.replicate 22 0, []⟩

/-- Native words at the pc of core 0's slot 0, in a line that is present, as that slot's beat. -/
def State.placeNative (s : State) (ws : List IWord) : State :=
  let k := s.core 0
  let w := (k.slot 0).ws.getD 0
  let t := { k.task w with pc := 0x10008, pastEnd := false, fresh := false }
  { s.putCore 0 ((({ k with visit := none }.addLine (placedLine ws)).putSlot 0 { k.slot 0 with ws := some w, switching := none }).putTask w t) with
    turn := .thread 0 0 }

/-- A bootstrap word as the whole text of a burrow in core 0's slot 0, as its beat (R343). -/
def State.placeBurrow (s : State) (w : IWord) : State :=
  let dir := bytesOf 8 (4 * 2 ^ 32 + 64) ++ List.replicate 56 0#8
  let b := { Burrow.reset with
    active := true, pc := 0x100000000040, budget := 1, inBytes := dir ++ bytesOf 4 w.toNat }
  { s with
    burrows := AMap.put s.burrows 0 b
    cores := AMap.put s.cores 0 ((s.core 0).putSlot 0 { (s.core 0).slot 0 with ws := none, switching := none, burrow := true })
    turn := .burrow 0 0 }

/-- A bead word as the program of the bead in hand of core 0, as its next word (R306). -/
def State.placeBead (s : State) (w : IWord) : State :=
  let k := s.core 0
  let x := { Tensor.reset with declared := true, window := 1, plen := 1, prog := [w] }
  let v : Visit := ⟨0, 0, 0, 0, [], 0, 0, 0, 0, 0, none, false, 0, 0⟩
  { s.putCore 0 { k with tensors := AMap.put k.tensors 0 x, visit := some v } with turn := .bead 0 }

/-- The state with a table word placed where the next step fetches it: as native text, else as a burrow's word, else as a
bead's (decodeTableWord reads it in the same order; logs 24 and 50). -/
noncomputable def State.withFetchWord (s : State) (nbits w : Nat) : State :=
  let ws := tableWords nbits w
  let w0 := ws.head?.getD 0
  match decodeNative w0 (ws.drop 1) with
  | .ok _ => s.placeNative ws
  | .bad _ => match decodeZbs w0 with
    | .ok _ => s.placeBurrow w0
    | .bad _ => s.placeBead w0

end Sys2Proof.Machine
end

