-- ==== Sys2Proof/Safety.lean ====
section
/-! DEFINITION. The terms in which claims about the machine are stated: one byte of memory, what an instruction leaves
unchanged, what it completes with, and which turns the machine may have in hand. -/

namespace Sys2Proof.Machine

/-- One byte of world memory, by physical address. -/
def State.memByte (s : State) (a : Nat) : Byte := Memory.read s.mem a

/-- One byte of a core's scratchpad. -/
def State.spadByte (s : State) (c a : Nat) : Byte := Memory.read (s.core c).scratch a

/-- Every byte of world memory and of every scratchpad reads as before. -/
def SameBytes (s t : State) : Prop := (∀ a, t.memByte a = s.memByte a) ∧ ∀ c a, t.spadByte c a = s.spadByte c a

/-- Every byte of world memory reads as before, and every scratchpad byte but n bytes of core c from an offset. -/
def SpadBytesBut (s t : State) (c off n : Nat) : Prop :=
  (∀ a, t.memByte a = s.memByte a) ∧ ∀ x a, ¬(x = c ∧ off ≤ a ∧ a < off + n) → t.spadByte x a = s.spadByte x a

/-- Every scratchpad byte reads as before, and every byte of world memory but n from an address. -/
def MemBytesBut (s t : State) (pa n : Nat) : Prop :=
  (∀ a, ¬(pa ≤ a ∧ a < pa + n) → t.memByte a = s.memByte a) ∧ ∀ c a, t.spadByte c a = s.spadByte c a

/-- Outside one core nothing of the device has changed. -/
def OneCore (c : Nat) (s t : State) : Prop := t = { s with cores := t.cores } ∧ ∀ x, x ≠ c → t.core x = s.core x

/-- Outside the acting core nothing of the device has changed. -/
def OnlyCore (s t : State) : Prop := OneCore s.actCore s t

/-- Outside the acting thread's slot, its task's record and the bytes of its core's scratchpad, with the errors in them, nothing of
the device has changed: no other core, slot, task, special register, engine, byte of world memory or unit. -/
structure SameElseSpad (s t : State) : Prop where
  device : OnlyCore s t
  core : t.cur = { s.cur with
    scratch := t.cur.scratch, spoison := t.cur.spoison, slots := t.cur.slots, tasks := t.cur.tasks }
  slots : ∀ i, i ≠ s.actSlot → t.slot s.actCore i = s.slot s.actCore i
  tasks : ∀ w, w ≠ s.curWs → t.task s.actCore w = s.task s.actCore w

/-- Outside the acting thread's slot and its task's record nothing of the device has changed. -/
def SameElse (s t : State) : Prop := SameElseSpad s t ∧ t.cur.scratch = s.cur.scratch ∧ t.cur.spoison = s.cur.spoison

/-- Every register of the acting thread but those named reads as before. -/
def SameRegs (s t : State) (ds : List (BitVec 5)) : Prop := ∀ r, r ∉ ds → t.rd r = s.rd r

/-- The acting thread's instruction is complete and the next one in sequence follows after n rotations (R148, R150,
R177): of the thread's state only the pc has moved. -/
structure GoesOn (s t : State) (n : Nat) : Prop where
  pc : t.curTask.pc = s.npc
  pastEnd : t.curTask.pastEnd = s.nextPc?.isNone
  task : t.curTask = { s.curTask with pc := t.curTask.pc, pastEnd := t.curTask.pastEnd, resume := none }
  slot : t.curSlot = { s.curSlot with
    bank := t.curSlot.bank, live := t.curSlot.live, dirty := t.curSlot.dirty, bad := t.curSlot.bad,
    nextAt := s.cycle + 16 * n }

/-- The acting thread's instruction has raised flags, is complete, and the next in sequence follows (R138, R180). -/
structure GoesOnFlags (s t : State) (n : Nat) (fl : Flags) : Prop where
  pc : t.curTask.pc = s.npc
  task : t.curTask = { s.curTask with
    flags := s.curTask.flags ||| fl, pc := t.curTask.pc, pastEnd := s.nextPc?.isNone, resume := none }
  slot : t.curSlot = { s.curSlot with
    bank := t.curSlot.bank, live := t.curSlot.live, dirty := t.curSlot.dirty, bad := t.curSlot.bad,
    nextAt := s.cycle + 16 * n }

/-- A transfer to an address: of the thread's state only the pc has moved (R203, R210). -/
structure GoesTo (s t : State) (tgt : Word) : Prop where
  pc : t.curTask.pc = tgt
  task : t.curTask = { s.curTask with pc := tgt, pastEnd := false, resume := none }
  slot : t.curSlot = { s.curSlot with
    bank := t.curSlot.bank, live := t.curSlot.live, dirty := t.curSlot.dirty, bad := t.curSlot.bad,
    nextAt := s.cycle + 16 }

/-- A number of the trap record of the acting workspace, as another state holds it (R108). -/
def recordAt (s u : State) (off n : Nat) : Nat := u.sNum s.actCore (wsOff s.curWs (0x100 + off)) n

/-- What the entry into a handler leaves (R104, R107, R108): the thread stands at the vector and issues three beats later,
with its flags and registers as they were; the record holds the cause, its addresses and the FLAGS of the moment; of the
device nothing else has changed but the workspace's register bytes, which the bank was written back to: no other thread of
the core, no queue, common register, granule or handle of it, no other core and no unit. -/
structure HandlerEntered (s u : State) (t : Trap) (vec : Word) (hv : Nat) : Prop where
  task : u.curTask = s.curTask.atHandler vec
  slot : u.curSlot = { s.curSlot with nextAt := s.cycle + 48 }
  regs : SameRegs s u []
  cause : bitsOf (recordAt s u 0 8) 0 8 = t.cause % 256
  sub : bitsOf (recordAt s u 0 8) 8 16 = t.sub % 65536
  ilen : bitsOf (recordAt s u 0 8) 26 2 = s.ilen
  av : bitOf (recordAt s u 0 8) 28 = t.faddr.isSome
  ev : bitOf (recordAt s u 0 8) 29 = t.eidx.isSome
  hnd : bitsOf (recordAt s u 0 8) 30 2 = hv
  fsnap : bitsOf (recordAt s u 0 8) 32 5 = s.curTask.flags.toNat
  epc : recordAt s u 8 8 = s.curTask.pc.toNat
  faddr : recordAt s u 0x10 8 = (t.faddr.getD 0).toNat
  word0 : recordAt s u 0x18 4 = s.curTask.issue.iw0.toNat
  word1 : recordAt s u 0x1C 4 = s.curTask.issue.iw1.toNat
  eidx : recordAt s u 0x20 4 = t.eidx.getD 0 % 2 ^ 32
  npc : recordAt s u 0x28 8 = (if t.cause = 3 ∧ t.sub = 6 then s.curTask.pc else s.npc).toNat
  rpc : recordAt s u 0x30 8 = (if t.cause = 0x12 then s.npc else s.curTask.pc).toNat
  bytes : SpadBytesBut s u s.actCore (wsOff s.curWs 0) 0x140
  frame : SameElseSpad s u

/-- An instruction raises a trap at a state: with a handler for its cause and none running, the entry of R107. -/
def Traps (s : State) (i : Instr) (t : Trap) : Prop :=
  ∀ vec hv, s.hnd s.actCore s.curWs = 0 → s.curTask.vector t.cause = (vec, hv) → vec ≠ 0 →
    ∃ u, exec i s = .next u ∧ HandlerEntered s u t vec hv

/-- An instruction completes at a state with a value in W(d), after n rotations, and leaves everything else: the other
registers, the flags and the rest of the thread's state, every byte of memory and the rest of the device. -/
def Gives (s : State) (i : Instr) (d : BitVec 5) (v : Word) (n : Nat) : Prop :=
  ∃ t, exec i s = .next t ∧ t.rd d = v ∧ SameRegs s t [d] ∧ GoesOn s t n ∧ SameElse s t ∧ SameBytes s t

/-- The same, after one rotation, with the value said bit by bit. -/
def GivesBits (s : State) (i : Instr) (d : BitVec 5) (f : Nat → Bool) : Prop :=
  ∃ v : Word, (∀ j, j < 64 → v.getLsbD j = f j) ∧ Gives s i d v 1

/-- An instruction completes at a state with a value in W(d) and flags raised, after n rotations and some draws of its
workspace's generator; the other registers, the rest of the thread's state, every byte but the draw counter's and the rest
of the device are as before. -/
def GivesFlags (s : State) (i : Instr) (d : BitVec 5) (v : Word) (fl : Flags) (draws n : Nat) : Prop :=
  ∃ t, exec i s = .next t ∧ t.rd d = v ∧ SameRegs s t [d] ∧ GoesOnFlags s t n fl ∧ SameElseSpad s t ∧
    SpadBytesBut s t s.actCore (wsOff s.curWs 0x1D0) (if draws = 0 then 0 else 8) ∧
    t.drawCount s.actCore s.curWs = (s.drawCount s.actCore s.curWs + draws) % 2 ^ 64

/-- A float instruction with a result and flags: it gives them, or, where FTEN enables one of the flags, it traps with ARITH,
the flags in the sub-cause, and has no effect (R105, R138, R180). -/
def FloatGives (s : State) (i : Instr) (d : BitVec 5) (x : Word × Flags) (draws n : Nat) : Prop :=
  (x.2 &&& s.curTask.ften.setWidth 5 = 0#5 → GivesFlags s i d x.1 x.2 draws n) ∧
  (x.2 &&& s.curTask.ften.setWidth 5 ≠ 0#5 → Traps s i (trapOf 0x0A x.2.toNat))

/-- 1 where a relation holds, 0 otherwise. -/
def oneIf (p : Prop) [Decidable p] : Word := if p then 1 else 0

/-- An instruction completes at a state with no other effect than going on after n rotations. -/
def Continues (s : State) (i : Instr) (n : Nat) : Prop :=
  ∃ t, exec i s = .next t ∧ SameRegs s t [] ∧ GoesOn s t n ∧ SameElse s t ∧ SameBytes s t

/-- An instruction completes at a state by a transfer to an address and no other effect. -/
def Jumps (s : State) (i : Instr) (tgt : Word) : Prop :=
  ∃ t, exec i s = .next t ∧ SameRegs s t [] ∧ GoesTo s t tgt ∧ SameElse s t ∧ SameBytes s t

/-- The registers after MarkDead(DEADM) (R44, R206): those it names read zero, but w30 where it takes a link. -/
def DeadMarked (s t : State) (link : Option Word) : Prop :=
  ∀ r : BitVec 5, t.rd r = match link with
    | some v => if r = 30#5 then v else if s.curTask.deadm.getLsbD r.toNat then 0 else s.rd r
    | none => if s.curTask.deadm.getLsbD r.toNat then 0 else s.rd r

/-- An address at which a plain transfer may land (R147, R151, R203): in the transfer's own object, or outside every object
as the transfer is, a word of a line that is present and marked as a target. -/
def Landable (s : State) (tgt : Word) : Prop :=
  s.obj tgt.toNat = s.obj s.curTask.pc.toNat ∧ tgt.toNat % 4 = 0 ∧ 8 ≤ tgt.toNat % 128 ∧
    ∃ l, s.cur.line? (tgt.toNat / 128 * 128) = some l ∧ l.header.getLsbD (32 + (tgt.toNat % 128 - 8) / 4) = true

/-- An instruction raises a trap once the thread's travelling `red` requests are performed, which leaves u (R217). -/
def TrapsFrom (u s : State) (i : Instr) (t : Trap) : Prop :=
  ∀ vec hv, u.hnd u.actCore u.curWs = 0 → u.curTask.vector t.cause = (vec, hv) → vec ≠ 0 →
    ∃ v, exec i s = .next v ∧ HandlerEntered u v t vec hv

/-- The acting thread's instruction is complete and has left its task's record as k; the next in sequence follows. -/
structure GoesOnAs (s t : State) (n : Nat) (k : Task) : Prop where
  task : t.curTask = { k with pc := s.npc, pastEnd := s.nextPc?.isNone, resume := none }
  slot : t.curSlot = { s.curSlot with
    bank := t.curSlot.bank, live := t.curSlot.live, dirty := t.curSlot.dirty, bad := t.curSlot.bad,
    nextAt := s.cycle + 16 * n }

/-- The acting task has completed its instruction and is leaving its slot with a TSTATE, and `inc` enters after it: the
slot's next 2 or 3 beats are the switch's (R46, R47, R227). Of the scratchpad only LINK fields have changed. -/
structure Leaves (s t : State) (st : Nat) (inc : Option Nat) : Prop where
  device : OnlyCore s t
  core : t.cur = { s.cur with
    scratch := t.cur.scratch, slots := t.cur.slots, tasks := t.cur.tasks, ready := t.cur.ready }
  task : t.curTask = { s.curTask with pc := s.npc, pastEnd := s.nextPc?.isNone, resume := none }
  tasks : ∀ w, w ≠ s.curWs → t.task s.actCore w = s.task s.actCore w
  slot : t.curSlot = { s.curSlot with
    bank := t.curSlot.bank, live := t.curSlot.live, dirty := t.curSlot.dirty, bad := t.curSlot.bad,
    nextAt := s.cycle + 16
    switching := some ⟨s.curSlot.ws.map (fun w => (w, st)), inc,
      s.nextBeat + 16 * (if t.curSlot.dirtyCount ≤ 16 then 2 else 3), none⟩ }
  slots : ∀ i, i ≠ s.actSlot → t.slot s.actCore i = s.slot s.actCore i
  ready : ∀ p, p < 4 → t.cur.readyList p = (s.cur.readyList p).filter (fun w => decide (some w ≠ inc))
  bytes : ∀ a, a % 1024 ≠ 0x18A → a % 1024 ≠ 0x18B → t.spadByte s.actCore a = s.spadByte s.actCore a

/-- The workspace at the head of the highest-priority ready list of the acting core (R47). -/
def State.readyNext (s : State) : Option Nat := s.cur.readyHead.map (fun e => e.2)

/-- An instruction sends a request to its home and parks until the answer returns (R32, R103, R120, R214): u is the state once
the thread's travelling `red` requests are performed and its translation noted; the request reaches its home after what the
translation took and half its travel, six cycles before its memory stage would have it there, as the model issues every
access (log 46); nothing else changes. -/
def Sends (u s : State) (i : Instr) (op : ReqOp) (ea : Nat) (l : Loc) (deadline : Option Nat) : Prop :=
  ∃ r : Request, r = ⟨u.nextId, u.actCore, u.curWs, u.cur.world, u.cycle + u.cur.late + (u.travel u.actCore l + 1) / 2,
      u.travel u.actCore l / 2, u.pts u.actCore, op, ea, l, deadline⟩ ∧
    exec i s = .next (({ u with nextId := u.nextId + 1, inflight := u.inflight ++ [r] }).modCurTask
      (fun k => { k with park := .home r.id }))

/-- The other slots of the acting core, and the other tasks' records, are as before. -/
def OtherThreads (s t : State) : Prop :=
  (∀ i, i ≠ s.actSlot → t.slot s.actCore i = s.slot s.actCore i) ∧
  ∀ w, w ≠ s.curWs → t.task s.actCore w = s.task s.actCore w

/-- What an access of the acting thread may change outside its own slot, its task's record and its core's scratchpad: the
bytes of world memory, and the memory system's own records of timestamps, leases, copies, translations and walks, of the
lines that L1, L2 and LLC hold, of poison and of what engines have written that nobody has acquired. -/
structure MemFrame (s t : State) : Prop where
  device : t = { s with
    cores := t.cores, setts := t.setts, mem := t.mem, poison := t.poison, unsettled := t.unsettled, home := t.home, l2hts := t.l2hts
    llchts := t.llchts, l2 := t.l2, llc := t.llc, walks := t.walks, freeCount := t.freeCount }
  setts : ∀ n, t.sett n = { s.sett n with tlb := (t.sett n).tlb }
  others : ∀ c, c ≠ s.actCore → t.core c = { s.core c with l1 := (t.core c).l1 }
  core : t.cur = { s.cur with
    slots := t.cur.slots, tasks := t.cur.tasks, scratch := t.cur.scratch, spoison := t.cur.spoison, hts := t.cur.hts
    ptsOff := t.cur.ptsOff, l1 := t.cur.l1, lmiss := t.cur.lmiss, tlb := t.cur.tlb, late := t.cur.late }
  threads : OtherThreads s t

/-- An access of the acting thread passes its checks and lands at a place, clear of its own nests' footprints (R81, R195) and
of bytes an engine has written that nobody has acquired (R84). -/
def Reaches (u : State) (ea : Nat) (acc : Acc) (l : Loc) (x : Walk) : Prop :=
  u.check u.actCore u.curWs ea acc = .ok l x ∧ u.opened u.cur.world l acc.n = false ∧
    ∀ off, l = .spad u.actCore off → u.footHit u.actCore u.curWs off acc.n = false

/-- The instruction is complete; where its access comes back after the slot's rotation, the thread waits for it (R34). -/
def GoesOnBy (s t : State) (due : Nat) : Prop :=
  (due ≤ s.cycle + 15 → GoesOn s t 1) ∧
  (s.cycle + 15 < due → GoesOnAs s t 1 { s.curTask with park := .memory due })

/-- Whether an offset of a core's scratchpad lies in the register bytes of the acting workspace (R43, R196). -/
def State.inBank (u : State) (off : Nat) : Prop := off / 1024 = u.curWs ∧ off % 1024 < 256

/-- The 8-byte word of a scratchpad around an aligned place once n bytes of v are stored there: a word of a live task's
return stack loses its valid bit (R208). -/
def State.stored (u : State) (c off n v : Nat) : Nat :=
  let w := insertBits (u.sNum c (off / 8 * 8) 8) (8 * (off % 8)) (8 * n) v
  if liveState (u.task c (off / 1024)).tstate = true ∧ 0x200 ≤ off % 1024 ∧ off % 1024 < 0x240 then w / 2 * 2 else w

/-- The effective address and the access of the instructions that access one place as a thread (R194, R212). -/
def State.accessOf (s : State) : Instr → Option (Nat × Acc)
  | .ld _ a z o => some (s.ea a o, s.plain (sizeBytes z) true false)
  | .ldSx _ a z o => some (s.ea a o, s.plain (sizeBytes z) true false)
  | .ldUp _ a z o => some (s.ea a o, s.plain (sizeBytes z) true false)
  | .st _ a z o => some (s.ea a o, s.plain (sizeBytes z) false true)
  | .stUp _ a z o => some (s.ea a o, s.plain (sizeBytes z) false true)
  | .ldFeKeep _ a z o => some (s.ea a o, s.syncAcc 4 (sizeBytes z) true false)
  | .ldFeTake _ a z o => some (s.ea a o, s.syncAcc 4 (sizeBytes z) true false)
  | .stFeFill _ a z o => some (s.ea a o, s.syncAcc 4 (sizeBytes z) false true)
  | .stFePut _ a z o => some (s.ea a o, s.syncAcc 4 (sizeBytes z) false true)
  | .stFeClear a z o => some (s.ea a o, s.syncAcc 4 (sizeBytes z) false true)
  | .amoAdd _ a _ z => some ((s.rd a).toNat, s.syncAcc 1 (amoBytes z) true true)
  | .amoAnd _ a _ z => some ((s.rd a).toNat, s.syncAcc 1 (amoBytes z) true true)
  | .amoOr _ a _ z => some ((s.rd a).toNat, s.syncAcc 1 (amoBytes z) true true)
  | .amoXor _ a _ z => some ((s.rd a).toNat, s.syncAcc 1 (amoBytes z) true true)
  | .amoMin _ a _ z => some ((s.rd a).toNat, s.syncAcc 1 (amoBytes z) true true)
  | .amoMax _ a _ z => some ((s.rd a).toNat, s.syncAcc 1 (amoBytes z) true true)
  | .amoMinn _ a _ z => some ((s.rd a).toNat, s.syncAcc 1 (amoBytes z) true true)
  | .amoMaxn _ a _ z => some ((s.rd a).toNat, s.syncAcc 1 (amoBytes z) true true)
  | .amoSwap _ a _ z => some ((s.rd a).toNat, s.syncAcc 1 (amoBytes z) true true)
  | .amoFaddF32 _ a _ => some ((s.rd a).toNat, s.syncAcc 1 4 true true)
  | .amoFaddF64 _ a _ => some ((s.rd a).toNat, s.syncAcc 1 8 true true)
  | .cas _ a _ z => some ((s.rd a).toNat, s.syncAcc 1 (amoBytes z) true true)
  | .redAdd a _ z => some ((s.rd a).toNat, s.syncAcc 7 (amoBytes z) true true)
  | .redAnd a _ z => some ((s.rd a).toNat, s.syncAcc 7 (amoBytes z) true true)
  | .redOr a _ z => some ((s.rd a).toNat, s.syncAcc 7 (amoBytes z) true true)
  | .redXor a _ z => some ((s.rd a).toNat, s.syncAcc 7 (amoBytes z) true true)
  | .redMin a _ z => some ((s.rd a).toNat, s.syncAcc 7 (amoBytes z) true true)
  | .redMax a _ z => some ((s.rd a).toNat, s.syncAcc 7 (amoBytes z) true true)
  | .redMinn a _ z => some ((s.rd a).toNat, s.syncAcc 7 (amoBytes z) true true)
  | .redMaxn a _ z => some ((s.rd a).toNat, s.syncAcc 7 (amoBytes z) true true)
  | .ulogAppAddF32 a _ _ => some ((s.rd a).toNat, s.syncAcc 2 4 true true)
  | .ulogAppAddF64 a _ _ => some ((s.rd a).toNat, s.syncAcc 2 8 true true)
  | .ulogAppAddI32 a _ _ => some ((s.rd a).toNat, s.syncAcc 2 4 true true)
  | .ulogAppAddI64 a _ _ => some ((s.rd a).toNat, s.syncAcc 2 8 true true)
  | .ulogAppMaxF32 a _ _ => some ((s.rd a).toNat, s.syncAcc 2 4 true true)
  | .ulogAppMinF32 a _ _ => some ((s.rd a).toNat, s.syncAcc 2 4 true true)
  | .ulogAppMaxF64 a _ _ => some ((s.rd a).toNat, s.syncAcc 2 8 true true)
  | .ulogAppMinF64 a _ _ => some ((s.rd a).toNat, s.syncAcc 2 8 true true)
  | .clInit a _ => some ((s.rd a).toNat, s.syncAcc 3 16 true true)
  | .clArm a _ => some ((s.rd a).toNat, s.syncAcc 3 16 true true)
  | .clAdd a _ => some ((s.rd a).toNat, s.syncAcc 3 16 true true)
  | .clWait _ a _ => some ((s.rd a).toNat, s.syncAcc 3 16 true false)
  | .clTest _ a => some ((s.rd a).toNat, s.syncAcc 3 16 true false)
  | _ => none

/-- An instruction is complete at the issuing core's own scratchpad (R214): its result in W(d), if it has one, and the
request's number taken; of the core, the scratchpad, its granules' bits and its stamps may have changed, of the other
threads nothing but what the change of a granule's bit releases after the step, and engine writes may have been acquired. -/
structure OwnDone (u t : State) (ds : List (BitVec 5)) : Prop where
  goesOn : GoesOn u t 1
  regs : SameRegs u t ds
  device : OnlyCore { u with nextId := u.nextId + 1, unsettled := t.unsettled } t
  threads : OtherThreads u t
  core : t.cur = { u.cur with
    slots := t.cur.slots, tasks := t.cur.tasks, scratch := t.cur.scratch, spoison := t.cur.spoison, hts := t.cur.hts
    ptsOff := t.cur.ptsOff, full := t.cur.full, late := t.cur.late }

/-- The vop code and the fields of a nest (R165). -/
def vopOf : Instr → Option (Nat × Nest)
  | .vxCopy n => some (0, n)
  | .vxAdd n => some (1, n)
  | .vxSub n => some (2, n)
  | .vxMul n => some (3, n)
  | .vxFma n => some (4, n)
  | .vxMin n => some (5, n)
  | .vxMax n => some (6, n)
  | .vxAbs n => some (7, n)
  | .vxNeg n => some (8, n)
  | .vxDiv n => some (9, n)
  | .vxCvt n => some (10, n)
  | .vxSel n => some (11, n)
  | .vxCmpeq n => some (12, n)
  | .vxCmplt n => some (13, n)
  | .vxCmple n => some (14, n)
  | .vxAnd n => some (15, n)
  | .vxOr n => some (16, n)
  | .vxXor n => some (17, n)
  | .vxShl n => some (18, n)
  | .vxShr n => some (19, n)
  | .vxSra n => some (20, n)
  | .vxQuant n => some (21, n)
  | .vxDequant n => some (22, n)
  | .vxRsum n => some (23, n)
  | .vxRmax n => some (24, n)
  | .vxRmin n => some (25, n)
  | .vxRargmax n => some (26, n)
  | .vxGather n => some (27, n)
  | .vxIota n => some (28, n)
  | .vxFill n => some (29, n)
  | .vxExp n => some (64, n)
  | .vxExp2 n => some (65, n)
  | .vxExpm1 n => some (66, n)
  | .vxLog n => some (67, n)
  | .vxLog2 n => some (68, n)
  | .vxLog1p n => some (69, n)
  | .vxSin n => some (70, n)
  | .vxCos n => some (71, n)
  | .vxSinpi n => some (72, n)
  | .vxCospi n => some (73, n)
  | .vxTanh n => some (74, n)
  | .vxSigmoid n => some (75, n)
  | .vxErf n => some (76, n)
  | .vxAtan n => some (77, n)
  | .vxSqrt n => some (78, n)
  | .vxRsqrt n => some (79, n)
  | .vxRcp n => some (80, n)
  | .vxXaExp2 n => some (96, n)
  | .vxXaLog2 n => some (97, n)
  | .vxXaRcp n => some (98, n)
  | .vxXaRsqrt n => some (99, n)
  | .vxXaTanh n => some (100, n)
  | .vxXaSigmoid n => some (101, n)
  | _ => none

/-- A trap determined late by the thread of a core and slot, from a state w: its entry takes the slot's next two beats (R107). -/
def LateTraps (s : State) (i : Instr) (w : State) (x : Trap) : Prop :=
  ∀ vec hv, w.hnd w.actCore w.curWs = 0 → w.curTask.vector x.cause = (vec, hv) → vec ≠ 0 →
    ∃ v, HandlerEntered w v x vec hv ∧ exec i s = .next (v.modCurSlot (fun sl => { sl with nextAt := w.nextBeat + 32 }))

/-- A bead word has run in the visit v and written x to d, with n accesses counted; the next word follows (R306, R307). A
state w is left, of which nothing but the visit is said here. -/
def BeadGives (w s : State) (i : Instr) (v : Visit) (d : BitVec 3) (x : Word) (n : Nat) : Prop :=
  ∃ y : Visit, exec i s = .next (w.putVisit y) ∧
    (∀ r, y.reg r = if r = d ∧ d ≠ 0#3 then (if d = 2#3 then (x.setWidth 32).signExtend 64 else x) else v.reg r) ∧
    y = { v with e := y.e, l := y.l, regs := y.regs, pc := v.pc + 1, steps := v.steps + 1, ran := true, accesses := v.accesses + n }

/-- A bead word has run in the visit v and written no register; the word at p follows, and n accesses are counted. -/
def BeadGoesTo (w s : State) (i : Instr) (v : Visit) (p n : Nat) : Prop :=
  exec i s = .next (w.putVisit { v with pc := p, steps := v.steps + 1, ran := true, accesses := v.accesses + n })

/-- A bead word ends its visit with an ST, and with WK and WARG (R304). -/
def BeadStops (w s : State) (i : Instr) (v : Visit) (st wk warg : Nat) : Prop :=
  exec i s = .next (w.putVisit { v with
    pc := v.pc + 1, steps := v.steps + 1, ran := true, stop := st, wk := wk, warg := warg })

/-- A bead word faults: it has no effect but to end the visit with the trap, EIDX the bead's index (R324). -/
def BeadFaults (s : State) (i : Instr) (v : Visit) (t : Trap) : Prop :=
  exec i s = .next (s.putVisit { v with stop := 4, trap := some { t with eidx := some v.k } })

/-- The acting slot's burrow has run an instruction and is y but for its meter, one higher, and its pc; the next issues a
rotation later, and nothing else of the device has changed (R339, R346). -/
def ZGoes (s : State) (i : Instr) (y : Burrow) (next : Nat) : Prop :=
  exec i s = .next ((s.putBurrow { y with meter := s.burrowNow.meter + 1, pc := next % 2 ^ 64 }).modCurSlot
    (fun k => { k with nextAt := s.cycle + 16 }))

/-- The same, with v in z(d) and the other registers as before; z0 reads as zero (R330). Else the burrow is y. -/
def ZSets (s : State) (i : Instr) (y : Burrow) (d : BitVec 4) (v : Word) (next : Nat) : Prop :=
  ∃ w : Burrow, ZGoes s i w next ∧ w = { y with z := w.z } ∧
    ∀ r, w.reg r = if r = d ∧ d ≠ 0#4 then v else s.burrowNow.reg r

/-- The same, in sequence and with nothing but z(d) changed. -/
def ZGives (s : State) (i : Instr) (d : BitVec 4) (v : Word) : Prop := ZSets s i s.burrowNow d v (s.burrowNow.pc + 4)

/-- The run of the burrow of u ends with a cause, a sub-cause, an address and a code, n more instructions counted: its
report goes out with the generations of its world (log 36), the burrow and its gang are gone, and of a run that has not committed nothing is left (R347, R360). -/
def ZEnds (u s : State) (i : Instr) (cause sub faddr code n : Nat) : Prop :=
  let b := u.burrowNow
  ∃ t, exec i s = .next t ∧
    Report.run b.world b.committed cause sub b.pc faddr (b.meter + n) code b.log b.dropped (s.gens b.world) ∈ t.reports ∧
    AMap.find t.burrows (16 * u.actCore + u.actSlot) = none ∧ AMap.find t.gangs b.gang = none ∧ t.cur.gang = none ∧
    t.curSlot = Slot.reset ∧ (t.world b.world).tcache = (s.world b.world).tcache ∧ SameBytes s t

/-- The entry k of a queue is ready and taken, which leaves u (R388): the packet's work leaves w, and then the queue is
brought up to date. -/
def Dispatches (s : State) (i : Instr) (q k : Nat) (h : PktHdr) (P : State → State → Prop) : Prop :=
  ∀ e u, (s.queue q).entry? k = some e → (s.queue q).state = 1 → (s.queue q).ready e = true → s.takeEntry q k h = .ok u →
    ∃ w, P u w ∧ exec i s = .next (w.settled q)

/-- The entry k of a queue is ready, and its packet is malformed: the queue halts with reason 2 and an address (R383). -/
def PacketHalts (s : State) (i : Instr) (q k : Nat) (h : PktHdr) (P : State → Prop) (a : Nat) : Prop :=
  ∀ e u, (s.queue q).entry? k = some e → (s.queue q).state = 1 → (s.queue q).ready e = true → s.takeEntry q k h = .ok u → P u →
    exec i s = .next (((s.stopQueue q 3 2 a).noteStuck q k).settled q)

/-- The instruction sets: native words (R153), bootstrap words (R331), bead words (R307), and the device's own events and
front-end packets, which no word encodes. -/
inductive InstrSet where
  | native
  | bootstrap
  | bead
  | event
  deriving DecidableEq, Repr

/-- The set an instruction belongs to. -/
def instrSet : Instr → InstrSet
  | .add _ _ _ | .sub _ _ _ | .mul _ _ _ | .mulh _ _ _ | .mulhn _ _ _ | .div _ _ _ | .divn _ _ _ | .rem _ _ _
    | .remn _ _ _ | .and _ _ _ | .or _ _ _ | .xor _ _ _ | .andn _ _ _ | .shl _ _ _ | .shr _ _ _ | .sra _ _ _ | .rot _ _ _
    | .min _ _ _ | .max _ _ _ | .minn _ _ _ | .maxn _ _ _ | .clz _ _ | .ctz _ _ | .popc _ _ | .sel _ _ _ | .cmpEq _ _ _
    | .cmpNe _ _ _ | .cmpLt _ _ _ | .cmpGe _ _ _ | .cmpLtn _ _ _ | .cmpGen _ _ _ | .sxb _ _ | .sxh _ _ | .sxw _ _
    | .zxb _ _ | .zxh _ _ | .zxw _ _ | .addi _ _ _ | .andi _ _ _ | .ori _ _ _ | .xori _ _ _ | .shiShl _ _ _
    | .shiShr _ _ _ | .shiSra _ _ _ | .shiRot _ _ _ | .cmpiEq _ _ _ | .cmpiNe _ _ _ | .cmpiLt _ _ _ | .cmpiGe _ _ _
    | .cmpiLtn _ _ _ | .cmpiGen _ _ _ | .lhi _ _ | .phi _ _ | .fadd _ _ _ _ _ | .fsub _ _ _ _ _ | .fmul _ _ _ _ _
    | .fdiv _ _ _ _ _ | .fsqrt _ _ _ _ | .fmin _ _ _ _ | .fmax _ _ _ _ | .fsgnCopy _ _ _ _ | .fsgnNeg _ _ _ _
    | .fsgnXor _ _ _ _ | .fcmpEq _ _ _ _ | .fcmpLt _ _ _ _ | .fcmpLe _ _ _ _ | .fcmpUnordered _ _ _ _ | .fclass _ _ _
    | .fma _ _ _ _ _ | .fms _ _ _ _ _ | .fnma _ _ _ _ _ | .fcvt _ _ _ _ _ | .ld _ _ _ _ | .ldSx _ _ _ _ | .ldUp _ _ _ _
    | .st _ _ _ _ | .stUp _ _ _ _ | .ldFeKeep _ _ _ _ | .ldFeTake _ _ _ _ | .stFeFill _ _ _ _ | .stFePut _ _ _ _
    | .stFeClear _ _ _ | .dpref _ _ | .ipref _ _ | .amoAdd _ _ _ _ | .amoAnd _ _ _ _ | .amoOr _ _ _ _ | .amoXor _ _ _ _
    | .amoMin _ _ _ _ | .amoMax _ _ _ _ | .amoMinn _ _ _ _ | .amoMaxn _ _ _ _ | .amoSwap _ _ _ _ | .amoFaddF32 _ _ _
    | .amoFaddF64 _ _ _ | .cas _ _ _ _ | .redAdd _ _ _ | .redAnd _ _ _ | .redOr _ _ _ | .redXor _ _ _ | .redMin _ _ _
    | .redMax _ _ _ | .redMinn _ _ _ | .redMaxn _ _ _ | .ulogAppAddF32 _ _ _ | .ulogAppAddF64 _ _ _ | .ulogAppAddI32 _ _ _
    | .ulogAppAddI64 _ _ _ | .ulogAppMaxF32 _ _ _ | .ulogAppMinF32 _ _ _ | .ulogAppMaxF64 _ _ _ | .ulogAppMinF64 _ _ _
    | .ulogMerge _ | .brEq _ _ _ | .brNe _ _ _ | .brLt _ _ _ | .brGe _ _ _ | .brLtn _ _ _ | .brGen _ _ _ | .brZ _ _
    | .brNz _ _ | .jmp _ | .call _ | .jr _ | .callr _ | .ret _ | .callx _ _ | .wswap _ _ | .spawn _ _ _ | .wake _ _
    | .msgSend _ _ | .gbar _ | .swtrap _ _ | .dead _ | .gets _ _ | .puts _ _ | .getc _ _ | .putc _ _ | .clInit _ _
    | .clArm _ _ | .clAdd _ _ | .clWait _ _ _ | .clTest _ _ | .cbDef _ _ _ | .cbFill _ _ | .cbDrain _ _ | .cbWfill _ _
    | .cbWfree _ _ | .cbStat _ _ | .yield | .sleep | .halt | .msgWait | .eret | .maLdst _ | .maSwap _ | .maZero _
    | .maStream _ | .maDrain _ | .maEnd _ | .maWait _ | .dmaCp _ | .dmaGt _ | .dmaSc _ | .dmaColl _ | .bdDecl _
    | .bdPass _ | .bdWake _ | .bdStat _ | .bdFree _ | .vxCopy _ | .vxAdd _ | .vxSub _ | .vxMul _ | .vxFma _ | .vxMin _
    | .vxMax _ | .vxAbs _ | .vxNeg _ | .vxDiv _ | .vxCvt _ | .vxSel _ | .vxCmpeq _ | .vxCmplt _ | .vxCmple _ | .vxAnd _
    | .vxOr _ | .vxXor _ | .vxShl _ | .vxShr _ | .vxSra _ | .vxQuant _ | .vxDequant _ | .vxRsum _ | .vxRmax _ | .vxRmin _
    | .vxRargmax _ | .vxGather _ | .vxIota _ | .vxFill _ | .vxExp _ | .vxExp2 _ | .vxExpm1 _ | .vxLog _ | .vxLog2 _
    | .vxLog1p _ | .vxSin _ | .vxCos _ | .vxSinpi _ | .vxCospi _ | .vxTanh _ | .vxSigmoid _ | .vxErf _ | .vxAtan _
    | .vxSqrt _ | .vxRsqrt _ | .vxRcp _ | .vxXaExp2 _ | .vxXaLog2 _ | .vxXaRcp _ | .vxXaRsqrt _ | .vxXaTanh _
    | .vxXaSigmoid _ => .native
  | .zadd _ _ _ | .zsub _ _ _ | .zmul _ _ _ | .zmulh _ _ _ | .zdiv _ _ _ | .zdivn _ _ _ | .zrem _ _ _ | .zremn _ _ _
    | .zand _ _ _ | .zor _ _ _ | .zxor _ _ _ | .zshl _ _ _ | .zshr _ _ _ | .zsra _ _ _ | .zslt _ _ _ | .zsltn _ _ _
    | .zaddi _ _ _ | .zandi _ _ _ | .zori _ _ _ | .zxori _ _ _ | .zshli _ _ _ | .zshri _ _ _ | .zsrai _ _ _ | .zhi _ _
    | .zldb _ _ _ | .zldh _ _ _ | .zldw _ _ _ | .zldd _ _ _ | .zstb _ _ _ | .zsth _ _ _ | .zstw _ _ _ | .zstd _ _ _
    | .zbeq _ _ _ | .zbne _ _ _ | .zblt _ _ _ | .zbge _ _ _ | .zbltn _ _ _ | .zbgen _ _ _ | .zjal _ _ | .zjalr _ _ _
    | .zsvcReadNstRecord | .zsvcFunctionBegin | .zsvcFunctionEnd | .zsvcProvenanceRecord | .zsvcGrowHeap
    | .zsvcRelocationRecord | .zsvcCommit | .zsvcFail | .zsvcLog | .zhalt => .bootstrap
  | .bAdd _ _ _ _ | .bSub _ _ _ _ | .bMul _ _ _ _ | .bMin _ _ _ _ | .bMax _ _ _ _ | .bAnd _ _ _ _ | .bOr _ _ _ _
    | .bXor _ _ _ _ | .bShiShl _ _ _ | .bShiShr _ _ _ | .bShiSra _ _ _ | .bShiRot _ _ _ | .bLi _ _ | .bCmpEq _ _ _ _
    | .bCmpNe _ _ _ _ | .bCmpLt _ _ _ _ | .bCmpGe _ _ _ _ | .bCmpLtn _ _ _ _ | .bCmpGen _ _ _ _ | .bSel _ _ _
    | .bFopFadd _ _ _ _ _ | .bFopFmul _ _ _ _ _ | .bFopFmin _ _ _ _ _ | .bFopFmax _ _ _ _ _ | .bFopFma _ _ _ _ _
    | .bNbData _ _ | .bNbCtx _ _ | .bLd _ _ _ _ | .bSt _ _ _ _ | .bStPut _ _ _ _ | .bBrNz _ _ | .bBrZ _ _ | .bJmp _
    | .bWaitNbdone _ | .bWaitNbpc _ _ | .bWaitFull _ | .bWaitPhase _ _ | .bWaitPass _ | .bWaitLocal _ | .bSleep
    | .bWake _ _ | .bDone | .bSete _ => .bead
  | .meterOut _ _ | .capMeasurement _ | .powerCapSet _ | .quantumExpiry _ _ | .memoryReturn _ _ | .homeRequestArrival _
    | .parkRelease _ _ | .feDeadline _ _ | .trapEntry _ _ | .serviceResume _ _ | .serviceEscalate _ _
    | .switchComplete _ _ | .emptySlotFill _ _ | .lineFill _ _ | .gangRelease _ | .gbarRelease _ _ | .gangFailure _ _
    | .gangPreempt _ | .gangResume _ _ _ | .gangRetire _ | .unitFailure _ | .settlementComplete _
    | .journalCoalesceFlush _ _ | .sramScrub _ _ | .memoryScrub _ | .shootdownComplete _ | .nestStart _ | .nestComplete _
    | .maGrant _ | .maCommandStart _ _ | .maDrainRow _ | .maCommandComplete _ _ | .maJobAutoClose _ | .copyCommandStart _
    | .copyRunWritten _ _ | .copyCommandComplete _ _ | .collectiveComplete _ _ | .bdPassStart _ | .sweepPass _
    | .bdPassComplete _ | .widxObserve _ | .stageQueueObserve _ _ | .pktNop _ _ _ | .pktLaunch _ _ _ _
    | .pktLaunchi _ _ _ _ _ | .pktLoop _ _ _ _ | .pktEndloop _ _ _ | .pktIf _ _ _ _ _ | .pktWaitmem _ _ _ _ _
    | .waitmemPoll _ _ | .waitmemTimeout _ _ | .pktSignal _ _ _ _ _ | .pktCopy _ _ _ _ _ | .pktStage _ _ _ _
    | .pktShoot _ _ _ _ | .stageLaunch _ _ | .packetComplete _ _ _ | .starvationGuard _ | .queueFaultResolved _ _
    | .queueRestart _ | .queueCreate _ | .serviceTokenSet _ _ | .remotePacket _ _ | .worldCreate _ | .worldDestroy _
    | .coreScrub _ _ | .fabricRequest _ | .fabricAnswer _ _ _ _ | .cipherCommand _ | .keySlotInstall _
    | .keySlotRevoke _ _ | .revokeComplete _ _ | .linkAuthFailure _ | .linkCounterExhaustion _ | .translationRequest _ _
    | .imageLoad _ | .imageUnload _ _ | .quoteRequest _ _ | .journalRead _ _ _ | .configurationRecord _ _ | .boot _
    | .linkRekeyed _ | .linkFlitFailsAfterRetries _ | .engineFaultResolved _ _ | .bdDeclComplete _ _
    | .formatWindowWrite _ _ | .fabricWindowWrite _ _ _ | .exportWrite _ _ | .idleRotation | .thermalAlarm | .ptsTick
    | .timestampRebase | .residencyReport | .thermalAlarmClear => .event

/-- What a step makes of an instruction's outcome: the machine settled, and the next turn chosen. -/
def settledOutcome (s : State) (r : Host.Outcome State Fault Refusal) : Host.Outcome State Fault Refusal :=
  match r with
  | .next t => .next (s.settleStep t)
  | .fault f => .fault f
  | .refused q => .refused q

/-- Whether a turn may be in hand at a state: a thread or a burrow issues only at its own slot's beat (R30). -/
def turnOk (s : State) : Bool :=
  match s.turn with
  | .thread c i => s.threadDue c i
  | .burrow c i => s.burrowDue c i
  | _ => true

end Sys2Proof.Machine
end

