-- ==== Sys2Proof/Certificates/Slice0/Obligations.lean ====
section
/-! DEFINITION. The statements about this machine that the provers are asked to prove. -/

open Sys2Proof Sys2Proof.Machine

/-- R181, R182: the arithmetic forms of the ALU. The products are given over 128 bits, the comparisons over integers.
R181, R182: the bitwise forms and the shifts, bit by bit; k is B[5:0] and the higher bits of B do not count. R181,
R182: counts and extensions. The counts are given by the bits they count. -/
def Obligations.IntegerAluFollowsR181 : Prop :=
  (∀ (s : State) (d a b : BitVec 5),
      Gives s (.add d a b) d (s.rd a + s.rd b) 1 ∧
      Gives s (.sub d a b) d (s.rd a - s.rd b) 1 ∧
      Gives s (.mul d a b) d (((s.rd a).setWidth 128 * (s.rd b).setWidth 128).setWidth 64) 1 ∧
      Gives s (.mulh d a b) d (((s.rd a).signExtend 128 * (s.rd b).signExtend 128).extractLsb' 64 64) 1 ∧
      Gives s (.mulhn d a b) d (((s.rd a).setWidth 128 * (s.rd b).setWidth 128).extractLsb' 64 64) 1 ∧
      Gives s (.min d a b) d (BitVec.ofInt 64 (min (s.rd a).toInt (s.rd b).toInt)) 1 ∧
      Gives s (.max d a b) d (BitVec.ofInt 64 (max (s.rd a).toInt (s.rd b).toInt)) 1 ∧
      Gives s (.minn d a b) d (BitVec.ofNat 64 (min (s.rd a).toNat (s.rd b).toNat)) 1 ∧
      Gives s (.maxn d a b) d (BitVec.ofNat 64 (max (s.rd a).toNat (s.rd b).toNat)) 1 ∧
      (s.rd d ≠ 0 → Gives s (.sel d a b) d (s.rd a) 1) ∧
      (s.rd d = 0 → Gives s (.sel d a b) d (s.rd b) 1)) ∧
  (∀ (s : State) (d a b : BitVec 5),
      let A := s.rd a
      let B := s.rd b
      let k := (B.setWidth 6).toNat
      GivesBits s (.and d a b) d (fun j => A.getLsbD j && B.getLsbD j) ∧
      GivesBits s (.or d a b) d (fun j => A.getLsbD j || B.getLsbD j) ∧
      GivesBits s (.xor d a b) d (fun j => A.getLsbD j != B.getLsbD j) ∧
      GivesBits s (.andn d a b) d (fun j => A.getLsbD j && !(B.getLsbD j)) ∧
      GivesBits s (.shl d a b) d (fun j => decide (k ≤ j) && A.getLsbD (j - k)) ∧
      GivesBits s (.shr d a b) d (fun j => A.getLsbD (j + k)) ∧
      GivesBits s (.sra d a b) d (fun j => A.getLsbD (min 63 (j + k))) ∧
      GivesBits s (.rot d a b) d (fun j => A.getLsbD ((j + k) % 64))) ∧
  (∀ (s : State) (d a : BitVec 5),
      let A := s.rd a
      (A = 0 → Gives s (.clz d a) d 64 1 ∧ Gives s (.ctz d a) d 64 1) ∧
      (∀ n, n < 64 → A.getLsbD (63 - n) = true → (∀ j, j < n → A.getLsbD (63 - j) = false) →
        Gives s (.clz d a) d (BitVec.ofNat 64 n) 1) ∧
      (∀ n, n < 64 → A.getLsbD n = true → (∀ j, j < n → A.getLsbD j = false) → Gives s (.ctz d a) d (BitVec.ofNat 64 n) 1) ∧
      Gives s (.popc d a) d (BitVec.ofNat 64 ((List.range 64).filter (fun j => A.getLsbD j)).length) 1 ∧
      Gives s (.sxb d a) d ((A.setWidth 8).signExtend 64) 1 ∧
      Gives s (.sxh d a) d ((A.setWidth 16).signExtend 64) 1 ∧
      Gives s (.sxw d a) d ((A.setWidth 32).signExtend 64) 1 ∧
      Gives s (.zxb d a) d (A &&& 0xFF) 1 ∧
      Gives s (.zxh d a) d (A &&& 0xFFFF) 1 ∧
      Gives s (.zxw d a) d (A &&& 0xFFFFFFFF) 1)

/-- R181, R183: the comparisons, over integers. R183, R184: the immediate forms. -/
def Obligations.ComparisonsAndImmediatesFollowR182ToR184 : Prop :=
  (∀ (s : State) (d a b : BitVec 5) (i : BitVec 12),
      let A := s.rd a
      let B := s.rd b
      let I : Word := i.signExtend 64
      (Gives s (.cmpEq d a b) d (oneIf (A = B)) 1 ∧ Gives s (.cmpNe d a b) d (oneIf (A ≠ B)) 1 ∧
       Gives s (.cmpLt d a b) d (oneIf (A.toInt < B.toInt)) 1 ∧ Gives s (.cmpGe d a b) d (oneIf (B.toInt ≤ A.toInt)) 1 ∧
       Gives s (.cmpLtn d a b) d (oneIf (A.toNat < B.toNat)) 1 ∧ Gives s (.cmpGen d a b) d (oneIf (B.toNat ≤ A.toNat)) 1) ∧
      (Gives s (.cmpiEq d a i) d (oneIf (A = I)) 1 ∧ Gives s (.cmpiNe d a i) d (oneIf (A ≠ I)) 1 ∧
       Gives s (.cmpiLt d a i) d (oneIf (A.toInt < I.toInt)) 1 ∧ Gives s (.cmpiGe d a i) d (oneIf (I.toInt ≤ A.toInt)) 1 ∧
       Gives s (.cmpiLtn d a i) d (oneIf (A.toNat < I.toNat)) 1 ∧ Gives s (.cmpiGen d a i) d (oneIf (I.toNat ≤ A.toNat)) 1)) ∧
  (∀ (s : State) (d a : BitVec 5) (i : BitVec 16) (n : BitVec 6) (h : BitVec 20),
      let A := s.rd a
      Gives s (.addi d a i) d (BitVec.ofInt 64 (A.toNat + i.toInt)) 1 ∧
      GivesBits s (.andi d a i) d (fun j => A.getLsbD j && i.getLsbD j) ∧
      GivesBits s (.ori d a i) d (fun j => A.getLsbD j || i.getLsbD j) ∧
      GivesBits s (.xori d a i) d (fun j => A.getLsbD j != i.getLsbD j) ∧
      GivesBits s (.shiShl d a n) d (fun j => decide (n.toNat ≤ j) && A.getLsbD (j - n.toNat)) ∧
      GivesBits s (.shiShr d a n) d (fun j => A.getLsbD (j + n.toNat)) ∧
      GivesBits s (.shiSra d a n) d (fun j => A.getLsbD (min 63 (j + n.toNat))) ∧
      GivesBits s (.shiRot d a n) d (fun j => A.getLsbD ((j + n.toNat) % 64)) ∧
      Gives s (.lhi d h) d (BitVec.ofInt 64 (h.toInt * 2 ^ 12)) 1 ∧
      Gives s (.phi d h) d (BitVec.ofInt 64 (s.curTask.pc.toNat + h.toInt * 2 ^ 12)) 1)

/-- R135: integer division, over integers. -/
def Obligations.DivisionFollowsR135 : Prop :=
  ∀ (s : State) (d a b : BitVec 5),
    let A := s.rd a
    let B := s.rd b
    (B = 0 → s.idz = false →
      Gives s (.div d a b) d (BitVec.allOnes 64) 4 ∧ Gives s (.divn d a b) d (BitVec.allOnes 64) 4 ∧
      Gives s (.rem d a b) d A 4 ∧ Gives s (.remn d a b) d A 4) ∧
    (B ≠ 0 →
      Gives s (.div d a b) d (if A = BitVec.intMin 64 ∧ B = BitVec.allOnes 64 then BitVec.intMin 64
        else BitVec.ofInt 64 (A.toInt.tdiv B.toInt)) 4 ∧
      Gives s (.rem d a b) d (if A = BitVec.intMin 64 ∧ B = BitVec.allOnes 64 then 0
        else BitVec.ofInt 64 (A.toInt.tmod B.toInt)) 4 ∧
      Gives s (.divn d a b) d (BitVec.ofNat 64 (A.toNat / B.toNat)) 4 ∧
      Gives s (.remn d a b) d (BitVec.ofNat 64 (A.toNat % B.toNat)) 4) ∧
    (B = 0 → s.idz = true →
      Traps s (.div d a b) (trapOf 0x0A 0x20) ∧ Traps s (.divn d a b) (trapOf 0x0A 0x20) ∧ Traps s (.rem d a b) (trapOf 0x0A 0x20) ∧
      Traps s (.remn d a b) (trapOf 0x0A 0x20))

/-- R185, R186, R191, R193, R138: the rounded float operations complete with their result, or trap with no effect. -/
def Obligations.RoundedFloatOperationsGive : Prop :=
  ∀ (s : State) (d a b : BitVec 5) (f r : BitVec 3),
    let t := fmtTy f
    let rm := s.rmMode r
    let v := if rm = .sr then s.drawAhead s.actCore s.curWs 0 else 0
    let n := if rm = .sr then 1 else 0
    let slow := if t = .f64 then 4 else 2
    let A := floatVal t ((s.rd a).toNat % 2 ^ tyBits t)
    let B := floatVal t ((s.rd b).toNat % 2 ^ tyBits t)
    let D := floatVal t ((s.rd d).toNat % 2 ^ tyBits t)
    let give (i : Instr) (x : Nat × Flags) (rot : Nat) : Prop := FloatGives s i d (wordOf x.1, x.2) n rot
    give (.fadd d a b f r) (addVal t rm false v A B) 1 ∧
    give (.fsub d a b f r) (addVal t rm false v A (negVal B)) 1 ∧
    give (.fmul d a b f r) (mulVal t rm false v A B) 1 ∧
    give (.fdiv d a b f r) (divVal t rm false v A B) slow ∧
    give (.fsqrt d a f r) (sqrtVal t rm false v A) slow ∧
    give (.fma d a b f r) (fmaVal t rm false v A B D) 1 ∧
    give (.fms d a b f r) (fmaVal t rm false v A B (negVal D)) 1 ∧
    give (.fnma d a b f r) (fmaVal t rm false v (negVal A) B D) 1

/-- R186, R191: the cases in which no rounding happens. -/
def Obligations.InvalidFloatOperationsFollowR186 : Prop :=
  ∀ (f : BitVec 3) (rm : RMode) (v : Nat) (n p : Bool) (m k : Nat) (e g : Int) (x z : FVal) (q : Bool),
    let t := fmtTy f
    let nan := (defaultNaN t, flagNV)
    let quiet (c : Prop) [Decidable c] : Nat × Flags := (defaultNaN t, if c then flagNV else 0#5)
    let zeroInf := (∃ a b i, x = .fin a 0 i ∧ z = .inf b) ∨ ∃ a b i, x = .inf b ∧ z = .fin a 0 i
    addVal t rm false v (.inf n) (.inf !n) = nan ∧
    mulVal t rm false v (.fin n 0 e) (.inf p) = nan ∧ mulVal t rm false v (.inf p) (.fin n 0 e) = nan ∧
    divVal t rm false v (.fin n 0 e) (.fin p 0 g) = nan ∧ divVal t rm false v (.inf n) (.inf p) = nan ∧
    (m ≠ 0 → sqrtVal t rm false v (.fin true m e) = nan) ∧ sqrtVal t rm false v (.inf true) = nan ∧
    sqrtVal t rm false v (.fin true 0 e) = (2 ^ (tyBits t - 1), 0#5) ∧
    fmaVal t rm false v (.fin n 0 e) (.inf p) z = nan ∧ fmaVal t rm false v (.inf p) (.fin n 0 e) z = nan ∧
    (m ≠ 0 → divVal t rm false v (.fin n m e) (.fin p 0 g) = (floatInf t (n != p), flagDZ)) ∧
    (k ≠ 0 → mulVal t rm false v (.fin n k e) (.inf p) = (floatInf t (n != p), 0#5)) ∧
    (addVal t rm false v (.nan q) x = quiet (q = true ∨ x = .nan true) ∧
      addVal t rm false v x (.nan q) = quiet (q = true ∨ x = .nan true)) ∧
    (mulVal t rm false v (.nan q) x = quiet (q = true ∨ x = .nan true) ∧
      mulVal t rm false v x (.nan q) = quiet (q = true ∨ x = .nan true)) ∧
    (divVal t rm false v (.nan q) x = quiet (q = true ∨ x = .nan true) ∧
      divVal t rm false v x (.nan q) = quiet (q = true ∨ x = .nan true)) ∧
    sqrtVal t rm false v (.nan q) = quiet (q = true) ∧
    (fmaVal t rm false v (.nan q) x z = quiet (q = true ∨ x = .nan true ∨ z = .nan true) ∧
      fmaVal t rm false v x (.nan q) z = quiet (q = true ∨ x = .nan true ∨ z = .nan true)) ∧
    (¬zeroInf → fmaVal t rm false v x z (.nan q) = quiet (q = true ∨ x = .nan true ∨ z = .nan true)) ∧
    (zeroInf → fmaVal t rm false v x z (.nan q) = nan)

/-- R192, same type: rounding a value that the type holds gives its own bits. R192: conversions. The integer cases are
given over integers. -/
def Obligations.ConversionsFollowR192 : Prop :=
  (∀ (s : State) (d a : BitVec 5) (c : BitVec 4) (r : BitVec 3) (t : Ty),
      tyOfCode c = some t → (t = .f64 ∨ t = .f32 ∨ t = .f16 ∨ t = .bf16) →
      let x := (s.rd a).toNat % 2 ^ tyBits t
      ((∀ q, floatVal t x ≠ .nan q) → GivesFlags s (.fcvt d a c c r) d (wordOf x) 0#5 0 1) ∧
      (floatVal t x = .nan false → GivesFlags s (.fcvt d a c c r) d (wordOf (defaultNaN t)) 0#5 0 1)) ∧
  (∀ (s : State) (d a : BitVec 5) (tc uc : BitVec 4) (r : BitVec 3) (t u : Ty), tyOfCode tc = some t → tyOfCode uc = some u →
      let rm := if canRound t u then s.rmMode r else .rne
      let n := if canRound t u && s.rmMode r == .sr then 1 else 0
      let v := if rm = .sr then s.drawAhead s.actCore s.curWs 0 else 0
      let x := convertVal t u rm false v ((s.rd a).toNat % 2 ^ tyBits u)
      FloatGives s (.fcvt d a tc uc r) d (resultWord t x.1, x.2) n 1 ∧
      (tyIsInt t = true → tyIsInt u = true → x.2 = 0#5 ∧
        ((x.1 : Int) - intVal u ((s.rd a).toNat % 2 ^ tyBits u)) % ((2 ^ tyBits t : Nat) : Int) = 0) ∧
      (tyIsInt t = true → tyIsFloat u = true →
        let F := floatVal u ((s.rd a).toNat % 2 ^ tyBits u)
        let bound (neg : Bool) : Nat × Flags := (wrapInt (if neg then intMin t else intMax t) (tyBits t), flagNV)
        (∀ q, F = .nan q → x = (0, flagNV)) ∧ (∀ neg, F = .inf neg → x = bound neg) ∧
        ∀ neg m (e : Int) (j k : Nat), F = .fin neg m e → e = (j : Int) - k →
          -- the value is V / 2^k
          let V : Int := if neg then -((m * 2 ^ j : Nat) : Int) else ((m * 2 ^ j : Nat) : Int)
          ((intMax t + 1) * 2 ^ k ≤ V → x = bound false) ∧ (V ≤ (intMin t - 1) * 2 ^ k → x = bound true) ∧
          (intMin t * 2 ^ k ≤ V → V ≤ intMax t * 2 ^ k → ∃ r : Int, r * 2 ^ k < V + 2 ^ k ∧ V < r * 2 ^ k + 2 ^ k ∧
            x = (wrapInt r (tyBits t), if r * 2 ^ k = V then 0#5 else flagNX))))

/-- R187 to R190: the float operations that round nothing. -/
def Obligations.FloatBitOperationsGive : Prop :=
  ∀ (s : State) (d a b : BitVec 5) (f : BitVec 3),
    let t := fmtTy f
    let w := tyBits t
    let A := (s.rd a).toNat % 2 ^ w
    let B := (s.rd b).toNat % 2 ^ w
    let x := floatVal t A
    let y := floatVal t B
    let snan := x = .nan true ∨ y = .nan true
    let anyNan := (∃ q, x = .nan q) ∨ ∃ q, y = .nan q
    let nv (p : Prop) [Decidable p] : Flags := if p then flagNV else 0#5
    let sgn (v : Bool) : Nat → Bool := fun j => if j = w - 1 then v else decide (j < w) && A.testBit j
    (∃ z, FloatGives s (.fmin d a b f) d (wordOf z, nv snan) 0 1 ∧
      (z = A ∨ z = B ∨ (z = defaultNaN t ∧ (∃ q, x = .nan q) ∧ ∃ q, y = .nan q)) ∧
      ((∃ q, x = .nan q) → (∃ q, y = .nan q) → z = defaultNaN t) ∧
      (∀ q, x = .nan q → (∀ q, y ≠ .nan q) → z = B) ∧ (∀ q, y = .nan q → (∀ q, x ≠ .nan q) → z = A) ∧
      (compareVal x y = some .lt → z = A) ∧ (compareVal x y = some .gt → z = B) ∧
      (∀ e g, x = .fin true 0 e → y = .fin false 0 g → z = A) ∧ (∀ e g, x = .fin false 0 e → y = .fin true 0 g → z = B)) ∧
    (∃ z, FloatGives s (.fmax d a b f) d (wordOf z, nv snan) 0 1 ∧
      (z = A ∨ z = B ∨ (z = defaultNaN t ∧ (∃ q, x = .nan q) ∧ ∃ q, y = .nan q)) ∧
      ((∃ q, x = .nan q) → (∃ q, y = .nan q) → z = defaultNaN t) ∧
      (∀ q, x = .nan q → (∀ q, y ≠ .nan q) → z = B) ∧ (∀ q, y = .nan q → (∀ q, x ≠ .nan q) → z = A) ∧
      (compareVal x y = some .lt → z = B) ∧ (compareVal x y = some .gt → z = A) ∧
      (∀ e g, x = .fin true 0 e → y = .fin false 0 g → z = B) ∧ (∀ e g, x = .fin false 0 e → y = .fin true 0 g → z = A)) ∧
    GivesBits s (.fsgnCopy d a b f) d (sgn (B.testBit (w - 1))) ∧
    GivesBits s (.fsgnNeg d a b f) d (sgn (!(B.testBit (w - 1)))) ∧
    GivesBits s (.fsgnXor d a b f) d (sgn (A.testBit (w - 1) != B.testBit (w - 1))) ∧
    FloatGives s (.fcmpEq d a b f) d (oneIf (compareVal x y = some .eq), nv snan) 0 1 ∧
    (anyNan → FloatGives s (.fcmpLt d a b f) d (0, flagNV) 0 1 ∧ FloatGives s (.fcmpLe d a b f) d (0, flagNV) 0 1 ∧
      FloatGives s (.fcmpUnordered d a b f) d (1, nv snan) 0 1) ∧
    (¬anyNan → FloatGives s (.fcmpLt d a b f) d (oneIf (compareVal x y = some .lt), 0#5) 0 1 ∧
      FloatGives s (.fcmpLe d a b f) d (oneIf (compareVal x y = some .lt ∨ compareVal x y = some .eq), 0#5) 0 1 ∧
      FloatGives s (.fcmpUnordered d a b f) d (0, 0#5) 0 1) ∧
    ∃ c, c < 10 ∧ Gives s (.fclass d a f) d (BitVec.ofNat 64 (2 ^ c)) 1 ∧
      (c = 0 ↔ x = .inf true) ∧ (c = 7 ↔ x = .inf false) ∧ (c = 8 ↔ x = .nan true) ∧ (c = 9 ↔ x = .nan false) ∧
      ((c = 3 ∨ c = 4) ↔ ∃ n e, x = .fin n 0 e) ∧ (c ≤ 3 → A.testBit (w - 1) = true) ∧
      (4 ≤ c → c ≤ 7 → A.testBit (w - 1) = false) ∧
      ((c = 2 ∨ c = 5) ↔ 0 < A % 2 ^ (w - 1) ∧ A % 2 ^ (w - 1) < 2 ^ (floatFormat t).fbits)

/-- R204: the conditional branches. R205: jmp, with CheckLanding written out (R203); a target of jmp is never misaligned
where the pc is not. -/
def Obligations.BranchesAndJumpsFollowR204 : Prop :=
  (∀ (s : State) (a b : BitVec 5) (disp : BitVec 12),
      let A := s.rd a
      let B := s.rd b
      let tgt : Word := BitVec.ofInt 64 (s.curTask.pc.toNat + 4 * disp.toInt)
      let br (i : Instr) (p : Prop) : Prop := (p → Landable s tgt → Jumps s i tgt) ∧ (¬p → Continues s i 1)
      br (.brEq a b disp) (A = B) ∧ br (.brNe a b disp) (A ≠ B) ∧
      br (.brLt a b disp) (A.toInt < B.toInt) ∧ br (.brGe a b disp) (B.toInt ≤ A.toInt) ∧
      br (.brLtn a b disp) (A.toNat < B.toNat) ∧ br (.brGen a b disp) (B.toNat ≤ A.toNat) ∧
      br (.brZ a disp) (A = 0) ∧ br (.brNz a disp) (A ≠ 0)) ∧
  (∀ (s : State) (disp : BitVec 26),
      let tgt : Word := BitVec.ofInt 64 (s.curTask.pc.toNat + 4 * disp.toInt)
      let a := tgt.toNat
      let same := s.obj a = s.obj s.curTask.pc.toNat
      decodeNative (0x21#6 ++ disp) [] = .ok (.jmp disp) ∧
      (Landable s tgt → Jumps s (.jmp disp) tgt) ∧
      (¬same → Traps s (.jmp disp) ⟨0x11, 1, some tgt, none⟩) ∧
      (same → a % 4 ≠ 0 → Traps s (.jmp disp) ⟨4, 1, some tgt, none⟩) ∧
      (same → a % 4 = 0 → a % 128 < 8 → Traps s (.jmp disp) ⟨3, 5, some tgt, none⟩) ∧
      (∀ l, same → a % 4 = 0 → 8 ≤ a % 128 → s.cur.line? (a / 128 * 128) = some l →
        l.header.getLsbD (32 + (a % 128 - 8) / 4) = false → Traps s (.jmp disp) ⟨4, 2, some tgt, none⟩))

/-- R206, R208: calls and returns. -/
def Obligations.CallsAndReturnsFollowR206 : Prop :=
  ∀ (s : State) (a : BitVec 5) (disp : BitVec 26),
    let rel : Word := BitVec.ofInt 64 (s.curTask.pc.toNat + 4 * disp.toInt)
    let tgt := s.rd a
    let top := wsOff s.curWs (0x200 + 8 * (s.stackDepth - 1))
    let marks (i : Instr) (dst : Word) (link : Option Word) : Prop :=
      ∃ t, exec i s = .next t ∧ DeadMarked s t link ∧ GoesTo s t dst ∧ SameElse s t ∧ SameBytes s t
    (Landable s rel → marks (.call disp) rel (some s.npc)) ∧
    (Landable s tgt → marks (.callr a) tgt (some s.npc) ∧ Jumps s (.jr a) tgt ∧ marks (.ret a) tgt none) ∧
    (s.obj tgt.toNat ≠ s.obj s.curTask.pc.toNat → s.stackDepth ≠ 0 → s.stackEntry (s.stackDepth - 1) / 2 * 2 = tgt.toNat →
      tgt.toNat % 4 = 0 → 8 ≤ tgt.toNat % 128 →
      (∃ l, s.cur.line? (tgt.toNat / 128 * 128) = some l ∧ l.header.getLsbD (32 + (tgt.toNat % 128 - 8) / 4) = true) →
      ∃ t, exec (.ret a) s = .next t ∧ DeadMarked s t none ∧ GoesTo s t tgt ∧ SameElseSpad s t ∧
        SpadBytesBut s t s.actCore top 1 ∧ t.sNum s.actCore top 8 = s.stackEntry (s.stackDepth - 1) / 2 * 2) ∧
    (s.obj tgt.toNat ≠ s.obj s.curTask.pc.toNat → (s.stackDepth = 0 ∨ s.stackEntry (s.stackDepth - 1) / 2 * 2 ≠ tgt.toNat) →
      Traps s (.ret a) ⟨0x11, 2, some tgt, none⟩)

/-- R207: calls through the world handle table. -/
def Obligations.CallxEntersListedEntries : Prop :=
  ∀ (s : State) (a : BitVec 5) (imm : BitVec 16) (tgt : Word),
    let x := (s.rd a).toNat % 65536
    let h := AMap.get ObjEntry.reset (s.world s.cur.world).handles x
    let cross := s.obj tgt.toNat ≠ s.obj s.curTask.pc.toNat
    let listed := h.valid = true ∧ h.owner = s.cur.world ∧ h.entries[imm.toNat]? = some tgt
    let entry := wsOff s.curWs (0x200 + 8 * s.stackDepth)
    (listed → (cross → s.stackDepth < 8) → tgt.toNat % 4 = 0 → 8 ≤ tgt.toNat % 128 →
      (∃ l, s.cur.line? (tgt.toNat / 128 * 128) = some l ∧ l.header.getLsbD (32 + (tgt.toNat % 128 - 8) / 4) = true) →
      ∃ t, exec (.callx a imm) s = .next t ∧ DeadMarked s t (some s.npc) ∧ t.curTask.pc = tgt ∧ OnlyCore s t ∧
        t.curTask.flags = s.curTask.flags ∧ (cross → t.sNum s.actCore entry 8 = s.npc.toNat / 2 * 2 + 1 ∧
          SpadBytesBut s t s.actCore entry 8) ∧ (¬cross → SameBytes s t)) ∧
    (h.valid = false ∨ h.owner ≠ s.cur.world → Traps s (.callx a imm) ⟨0x11, 3, some (BitVec.ofNat 64 x), none⟩) ∧
    (h.valid = true → h.owner = s.cur.world → h.entries.length ≤ imm.toNat →
      Traps s (.callx a imm) ⟨0x11, 4, some (BitVec.ofNat 64 x), none⟩) ∧
    (listed → cross → s.stackDepth = 8 → Traps s (.callx a imm) ⟨0x11, 5, some tgt, none⟩)

/-- R109: eret; R232 and R107: swtrap. R110: a trap that is not delivered. -/
def Obligations.TrapsFollowR104ToR110 : Prop :=
  (∀ (s : State) (h l : BitVec 5),
      let w0 := recordAt s s 0 8
      let epc := recordAt s s 8 8
      let npc := recordAt s s 0x28 8
      let rpc := recordAt s s 0x30 8
      Traps s (.swtrap h l) ⟨0x12, (h ++ l).toNat, none, none⟩ ∧
      (bitsOf w0 30 2 ≠ 0 → (rpc = epc ∨ rpc = npc ∨ Landable s (BitVec.ofNat 64 rpc)) →
        ∃ t, exec .eret s = .next t ∧ SameRegs s t [] ∧
          t.curTask = { s.curTask with
            flags := BitVec.ofNat 5 (bitsOf w0 32 5), pc := BitVec.ofNat 64 rpc, pastEnd := false,
            resume := if rpc = epc ∧ bitOf w0 29 = true ∧ bitsOf w0 26 2 = 2 then some (recordAt s s 0x20 4) else none } ∧
          t.curSlot = { s.curSlot with nextAt := s.cycle + 16 } ∧
          recordAt s t 0 8 + bitsOf w0 30 2 * 2 ^ 30 = w0 ∧
          OnlyCore s t ∧ SpadBytesBut s t s.actCore (wsOff s.curWs 0x100) 8) ∧
      (bitsOf w0 30 2 = 0 → Traps s .eret ⟨7, 0x0B, none, none⟩)) ∧
  (∀ (s : State) (h l : BitVec 5),
      let hnd := s.hnd s.actCore s.curWs
      (hnd ≠ 0 ∨ s.curTask.trapv = 0) → s.curTask.gang = none →
      ∃ t x, exec (.swtrap h l) s = .next t ∧
        t.reports = s.reports ++ [.taskEnd s.cur.world s.actCore s.curWs (if hnd = 2 then 0x15 else 0x12) (h ++ l).toNat] ∧
        t.curSlot.switching = some x ∧ x.outgoing = s.curSlot.ws.map (fun w => (w, 6)) ∧ t.mem = s.mem ∧
        recordAt s t 0 8 = recordAt s s 0 8 ∧ recordAt s t 8 8 = recordAt s s 8 8)

/-- R231: dead. -/
def Obligations.MarkDeadFollowsR231 : Prop :=
  ∀ (s : State) (a : BitVec 5),
    ∃ t, exec (.dead a) s = .next t ∧ (∀ r : BitVec 5, t.rd r = if (s.rd a).getLsbD r.toNat then 0 else s.rd r) ∧
      (∀ n, n < 32 → (s.rd a).getLsbD n = true → t.curSlot.live.getLsbD n = false) ∧
      GoesOn s t 1 ∧ SameElse s t ∧ SameBytes s t

/-- R237, R166: `gets`. A selector that is not listed here is no instruction (R158). R237, R166: `puts`. -/
def Obligations.StateRegistersFollowR237 : Prop :=
  (∀ (s : State) (d : BitVec 5),
      let t := s.curTask
      let g (sel : BitVec 12) (v : Word) : Prop := Gives s (.gets d sel) d v 1
      g 0x000 t.pc ∧ g 0x001 (BitVec.ofNat 64 (s.curWs * 1024)) ∧ g 0x002 (BitVec.ofNat 64 (s.shownCore s.actCore)) ∧
      g 0x003 (BitVec.ofNat 64 (s.settOf (s.shownCore s.actCore))) ∧ g 0x004 (BitVec.ofNat 64 s.actSlot) ∧
      g 0x005 (BitVec.ofNat 64 (s.sNum s.actCore (wsOff s.curWs 0x1C0) 8)) ∧
      (t.gang = none → g 0x006 0) ∧ (∀ j, t.gang = some j → g 0x006 (BitVec.ofNat 64 (s.gang j).size)) ∧
      g 0x007 (BitVec.ofNat 64 s.cur.world) ∧ g 0x008 (BitVec.ofNat 64 s.cycle) ∧ g 0x009 (BitVec.ofNat 64 (s.cycle / 16 % 2 ^ 60)) ∧
      (s.nestsOut = false → g 0x010 (t.flags.setWidth 64)) ∧
      (s.nestsOut = true → exec (.gets d 0x010) s = .next (s.modCurTask (fun k => { k with park := .flagsDrain false d }))) ∧
      g 0x011 (t.rmode.setWidth 64) ∧ g 0x012 (t.ften.setWidth 64) ∧ g 0x013 (t.deadm.setWidth 64) ∧
      g 0x014 (t.fewait.setWidth 64) ∧ g 0x015 ((s.tqNow s.actCore).setWidth 64) ∧ g 0x016 (t.prio.setWidth 64) ∧
      g 0x020 t.trapv ∧ g 0x021 t.emulv ∧ g 0x022 t.seed ∧ g 0x023 (BitVec.ofNat 64 (s.sNum s.actCore (wsOff s.curWs 0x1C8) 8)) ∧
      (∀ j, s.cur.gang = some j → g 0x040 (BitVec.ofNat 64 (s.gang j).maw)) ∧ g 0x050 (BitVec.ofNat 64 s.cur.lease)) ∧
  (∀ (s : State) (d : BitVec 5),
      let v := s.rd d
      let t := s.curTask
      let p (sel : BitVec 12) (ok : Prop) (k : Task) : Prop :=
        (ok → ∃ u, exec (.puts d sel) s = .next u ∧ SameRegs s u [] ∧ GoesOnAs s u 1 k ∧ SameElse s u ∧ SameBytes s u)
      let bad (sel : BitVec 12) (ok : Prop) : Prop := ¬ok → Traps s (.puts d sel) ⟨1, 2, none, none⟩
      let ro (sel : BitVec 12) (ok : Prop) : Prop := (ok → Traps s (.puts d sel) ⟨1, 3, none, none⟩) ∧ bad sel ok
      p 0x010 (v.toNat < 32 ∧ s.nestsOut = false) { t with flags := v.setWidth 5 } ∧
      (v.toNat < 32 → s.nestsOut = true →
        exec (.puts d 0x010) s = .next (s.modCurTask (fun k => { k with park := .flagsDrain true d }))) ∧
      p 0x011 (v.toNat < 6) { t with rmode := v.setWidth 3 } ∧
      ((v.toNat = 6 ∨ v.toNat = 7) → Traps s (.puts d 0x011) ⟨1, 5, none, none⟩) ∧
      p 0x012 (v.toNat < 64) { t with ften := v.setWidth 6 } ∧ p 0x013 (v.toNat < 2 ^ 32) { t with deadm := v.setWidth 32 } ∧
      p 0x014 (v.toNat < 2 ^ 32) { t with fewait := v.setWidth 32 } ∧ p 0x016 (v.toNat < 4) { t with prio := v.setWidth 2 } ∧
      p 0x020 (v.toNat % 4 = 0) { t with trapv := v } ∧ p 0x021 (v.toNat % 4 = 0) { t with emulv := v } ∧
      p 0x022 True { t with seed := v } ∧
      (∃ u, exec (.puts d 0x023) s = .next u ∧ SameRegs s u [] ∧ GoesOn s u 1 ∧ SameElseSpad s u ∧
        SpadBytesBut s u s.actCore (wsOff s.curWs 0x1C8) 8 ∧ u.sNum s.actCore (wsOff s.curWs 0x1C8) 8 = v.toNat) ∧
      (v.toNat < 2 ^ 32 → ∃ u, exec (.puts d 0x015) s = .next u ∧ SameRegs s u [] ∧ GoesOn s u 1 ∧ OnlyCore s u ∧
        OtherThreads s u ∧ SameBytes s u ∧
        u.cur = { s.cur with slots := u.cur.slots, tasks := u.cur.tasks, tq := u.cur.tq, tqNew := u.cur.tqNew } ∧
        u.tqNow s.actCore = s.tqNow s.actCore ∧
        (∀ n, 8 ≤ n → ({ u with cycle := s.cycle + n }).tqNow s.actCore = v.setWidth 32)) ∧
      bad 0x010 (v.toNat < 32) ∧ bad 0x011 (v.toNat < 8) ∧ bad 0x012 (v.toNat < 64) ∧ bad 0x013 (v.toNat < 2 ^ 32) ∧
      bad 0x014 (v.toNat < 2 ^ 32) ∧ bad 0x015 (v.toNat < 2 ^ 32) ∧ bad 0x016 (v.toNat < 4) ∧ bad 0x020 (v.toNat % 4 = 0) ∧
      bad 0x021 (v.toNat % 4 = 0) ∧
      ro 0x000 True ∧ ro 0x001 (v.toNat < 2 ^ 20) ∧ ro 0x002 (v.toNat < 2 ^ 16) ∧ ro 0x003 (v.toNat < 2 ^ 16) ∧
      ro 0x004 (v.toNat < 16) ∧ ro 0x005 True ∧ ro 0x006 (v.toNat < 2 ^ 32) ∧ ro 0x007 (v.toNat < 2 ^ 12) ∧ ro 0x008 True ∧
      ro 0x009 (v.toNat < 2 ^ 60) ∧ ro 0x040 (1 ≤ v.toNat ∧ v.toNat ≤ 8) ∧ ro 0x050 (1 ≤ v.toNat ∧ v.toNat ≤ 64))

/-- R38: common registers. `ordered` holds of the writes a core has still to show: `putc` alone adds one. -/
def Obligations.CommonRegistersFollowR38 : Prop :=
  ∀ (s : State) (d : BitVec 5) (c : BitVec 4),
    let u := s.drainReds
    let ordered (u : State) : Prop := u.cur.commonsNew.Pairwise (fun e f => e.2.1 ≤ f.2.1) ∧
      ∀ e ∈ u.cur.commonsNew, e.2.1 ≤ u.cycle + 8
    Gives s (.getc d c) d (s.getCommon c.toNat) 1 ∧
    (∀ j (r : Nat), ({ s with actSlot := j }).getCommon r = s.getCommon r) ∧
    ∃ t, exec (.putc d c) s = .next t ∧ SameRegs u t [] ∧ GoesOn u t 1 ∧ OnlyCore u t ∧ OtherThreads u t ∧ SameBytes u t ∧
      t.cur = { u.cur with
        slots := t.cur.slots, tasks := t.cur.tasks, commons := t.cur.commons, commonsNew := t.cur.commonsNew } ∧
      (∀ n, 8 ≤ n → ({ t with cycle := u.cycle + n }).getCommon c.toNat = s.rd d) ∧
      (ordered u → ordered t ∧ ∀ (r n : Nat), (n < 8 ∨ r ≠ c.toNat) →
        ({ t with cycle := u.cycle + n }).getCommon r = ({ u with cycle := u.cycle + n }).getCommon r)

/-- R227, R228, R234: leaving a slot. -/
def Obligations.LeavingASlotFollowsR227 : Prop :=
  ∀ (s : State) (d a : BitVec 5),
    let leaves (i : Instr) (u : State) (st : Nat) (inc : Option Nat) (ds : List (BitVec 5)) : Prop :=
      ∃ t, exec i s = .next t ∧ SameRegs u t ds ∧ (ds = [d] → t.rd d = 0) ∧ Leaves u t st inc
    let settled := s.modCore s.actCore (fun k => k.settleHeld s.curWs)
    let seen := (s.drainReds).raisePts s.drainReds.actCore s.drainReds.cur.hts
    let full := (seen.sNum seen.actCore (wsOff seen.curWs 0x170) 8) % 2 = 1
    let x := (s.rd a).toNat % 1024
    let can := x ≠ s.curWs ∧ (s.task s.actCore x).tstate = 0 ∧ ∃ p, p < 4 ∧ x ∈ s.cur.readyList p
    leaves .sleep s 2 s.readyNext [] ∧ leaves .halt settled 4 settled.readyNext [] ∧
    ((∃ p w, s.cur.readyHead = some (p, w) ∧ p ≤ s.curTask.prio.toNat) → leaves .yield s 0 s.readyNext []) ∧
    (¬(∃ p w, s.cur.readyHead = some (p, w) ∧ p ≤ s.curTask.prio.toNat) → Continues s .yield 1) ∧
    (full → ∃ t, exec .msgWait s = .next t ∧ SameRegs seen t [] ∧ GoesOn seen t 1 ∧ SameElse seen t) ∧
    (¬full → leaves .msgWait seen 3 seen.readyNext []) ∧
    (can → leaves (.wswap d a) s 0 (some x) [d]) ∧
    (¬can → Gives s (.wswap d a) d 1 1)

/-- R229: `spawn`. The clause on LINK leaves out a list whose tail is x itself. -/
def Obligations.SpawnFollowsR229 : Prop :=
  ∀ (s : State) (d a b : BitVec 5),
    let c := s.actCore
    let x := (s.rd a).toNat % 1024
    let old := (s.task c x).tstate
    let free := x ≠ s.curWs ∧ old ≠ 0 ∧ old ≠ 1 ∧ old ≠ 2 ∧ old ≠ 3 ∧ old ≠ 5
    let prio := s.sNum c (wsOff x 0x188) 1 % 4
    let tq := (s.tqNow c).toNat
    (¬free → Gives s (.spawn d a b) d 1 1) ∧
    (free → ∃ t, exec (.spawn d a b) s = .next t ∧ t.rd d = 0 ∧ SameRegs s t [d] ∧ GoesOn s t 1 ∧ OnlyCore s t ∧
      t.mem = s.mem ∧ (∀ i, i ≠ s.actSlot → t.slot c i = s.slot c i) ∧ (∀ w, w ≠ s.curWs → w ≠ x → t.task c w = s.task c w) ∧
      t.task c x = { Task.reset with
        tstate := 0, pc := s.rd b, fresh := true, prio := BitVec.ofNat 2 prio, trapv := s.curTask.trapv
        emulv := s.curTask.emulv, seed := s.curTask.seed, fewait := s.curTask.fewait, qrem := tq } ∧
      (∀ p, t.cur.readyList p = s.cur.readyList p ++ (if p = prio then [x] else [])) ∧
      t.sNum c (wsOff x 0x180) 8 = (s.rd b).toNat ∧ t.sNum c (wsOff x 0x188) 2 = prio ∧ t.sNum c (wsOff x 0x18C) 4 = 0 ∧
      ((s.cur.readyList prio).getLast? ≠ some x → t.sNum c (wsOff x 0x18A) 2 = 0xFFFF) ∧
      t.sNum c (wsOff x 0x190) 8 = tq * 2 ^ 32 ∧ (∀ j, j < 5 → t.sNum c (wsOff x (0x198 + 8 * j)) 8 = 0) ∧
      t.hnd c x = 0 ∧ (∀ j, j < 8 → t.sNum c (wsOff x (0x200 + 8 * j)) 8 = s.sNum c (wsOff x (0x200 + 8 * j)) 8 / 2 * 2) ∧
      (∀ y, (y < wsOff x 0x100 ∨ wsOff x 0x108 ≤ y) → (y < wsOff x 0x180 ∨ wsOff x 0x1C0 ≤ y) →
        (y < wsOff x 0x200 ∨ wsOff x 0x240 ≤ y) → y % 1024 ≠ 0x18A → y % 1024 ≠ 0x18B → t.spadByte c y = s.spadByte c y))

/-- R226, R230, R233: `wake` and `msg.send`. A b field of 27 to 31 is no instruction. -/
def Obligations.WakesAndMessagesFollowR230AndR233 : Prop :=
  ∀ (s : State) (d a b : BitVec 5), b.toNat ≤ 26 →
    let u := s.drainReds
    let c := u.actCore
    let x := (s.rd a).toNat % 1024
    let payload := (List.range 6).flatMap (fun j => bytesOf 8 (s.rd (BitVec.ofNat 5 (b.toNat + j))).toNat)
    let box := wsOff x 0x140
    let status := u.sNum c (wsOff x 0x170) 8
    let tst := (u.task c x).tstate
    let list := (u.task c x).prio.toNat
    (u.refCore (s.rd a) = none →
      TrapsFrom u s (.wake d a) ⟨7, 6, none, none⟩ ∧ TrapsFrom u s (.msgSend a b) ⟨7, 6, none, none⟩) ∧
    (∀ o, u.refCore (s.rd a) = some o → o ≠ c →
      Sends u.undelayed s (.wake d a) (.wake d) 0 (.spad o (1024 * x)) none ∧
      Sends u.undelayed s (.msgSend a b) (.send payload s.actSlot) 0 (.spad o (1024 * x)) none) ∧
    (u.refCore (s.rd a) = some c →
      (tst = 2 → u.cur.switchingOut x 2 = none → ∃ t, exec (.wake d a) s = .next t ∧ t.rd d = 1 ∧ SameRegs u t [d] ∧
        (x ≠ u.curWs → GoesOn u t 1) ∧ OnlyCore { u with nextId := u.nextId + 1 } t ∧ t.mem = u.mem ∧ (t.task c x).tstate = 0 ∧
        t.cur.readyList list = u.cur.readyList list ++ [x]) ∧
      (∀ j, u.cur.switchingOut x 2 = some j → ∃ t, exec (.wake d a) s = .next t ∧ t.rd d = 1 ∧ SameRegs u t [d] ∧
        t.curTask.pc = u.npc ∧ OnlyCore { u with nextId := u.nextId + 1 } t ∧ SameBytes u t ∧
        (t.slot c j).switching = ((u.slot c j).switching).map (fun z => { z with outgoing := some (x, 0) })) ∧
      (tst ≠ 2 → u.cur.switchingOut x 2 = none → ∃ t, exec (.wake d a) s = .next t ∧ t.rd d = 0 ∧ SameRegs u t [d] ∧
        GoesOn u t 1 ∧ OnlyCore { u with nextId := u.nextId + 1 } t ∧ SameBytes u t ∧ OtherThreads u t ∧ t.cur.ready = u.cur.ready) ∧
      (status % 2 = 0 → ∃ t, exec (.msgSend a b) s = .next t ∧ SameRegs u t [] ∧ (x ≠ u.curWs → GoesOn u t 1) ∧
        OnlyCore { u with nextId := u.nextId + 1 } t ∧ t.mem = u.mem ∧ Memory.readN t.cur.scratch box 48 = payload ∧
        t.sNum c (wsOff x 0x170) 8 = c % 65536 * 2 ^ 32 + s.actSlot % 16 * 2 ^ 28 + 1 ∧
        (tst = 3 → u.cur.switchingOut x 3 = none → (t.task c x).tstate = 0 ∧
          t.cur.readyList list = u.cur.readyList list ++ [x]) ∧
        (tst ≠ 3 → SpadBytesBut u t c box 0x38)) ∧
      (status % 2 = 1 → ∃ t r, exec (.msgSend a b) s = .next t ∧ t.cur.sendWait = u.cur.sendWait ++ [r] ∧
        r.op = .send payload s.actSlot ∧ r.loc = .spad c (1024 * x) ∧ t.curTask = { u.curTask with park := .home r.id } ∧
        SameRegs u t [] ∧ SameBytes u t ∧ OnlyCore { u with nextId := u.nextId + 1 } t))

/-- R61, R235: `gbar` and its release. That the release comes at R61's bound is the model's choice (log 42). -/
def Obligations.GangBarriersFollowR61AndR235 : Prop :=
  ∀ (s : State) (i : BitVec 5) (g id : Nat),
    let u := s.drainReds
    let G := u.gang g
    let j := i.toNat
    let before := AMap.get [] G.arrivals j
    (s.curTask.gang = none → Traps s (.gbar i) ⟨7, 0x0A, none, none⟩) ∧
    (s.curTask.gang = some g → ∃ t, exec (.gbar i) s = .next t ∧ t.curTask = { u.curTask with park := .gbar j } ∧
      SameRegs u t [] ∧ SameBytes u t ∧ OtherThreads u t ∧ (∀ x, x ≠ g → t.gang x = u.gang x) ∧
      AMap.get [] (t.gang g).arrivals j = before ++ [u.sNum u.actCore (wsOff u.curWs 0x1C0) 8] ∧
      AMap.get 0 (t.gang g).arrPts j = max (u.pts u.actCore) (AMap.get 0 G.arrPts j) ∧
      (before.length + 1 = G.size → AMap.find (t.gang g).arrDue j = some (u.cycle + 64 + 2 * ((G.w - 1) + (G.h - 1)))) ∧
      (before.length + 1 ≠ G.size → (t.gang g).arrDue = G.arrDue)) ∧
    (∀ due, AMap.find (s.gang g).arrDue id = some due → (s.gang g).phase = 1 → due ≤ s.cycle →
      ∃ t, exec (.gbarRelease g id) s = .next t ∧ SameBytes s t ∧ AMap.find (t.gang g).arrDue id = none ∧
        AMap.get [] (t.gang g).arrivals id = [] ∧
        (∀ c, c ∈ (s.gang g).cores → AMap.get 0 (s.gang g).arrPts id ≤ t.pts c) ∧
        (∀ c n w, c ∈ (s.gang g).cores → n < 16 → (s.slot c n).ws = some w → (s.task c w).gang = some g →
          (s.task c w).park = .gbar id → (t.task c w).park = .run ∧ s.cycle + 16 ≤ (t.slot c n).nextAt ∧
          ((s.gang g).cores.Nodup → (∀ m, m < 16 → (s.slot c m).ws = some w → m = n) →
            (t.task c w).pc = (s.actAs c n).npc))) ∧
    ((AMap.find (s.gang g).arrDue id = none ∨ (s.gang g).phase ≠ 1 ∨
      (∃ due, AMap.find (s.gang g).arrDue id = some due ∧ s.cycle < due)) → exec (.gbarRelease g id) s = .next s)

/-- R3: byte order; the canonical form is the model's own (log 12). -/
def Obligations.ByteMemoriesReadBackAndKeepTheirForm : Prop :=
  (∀ (m : List Host.Cell) (a n v x : Nat), Memory.read (Memory.putNum m a n v) x =
    if a ≤ x ∧ x < a + n then BitVec.ofNat 8 (v / 256 ^ (x - a)) else Memory.read m x) ∧
  (∀ (m : List Host.Cell) (a n : Nat), Memory.num m a n = ((List.range n).map (fun k => (Memory.read m (a + k)).toNat * 256 ^ k)).sum) ∧
  (∀ (m : List Host.Cell) (a n v : Nat), Memory.wf m = true → Memory.wf (Memory.putNum m a n v) = true) ∧
  Memory.wf State.reset.mem = true ∧
  ∀ m m' : List Host.Cell, Memory.wf m = true → Memory.wf m' = true → (∀ a, Memory.read m a = Memory.read m' a) → m = m'

/-- R195, R213: the checks of a thread's access. A full-empty form on an alias takes R212's PROT 9, not R145's PROT 2: the
spec gives both, and log 71 records the conflict. R195, R213, R81, R111. What an address that no memory backs does,
the spec does not say: the stop is the model's choice (log 47). -/
def Obligations.AccessesFollowR195AndR213 : Prop :=
  (∀ (s : State) (c ws ea : Nat) (acc : Acc), 0 < acc.n →
      let k := s.check c ws ea acc
      let w := (s.core c).world
      let fine := ea % acc.align = 0
      let resident (o off j : Nat) : Prop := ∃ i, i < 16 ∧ ((s.core o).slot i).ws = some j ∧ off < 1024 * j + 256 ∧ 1024 * j < off + acc.n
      (¬fine → k = .trap (trapAt (if acc.kind = 3 then 0x0D else 5) 0 ea)) ∧
      (fine → (2 ^ 56 ≤ ea ∨ (0x00F0000080000000 ≤ ea ∧ ea < 0x00F8000000000000) ∨
        (0x00F9000000000000 ≤ ea ∧ ea < 0x00FFFFFFFFF00000)) → k = .trap (trapAt 7 5 ea)) ∧
      (∀ o off, fine → ea < 2 ^ 56 → s.spadOf c ea = some (o, off) →
        let alloc := (s.core o).world = w ∧ o < s.coreList.length
        let clear := ∀ j, ¬(resident o off j)
        (¬alloc → k = .trap (trapAt 7 6 ea)) ∧
        (alloc → (∃ j, resident o off j) → (acc.kind ≠ 0 ∨ o ≠ c ∨ ∀ j, resident o off j → j ≠ ws) → k = .trap (trapAt 8 0 ea)) ∧
        (alloc → clear → acc.w = true → (s.core o).recordHit off acc.n = true → k = .trap (trapAt 8 1 ea)) ∧
        (alloc → clear → acc.w = true → (s.core o).recordHit off acc.n = false → (s.core o).skipHit off acc.n = true →
          k = .trap (trapAt 0x0E 0x0A ea)) ∧
        (alloc → acc.kind = 0 → o = c → (s.core c).regHit off acc.n = some ws →
          (acc.w = true → (s.core c).recordHit off acc.n = false ∧ (s.core c).skipHit off acc.n = false) →
          (s.core c).bankErrors ws = [] → k = .ok (.spad o off) .invalid) ∧
        (alloc → clear → (acc.w = false ∨ ((s.core o).recordHit off acc.n = false ∧ (s.core o).skipHit off acc.n = false)) →
          ((acc.kind = 2 ∨ acc.kind = 8) → k = .trap (trapAt 7 2 ea)) ∧
          (acc.kind ≠ 2 → acc.kind ≠ 8 → poisonHit (s.core o).spoison off acc.n = false → k = .ok (.spad o off) .invalid))) ∧
      (∀ win off, fine → ea < 2 ^ 56 → s.spadOf c ea = none → fabricOf ea = some (win, off) →
        let opens := s.fabricOpen w win = true ∧ off + acc.n ≤ s.fabricLimit w win + 1
        (¬opens → k = .trap (trapAt 7 6 ea)) ∧ (opens → acc.kind = 4 → k = .trap (trapAt 7 9 ea)) ∧
        (opens → acc.kind ≠ 4 → acc.kind ≠ 0 → acc.kind ≠ 6 → k = .trap (trapAt 7 2 ea)) ∧
        (opens → (acc.kind = 0 ∨ acc.kind = 6) → k = .ok (.fabric win off) .invalid)) ∧
      (fine → ea < 0x00F0000000000000 →
        let copy := if acc.kind = 0 then (s.l1Hit c ea).filter (fun y => !acc.w || y.owned) else none
        let leaf : Walk := match copy with
          | some y => .leaf y.pte y.big
          | none => s.translate c w ea
        (leaf = .invalid ∨ leaf = .malformed → k = .service 6 ea) ∧
        (∀ pte big, leaf = .leaf pte big →
          let holder (P : ObjEntry → Prop) : Prop := ∃ e, (s.world w).handles.find? (fun e => e.2.holds ea) = some e ∧ P e.2
          let text := holder (fun o => ea < o.textEnd)
          let foreign := holder (fun o => o.textEnd ≤ ea ∧ o.holds acc.pc = false)
          let mayW := acc.w = true → ¬text ∧ bitOf pte 2 = true ∧ ¬foreign
          let mayR := acc.r = true → bitOf pte 1 = true ∧ ¬foreign
          let used : Walk := if copy.isSome then .invalid else .leaf pte big
          let barred := ((acc.kind = 0 ∨ acc.kind = 6) ∧ pteMt pte = 1 ∧ acc.w = true ∧ acc.n = 1) ∨
            ((acc.kind = 1 ∨ acc.kind = 3 ∨ acc.kind = 7) ∧ (pteMt pte = 1 ∨ pteMt pte = 3)) ∨
            ((acc.kind = 2 ∨ acc.kind = 8) ∧ pteMt pte ≠ 0)
          (acc.w = true → text → k = .trap (trapAt 7 7 ea)) ∧
          (¬(acc.w = true ∧ text) → acc.kind = 4 → k = .trap (trapAt 7 9 ea)) ∧
          (acc.kind ≠ 4 →
            (acc.w = true → ¬text → (bitOf pte 2 = false ∨ foreign) → k = .trap (trapAt 7 2 ea)) ∧
            (mayW → acc.r = true → (bitOf pte 1 = false ∨ foreign) → k = .trap (trapAt 7 3 ea)) ∧
            (mayW → mayR →
              (barred → k = .trap (trapAt 7 2 ea)) ∧
              (∀ pa mt, ¬barred → leafLoc pte big ea = .mem pa mt → s.settling = [] →
                (∀ x ∈ s.backing w pa (pteMt pte) acc.n acc.w, x.1 < s.physTop ∧ s.lostAt x.1 = false ∧ poisonHit s.poison x.1 x.2 = false) →
                (∀ y, copy = some y → poisonHit y.bad pa acc.n = false) → k = .ok (.mem pa mt) used) ∧
              (∀ win off, ¬barred → leafLoc pte big ea = .fabric win off →
                k = if off + acc.n ≤ s.fabricLimit w win + 1 then .ok (.fabric win off) used else .trap (trapAt 7 6 ea))))))) ∧
  (∀ (s : State) (i : Instr) (ea : Nat) (acc : Acc), s.accessOf i = some (ea, acc) →
      let u := s.drainReds
      match u.check u.actCore u.curWs ea acc with
      | .trap t => TrapsFrom u s i t
      | .service cause a =>
        (cause ≠ 0x13 → exec i s = .next ((u.modCurSlot (fun sl => { sl with faultReg := ⟨cause, a, u.curTask.pc⟩ })).modCurTask
          (fun k => { k with park := .service cause a u.curTask.pc }))) ∧
        (cause = 0x13 → ∃ t, exec i s = .next t ∧ t.curTask = { u.curTask with park := .service cause a u.curTask.pc } ∧
          t.curSlot = { u.curSlot with faultReg := ⟨cause, a, u.curTask.pc⟩ } ∧ SameBytes u t ∧ OtherThreads u t)
      | .settle => exec i s = .next (u.modCurTask (fun k => { k with park := .settle }))
      | .absent => exec i s = .fault .absentMemory
      | .ok l x => ∀ off, l = .spad u.actCore off → u.footHit u.actCore u.curWs off acc.n = true →
          exec i s = .next ((u.noteTlb u.actCore ea x).modCurTask (fun k => { k with park := .footprint off acc.n })))

/-- R194, R196: loads. -/
def Obligations.LoadsFollowR194 : Prop :=
  ∀ (s : State) (d a : BitVec 5) (z : BitVec 2) (o : BitVec 12) (l : Loc) (x : Walk),
    let u := s.drainReds
    let c := u.actCore
    let n := 2 ^ z.toNat
    let ea := (s.rd a + o.signExtend 64).toNat
    let base : Word := BitVec.ofNat 64 ea
    let v := u.noteTlb c ea x
    let back := u.cycle + 6 + v.cur.late + v.travel c l
    Reaches u ea ⟨0, n, n, true, false, s.curTask.pc.toNat⟩ l x →
    let form (i : Instr) (v w : Word) (ds : List (BitVec 5)) (due : Nat) : Prop :=
      ∃ t, exec i s = .next t ∧ t.rd d = v ∧ (a ∈ ds → t.rd a = w) ∧ SameRegs u t ds ∧ GoesOnBy u t due ∧ SameBytes u t ∧
        MemFrame u t
    let gives (v due : Nat) : Prop :=
      (a ≠ d → form (.ld d a z o) (BitVec.ofNat 64 v) base [d] due ∧
        form (.ldSx d a z o) ((BitVec.ofNat (8 * n) v).signExtend 64) base [d] due ∧
        form (.ldUp d a z o) (BitVec.ofNat 64 v) base [d, a] due) ∧
      (a = d → form (.ld d a z o) (BitVec.ofNat 64 v) (BitVec.ofNat 64 v) [d] due ∧
        form (.ldSx d a z o) ((BitVec.ofNat (8 * n) v).signExtend 64) ((BitVec.ofNat (8 * n) v).signExtend 64) [d] due)
    let asks (i : Instr) (op : ReqOp) (win off : Nat) : Prop :=
      ∃ t, exec i s = .next t ∧ t.reports = u.reports ++ [.fabricReq (v.fabricOut u.cur.world win off n false 0)] ∧
        t.curTask = { u.curTask with park := .fabric win ea op } ∧ SameRegs u t [] ∧ SameBytes u t ∧ OtherThreads u t
    (∀ off, l = .spad c off → (¬(u.inBank off) → gives (u.sNum c off n) u.cycle) ∧
      (u.inBank off → gives ((u.rd (BitVec.ofNat 5 (off % 1024 / 8))).toNat / 2 ^ (8 * (off % 8)) % 2 ^ (8 * n)) u.cycle)) ∧
    (∀ pa, l = .mem pa 0 →
      (∀ y, u.l1Hit c ea = some y → gives (natOfBytes ((y.data.drop (pa % 32)).take n)) u.cycle) ∧
      (u.l1Hit c ea = none → gives (u.mNum pa n) back)) ∧
    (∀ pa, l = .mem pa 1 → gives (natOfBytes (u.aliasRead u.cur.world pa n)) back) ∧
    (∀ pa, l = .mem pa 2 → gives (u.mNum pa n) back) ∧
    (∀ q off, l = .spad q off → q ≠ c →
      Sends (u.noteTlb c ea x) s (.ld d a z o) (.load n false d none) ea l none ∧
      Sends (u.noteTlb c ea x) s (.ldSx d a z o) (.load n true d none) ea l none ∧
      Sends (u.noteTlb c ea x) s (.ldUp d a z o) (.load n false d (some a)) ea l none) ∧
    (∀ win off, l = .fabric win off →
      asks (.ld d a z o) (.load n false d none) win off ∧ asks (.ldSx d a z o) (.load n true d none) win off ∧
      asks (.ldUp d a z o) (.load n false d (some a)) win off)

/-- R194, R196, R208, R145: stores. -/
def Obligations.StoresFollowR194 : Prop :=
  ∀ (s : State) (y a : BitVec 5) (z : BitVec 2) (o : BitVec 12) (l : Loc) (x : Walk),
    let u := s.drainReds
    let c := u.actCore
    let n := 2 ^ z.toNat
    let ea := (s.rd a + o.signExtend 64).toNat
    let v := (s.rd y).toNat
    let noted := u.noteTlb c ea x
    let back := u.cycle + 6 + noted.cur.late + noted.travel c l
    Reaches u ea ⟨0, n, n, false, true, s.curTask.pc.toNat⟩ l x →
    let done (P : State → Prop) (ds : List (BitVec 5)) (due : Nat) : Prop :=
      (∃ t, exec (.st y a z o) s = .next t ∧ P t ∧ SameRegs u t ds ∧ GoesOnBy u t due ∧ MemFrame u t) ∧
      ∃ t, exec (.stUp y a z o) s = .next t ∧ (a ∉ ds → P t) ∧ t.rd a = BitVec.ofNat 64 ea ∧ SameRegs u t (a :: ds) ∧
        GoesOnBy u t due ∧ MemFrame u t
    let asks (i : Instr) (op : ReqOp) (win off : Nat) : Prop :=
      ∃ t, exec i s = .next t ∧ t.reports = u.reports ++ [.fabricReq (noted.fabricOut u.cur.world win off n true v)] ∧
        t.curTask = { u.curTask with park := .fabric win ea op } ∧ SameRegs u t [] ∧ SameBytes u t ∧ OtherThreads u t
    (∀ off, l = .spad c off →
      (¬(u.inBank off) → done (fun t => t.sNum c (off / 8 * 8) 8 = u.stored c off n v ∧ SpadBytesBut u t c (off / 8 * 8) 8) []
        u.cycle) ∧
      (u.inBank off →
        let r : BitVec 5 := BitVec.ofNat 5 (off % 1024 / 8)
        done (fun t => t.rd r = BitVec.ofNat 64 (insertBits (u.rd r).toNat (8 * (off % 8)) (8 * n) v) ∧
          t.curSlot.live.getLsbD r.toNat = true ∧ SameBytes u t) [r] u.cycle)) ∧
    (∀ pa, l = .mem pa 0 → done (fun t => t.mNum pa n = v % 2 ^ (8 * n) ∧ MemBytesBut u t pa n) []
      (if (u.l1Hit c ea).any (fun w => w.owned) then u.cycle else back)) ∧
    (∀ pa, l = .mem pa 2 → done (fun t => t.mNum pa n = v % 2 ^ (8 * n) ∧ MemBytesBut u t pa n) [] back) ∧
    (∀ pa w, l = .mem pa 1 → u.windowOf u.cur.world pa = some w →
      let k := (pa - fwAlias w) / 64
      let img := spliceBytes (blockBf16 (u.windowBlock w k)) ((pa - fwAlias w) % 64) (bytesOf n v)
      let blk := (quantise .rne [] ((List.range 32).map (fun j => floatVal .bf16 (natOfBytes ((img.drop (2 * j)).take 2))))).1
      done (fun t => (∀ q, (q < fwCbase w + 16 * k ∨ fwCbase w + 16 * k + 16 ≤ q) →
          (q < fwSbase w + 2 * k ∨ fwSbase w + 2 * k + 2 ≤ q) → t.memByte q = u.memByte q) ∧
        (∀ q p, t.spadByte q p = u.spadByte q p) ∧ t.memByte (fwSbase w + 2 * k) = BitVec.ofNat 8 blk.scale ∧
        ((fwCbase w + 16 * k + 16 ≤ fwSbase w + 2 * k ∨ fwSbase w + 2 * k + 2 ≤ fwCbase w + 16 * k) →
          Memory.readN t.mem (fwCbase w + 16 * k) 16 = codeBytes blk.codes)) [] back) ∧
    (∀ q off, l = .spad q off → q ≠ c →
      Sends (u.noteTlb c ea x) s (.st y a z o) (.store n v none) ea l none ∧
      Sends (u.noteTlb c ea x) s (.stUp y a z o) (.store n v (some a)) ea l none) ∧
    (∀ win off, l = .fabric win off →
      asks (.st y a z o) (.store n v none) win off ∧ asks (.stUp y a z o) (.store n v (some a)) win off)

/-- R199, R200. -/
def Obligations.PrefetchesFollowR199AndR200 : Prop :=
  ∀ (s : State) (a : BitVec 5) (o : BitVec 12),
    let c := s.actCore
    let ea := (s.rd a + o.signExtend 64).toNat
    let line := ea / 128 * 128
    let busy := (s.cur.lmiss.filter (fun m => decide (s.cycle < m.2))).length
    let hit := (s.l1Hit c ea).isSome = true
    let k := s.check c s.curWs ea ⟨0, 1, 1, true, false, s.curTask.pc.toNat⟩
    (∃ t, exec (.dpref a o) s = .next t ∧ SameRegs s t [] ∧ GoesOn s t 1 ∧ SameBytes s t ∧ MemFrame s t ∧
      (∀ pa x, k = .ok (.mem pa 0) x → ¬hit → busy < 8 → ∃ y, AMap.find t.cur.l1 (ea / 32) = some y ∧ y.pa = pa / 32 * 32 ∧
        y.data = Memory.readN s.mem (pa / 32 * 32) 32) ∧
      ((hit ∨ 8 ≤ busy ∨ ∀ pa x, k ≠ .ok (.mem pa 0) x) → t.cur.l1 = s.cur.l1)) ∧
    ∃ t, exec (.ipref a o) s = .next t ∧ SameRegs s t [] ∧ GoesOn s t 1 ∧ SameBytes s t ∧
      MemFrame s (t.modCore c (fun k => { k with ireq := s.cur.ireq, icache := s.cur.icache })) ∧
      ((s.cur.line? line).isSome = true → t.cur.ireq = s.cur.ireq) ∧
      (∀ l x, (s.cur.line? line) = none → s.cur.ireq.any (fun r => r.1 == line) = false → s.fetchCheck c line = .ok l x →
        t.cur.ireq = s.cur.ireq ++ [(line, s.cycle + 6 + s.transTime c s.cur.world line + s.travel c l)]) ∧
      ((∀ l x, s.fetchCheck c line ≠ .ok l x) → t.cur.ireq = s.cur.ireq)

/-- R215: the operations of atomics and reds. R215 to R218. A red's request reaches its home after what its translation
took and half its travel, six cycles before its memory stage would have it there, as the model issues every access:
that date is the model's (log 46). -/
def Obligations.AtomicsFollowR215ToR218 : Prop :=
  (∀ n x b : Nat, (n = 4 ∨ n = 8) → x < 2 ^ (8 * n) → b < 2 ^ (8 * n) →
      amoResult 0 n x b = (x + b) % 2 ^ (8 * n) ∧
      (∀ j, (amoResult 1 n x b).testBit j = (x.testBit j && b.testBit j)) ∧
      (∀ j, (amoResult 2 n x b).testBit j = (x.testBit j || b.testBit j)) ∧
      (∀ j, (amoResult 3 n x b).testBit j = (x.testBit j != b.testBit j)) ∧
      (sintOf (amoResult 4 n x b) (8 * n) = min (sintOf x (8 * n)) (sintOf b (8 * n)) ∧ (amoResult 4 n x b = x ∨ amoResult 4 n x b = b)) ∧
      (sintOf (amoResult 5 n x b) (8 * n) = max (sintOf x (8 * n)) (sintOf b (8 * n)) ∧ (amoResult 5 n x b = x ∨ amoResult 5 n x b = b)) ∧
      amoResult 6 n x b = min x b ∧ amoResult 7 n x b = max x b ∧ amoResult 8 n x b = b ∧
      amoResult 9 4 x b = (addVal .f32 .rne false 0 (floatVal .f32 x) (floatVal .f32 b)).1 ∧
      amoResult 10 8 x b = (addVal .f64 .rne false 0 (floatVal .f64 x) (floatVal .f64 b)).1) ∧
  (∀ (s : State) (d a b : BitVec 5) (z : BitVec 2) (g : BitVec 4) (l : Loc) (x : Walk),
      let u := s.drainReds
      let c := u.actCore
      let ea := (s.rd a).toNat
      let m := if z = 0 then 4 else 8
      let v := u.noteTlb c ea x
      let B (n : Nat) : Nat := (s.rd b).toNat % 2 ^ (8 * n)
      let elsewhere := ∀ off, l ≠ .spad c off
      let ok (kind n : Nat) : Prop := Reaches u ea ⟨kind, n, n, true, true, s.curTask.pc.toNat⟩ l x
      let word (t : State) (off n v : Nat) : Prop :=
        t.sNum c (off / 8 * 8) 8 = u.stored c off n v ∧ SpadBytesBut u t c (off / 8 * 8) 8
      let amo (i : Instr) (op n : Nat) : Prop := ok 1 n →
        (∀ off, l = .spad c off → ∃ t, exec i s = .next t ∧ t.rd d = BitVec.ofNat 64 (u.sNum c off n) ∧
          word t off n (amoResult op n (u.sNum c off n) (B n)) ∧ OwnDone u t [d]) ∧
        (elsewhere → Sends (u.noteTlb c ea x) s i (.amo op n (B n) d) ea l none)
      let red (i : Instr) (op : Nat) : Prop := ok 7 m →
        (∀ off, l = .spad c off → poisonHit u.cur.spoison off m = false → ∃ t, exec i s = .next t ∧
          word t off m (amoResult op m (u.sNum c off m) (B m)) ∧ OwnDone u t []) ∧
        (∀ off, l = .spad c off → poisonHit u.cur.spoison off m = true → ∃ t, exec i s = .next t ∧ SameBytes u t ∧ GoesOn u t 1 ∧
          SameRegs u t []) ∧
        (elsewhere → v.meshFull c = false → ∃ t r, exec i s = .next t ∧ t.inflight = u.inflight ++ [r] ∧ r.op = .red op m (B m) ∧
          r.loc = l ∧ r.va = ea ∧ r.core = c ∧ r.ws = u.curWs ∧ r.arrive = u.cycle + v.cur.late + (v.travel c l + 1) / 2 ∧
          GoesOn u t 1 ∧ SameRegs u t [] ∧ SameBytes u t ∧ OtherThreads u t) ∧
        (elsewhere → v.meshFull c = true → exec i s = .next (v.modCurTask (fun k => { k with park := .meshFull })))
      let app (i : Instr) (op n : Nat) : Prop := ok 2 n →
        (elsewhere → Sends (u.noteTlb c ea x) s i
          (.ulogApp g.toNat op n (B n) (s.sNum s.actCore (wsOff s.curWs 0x1C0) 8 % 2 ^ 32)) ea l none)
      amo (.amoAdd d a b z) 0 m ∧ amo (.amoAnd d a b z) 1 m ∧ amo (.amoOr d a b z) 2 m ∧ amo (.amoXor d a b z) 3 m ∧
      amo (.amoMin d a b z) 4 m ∧ amo (.amoMax d a b z) 5 m ∧ amo (.amoMinn d a b z) 6 m ∧ amo (.amoMaxn d a b z) 7 m ∧
      amo (.amoSwap d a b z) 8 m ∧ amo (.amoFaddF32 d a b) 9 4 ∧ amo (.amoFaddF64 d a b) 10 8 ∧
      (ok 1 m →
        (∀ off, l = .spad c off → ∃ t, exec (.cas d a b z) s = .next t ∧ t.rd d = BitVec.ofNat 64 (u.sNum c off m) ∧ OwnDone u t [d] ∧
          (u.sNum c off m = (s.rd d).toNat % 2 ^ (8 * m) → word t off m (B m)) ∧
          (u.sNum c off m ≠ (s.rd d).toNat % 2 ^ (8 * m) → SameBytes u t)) ∧
        (elsewhere → Sends (u.noteTlb c ea x) s (.cas d a b z) (.cas m ((s.rd d).toNat % 2 ^ (8 * m)) (B m) d) ea l none)) ∧
      red (.redAdd a b z) 0 ∧ red (.redAnd a b z) 1 ∧ red (.redOr a b z) 2 ∧ red (.redXor a b z) 3 ∧ red (.redMin a b z) 4 ∧
      red (.redMax a b z) 5 ∧ red (.redMinn a b z) 6 ∧ red (.redMaxn a b z) 7 ∧
      app (.ulogAppAddF32 a b g) 0 4 ∧ app (.ulogAppAddF64 a b g) 1 8 ∧ app (.ulogAppAddI32 a b g) 2 4 ∧
      app (.ulogAppAddI64 a b g) 3 8 ∧ app (.ulogAppMaxF32 a b g) 4 4 ∧ app (.ulogAppMinF32 a b g) 5 4 ∧
      app (.ulogAppMaxF64 a b g) 6 8 ∧ app (.ulogAppMinF64 a b g) 7 8)

/-- R96, R220 to R222. -/
def Obligations.FullEmptyFormsFollowR96 : Prop :=
  ∀ (s : State) (d a : BitVec 5) (z : BitVec 2) (o : BitVec 12) (l : Loc) (x : Walk),
    let u := s.drainReds
    let c := u.actCore
    let n := 2 ^ z.toNat
    let ea := (s.rd a + o.signExtend 64).toNat
    let v := (s.rd d).toNat % 2 ^ (8 * n)
    let dl := if s.curTask.fewait = 0 then none else some (s.cycle / 16 + s.curTask.fewait.toNat)
    let ok (r w : Bool) : Prop := Reaches u ea ⟨4, n, n, r, w, s.curTask.pc.toNat⟩ l x
    let bits (t : State) (p : Nat → Prop) : Prop := ∀ g, t.cur.isFull g = true ↔ p g
    let word (t : State) (off : Nat) : Prop := t.sNum c (off / 8 * 8) 8 = u.stored c off n v ∧ SpadBytesBut u t c (off / 8 * 8) 8
    let waits (i : Instr) (op : ReqOp) : Prop := ∃ t r, exec i s = .next t ∧ t.cur.feWait = u.cur.feWait ++ [r] ∧ r.op = op ∧
      r.loc = l ∧ r.va = ea ∧ r.core = c ∧ r.ws = u.curWs ∧ r.deadline = dl ∧ t.curTask = { u.curTask with park := .home r.id } ∧
      SameRegs u t [] ∧ SameBytes u t ∧ t.cur.full = u.cur.full ∧ OtherThreads u t
    let away (i : Instr) (op : ReqOp) : Prop := (∀ off, l ≠ .spad c off) → Sends (u.noteTlb c ea x) s i op ea l dl
    (ok true false →
      away (.ldFeKeep d a z o) (.feLoad false n d) ∧ away (.ldFeTake d a z o) (.feLoad true n d) ∧
      ∀ off, l = .spad c off →
        (u.cur.isFull (off / 16) = true →
          (∃ t, exec (.ldFeKeep d a z o) s = .next t ∧ t.rd d = BitVec.ofNat 64 (u.sNum c off n) ∧ OwnDone u t [d] ∧
            SameBytes u t ∧ t.cur.full = u.cur.full) ∧
          ∃ t, exec (.ldFeTake d a z o) s = .next t ∧ t.rd d = BitVec.ofNat 64 (u.sNum c off n) ∧ OwnDone u t [d] ∧
            SameBytes u t ∧ bits t (fun g => u.cur.isFull g = true ∧ g ≠ off / 16)) ∧
        (u.cur.isFull (off / 16) = false →
          waits (.ldFeKeep d a z o) (.feLoad false n d) ∧ waits (.ldFeTake d a z o) (.feLoad true n d))) ∧
    (ok false true →
      away (.stFeFill d a z o) (.feStore 0 n v) ∧ away (.stFePut d a z o) (.feStore 1 n v) ∧
      away (.stFeClear a z o) (.feStore 2 n 0) ∧
      ∀ off, l = .spad c off →
        (u.cur.isFull (off / 16) = false → ∃ t, exec (.stFeFill d a z o) s = .next t ∧ word t off ∧ OwnDone u t [] ∧
          bits t (fun g => u.cur.isFull g = true ∨ g = off / 16)) ∧
        (u.cur.isFull (off / 16) = true → waits (.stFeFill d a z o) (.feStore 0 n v)) ∧
        (∃ t, exec (.stFePut d a z o) s = .next t ∧ word t off ∧ OwnDone u t [] ∧
          bits t (fun g => u.cur.isFull g = true ∨ g = off / 16)) ∧
        ∃ t, exec (.stFeClear a z o) s = .next t ∧ SameBytes u t ∧ OwnDone u t [] ∧
          bits t (fun g => u.cur.isFull g = true ∧ g ≠ off / 16))

/-- R224, R100: clasp instructions at the issuing core's own scratchpad; the words are those of R99. -/
def Obligations.ClaspInstructionsFollowR224 : Prop :=
  ∀ (s : State) (d a b : BitVec 5) (l : Loc) (x : Walk),
    let u := s.drainReds
    let c := u.actCore
    let ea := (s.rd a).toNat
    let B := (s.rd b).toNat % 2 ^ 40
    let p := (s.rd b).toNat % 2 ^ 24
    let ok (w : Bool) : Prop := Reaches u ea ⟨3, 16, 16, true, w, s.curTask.pc.toNat⟩ l x
    let away (i : Instr) (op : ReqOp) : Prop := (∀ off, l ≠ .spad c off) → Sends (u.noteTlb c ea x) s i op ea l none
    let puts (i : Instr) (off : Nat) (e q : Bool) (exp phc arr : Nat) : Prop :=
      ∃ t, exec i s = .next t ∧ OwnDone u t [] ∧ SpadBytesBut u t c off 16 ∧
        t.sNum c off 8 = u.stored c off 8 ((if e then 2 ^ 63 else 0) + (if q then 2 ^ 62 else 0) + exp) ∧
        t.sNum c (off + 8) 8 = u.stored c (off + 8) 8 (phc * 2 ^ 40 + arr)
    let keeps (i : Instr) (ds : List (BitVec 5)) (v : Word) : Prop :=
      ∃ t, exec i s = .next t ∧ OwnDone u t ds ∧ SameBytes u t ∧ (ds = [d] → t.rd d = v)
    (ok true →
      away (.clInit a b) (.clInit B) ∧ away (.clArm a b) (.clArm B) ∧ away (.clAdd a b) (.clAdd B) ∧
      ∀ off, l = .spad c off →
        let w0 := u.sNum c off 8
        let w1 := u.sNum c (off + 8) 8
        let E := w0.testBit 63
        let O := w0.testBit 62
        let EXP := w0 % 2 ^ 40
        let PHC := w1 / 2 ^ 40 % 2 ^ 24
        let ARR := w1 % 2 ^ 40
        puts (.clInit a b) off false false B 0 0 ∧
        (B = 0 → puts (.clArm a b) off E O 0 PHC ARR ∧ keeps (.clAdd a b) [] 0) ∧
        (B ≠ 0 → puts (.clArm a b) off E (O || (decide (0 < ARR / B) && decide (ARR % B ≠ 0))) B ((PHC + ARR / B) % 2 ^ 24) (ARR % B)) ∧
        (B ≠ 0 → EXP = 0 → puts (.clAdd a b) off E O 0 PHC ((ARR + B) % 2 ^ 40)) ∧
        (B ≠ 0 → EXP ≠ 0 → puts (.clAdd a b) off E (O || (decide (0 < (ARR + B) / EXP) && decide ((ARR + B) % EXP ≠ 0))) EXP
          ((PHC + (ARR + B) / EXP) % 2 ^ 24) ((ARR + B) % EXP))) ∧
    (ok false →
      away (.clTest d a) (.clTest d) ∧ away (.clWait d a b) (.clWait d p) ∧
      ∀ off, l = .spad c off →
        let w0 := u.sNum c off 8
        let phc := u.sNum c (off + 8) 8 / 2 ^ 40 % 2 ^ 24
        let result : Word := BitVec.ofNat 64 (w0 / 2 ^ 62 * 2 ^ 62 + phc)
        keeps (.clTest d a) [d] result ∧ ((phc ≠ p ∨ w0.testBit 63 = true) → keeps (.clWait d a b) [d] result) ∧
        (phc = p → w0.testBit 63 = false → ∃ t r, exec (.clWait d a b) s = .next t ∧ t.cur.clWait = u.cur.clWait ++ [r] ∧
          r.op = .clWait d p ∧ r.loc = l ∧ r.core = c ∧ r.ws = u.curWs ∧ t.curTask = { u.curTask with park := .home r.id } ∧
          SameRegs u t [] ∧ SameBytes u t ∧ OtherThreads u t))

/-- R84, R98, R101, R291: bytes that engines have written and nobody has acquired. -/
def Obligations.EngineBytesStayOpenUntilTheyAreAcquired : Prop :=
  ∀ (s : State) (w c : Nat),
    (∀ (id core off stamp j : Nat) (bs : List Byte), j < bs.length → ¬(0x200 ≤ (off + j) % 1024 ∧ (off + j) % 1024 < 0x240) →
      let l : Loc := .spad c off
      let old := s.spadByte c (off + j)
      (((s.noteEngine id core w l bs).engineWrite w l bs stamp).earlier w l bs.length)[j]? =
        some (if bs[j]? = some old then none else some old)) ∧
    (∀ (d a : BitVec 5) (z : BitVec 2) (o : BitVec 12) (off : Nat) (x : Walk),
      let u := s.drainReds
      let n := 2 ^ z.toNat
      let ea := (s.rd a + o.signExtend 64).toNat
      let lands (ea off : Nat) (acc : Acc) : Prop := u.check u.actCore u.curWs ea acc = .ok (.spad u.actCore off) x ∧
        u.footHit u.actCore u.curWs off acc.n = false
      let was (j : Nat) : Option Byte := ((u.earlier u.cur.world (.spad u.actCore off) n)[j]?).join
      let here (t : State) (j : Nat) : Byte := t.spadByte u.actCore (off + j)
      (lands ea off ⟨0, n, n, true, false, s.curTask.pc.toNat⟩ → ¬(u.inBank off) →
        ∃ t, exec (.ld d a z o) s = .next t ∧ SameRegs u t [d] ∧ GoesOn u t 1 ∧ SameBytes u t ∧ OtherThreads u t ∧
          (t.rd d).toNat < 2 ^ (8 * n) ∧
          ∀ j, j < n → let b : Byte := BitVec.ofNat 8 ((t.rd d).toNat / 256 ^ j); b = here u j ∨ was j = some b) ∧
      (lands ea off ⟨0, n, n, false, true, s.curTask.pc.toNat⟩ → ¬(u.inBank off) →
        ∃ t, exec (.st d a z o) s = .next t ∧ SameRegs u t [] ∧ GoesOn u t 1 ∧ SpadBytesBut u t u.actCore (off / 8 * 8) 8 ∧
          t.opened u.cur.world (.spad u.actCore off) n = false ∧
          ∀ j, j < n → ¬(0x200 ≤ off % 1024 ∧ off % 1024 < 0x240) →
            here t j = BitVec.ofNat 8 ((s.rd d).toNat / 256 ^ j) ∨ (was j ≠ none ∧ here t j = here u j)) ∧
      (lands ea off ⟨4, n, n, true, false, s.curTask.pc.toNat⟩ → u.cur.isFull (off / 16) = true →
        ∃ t, exec (.ldFeKeep d a z o) s = .next t ∧ t.opened u.cur.world (.spad u.actCore (off / 16 * 16)) 16 = false)) ∧
    (∀ (d a : BitVec 5) (off : Nat) (x : Walk),
      let u := s.drainReds
      u.check u.actCore u.curWs (s.rd a).toNat ⟨3, 16, 16, true, false, s.curTask.pc.toNat⟩ = .ok (.spad u.actCore off) x →
      u.footHit u.actCore u.curWs off 16 = false →
      let key := 2 * (u.actCore * 1048576 + off) + 1
      let phc := u.sNum u.actCore (off + 8) 8 / 2 ^ 40 % 2 ^ 24
      ∃ t, exec (.clTest d a) s = .next t ∧ (∀ v ∈ t.unsettled, ∀ p, v.counted = some (key, some p) → p = phc) ∧
        ∀ v ∈ u.unsettled, (∀ p, v.counted ≠ some (key, some p)) → v ∈ t.unsettled) ∧
    (∀ e : EngCmd, ∃ t, exec (.maWait e) s = .next t ∧ t.unsettled = s.unsettled)

/-- R88, R103: requests at their homes. That a `red` takes every equal `red` in flight (`v'`, `goneAll`) is the model's choice
(log 29), and the answer's cycle + 6 + back its dating (log 46). -/
def Obligations.RequestsActAtTheirHomes : Prop :=
  ∀ (s : State) (id : Nat),
    let i : Instr := .homeRequestArrival id
    (s.inflight.find? (fun x => x.id == id) = none → exec i s = .next s) ∧
    ∀ r : Request, s.inflight.find? (fun x => x.id == id) = some r →
    let old (n : Nat) : Nat := natOfBytes (s.peek r.world r.loc n)
    let fits (n : Nat) : Prop := (n = 1 ∨ n = 2 ∨ n = 4 ∨ n = 8) ∧
      ((∃ q off, r.loc = .spad q off ∧ off % n = 0) ∨ ∃ pa mt, r.loc = .mem pa mt ∧ mt ≠ 1)
    let holds (t : State) (n v : Nat) : Prop := (∀ q off, r.loc = .spad q off →
        t.sNum q (off / 8 * 8) 8 = s.stored q off n v ∧ SpadBytesBut s t q (off / 8 * 8) 8) ∧
      ∀ pa mt, r.loc = .mem pa mt → t.mNum pa n = v % 2 ^ (8 * n) ∧ MemBytesBut s t pa n
    let gone (t : State) : Prop := t.inflight = s.inflight.filter (fun x => x.id != r.id)
    let parked (t : State) (p : Park) : Prop := gone t ∧ (t.task r.core r.ws).park = p
    let answers (t : State) (reg upd : Option (BitVec 5 × Word)) : Prop := gone t ∧
      ∃ a, (t.task r.core r.ws).park = .answered (s.cycle + 6 + r.back) a ∧ a.reg = reg ∧ a.upd = upd ∧ a.trap = none ∧ a.flags = 0
    let full := ∃ q off, r.loc = .spad q off ∧ (s.core q).isFull (off / 16) = true
    let inSpad := ∃ q off, r.loc = .spad q off
    let settled := ∀ n, n ≤ 16 → s.opened r.world r.loc n = false
    let ready := r.arrive ≤ s.cycle ∧ s.homeSettling r = false
    let sound := (∀ d, r.deadline = some d → s.cycle / 16 ≤ d) ∧ s.errsAtHome r = false
    let equals (x : Request) : Prop := ∃ op n v u, r.op = .red op n v ∧ x.op = .red op n u ∧ x.loc = r.loc
    (s.cycle < r.arrive ∨ s.homeSettling r = true → exec i s = .next s) ∧
    (ready → (∀ op n v, r.op ≠ .red op n v) → (∀ x, r.op ≠ .recall x) → (∃ d, r.deadline = some d ∧ d < s.cycle / 16) →
      ∃ t, exec i s = .next t ∧ SameBytes s t ∧
        parked t (.answered (s.cycle + 6 + r.back) ⟨none, none, 0, some ⟨9, 0, some (BitVec.ofNat 64 r.va), none⟩, s.htsOf r.loc, true⟩)) ∧
    (ready → sound → settled →
      (∀ n sg d upd, r.op = .load n sg d upd → n ≤ 8 → ∃ t, exec i s = .next t ∧ SameBytes s t ∧
        answers t (some (d, if sg then (BitVec.ofNat (8 * n) (old n)).signExtend 64 else BitVec.ofNat 64 (old n)))
          (upd.map (fun b => (b, BitVec.ofNat 64 r.va)))) ∧
      (∀ n v upd, r.op = .store n v upd → fits n → ∃ t, exec i s = .next t ∧ holds t n v ∧
        answers t none (upd.map (fun b => (b, BitVec.ofNat 64 r.va)))) ∧
      (∀ n v upd pa w, r.op = .store n v upd → r.loc = .mem pa 1 → s.windowOf r.world pa = some w →
        let k := (pa - fwAlias w) / 64
        let img := spliceBytes (blockBf16 (s.windowBlock w k)) ((pa - fwAlias w) % 64) (bytesOf n v)
        let blk := (quantise .rne [] ((List.range 32).map (fun j => floatVal .bf16 (natOfBytes ((img.drop (2 * j)).take 2))))).1
        ∃ t, exec i s = .next t ∧ answers t none (upd.map (fun b => (b, BitVec.ofNat 64 r.va))) ∧
          (∀ q, (q < fwCbase w + 16 * k ∨ fwCbase w + 16 * k + 16 ≤ q) →
            (q < fwSbase w + 2 * k ∨ fwSbase w + 2 * k + 2 ≤ q) → t.memByte q = s.memByte q) ∧
          t.memByte (fwSbase w + 2 * k) = BitVec.ofNat 8 blk.scale ∧
          ((fwCbase w + 16 * k + 16 ≤ fwSbase w + 2 * k ∨ fwSbase w + 2 * k + 2 ≤ fwCbase w + 16 * k) →
            Memory.readN t.mem (fwCbase w + 16 * k) 16 = codeBytes blk.codes)) ∧
      (∀ op n v d, r.op = .amo op n v d → fits n → ∃ t, exec i s = .next t ∧ holds t n (amoResult op n (old n) v) ∧
        answers t (some (d, BitVec.ofNat 64 (old n))) none) ∧
      (∀ n e v d, r.op = .cas n e v d → fits n → ∃ t, exec i s = .next t ∧ answers t (some (d, BitVec.ofNat 64 (old n))) none ∧
        (old n = e → holds t n v) ∧ (old n ≠ e → SameBytes s t)) ∧
      (∀ take n d, r.op = .feLoad take n d → n ≤ 8 → inSpad →
        (full → ∃ t, exec i s = .next t ∧ SameBytes s t ∧ answers t (some (d, BitVec.ofNat 64 (old n))) none ∧
          ∀ q off, r.loc = .spad q off → (t.core q).isFull (off / 16) = !take) ∧
        (¬full → ∃ t, exec i s = .next t ∧ SameBytes s t ∧ gone t ∧
          ∀ q off, r.loc = .spad q off → (t.core q).feWait = (s.core q).feWait ++ [r])) ∧
      (∀ mode n v, r.op = .feStore mode n v → inSpad → fits n →
        ((mode ≠ 0 ∨ ¬full) → ∃ t, exec i s = .next t ∧ answers t none none ∧ (mode ≠ 2 → holds t n v) ∧
          (mode = 2 → SameBytes s t) ∧ ∀ q off, r.loc = .spad q off → (t.core q).isFull (off / 16) = decide (mode ≠ 2)) ∧
        (mode = 0 → full → ∃ t, exec i s = .next t ∧ SameBytes s t ∧ gone t ∧
          ∀ q off, r.loc = .spad q off → (t.core q).feWait = (s.core q).feWait ++ [r])) ∧
      (∀ d, r.op = .clTest d → ∃ t, exec i s = .next t ∧ SameBytes s t ∧
        answers t (some (d, (claspOf (s.peek r.world r.loc 16)).result)) none) ∧
      (∀ d p, r.op = .clWait d p →
        let k := claspOf (s.peek r.world r.loc 16)
        ((k.phc ≠ p ∨ k.e = true) → ∃ t, exec i s = .next t ∧ SameBytes s t ∧ answers t (some (d, k.result)) none) ∧
        (k.phc = p → k.e = false → ∃ t, exec i s = .next t ∧ SameBytes s t ∧ gone t ∧
          (t.core r.core).clWait = (s.core r.core).clWait ++ [r]))) ∧
    (ready → sound → settled →
      let k := claspOf (s.peek r.world r.loc 16)
      let outside := (∃ q off, r.loc = .spad q off ∧ ¬(0x200 ≤ off % 1024 ∧ off % 1024 < 0x240) ∧ off % 16 = 0) ∨
        ∃ pa mt, r.loc = .mem pa mt ∧ mt ≠ 1
      let leaves (y : Clasp) : Prop := ∃ t, exec i s = .next t ∧ answers t none none ∧ claspOf (t.peek r.world r.loc 16) = y ∧
        (∀ q off, r.loc = .spad q off → SpadBytesBut s t q off 16) ∧ ∀ pa mt, r.loc = .mem pa mt → MemBytesBut s t pa 16
      outside →
      (∀ e, r.op = .clInit e → e < 2 ^ 40 → leaves ⟨false, false, e, 0, 0⟩) ∧
      (∀ e, r.op = .clArm e → e < 2 ^ 40 → leaves (k.arm e)) ∧
      (∀ b, r.op = .clAdd b → b < 2 ^ 40 → b ≠ 0 → leaves (k.add b)) ∧
      (r.op = .clAdd 0 → ∃ t, exec i s = .next t ∧ SameBytes s t ∧ answers t none none)) ∧
    (ready → ∀ op n v, r.op = .red op n v →
      let v' := (s.inflight.filter (fun x => x.id != r.id)).foldl (fun m x => match x.op with
        | .red p q u => if p = op ∧ q = n ∧ x.loc = r.loc then amoResult op n m u else m
        | _ => m) v
      let goneAll (t : State) : Prop := ∀ x, x ∈ t.inflight ↔ x ∈ s.inflight ∧ x.id ≠ r.id ∧ ¬(equals x)
      let bad := (∃ pa mt, r.loc = .mem pa mt ∧ (s.lostAt pa = true ∨ poisonHit s.poison (pa / 32 * 32) 32 = true)) ∨
        ∃ q off, r.loc = .spad q off ∧ poisonHit (s.core q).spoison off n = true
      (bad → ∃ t, exec i s = .next t ∧ SameBytes s t ∧ goneAll t ∧ (s.journal.length < 4194304 → s.coalesce = [] →
        ∃ e, t.journal = s.journal ++ [e] ∧ e.cls = 2 ∧ e.world = r.world)) ∧
      (¬bad → settled → fits n → ∃ t, exec i s = .next t ∧ goneAll t ∧ holds t n (amoResult op n (old n) v'))) ∧
    (ready → sound → ∀ q ws, r.loc = .spad q (1024 * ws) →
      let k := s.task q ws
      let leaving (st : Nat) : Prop := ∃ j y, j < 16 ∧ (s.slot q j).switching = some y ∧ y.outgoing = some (ws, st)
      let links (a : Nat) : Prop := a % 1024 = 0x18A ∨ a % 1024 = 0x18B ∨ a = 1024 * ws + 0x188
      let joins (t : State) : Prop := (t.task q ws).tstate = 0 ∧
        (t.core q).readyList k.prio.toNat = (s.core q).readyList k.prio.toNat ++ [ws]
      let stays (t : State) : Prop := (t.task q ws).tstate = k.tstate ∧ (t.core q).ready = (s.core q).ready
      (∀ payload slot, r.op = .send payload slot → payload.length = 48 →
        let full := (s.sNum q (1024 * ws + 0x170) 8).testBit 0 = true
        (full → ∃ t, exec i s = .next t ∧ SameBytes s t ∧ gone t ∧ (t.core q).sendWait = (s.core q).sendWait ++ [r]) ∧
        (¬full → ∃ t, exec i s = .next t ∧ answers t none none ∧
          Memory.readN (t.core q).scratch (1024 * ws + 0x140) 48 = payload ∧
          t.sNum q (1024 * ws + 0x170) 8 = r.core % 65536 * 2 ^ 32 + slot % 16 * 2 ^ 28 + 1 ∧
          (∀ a, t.memByte a = s.memByte a) ∧ (∀ p a, p ≠ q → t.spadByte p a = s.spadByte p a) ∧
          (∀ a, ¬(1024 * ws + 0x140 ≤ a ∧ a < 1024 * ws + 0x178) → ¬(links a) → t.spadByte q a = s.spadByte q a) ∧
          (k.tstate = 3 → ¬(leaving 3) → joins t) ∧ (k.tstate ≠ 3 ∨ leaving 3 → stays t))) ∧
      (∀ d, r.op = .wake d →
        (leaving 2 → ∃ t j y, exec i s = .next t ∧ SameBytes s t ∧ answers t (some (d, 1)) none ∧ j < 16 ∧
          (s.slot q j).switching = some y ∧ y.outgoing = some (ws, 2) ∧
          (t.slot q j).switching = some { y with outgoing := some (ws, 0) } ∧ stays t) ∧
        (¬(leaving 2) → k.tstate = 2 → ∃ t, exec i s = .next t ∧ answers t (some (d, 1)) none ∧ joins t ∧
          (∀ a, t.memByte a = s.memByte a) ∧ (∀ p a, p ≠ q → t.spadByte p a = s.spadByte p a) ∧
          ∀ a, ¬(links a) → t.spadByte q a = s.spadByte q a) ∧
        (¬(leaving 2) → k.tstate ≠ 2 → ∃ t, exec i s = .next t ∧ SameBytes s t ∧ answers t (some (d, 0)) none ∧ stays t)))

/-- R91 to R94, R218: an append at its home slice. The answer's cycle + 6 + back is the model's dating (log 46). R219,
R93. -/
def Obligations.UpdateLogsFollowR91ToR95AndR219 : Prop :=
  (∀ (s : State) (id : Nat) (r : Request) (log op n v rank pa mt : Nat), s.inflight.find? (fun x => x.id == id) = some r →
      r.arrive ≤ s.cycle → s.homeSettling r = false → r.deadline = none → r.op = .ulogApp log op n v rank → r.loc = .mem pa mt →
      let x := s.world r.world
      let here := x.ulogs.filter (fun e => e.slice == s.sliceOf pa)
      let chip := (here.filter (fun e => e.log == log && !e.spilled)).length
      let spill := (here.filter (fun e => e.spilled)).length
      let seq := (x.ulogs.filter (fun e => e.log == log && e.addr == r.va && e.rank == rank)).length
      ∃ t a, exec (.homeRequestArrival id) s = .next t ∧ SameBytes s t ∧ (t.task r.core r.ws).park = .answered (s.cycle + 6 + r.back) a ∧
        ((chip < 8192 ∨ spill < x.share) → a.trap = none ∧ a.reg = none ∧
          t.world r.world = { x with ulogs := x.ulogs ++ [⟨log, r.va, v, op, rank, seq, s.sliceOf pa, decide (8192 ≤ chip)⟩] }) ∧
        (8192 ≤ chip → x.share ≤ spill → a.trap = some ⟨7, 8, some (BitVec.ofNat 64 r.va), none⟩ ∧ t.world r.world = x)) ∧
  ((∀ rs : List ULogRec, (sortRecs rs).Perm rs ∧ (sortRecs rs).Pairwise (fun x y => x.before y = true)) ∧
    ∀ (s : State) (g : BitVec 4),
      let u := s.drainReds
      let w := u.cur.world
      let rs := (u.world w).ulogs.filter (fun r => r.log == g.toNat)
      let rest := (u.world w).ulogs.filter (fun r => r.log != g.toNat)
      let lost := (u.world w).lost.contains g.toNat = true
      let place (r : ULogRec) : Chk := u.check u.actCore u.curWs r.addr ⟨8, ulogBytes r.op, 1, true, true, u.curTask.pc.toNat⟩
      let fits := ∀ r, r ∈ rs → ∃ l x, place r = .ok l x
      let due := u.cycle + 6 + u.farthest u.actCore + 64 + 2 * fullestSlice (sortRecs rs)
      (lost → TrapsFrom (u.freeLog w g.toNat) s (.ulogMerge g) ⟨7, 0x0D, none, none⟩ ∧
        ((u.freeLog w g.toNat).world w).ulogs = rest) ∧
      (∀ r pre post, ¬lost → sortRecs rs = pre ++ r :: post → (∀ y, y ∈ pre → ∃ l x, place y = .ok l x) →
        (∀ t, place r = .trap t → TrapsFrom u s (.ulogMerge g) t) ∧
        (place r = .settle → exec (.ulogMerge g) s = .next (u.modCurTask (fun k => { k with park := .settle }))) ∧
        (∀ cause a, place r = .service cause a → ∃ t, exec (.ulogMerge g) s = .next t ∧
          t.curTask = { u.curTask with park := .service cause a u.curTask.pc } ∧ SameRegs u t [] ∧ SameBytes u t ∧
          OtherThreads u t ∧ t.worlds = u.worlds)) ∧
      (¬lost → fits → ∃ t, exec (.ulogMerge g) s = .next t ∧ (t.world w).ulogs = rest ∧ SameRegs u t [] ∧ OtherThreads u t ∧
        t.curTask.pc = u.npc ∧ (u.cycle + 15 < due → t.curTask.park = .memory due) ∧
        (rs = [] → SameBytes u t ∧ t.curTask.flags = u.curTask.flags) ∧
        (∀ r pa mt y, rs = [r] → place r = .ok (.mem pa mt) y → u.opened w (.mem pa mt) (ulogBytes r.op) = false →
          let n := ulogBytes r.op
          let v := ulogApply r.op (u.mNum pa n) r.value
          MemBytesBut u t pa n ∧ t.mNum pa n = v.1 % 2 ^ (8 * n) ∧ t.curTask.flags = u.curTask.flags ||| v.2)))

/-- R34, R37, R113, R202, R222. The withdrawal's acknowledgement at cycle + 6 + back is the model's dating (log 46). -/
def Obligations.ReturnsAndReleasesFollowR34AndR37 : Prop :=
  ∀ (s : State) (c j due : Nat) (a : Answer),
    let u := { s with actCore := c, actSlot := j }
    let takes (i : Instr) (at_ : Nat) : Prop :=
      (a.trap = none → ∃ t, exec i s = .next t ∧ t.curTask = { u.curTask with
          park := .run, flags := u.curTask.flags ||| a.flags, pc := u.npc, pastEnd := u.nextPc?.isNone, resume := none } ∧
        t.curSlot.nextAt = at_ ∧ SameBytes u t ∧ OtherThreads u t ∧ OneCore c u t ∧
        SameRegs u t ((a.reg.toList ++ a.upd.toList).map (fun e => e.1)) ∧ (∀ d v, a.upd = some (d, v) → t.rd d = v) ∧
        (∀ d v, a.reg = some (d, v) → (∀ w, a.upd ≠ some (d, w)) → t.rd d = v) ∧ a.stamp ≤ t.pts c) ∧
      (∀ x, a.trap = some x → LateTraps s i ((u.raisePts c a.stamp).modCurTask (fun k => { k with park := .run })) x)
    let idle (i : Instr) : Prop := exec i s = .next s
    (u.curTask.park = .memory due →
      (due ≤ s.cycle → exec (.memoryReturn c j) s = .next ((u.modCurTask (fun k => { k with park := .run })).modCurSlot
        (fun sl => { sl with nextAt := due + 8 }))) ∧
      (s.cycle < due → idle (.memoryReturn c j))) ∧
    (u.curTask.park = .answered due a → (due ≤ s.cycle → takes (.memoryReturn c j) (due + 8)) ∧ (s.cycle < due → idle (.memoryReturn c j))) ∧
    (u.curTask.park = .released due a → (due ≤ s.cycle → takes (.parkRelease c j) (due + 16)) ∧ (s.cycle < due → idle (.parkRelease c j))) ∧
    (∀ w, (s.overdue c w = none → idle (.feDeadline c w)) ∧
      ∀ q r, s.overdue c w = some (q, r) → ∃ t, exec (.feDeadline c w) s = .next t ∧ SameBytes s t ∧
        (t.core q).feWait = (s.core q).feWait.filter (fun x => x.id != r.id) ∧
        (t.task c w).park = .answered (s.cycle + r.back) ⟨none, none, 0, some ⟨9, 0, some (BitVec.ofNat 64 r.va), none⟩, s.htsOf r.loc, true⟩) ∧
    (∀ id (r : Request) x, s.inflight.find? (fun q => q.id == id) = some r → r.op = .recall x → r.arrive ≤ s.cycle →
      s.homeSettling r = false →
      let waits := ∃ e ∈ s.cores, ∃ q ∈ e.2.feWait ++ e.2.sendWait, q.id = x
      ∃ t, exec (.homeRequestArrival id) s = .next t ∧ SameBytes s t ∧ t.inflight = s.inflight.filter (fun q => q.id != id) ∧
        (waits → (t.task r.core r.ws).park = .recalled (s.cycle + 6 + r.back) ∧
          ∀ e ∈ t.cores, ∀ q ∈ e.2.feWait ++ e.2.sendWait, q.id ≠ x) ∧
        (¬waits → t.cores = s.cores)) ∧
    (u.curTask.park = .recalled due →
      (s.cycle < due → idle (.parkRelease c j)) ∧
      (due ≤ s.cycle → s.stopping c = true → ∃ t, exec (.parkRelease c j) s = .next t ∧
        (t.task c u.curWs).park = .run ∧ (t.task c u.curWs).tstate = 5 ∧ t.slot c j = s.slot c j) ∧
      (due ≤ s.cycle → (s.core c).readyBy s.cycle = none → s.stopping c = false → exec (.parkRelease c j) s = .next
        ((s.modTask c u.curWs (fun k => { k with park := .run })).modSlot c j (fun sl => { sl with nextAt := s.cycle + 16 }))) ∧
      (due ≤ s.cycle → ∀ p w, (s.core c).readyBy s.cycle = some (p, w) → s.stopping c = false →
        ∃ t y, exec (.parkRelease c j) s = .next t ∧ (t.slot c j).switching = some y ∧
          y.outgoing = (s.slot c j).ws.map (fun v => (v, 5)) ∧ y.incoming = some w)) ∧
    (∀ line, (s.core c).ireq.find? (fun r => r.1 == line) = none → idle (.lineFill c line)) ∧
    (∀ line x, (s.core c).ireq.find? (fun r => r.1 == line) = some (x, due) → line % 128 = 0 →
      (s.cycle < due → idle (.lineFill c line)) ∧
      (due ≤ s.cycle → ∃ t, exec (.lineFill c line) s = .next t ∧ SameBytes s t ∧
        (t.core c).ireq = (s.core c).ireq.filter (fun r => r.1 != line) ∧
        (∀ pa mt y, s.fetchCheck c line = .ok (.mem pa mt) y →
          (t.core c).line? line = some (lineOfBytes line
            (s.peek (s.core c).world (.mem pa mt) 64 ++ s.peek (s.core c).world (.mem (pa + 64) mt) 64))) ∧
        ∀ n w, (s.core c).slotOf w = some n → (s.task c w).park = .line line →
          (t.task c w).park = .run ∧ (t.slot c n).nextAt = due + 8))

/-- R36, R37: the conditions a thread parks on. `ma.wait` is released by R291 rather than R36 (log 44); that gets and puts of
FLAGS go on 8 cycles later is the model's choice (log 8). -/
def Obligations.ConditionsReleaseTheirThreads : Prop :=
  ∀ (s : State) (c j : Nat),
    let i : Instr := .parkRelease c j
    let u := { s with actCore := c, actSlot := j }
    let k := u.cur
    let resident := ∃ w, (s.slot c j).ws = some w
    let completes (p : Park) (cond : Prop) : Prop := u.curTask.park = p → resident →
      (cond → ∃ t, exec i s = .next t ∧ t.curTask = { u.curTask with
          park := .run, pc := u.npc, pastEnd := u.nextPc?.isNone, resume := none } ∧ t.curSlot.nextAt = s.cycle + 16 ∧
        SameRegs u t [] ∧ SameBytes u t ∧ OtherThreads u t ∧ OneCore c u t ∧
        (∀ x, p = .bdFree x → t.cur.tensors = AMap.del u.cur.tensors x) ∧
        ((∀ x, p ≠ .bdFree x) → t.cur.tensors = u.cur.tensors)) ∧
      (¬cond → exec i s = .next s)
    let reissues (p : Park) (cond : Prop) : Prop := u.curTask.park = p → resident →
      (cond → exec i s = .next ((u.modCurTask (fun k => { k with park := .run })).modCurSlot (fun sl => { sl with nextAt := s.cycle + 16 }))) ∧
      (¬cond → exec i s = .next s)
    (∀ h n, completes (.cbFill h n) (n ≤ (k.handleAt s.cycle h).filled - (k.handleAt s.cycle h).cheld)) ∧
    (∀ h n, completes (.cbFree h n) (n ≤ (k.handleAt s.cycle h).nslot - (k.handleAt s.cycle h).filled - (k.handleAt s.cycle h).pres)) ∧
    (∀ last, completes (.maWait last) (∀ m, m ∈ k.mq → last ≤ m.id)) ∧
    (∀ t, completes (.bdFree t) (k.passQueued t = false)) ∧
    reissues .vqFull (k.vq.length < 8) ∧ reissues .mqFull (k.mqUsed < 16) ∧ reissues .cqFull (k.cq.length < 8) ∧
    reissues .sqFull (k.sq.length < 4) ∧
    reissues .meshFull (u.meshFull c = false) ∧
    (∀ off n, reissues (.footprint off n) (u.footHit c u.curWs off n = false)) ∧
    (∀ put r, u.curTask.park = .flagsDrain put r → resident →
      (u.nestsOut = true → exec i s = .next s) ∧
      (u.nestsOut = false → ∃ t, exec i s = .next t ∧ t.curSlot.nextAt = s.cycle + 8 ∧ t.curTask.pc = u.npc ∧ t.curTask.park = .run ∧
        SameBytes u t ∧ OneCore c u t ∧
        (put = true → SameRegs u t [] ∧ t.curTask.flags = (u.rd r).setWidth 5) ∧
        (put = false → SameRegs u t [r] ∧ t.rd r = u.curTask.flags.setWidth 64 ∧ t.curTask.flags = u.curTask.flags)))

/-- R46 to R50: switching. R111, R107: the resident service's answers. -/
def Obligations.SwitchesAndServiceAnswersFollowR46ToR50AndR111 : Prop :=
  (∀ (s : State) (c j : Nat),
      let sl := s.slot c j
      let due := (s.core c).readyBy s.cycle
      (s.slotEmpty c j = true → s.cycle % 16 = j → ∀ p w, due = some (p, w) → ∃ t, exec (.emptySlotFill c j) s = .next t ∧ OneCore c s t ∧
        (t.slot c j) = { sl with switching := some ⟨none, some w, s.cycle + 32, none⟩ } ∧
        (∀ q, q < 4 → (t.core c).readyList q = ((s.core c).readyList q).filter (fun x => x != w))) ∧
      ((s.slotEmpty c j = false ∨ s.cycle % 16 ≠ j ∨ due = none) → exec (.emptySlotFill c j) s = .next s) ∧
      (∀ w, sl.ws = some w → sl.switching = none → (s.task c w).qrem = 0 →
        let tq := (s.tqNow c).toNat
        let p := (s.task c w).park
        let waits := p = .settle ∨ (∃ h n, p = .cbFill h n ∨ p = .cbFree h n) ∨ (∃ n, p = .maWait n) ∨ ∃ q a e, p = .service q a e
        let held := (∃ n, p = .memory n ∨ p = .line n ∨ p = .gbar n) ∨ ∃ n a, p = .answered n a
        ∃ t, exec (.quantumExpiry c j) s = .next t ∧ (t.task c w).qrem = tq ∧
          ((tq = 0 ∨ due = none ∨ held ∨ s.stopping c = true ∨ ∃ p x, due = some (p, x) ∧ (s.task c w).prio.toNat < p) →
            t.slot c j = sl ∧ OneCore c s t) ∧
          (∀ q x, due = some (q, x) → tq ≠ 0 → q ≤ (s.task c w).prio.toNat → s.stopping c = false → ∀ st : Nat,
            (p = .run ∧ st = 0) ∨ (waits ∧ st = 5) →
            ∃ y, (t.slot c j).switching = some y ∧ y.outgoing = some (w, st) ∧ y.incoming = some x)) ∧
      (sl.switching = none → exec (.switchComplete c j) s = .next s) ∧
      (∀ y, sl.switching = some y → (s.cycle < y.done ∨ y.blocked ≠ none) → exec (.switchComplete c j) s = .next s) ∧
      (∀ y, sl.switching = some y → y.done ≤ s.cycle → y.blocked = none →
        let left (t : State) (w st : Nat) : Prop :=
          let fin := if st = 3 ∧ (s.sNum c (wsOff w 0x170) 8).testBit 0 = true then 0 else st
          (t.task c w).tstate = fin ∧
          (∀ n, n < 32 → sl.live.getLsbD n = true → sl.dirty.getLsbD n = true → t.sNum c (wsOff w (8 * n)) 8 = (sl.reg n).toNat) ∧
          t.sNum c (wsOff w 0x180) 8 = (s.task c w).pc.toNat ∧ t.sNum c (wsOff w 0x18C) 4 = sl.live.toNat ∧
          t.sNum c (wsOff w 0x188) 1 = fin * 16 + (s.task c w).prio.toNat ∧
          t.sNum c (wsOff w 0x198) 1 = (s.task c w).flags.toNat ∧ t.sNum c (wsOff w 0x199) 1 = (s.task c w).rmode.toNat ∧
          t.sNum c (wsOff w 0x19A) 1 = (s.task c w).ften.toNat ∧
          ∀ p, p < 4 → (t.core c).readyList p =
            if (fin = 0 ∨ fin = 5) ∧ p = (s.task c w).prio.toNat then (s.core c).readyList p ++ [w] else (s.core c).readyList p
        let entered (t : State) (w : Nat) : Prop := (t.slot c j).ws = some w ∧
          (t.slot c j).nextAt = beatAt j s.cycle ∧ (t.task c w).tstate = 1 ∧ (t.task c w).qrem = (s.tqNow c).toNat ∧
          (t.task c w).pc = BitVec.ofNat 64 (s.sNum c (wsOff w 0x180) 8) ∧
          ∀ n, n < 32 → (t.slot c j).reg n =
            if (s.sNum c (wsOff w 0x18C) 4).testBit n then BitVec.ofNat 64 (s.sNum c (wsOff w (8 * n)) 8) else 0
        (∀ w st, y.outgoing = some (w, st) → y.incoming = none → sl.ws = some w → st < 7 →
          ∃ t, exec (.switchComplete c j) s = .next t ∧ OneCore c s t ∧ (t.slot c j).ws = none ∧ (t.slot c j).switching = none ∧
            left t w st) ∧
        (∀ w st v, y.outgoing = some (w, st) → y.incoming = some v → sl.ws = some w → st < 7 → v ≠ w → (s.task c v).tstate ≠ 6 → s.recordOk c v = true →
          ∃ t, exec (.switchComplete c j) s = .next t ∧ OneCore c s t ∧ (t.slot c j).switching = none ∧ left t w st ∧ entered t v) ∧
        (∀ w, y.outgoing = none → y.incoming = some w → (s.task c w).tstate ≠ 6 → s.recordOk c w = true →
          ∃ t, exec (.switchComplete c j) s = .next t ∧ OneCore c s t ∧ (t.slot c j).switching = none ∧ entered t w))) ∧
  (∀ (s : State) (c w : Nat),
      let k := s.task c w
      let quiet := (∀ cause a e, k.park ≠ .service cause a e) ∧ (∀ id, k.park ≠ .nest id) ∧ ∀ t d f b q, k.park ≠ .bdDecl t d f b q
      (quiet → exec (.serviceResume c w) s = .next s ∧ exec (.serviceEscalate c w) s = .next s) ∧
      (∀ cause a e, k.park = .service cause a e →
        let x : Trap := ⟨7, if s.walk (s.core c).world a = .malformed then 0x0C else 1, some (BitVec.ofNat 64 a), none⟩
        (∃ t, exec (.serviceResume c w) s = .next t ∧ t.task c w = { k with park := .run } ∧
          (∀ i, (s.core c).slotOf w = some i → t.slot c i = { s.slot c i with nextAt := s.cycle + 16 }) ∧
          (cause ≠ 2 → SameBytes s t ∧ OneCore c s t) ∧
          (cause = 2 → (∀ q p, t.spadByte q p = s.spadByte q p) ∧
            ∀ q, (s.core q).world = (s.core c).world → AMap.find s.cores q ≠ none → ∀ b, (t.core q).line? b = none)) ∧
        (cause ≠ 0x13 → (∀ i, (s.core c).slotOf w = some i → (s.slot c i).switching ≠ none) → ∃ t, exec (.serviceEscalate c w) s = .next t ∧
          t.task c w = { k with park := .run, lateTrap := some x } ∧ SameBytes s t) ∧
        (cause ≠ 0x13 → ∀ i vec hv, (s.core c).slotOf w = some i → (s.slot c i).switching = none → s.hnd c w = 0 → k.vector 7 = (vec, hv) → vec ≠ 0 →
          let u := ({ s with actCore := c, actSlot := i }).modTask c w (fun k => { k with park := .run })
          ∃ v, HandlerEntered u v x vec hv ∧
            exec (.serviceEscalate c w) s = .next (v.modCurSlot (fun sl => { sl with nextAt := u.nextBeat + 32 }))) ∧
        (cause = 0x13 → k.gang = none → ∃ t, exec (.serviceEscalate c w) s = .next t ∧
          t.reports = s.reports ++ [.taskEnd (s.core c).world c w 0x13 0] ∧ t.mem = s.mem)) ∧
      (∀ j x vec hv, (s.slot c j).ws = some w → k.lateTrap = some x → s.hnd c w = 0 → k.vector x.cause = (vec, hv) → vec ≠ 0 →
        let u := ({ s with actCore := c, actSlot := j }).modTask c w (fun k => { k with park := .run, lateTrap := none })
        ∃ v, HandlerEntered u v x vec hv ∧
          exec (.trapEntry c j) s = .next (v.modCurSlot (fun sl => { sl with nextAt := beatAt j s.cycle + 32 }))) ∧
      (∀ j, k.lateTrap = none → (s.slot c j).ws = some w → exec (.trapEntry c j) s = .next s))

/-- R261 to R266: what one result element becomes. -/
def Obligations.VectorElementsFollowR261ToR266 : Prop :=
  ∀ (q : NestCmd) (rm : RMode) (dr j a b d : Nat),
    let td := nestType q.n 0
    let ta := nestType q.n 1
    let w := tyBits td
    let sat := q.n.sat = 1
    let r := vopResult q rm dr j a b d
    let A := intVal td a
    let B := intVal td b
    let exact (x : Int) : Prop := r.2 = 0 ∧ r.1 < 2 ^ w ∧ (¬sat → (intVal td r.1 - x) % ((2 ^ w : Nat) : Int) = 0) ∧
      (sat → intVal td r.1 = max (intMin td) (min (intMax td) x))
    (tyIsInt td = true → a < 2 ^ w → b < 2 ^ w → d < 2 ^ w →
      (q.vop = 1 → exact (A + B)) ∧ (q.vop = 2 → exact (A - B)) ∧ (q.vop = 3 → exact (A * B)) ∧
      (q.vop = 4 → exact (A * B + intVal td d)) ∧ (q.vop = 5 → exact (min A B)) ∧ (q.vop = 6 → exact (max A B)) ∧
      (q.vop = 7 → exact (A.natAbs : Int)) ∧ (q.vop = 8 → exact (-A)) ∧
      (q.vop = 9 → (b ≠ 0 → exact (A.tdiv B)) ∧ (b = 0 → r = (2 ^ w - 1, 0))) ∧
      (q.vop = 28 → exact (j : Int)) ∧
      (q.vop = 15 → r = (a &&& b, 0)) ∧ (q.vop = 16 → r = (a ||| b, 0)) ∧ (q.vop = 17 → r = (a ^^^ b, 0)) ∧
      (q.vop = 18 → nestType q.n 2 = td → r = (a * 2 ^ (b % w) % 2 ^ w, 0)) ∧
      (q.vop = 19 → nestType q.n 2 = td → r = (a / 2 ^ (b % w), 0)) ∧
      (q.vop = 20 → nestType q.n 2 = td → ∀ k, k < w → r.1.testBit k = a.testBit (min (w - 1) (k + b % w)))) ∧
    (tyIsFloat td = true →
      let x := floatVal ta a
      let y := floatVal (nestType q.n 2) b
      (q.vop = 1 → r = addVal td rm (decide sat) dr x y) ∧ (q.vop = 2 → r = addVal td rm (decide sat) dr x (negVal y)) ∧
      (q.vop = 3 → r = mulVal td rm (decide sat) dr x y) ∧ (q.vop = 9 → r = divVal td rm (decide sat) dr x y) ∧
      (q.vop = 4 → r = fmaVal td rm (decide sat) dr x y (floatVal td d))) ∧
    (q.vop = 0 ∨ q.vop = 27 → r = (a, 0)) ∧ (q.vop = 29 → r = (q.fill.toNat % 2 ^ w, 0)) ∧
    (q.vop = 11 → (d ≠ 0 → r = (a, 0)) ∧ (d = 0 → r = (b, 0))) ∧
    (tyIsFloat ta = false →
      cmpVop 12 ta a b = (decide (intVal ta a = intVal ta b), 0) ∧ cmpVop 13 ta a b = (decide (intVal ta a < intVal ta b), 0) ∧
      cmpVop 14 ta a b = (decide (intVal ta a ≤ intVal ta b), 0)) ∧
    (tyIsFloat ta = true → compareVal (floatVal ta a) (floatVal ta b) = none →
      (cmpVop 12 ta a b).1 = false ∧ cmpVop 13 ta a b = (false, flagNV) ∧ cmpVop 14 ta a b = (false, flagNV))

/-- R240 to R243, R250: the issue of a nest. R240, R246, R251: the engine. -/
def Obligations.NestsFollowR240ToR253 : Prop :=
  (∀ (s : State) (i : Instr) (v : Nat) (n : Nest), vopOf i = some (v, n) →
      let u := s.drainReds
      let mode := if n.rm = 6 then u.curTask.rmode.toNat else n.rm.toNat
      let sr := vopKindOf v = .func ∧ mode = 5
      let det := u.curTask.ften = 0 ∧ mode ≠ 5 ∧ v ≠ 27 ∧ nestHandles v n = [] ∧ u.boxesDetach (u.nestCmd v n) = true
      let queued (wins : List (Nat × Nat × Nat)) : Prop :=
        (8 ≤ u.cur.vq.length → exec i s = .next (u.modCurTask (fun k => { k with park := .vqFull }))) ∧
        (u.cur.vq.length < 8 → ∃ t q, exec i s = .next t ∧ t.cur.vq = u.cur.vq ++ [q] ∧ q.vop = v ∧ q.n = n ∧ q.slot = u.actSlot ∧
          q.ws = u.curWs ∧ q.based = (u.rd n.bd).toNat ∧ q.basea = (u.rd n.ba).toNat ∧ q.baseb = (u.rd n.bb).toNat ∧
          q.basem = (u.rd n.mb).toNat ∧ q.fill = u.rd n.ba ∧ q.rm = mode ∧ q.ften = u.curTask.ften ∧ q.wins = wins ∧
          q.first = u.curTask.resume.getD 0 ∧ q.ready = u.cycle + 8 ∧ q.started = false ∧ q.ran = false ∧
          SameRegs u t [] ∧ SameBytes u t ∧ OtherThreads u t ∧ (q.attached = false ↔ det) ∧ (det → GoesOn u t 1) ∧
          (¬det → t.curTask = { u.curTask with park := .nest q.id, resume := none } ∧ t.curSlot = u.curSlot))
      (sr → TrapsFrom u s i ⟨1, 5, none, none⟩) ∧
      (¬sr → ∀ t, u.nestCheck v n = some t → TrapsFrom u s i t) ∧
      (¬sr → u.nestCheck v n = none → queued (u.heldWindows.getD []))) ∧
  (∀ (s : State) (c : Nat),
      (s.nestReady c = none → exec (.nestStart c) s = .next s) ∧
      (∀ q offd offa offb, s.nestReady c = some q → q.started = false → q.ran = false → q.first = 0 → q.maskStop = none →
        q.n.extents = [1, 1, 1, 1, 1] → q.n.red = 0 → q.n.me = 0 → q.n.cbd = 0 → q.n.cba = 0 → q.n.cbb = 0 → q.rm ≠ 5 →
        (vopKindOf q.vop).reduces = false → vopKindOf q.vop ≠ .cmpK → vopKindOf q.vop ≠ .quantK → vopKindOf q.vop ≠ .gatherK →
        vopKindOf q.vop ≠ .func → (∀ w, w < 3 → nestTy q.n w ≠ 6) →
        let size (w : Nat) : Nat := codeSize (nestTy q.n w)
        let place (ea off w : Nat) (r wr : Bool) : Prop :=
          s.check c q.ws ea ⟨6, size w, 1, r, wr, q.pc.toNat⟩ = .ok (.spad c off) .invalid ∧ off % size w = 0 ∧
            s.opened (s.core c).world (.spad c off) (size w) = false
        place q.based offd 0 true false → place q.based offd 0 false true → place q.basea offa 1 true false →
        place q.baseb offb 2 true false → (s.core c).vq.any (fun x => x.id == q.id) = true →
        (∀ x ∈ (s.core c).vq, x.id = q.id → x = q) →
        let k := vopKindOf q.vop
        let a := if k.readsA then s.sNum c offa (size 1) else 0
        let b := if k.readsB then s.sNum c offb (size 2) else 0
        let d := if k = .fmaK ∨ k = .selK then s.sNum c offd (size 0) else 0
        let r := vopResult q ((rmodeOfCode q.rm).getD .rne) 0 0 a b d
        let idz := q.vop = 9 ∧ tyIsInt (nestType q.n 0) = true ∧ b = 0 ∧ q.ften.getLsbD 5 = true
        ∃ t, exec (.nestStart c) s = .next t ∧
          (¬idz → r.2 &&& q.ften.setWidth 5 = 0#5 → t.sNum c (offd / 8 * 8) 8 = s.stored c offd (size 0) r.1 ∧
            SpadBytesBut s t c (offd / 8 * 8) 8 ∧
            ∃ x ∈ (t.core c).vq, x.id = q.id ∧ x.finished = some none ∧ x.flags = q.flags ||| r.2 ∧ x.first = 1) ∧
          ((idz ∨ r.2 &&& q.ften.setWidth 5 ≠ 0#5) → SameBytes s t ∧ ∃ x ∈ (t.core c).vq, x.id = q.id ∧
            x.finished = some (some ⟨0x0A, if idz then 0x20 else r.2.toNat, none, some 0⟩))) ∧
      (s.nestDone c = none → exec (.nestComplete c) s = .next s) ∧
      (∀ q, s.nestDone c = some q → q.attached = true → q.finished = some none →
        let k := (s.core c).endWindows q.wins
        let open_ (w : Nat × Nat × Nat) : Prop :=
          ∃ e ∈ (if w.1 = 0 then (k.handle w.2.1).prods else (k.handle w.2.1).cons), e.1 = w.2.2
        let u := { s with actCore := c, actSlot := q.slot }
        ((∃ w ∈ q.wins, open_ w) → exec (.nestComplete c) s = .next (s.modCore c (fun k => k.endWindows q.wins))) ∧
        ((∀ w ∈ q.wins, ¬(open_ w)) → ∃ t, exec (.nestComplete c) s = .next t ∧
          t.cur.vq = u.cur.vq.filter (fun x => x.id != q.id) ∧ t.cur.handles = k.handles ∧ SameRegs u t [] ∧
          SameBytes u t ∧ OtherThreads u t ∧ OneCore c u t ∧ t.curSlot.nextAt = s.cycle + 8 ∧
          t.curTask = { u.curTask with
            park := .run, flags := u.curTask.flags ||| q.flags, pc := u.npc, pastEnd := u.nextPc?.isNone, resume := none })) ∧
      (∀ q x, s.nestDone c = some q → q.attached = true → q.finished = some (some x) → q.wins = [] →
        let u := { s with actCore := c, actSlot := q.slot }
        LateTraps s (.nestComplete c) ((u.modCore c (fun k => { k with vq := k.vq.filter (fun y => y.id != q.id) })).modCurTask
          (fun k => { k with flags := k.flags ||| q.flags })) x) ∧
      (∀ q, s.nestDone c = some q → q.attached = false → ∃ t, exec (.nestComplete c) s = .next t ∧ OneCore c s t ∧
        (t.core c).vq = (s.core c).vq.filter (fun x => x.id != q.id) ∧
        (t.task c q.ws) = { s.task c q.ws with flags := (s.task c q.ws).flags ||| q.flags } ∧
        (∀ n, t.slot c n = s.slot c n) ∧ (∀ w, w ≠ q.ws → t.task c w = s.task c w)))

/-- R252, R257: circular buffers. FADDR holds the handle number. -/
def Obligations.CircularBuffersFollowR257 : Prop :=
  ∀ (s : State) (d h b : BitVec 5),
    let x := s.cur.handleAt s.cycle h.toNat
    let y := s.cur.handle h.toNat
    let k := (s.rd b).toNat % 8192
    let base := (s.rd d).toNat % 2 ^ 20
    let g := (s.rd b).toNat % 2 ^ 16
    let n := (s.rd b).toNat / 2 ^ 16 % 2 ^ 12 + 1
    let sized := base % 16 = 0 ∧ g ≠ 0 ∧ base + 16 * g * n ≤ 2 ^ 20
    let free := x.nslot - x.filled - x.pres
    let avail := x.filled - x.cheld
    let bad (i : Instr) (sub : Nat) : Prop := Traps s i ⟨0x0C, sub, some (h.setWidth 64), none⟩
    let sets (i : Instr) (z : Handle) : Prop := ∃ t, exec i s = .next t ∧ t.cur.handle h.toNat = z ∧
      (∀ j, j ≠ h.toNat → t.cur.handle j = s.cur.handle j) ∧
      ((y.v = true → y.drainp < y.nslot ∧ y.prods = [] ∧ y.cons = []) → ∀ m, s.cycle ≤ m → m < s.cycle + 8 →
        t.cur.handleAt m h.toNat = s.cur.handleAt m h.toNat) ∧
      ((∀ e ∈ s.cur.edits, e.seen ≤ s.cycle + 8) → ∀ m, s.cycle + 8 ≤ m → t.cur.handleAt m h.toNat = z) ∧
      t.cur = { s.cur with slots := t.cur.slots, tasks := t.cur.tasks, handles := t.cur.handles, edits := t.cur.edits } ∧ SameRegs s t [] ∧
      GoesOn s t 1 ∧ SameBytes s t ∧ OnlyCore { s with unsettled := t.unsettled } t ∧ OtherThreads s t
    Gives s (.cbStat d h) d (if x.v = true then
      BitVec.ofNat 64 (2 ^ 63 + x.cheld % 8192 * 2 ^ 39 + x.pres % 8192 * 2 ^ 26 + x.filled % 8192 * 2 ^ 13 + x.drainp % 4096)
      else 0) 1 ∧
    (s.cbBusy h.toNat = true → bad (.cbDef d h b) 6) ∧ (s.cbBusy h.toNat = false → ¬sized → bad (.cbDef d h b) 1) ∧
    (s.cbBusy h.toNat = false → sized → sets (.cbDef d h b) ⟨true, base, 16 * g, n, 0, 0, 0, 0, [], []⟩) ∧
    (x.v = false → bad (.cbFill h b) 2 ∧ bad (.cbDrain h b) 2 ∧ bad (.cbWfill h b) 2 ∧ bad (.cbWfree h b) 2) ∧
    (x.v = true →
      (x.pres ≠ 0 → bad (.cbFill h b) 6) ∧ (x.pres = 0 → free < k → bad (.cbFill h b) 3) ∧
      (x.pres = 0 → k ≤ free → sets (.cbFill h b) { y with filled := y.filled + k }) ∧
      (x.cheld ≠ 0 → bad (.cbDrain h b) 6) ∧ (x.cheld = 0 → avail < k → bad (.cbDrain h b) 4) ∧
      (x.cheld = 0 → k ≤ avail → sets (.cbDrain h b) { y with
        filled := y.filled - k, drainp := (y.drainp + k) % max 1 y.nslot }) ∧
      (x.nslot < k → bad (.cbWfill h b) 5 ∧ bad (.cbWfree h b) 5) ∧
      (k ≤ x.nslot → k ≤ avail → Continues s (.cbWfill h b) 1) ∧ (k ≤ x.nslot → k ≤ free → Continues s (.cbWfree h b) 1) ∧
      (k ≤ x.nslot → avail < k → exec (.cbWfill h b) s = .next (s.modCurTask (fun t => { t with park := .cbFill h.toNat k }))) ∧
      (k ≤ x.nslot → free < k → exec (.cbWfree h b) s = .next (s.modCurTask (fun t => { t with park := .cbFree h.toNat k }))))

/-- R281, R283, R284, R291: the issue of array commands. -/
def Obligations.ArrayCommandsIssueAsR281Says : Prop :=
  ∀ (s : State) (c : EngCmd),
    let u := s.drainReds
    let p := c.p.toNat
    let f := c.f.toNat
    let rows := p / 2 ^ 8 % 128 + 1
    let mode := if p / 2 ^ 25 % 8 = 6 then u.curTask.rmode.toNat else p / 2 ^ 25 % 8
    let free := (u.cur.mq.filter (fun m => !(m.kind == 4 && m.started && m.drained))).length < 16
    let job := if u.cur.jobOpen = true then (u.cur.jobCmds, u.cur.jobCycles) else (0, 0)
    let issue (i : Instr) (kind cmds charge : Nat) (closes : Bool) (base draws : Nat) : Prop :=
      (∀ t, u.maTrap kind c = some t → TrapsFrom u s i t) ∧
      (u.maTrap kind c = none → ¬free → exec i s = .next (u.modCurTask (fun k => { k with park := .mqFull }))) ∧
      (u.maTrap kind c = none → free → kind = 5 → u.cur.jobOpen = false → ∃ t, exec i s = .next t ∧ SameRegs u t [] ∧ GoesOn u t 1 ∧
        SameElse u t ∧ SameBytes u t) ∧
      (u.maTrap kind c = none → free → (kind = 5 → u.cur.jobOpen = true) → ∃ t m, exec i s = .next t ∧ t.cur.mq = u.cur.mq ++ [m] ∧
        m.kind = kind ∧ m.c = c ∧ m.slot = u.actSlot ∧ m.ws = u.curWs ∧ m.base = base ∧ m.pitch = (u.rd c.y).toNat % 2 ^ 20 ∧
        m.clasp = (u.rd c.z).toNat ∧ m.rm = mode ∧ m.started = false ∧ m.rows = 0 ∧ m.ready = u.cycle + 6 ∧ t.cur.jobOpen = !closes ∧
        t.cur.jobCmds = job.1 + cmds ∧ t.cur.jobCycles = job.2 + charge ∧ SameRegs u t [] ∧ GoesOn u t 1 ∧ OtherThreads u t ∧
        SpadBytesBut u t u.actCore (wsOff u.curWs 0x1D0) (if draws = 0 then 0 else 8) ∧
        t.drawCount u.actCore u.curWs = (u.drawCount u.actCore u.curWs + draws) % 2 ^ 64)
    let x := (u.rd c.x).toNat
    let n := p / 2 ^ 16 % 256 + 1
    let q := if maType c = 6 then 4 else if maType c = 4 ∨ maType c = 5 ∨ maType c = 8 then 2 else 1
    issue (.maStream c) 3 1 ((p / 2 ^ 16 % 1024 + 1 + q - 1) / q) false x 0 ∧
    issue (.maLdst c) 0 1 n false x 0 ∧ issue (.maSwap c) 1 1 1 false x 0 ∧ issue (.maZero c) 2 1 1 false x 0 ∧
    issue (.maDrain c) 4 1 128 (f.testBit 1) (if f.testBit 2 then c.x.toNat else x) (if mode = 5 then rows * (p % 128 + 1) else 0) ∧
    issue (.maEnd c) 5 0 0 true x 0 ∧
    (s.cur.mq = [] → Continues s (.maWait c) 1) ∧
    (s.cur.mq ≠ [] → exec (.maWait c) s = .next (s.modCurTask (fun k => { k with park := .maWait s.nextId }))) ∧
    ((u.rd c.z).toNat % 16 ≠ 0 → u.maTrap 4 c = some ⟨0x0D, 0, some (u.rd c.z), none⟩) ∧
    (u.cur.jobOpen = true → u.cur.jobCmds = 64 → u.maTrap 1 c = some ⟨0x0B, 1, none, none⟩) ∧
    (u.cur.jobOpen = true → u.cur.jobCmds < 64 → u.cur.jobCycles = 65536 → u.maTrap 1 c = some ⟨0x0B, 2, none, none⟩)

/-- R278, R282, R284, R287 to R289: the array. -/
def Obligations.TheMatrixArrayRunsAsR282Says : Prop :=
  ∀ (s : State) (n i : Nat),
    let T := s.sett n
    ((T.granted ≠ none ∨ s.cycle < T.freeAt ∨ s.maChoice n = none) → exec (.maGrant n) s = .next s) ∧
    (∀ pos g c, T.granted = none → T.freeAt ≤ s.cycle → s.maChoice n = some (pos, g, c) → s.savedJob c = none →
      ∃ t, exec (.maGrant n) s = .next t ∧ SameBytes s t ∧ (t.sett n).granted = some c ∧ (t.sett n).pos = pos ∧ (t.sett n).grants = g ∧
        (t.sett n).freeAt = s.cycle + 2 ∧ (t.sett n).planes = [] ∧ (t.sett n).acc0 = [] ∧ (t.sett n).acc1 = [] ∧
        (t.sett n).tag0 = 0 ∧ (t.sett n).tag1 = 0 ∧ (t.sett n).atag0 = 0 ∧ (t.sett n).atag1 = 0 ∧ ∀ m, m ≠ n → t.sett m = s.sett m) ∧
    let settled (m : MaCmd) (o off : Nat) : Prop :=
      ∀ r ∈ sourceRuns m.kind m.c m.pitch, s.opened (s.core o).world (.spad o (off + r.1)) r.2 = false
    (s.maStartable n i = none → exec (.maCommandStart n i) s = .next s) ∧
    (∀ c m, s.maStartable n i = some (c, m) → ∃ t, exec (.maCommandStart n i) s = .next t ∧ (m.kind < 4 → SameBytes s t) ∧
      (m.kind ≤ 2 → ∀ x ∈ (t.core c).mq, x.id = m.id → x.started = true ∧ x.start = s.cycle ∧ x.due = s.cycle + maBusy m.kind m.c) ∧
      (m.kind = 1 → t.sett n = { T with active := 1 - T.active }) ∧
      (m.kind = 2 → ((t.sett n).acc (maPlane m.c) = [] ∧ (t.sett n).acc (1 - maPlane m.c) = T.acc (1 - maPlane m.c) ∧
        (if maPlane m.c = 0 then (t.sett n).atag0 else (t.sett n).atag1) = 0 ∧ (t.sett n).planes = T.planes)) ∧
      (m.kind = 0 → (maType m.c = 2 ∨ maType m.c = 3) → ldT m.c = false → ∀ o off, s.spadOf c m.base = some (o, off) → settled m o off →
        ∀ k j, k < 256 → j < 128 →
          let sh := 1 - T.active
          let lo (r : Nat) : Nat := sh * 32768 + r * 128 + j
          let a := off + (k - maRow0 m.c) * m.pitch + 2 * j
          AMap.get 0 (t.sett n).planes (lo k) =
            if maRow0 m.c ≤ k ∧ k < maRow0 m.c + ldRows m.c then
              (if j < ldCols m.c then (maByte (s.core o) a).toNat + 256 * (maByte (s.core o) (a + 1)).toNat else 0)
            else AMap.get 0 T.planes (lo k)) ∧
      (m.kind = 3 → maType m.c = 8 → ∀ o off, s.spadOf c m.base = some (o, off) → settled m o off → ∀ r j, r < 128 → j < 128 →
        let p := maPlane m.c
        let term (k : Nat) : Int := sintOf (maByte (s.core o) (off + r * m.pitch + k)).toNat 8 *
          sintOf (T.bAt (maRow0 m.c * 2 + k) j).1 8
        AMap.get 0 ((t.sett n).acc p) (r * 128 + j) =
          if r < maRows m.c then
            wrapInt (((AMap.get 0 (T.acc p) (r * 128 + j) : Nat) : Int) + ((List.range (stK m.c)).map term).sum) 32
          else AMap.get 0 (T.acc p) (r * 128 + j))) ∧
    (s.maEndable n i = none → exec (.maCommandComplete n i) s = .next s) ∧
    (∀ c m, s.maEndable n i = some (c, m) → ∃ t, exec (.maCommandComplete n i) s = .next t ∧ SameBytes s t ∧
      (t.core c).mq = (s.core c).mq.filter (fun x => x.id != m.id) ∧
      (m.kind = 4 → m.c.p.getLsbD 23 = true → (t.sett n).acc (maPlane m.c) = []) ∧
      (maCloses m.kind m.c = true → (t.sett n).granted = none ∧ (t.sett n).freeAt = s.cycle + 2) ∧
      (maCloses m.kind m.c = false → (t.sett n).granted = some c)) ∧
    ∀ c, (s.maCloseable c = false → exec (.maJobAutoClose c) s = .next s) ∧
      (s.maCloseable c = true → ∃ t m, exec (.maJobAutoClose c) s = .next t ∧ (t.core c).mq = (s.core c).mq ++ [m] ∧ m.kind = 5 ∧
        (t.core c).jobOpen = false ∧ SameBytes s t)

/-- R290: rows of a drain whose destination is no cb handle. Bytes of return stacks are left out (R208). -/
def Obligations.DrainsWriteTheirRowsAsR290Says : Prop :=
  ∀ (s : State) (n : Nat),
    (s.maRowReady n = none → exec (.maDrainRow n) s = .next s) ∧
    (∀ c m zo, s.maRowReady n = some (c, m) → s.engineCheck c m.world m.pc.toNat m.clasp 16 true = .ok (.spad c zo) .invalid →
      zo % 16 = 0 →
      let T := s.sett n
      let size := maSize m.c
      let len := drCols m.c * size
      let p := maPlane m.c
      let tag := if p = 0 then T.atag0 else T.atag1
      let cell (j : Nat) : Nat := AMap.get 0 (T.acc p) (m.rows * 128 + j)
      let clasp (t : State) : Clasp := claspOf (Memory.readN (t.core c).scratch zo 16)
      let stack (a : Nat) : Prop := 0x200 ≤ a % 1024 ∧ a % 1024 < 0x240
      let only (t : State) : Prop := t.mem = s.mem ∧ ∀ x a, x ≠ c → t.spadByte x a = s.spadByte x a
      ∃ t, exec (.maDrainRow n) s = .next t ∧
        (m.bad = true → only t ∧ (∀ a, (a < zo ∨ zo + 16 ≤ a) → t.spadByte c a = s.spadByte c a) ∧
          (¬(stack zo) → (clasp t).e = true ∧ (clasp t).phc = (clasp s).phc ∧ (clasp t).arr = (clasp s).arr)) ∧
        (∀ off, m.bad = false → m.owed = 0 → m.win = none →
          let va := (m.base + m.rows * m.pitch) % 2 ^ 64
          va % 4096 + len ≤ 4096 → s.engineCheck c m.world m.pc.toNat va len true = .ok (.spad c off) .invalid →
          (off + len ≤ zo ∨ zo + 16 ≤ off) → only t ∧
          (∀ a, (a < off ∨ off + len ≤ a) → (a < zo ∨ zo + 16 ≤ a) → ¬(stack a) → t.spadByte c a = s.spadByte c a) ∧
          (¬(stack zo) → clasp t = (clasp s).add len) ∧ (∀ g, off / 16 ≤ g → 16 * g < off + len → (t.core c).isFull g = true) ∧
          (∃ x ∈ (t.core c).mq, x.id = m.id ∧ x.rows = m.rows + 1 ∧ x.owed = 0) ∧
          ∀ j b, j < drCols m.c → b < size → ¬(stack (off + j * size + b)) →
            (tag = 0 → t.spadByte c (off + j * size + b) = 0) ∧
            ((tag = 1 ∧ maType m.c = 1) ∨ (tag = 2 ∧ maType m.c = 10) →
              t.spadByte c (off + j * size + b) = BitVec.ofNat 8 (cell j / 256 ^ b))))

/-- R292, R294, R297, R298: the issue of copy commands. -/
def Obligations.CopyCommandsIssueAsR292AndR298Say : Prop :=
  ∀ (s : State) (c : EngCmd),
    let u := s.drainReds
    let z := u.rd c.z
    let issue (i : Instr) (kind : Nat) : Prop :=
      let joins := kind = 3 → u.curTask.gang ≠ none
      (z.toNat % 16 ≠ 0 → TrapsFrom u s i ⟨0x0D, 0, some z, none⟩) ∧
      (∀ t, u.claspIssue z.toNat = some t → TrapsFrom u s i t) ∧
      (u.claspIssue z.toNat = none → 8 ≤ u.cur.cq.length →
        joins → exec i s = .next (u.modCurTask (fun k => { k with park := .cqFull }))) ∧
      (u.claspIssue z.toNat = none → u.cur.cq.length < 8 → joins → ∃ t q, exec i s = .next t ∧ t.cur.cq = u.cur.cq ++ [q] ∧
        q.kind = kind ∧ q.desc = (u.rd c.x).toNat ∧ q.clasp = z.toNat ∧ q.core = u.actCore ∧ q.ws = u.curWs ∧
        q.world = u.cur.world ∧ q.pc = u.curTask.pc ∧ q.stamp = u.pts u.actCore ∧
        q.coll = (if kind = 3 then u.curTask.gang.map (fun g => (g, u.curTask.colls)) else none) ∧
        (q.coll = none → GoesOn u t 1 ∧ t.gangs = u.gangs) ∧
        (q.coll ≠ none → GoesOnAs u t 1 { u.curTask with colls := u.curTask.colls + 1 }) ∧
        SameRegs u t [] ∧ SameBytes u t ∧ OtherThreads u t)
    issue (.dmaCp c) 0 ∧ issue (.dmaGt c) 1 ∧ issue (.dmaSc c) 2 ∧ issue (.dmaColl c) 3 ∧
    (u.curTask.gang = none → u.claspIssue z.toNat = none → ∃ t, exec (.dmaColl c) s = .next t ∧ t.cur.cq = u.cur.cq ∧
      SameRegs u t [] ∧ GoesOn u t 1 ∧ OtherThreads u t ∧
      ∀ zo, u.engineCheck u.actCore u.cur.world u.curTask.pc.toNat z.toNat 16 true = .ok (.spad u.actCore zo) .invalid →
        let clasp (t : State) : Clasp := claspOf (Memory.readN t.cur.scratch zo 16)
        (¬(0x200 ≤ zo % 1024 ∧ zo % 1024 < 0x240) → SpadBytesBut u t u.actCore zo 16 ∧ clasp t = { clasp u with e := true }))

/-- R292, R294, R295: the copy engine. Bytes of return stacks are left out (R208). R142, R297, R298: collectives. -/
def Obligations.CopiesAndCollectivesFollowR292ToR298 : Prop :=
  (∀ (s : State) (n pl : Nat),
      (s.copyChoice n = none → exec (.copyCommandStart n) s = .next s) ∧
      (∀ j q, s.copyChoice n = some (j, q) → ∃ t, exec (.copyCommandStart n) s = .next t ∧ (t.sett n).lastCore = j ∧
        (q.coll = none → ∃ p r, (s.sett n).freePlace = some p ∧ AMap.find (t.sett n).places p = some r ∧ r.cmd.id = q.id ∧ r.next = 0)) ∧
      (AMap.find (s.sett n).places pl = none →
        exec (.copyRunWritten n pl) s = .next s ∧ exec (.copyCommandComplete n pl) s = .next s) ∧
      ∀ r, AMap.find (s.sett n).places pl = some r →
        (s.copyCanStep r = false → exec (.copyRunWritten n pl) s = .next s) ∧
        (r.over = false → exec (.copyCommandComplete n pl) s = .next s) ∧
        (r.over = true → ∃ t, exec (.copyCommandComplete n pl) s = .next t ∧ SameBytes s t ∧
          (t.sett n).places = AMap.del (s.sett n).places pl ∧ (∀ q ∈ (t.core r.cmd.core).cq, q.id ≠ r.cmd.id) ∧
          (∀ h first, r.win = some (h, first) → (t.core r.cmd.core).handle h = ((s.core r.cmd.core).handle h).endProd first) ∧
          ∀ x, x ≠ r.cmd.core → t.core x = s.core x) ∧
        (s.copyCanStep r = true → ∃ t, exec (.copyRunWritten n pl) s = .next t ∧
          ∀ d zo, r.bytes = some d → r.bad = false → r.owed = 0 → r.cmd.noClasp = false →
            s.engineCheck r.cmd.core r.cmd.world r.cmd.pc.toNat r.cmd.clasp 16 true = .ok (.spad r.cmd.core zo) .invalid →
            zo % 16 = 0 →
            let c := r.cmd.core
            let clasp (t : State) : Clasp := claspOf (Memory.readN (t.core c).scratch zo 16)
            let stack (a : Nat) : Prop := 0x200 ≤ a % 1024 ∧ a % 1024 < 0x240
            let only (t : State) : Prop := t.mem = s.mem ∧ ∀ x a, x ≠ c → t.spadByte x a = s.spadByte x a
            (copyPlan r.cmd.kind d = none → only t ∧ (∀ a, (a < zo ∨ zo + 16 ≤ a) → t.spadByte c a = s.spadByte c a) ∧
              (¬(stack zo) → (clasp t).e = true ∧ (clasp t).phc = (clasp s).phc ∧ (clasp t).arr = (clasp s).arr) ∧
              ∃ r', AMap.find (t.sett n).places pl = some r' ∧ r'.over = true) ∧
            (∀ p so off, r.cmd.kind = 0 → cpPlan d = some p → p.handle = none → p.l0 ≤ 4096 → r.next < p.runs →
              let i1 : Int := ((r.next % p.n1 : Nat) : Int)
              let i2 : Int := ((r.next / p.n1 : Nat) : Int)
              let src := wrapInt ((descNum d 0 8 : Nat) + i1 * descInt d 0x20 + i2 * descInt d 0x28) 64
              let dst := wrapInt ((descNum d 8 8 : Nat) + (i1 * descInt d 0x30 + i2 * descInt d 0x38)) 64
              src % 4096 + p.l0 ≤ 4096 → dst % 4096 + p.l0 ≤ 4096 →
              s.engineCheck c r.cmd.world r.cmd.pc.toNat src p.l0 false = .ok (.spad c so) .invalid →
              s.engineCheck c r.cmd.world r.cmd.pc.toNat dst p.l0 true = .ok (.spad c off) .invalid →
              (off + p.l0 ≤ zo ∨ zo + 16 ≤ off) → s.cpMet r d p src p.l0 = [] → (∀ x ∈ r.fixed, x.1 ≠ r.next) →
              s.opened r.cmd.world (.spad c so) p.l0 = false → only t ∧
              (∀ b, b < p.l0 → ¬(stack (off + b)) → t.spadByte c (off + b) = s.spadByte c (so + b)) ∧
              (∀ a, (a < off ∨ off + p.l0 ≤ a) → (a < zo ∨ zo + 16 ≤ a) → ¬(stack a) → t.spadByte c a = s.spadByte c a) ∧
              (¬(stack zo) → clasp t = (clasp s).add p.l0) ∧
              (∀ g, off / 16 ≤ g → 16 * g < off + p.l0 → (t.core c).isFull g = true) ∧
              ∃ r', AMap.find (t.sett n).places pl = some r' ∧ r'.next = r.next + 1 ∧ r'.owed = 0))) ∧
  ((∀ (s : State) (g m : Nat),
      ((s.gang g).coll? m = none → exec (.collectiveComplete g m) s = .next s) ∧
      ∀ x, (s.gang g).coll? m = some x →
        (x.canRun = false → exec (.collectiveComplete g m) s = .next s) ∧
        (x.canRun = true → x.due = none → exec (.collectiveComplete g m) s =
          .next (s.putGang g ((s.gang g).putColl { x with due := some (s.cycle + s.collTime g x) }))) ∧
        (∀ n, x.canRun = true → x.due = some n → s.cycle < n → exec (.collectiveComplete g m) s = .next s) ∧
        (∀ n, x.canRun = true → x.due = some n → n ≤ s.cycle → ∃ t, exec (.collectiveComplete g m) s = .next t ∧
          (x.bad = false → ∀ d dsts src e e1,
            let stamp := x.cmds.foldl (fun a c => max a c.2.stamp) 0
            collGather (s.gang g).size x ⟨s, stamp⟩ = .ok (some (d, dsts, src), e) →
            let ws := (x.cmds.map (fun c => c.2)).zip (dsts.zip (collResult d (s.gang g).size src))
            e.s.collHeld x ws = none → collWrites x.fab (ws.flatMap collPieces) e = (e1, none) →
            (t.gang g).coll? m = none ∧ ∀ c ∈ x.cmds, ∀ q ∈ (t.core c.2.core).cq, q.id ≠ c.2.id))) ∧
    (∀ (x : CollDesc) (n : Nat) (src : List (List Byte)),
      (x.kind = 1 → collResult x n src = List.replicate n src.flatten) ∧
      (x.kind = 3 → collResult x n src = List.replicate n (src[x.root]?.getD [])) ∧
      (∀ a b c d : Nat, combineRanks x 16 [[a]] = [a] ∧ combineRanks x 16 [[a], [b]] = [combineElem x a b] ∧
        combineRanks x 16 [[a], [b], [c]] = [combineElem x (combineElem x a b) c] ∧
        combineRanks x 16 [[a], [b], [c], [d]] = [combineElem x (combineElem x a b) (combineElem x c d)]) ∧
      (x.ty = 10#4 → x.op = 0 → ∀ a b, combineElem x a b = (a + b) % 2 ^ 32)))

/-- R306, R307: ops 0 to 11 of the bead words. -/
def Obligations.BeadArithmeticFollowsR307 : Prop :=
  ∀ (s : State) (v : Visit) (d a b : BitVec 3) (i : BitVec 18) (j : BitVec 15) (n : BitVec 6), s.cur.visit = some v → d ≠ 3#3 →
    let A := v.reg a
    let B := v.reg b + i.signExtend 64
    let C := v.reg b + j.signExtend 64
    let give (w : Instr) (x : Word) : Prop := BeadGives s s w v d x 0
    give (.bAdd d a b i) (A + B) ∧ give (.bSub d a b i) (A - B) ∧ give (.bMul d a b i) (A * B) ∧
    give (.bMin d a b i) (if A.toInt ≤ B.toInt then A else B) ∧ give (.bMax d a b i) (if A.toInt ≤ B.toInt then B else A) ∧
    give (.bAnd d a b i) (A &&& B) ∧ give (.bOr d a b i) (A ||| B) ∧ give (.bXor d a b i) (A ^^^ B) ∧
    give (.bShiShl d a n) (A <<< n.toNat) ∧ give (.bShiShr d a n) (A >>> n.toNat) ∧
    give (.bShiSra d a n) (A.sshiftRight n.toNat) ∧ give (.bShiRot d a n) (A.rotateRight n.toNat) ∧
    give (.bLi d i) (i.signExtend 64) ∧
    give (.bCmpEq d a b j) (oneIf (A = C)) ∧ give (.bCmpNe d a b j) (oneIf (A ≠ C)) ∧
    give (.bCmpLt d a b j) (oneIf (A.toInt < C.toInt)) ∧ give (.bCmpGe d a b j) (oneIf (C.toInt ≤ A.toInt)) ∧
    give (.bCmpLtn d a b j) (oneIf (A.toNat < C.toNat)) ∧ give (.bCmpGen d a b j) (oneIf (C.toNat ≤ A.toNat)) ∧
    give (.bSel d a b) (if v.reg d ≠ 0 then A else v.reg b) ∧
    v.reg 0#3 = 0 ∧ v.reg 1#3 = v.e ∧ v.reg 2#3 = v.l.signExtend 64 ∧ v.reg 3#3 = wordOf v.k

/-- R307, R308: b.fop and b.nb. Which value and flags a float operation has is the model's one function for it. R307,
R316: bead loads and stores. -/
def Obligations.BeadFloatsAndAccessesFollowR307ToR324 : Prop :=
  (∀ (s : State) (v : Visit) (d a b r : BitVec 3) (f : BitVec 1) (o : BitVec 16), s.cur.visit = some v → d ≠ 3#3 →
      let T := s.cur.tensor v.t
      let t : Ty := if f = 0#1 then .f32 else .f64
      let bits (x : BitVec 3) : Nat := (v.reg x).toNat % 2 ^ tyBits t
      let val (x : BitVec 3) : FVal := floatVal t (bits x)
      let flop (w : Instr) (x : Nat × Flags) : Prop :=
        BeadGives (s.modCore s.actCore (fun k => k.putTensor v.t { T with flags := T.flags ||| x.2 })) s w v d (wordOf x.1) 0
      let settled (o n : Nat) : Prop := s.opened s.cur.world (.spad s.actCore o) n = false
      let seen (o n : Nat) : State := (s.loadedAt s.cur.world (.spad s.actCore o) n).raisePts s.actCore s.cur.hts
      (∀ m, rmodeOfCode r.toNat = some m →
        flop (.bFopFadd d a b r f) (addVal t m false 0 (val a) (val b)) ∧
        flop (.bFopFmul d a b r f) (mulVal t m false 0 (val a) (val b)) ∧
        flop (.bFopFma d a b r f) (fmaVal t m false 0 (val a) (val b) (val d))) ∧
      flop (.bFopFmin d a b r f) (fminmax t false (bits a) (bits b)) ∧
      flop (.bFopFmax d a b r f) (fminmax t true (bits a) (bits b)) ∧
      (∀ d0 d1 d2 : Nat, T.dims = (d0, d1, d2) →
        let dx := (o.extractLsb' 0 6).toInt
        let dy := (o.extractLsb' 6 5).toInt
        let dz := (o.extractLsb' 11 5).toInt
        let x : Int := ((v.k % d0 : Nat) : Int) + dx
        let y : Int := ((v.k / d0 % d1 : Nat) : Int) + dy
        let z : Int := ((v.k / (d0 * d1) : Nat) : Int) + dz
        let far : Prop := T.window < (dx + d0 * dy + d0 * d1 * dz).natAbs
        let inside : Prop := (0 ≤ x ∧ x < d0) ∧ (0 ≤ y ∧ y < d1) ∧ 0 ≤ z ∧ z < d2
        let rec16 := T.base + 16 * (x + d0 * (y + d1 * z)).toNat
        let nb (w : Instr) (edge : Word) (off : Nat) : Prop :=
          (far → BeadFaults s w v ⟨0x0E, 6, none, none⟩) ∧
          (¬far → ¬inside → BeadGives s s w v d edge 1) ∧
          (¬far → inside → s.cur.regHit off 8 = none → poisonHit s.cur.spoison off 8 = false → settled off 8 →
            BeadGives (seen off 8) s w v d (wordOf (s.sNum s.actCore off 8)) 1) ∧
          (¬far → inside → s.cur.regHit off 8 ≠ none → BeadFaults s w v ⟨8, 0, some (wordOf (aliasOf off)), none⟩) ∧
          (¬far → inside → s.cur.regHit off 8 = none → poisonHit s.cur.spoison off 8 = true →
            BeadFaults s w v ⟨0x13, 0, some (wordOf (aliasOf off)), none⟩)
        nb (.bNbData d o) T.edgev rec16 ∧ nb (.bNbCtx d o) T.edgec (rec16 + 8))) ∧
  (∀ (s : State) (v : Visit) (d a b : BitVec 3) (z : BitVec 2) (i : BitVec 16), s.cur.visit = some v →
      let n := 2 ^ z.toNat
      let va := (v.reg a + i.signExtend 64).toNat
      let T := s.cur.tensor v.t
      let at_ (cause sub o : Nat) : Trap := ⟨cause, sub, some (wordOf (aliasOf o)), none⟩
      let settled (o n : Nat) : Prop := s.opened s.cur.world (.spad s.actCore o) n = false
      let place (w : Instr) : Prop := (2 ^ 20 - n < va ∨ va % n ≠ 0) → BeadFaults s w v (at_ 0x0E 7 va)
      let store (w : Instr) (o n : Nat) (x : Word) (put : Bool) (y : Visit) : Prop :=
        (s.cur.skipHit o n = true → BeadFaults s w v (at_ 0x0E 0x0A o)) ∧
        (s.cur.skipHit o n = false → s.cur.regHit o n ≠ none → BeadFaults s w v (at_ 8 0 o)) ∧
        (s.cur.skipHit o n = false → s.cur.regHit o n = none → s.cur.recordHit o n = true → BeadFaults s w v (at_ 8 1 o)) ∧
        (s.cur.skipHit o n = false → s.cur.regHit o n = none → s.cur.recordHit o n = false → s.cur.spoison = [] → settled o n →
          ∃ t, exec w s = .next t ∧ t.cur.visit = some y ∧ t.sNum s.actCore (o / 8 * 8) 8 = s.stored s.actCore o n x.toNat ∧
            SpadBytesBut s t s.actCore (o / 8 * 8) 8 ∧ OnlyCore { s with unsettled := t.unsettled } t ∧ t.cur.tensors = s.cur.tensors ∧
            (put = true → t.cur.isFull (o / 16) = true) ∧ (put = false → t.cur.full = s.cur.full))
      let on : Visit := { v with pc := v.pc + 1, steps := v.steps + 1, ran := true, accesses := v.accesses + 1 }
      (d ≠ 3#3 → place (.bLd d a z i) ∧ (va ≤ 2 ^ 20 - n → va % n = 0 →
        (s.cur.regHit va n ≠ none → BeadFaults s (.bLd d a z i) v (at_ 8 0 va)) ∧
        (s.cur.regHit va n = none → poisonHit s.cur.spoison va n = true → BeadFaults s (.bLd d a z i) v (at_ 0x13 0 va)) ∧
        (s.cur.regHit va n = none → poisonHit s.cur.spoison va n = false → settled va n →
          BeadGives ((s.loadedAt s.cur.world (.spad s.actCore va) n).raisePts s.actCore s.cur.hts) s (.bLd d a z i) v d (wordOf (s.sNum s.actCore va n)) 1))) ∧
      place (.bSt a b z i) ∧ place (.bStPut a b z i) ∧
      (va ≤ 2 ^ 20 - n → va % n = 0 → store (.bSt a b z i) va n (v.reg b) false on ∧ store (.bStPut a b z i) va n (v.reg b) true on) ∧
      ((T.base + 16 * v.k) % 16 = 0 → store (.bSete a) (T.base + 16 * v.k) 8 (v.reg a) true { on with e := v.reg a }))

/-- R304, R310, R311, R314: control words of bead programs. -/
def Obligations.BeadBranchesWaitsAndWakesFollowR304ToR314 : Prop :=
  ∀ (s : State) (v : Visit) (a : BitVec 3) (p : BitVec 8) (i : BitVec 18), s.cur.visit = some v →
    let T := s.cur.tensor v.t
    let R := v.reg a
    let full (g : Nat) : State :=
      (if s.cur.isFull g then s.settleAt (.spad s.actCore (16 * g)) 16 else s).raisePts s.actCore s.cur.hts
    let seen (g : Nat) : State := (s.loadedAt s.cur.world (.spad s.actCore (16 * g)) 16).raisePts s.actCore s.cur.hts
    let go (w : State) (x : Instr) : Prop := BeadGoesTo w s x v (v.pc + 1) 0
    let wait (x : Instr) (w : State) (kind warg : Nat) (c : Prop) : Prop :=
      (c → go w x) ∧ (¬c → BeadStops w s x v 1 kind warg)
    let r16 := R.toNat % 2 ^ 16
    let g := R.toNat / 16
    let at_ (cause sub : Nat) : Trap := ⟨cause, sub, some (wordOf (aliasOf R.toNat)), none⟩
    BeadGoesTo s s (.bBrNz a p) v (if R ≠ 0 then p.toNat else v.pc + 1) 0 ∧
    BeadGoesTo s s (.bBrZ a p) v (if R = 0 then p.toNat else v.pc + 1) 0 ∧ BeadGoesTo s s (.bJmp p) v p.toNat 0 ∧
    BeadStops s s .bSleep v 2 0 0 ∧ BeadStops s s .bDone v 3 0 0 ∧
    (∀ x w, s.neighbour v r16 1 = .ok (x, w) →
      wait (.bWaitNbdone a) w 0 r16 (ctxSt x = 3) ∧
      wait (.bWaitNbpc a p) w 1 r16 (ctxSt x = 3 ∨ ((ctxSt x = 0 ∨ ctxSt x = 1) ∧ p.toNat ≤ ctxPc x))) ∧
    (∀ t, s.neighbour v r16 1 = .error t → BeadFaults s (.bWaitNbdone a) v t ∧ BeadFaults s (.bWaitNbpc a p) v t) ∧
    (2 ^ 20 ≤ R.toNat → BeadFaults s (.bWaitFull a) v (at_ 0x0E 7) ∧ BeadFaults s (.bWaitPhase a i) v (at_ 0x0E 7)) ∧
    (R.toNat < 2 ^ 20 → (s.cur.regHit (16 * g) 16 ≠ none →
        BeadFaults s (.bWaitPhase a i) v ⟨8, 0, some (wordOf (aliasOf (16 * g))), none⟩) ∧
      (s.cur.regHit (16 * g) 16 = none → poisonHit s.cur.spoison (16 * g) 16 = true →
        BeadFaults s (.bWaitPhase a i) v ⟨0x13, 0, some (wordOf (aliasOf (16 * g))), none⟩)) ∧
    (R.toNat < 2 ^ 20 → wait (.bWaitFull a) (full g) 2 g (s.cur.isFull g = true) ∧
      (s.cur.regHit (16 * g) 16 = none → poisonHit s.cur.spoison (16 * g) 16 = false →
        s.opened s.cur.world (.spad s.actCore (16 * g)) 16 = false →
        let k := claspOf (Memory.readN s.cur.scratch (16 * g) 16)
        wait (.bWaitPhase a i) (seen g) 3 g (k.phc % 2 ^ 18 ≠ i.toNat ∨ k.e = true))) ∧
    wait (.bWaitPass a) s 4 r16 ((((T.pcnt : Nat) : Int) - (r16 : Nat)) % 2 ^ 16 < 2 ^ 15) ∧
    wait (.bWaitLocal a) s 5 r16 ((R.setWidth 16).toInt ≤ v.l.toInt) ∧
    (let j := (R + i.signExtend 64).toNat
      let o := T.base + 16 * j + 8
      let w : Instr := .bWake a i
      let sleeps : Prop := ctxSt (s.sNum s.actCore o 8) = 2 ∧ s.cur.regHit o 8 = none
      (T.beads ≤ j → go s w) ∧
      (j < T.beads → j ≤ v.k → ∃ t, exec w s = .next t ∧ SameBytes s t ∧
        (∀ x, x ∈ (t.cur.tensor v.t).late ↔ x = j ∨ x ∈ T.late) ∧
        t.cur.visit = some { v with pc := v.pc + 1, steps := v.steps + 1, ran := true }) ∧
      (j < T.beads → v.k < j → ¬sleeps → go s w) ∧
      (j < T.beads → v.k < j → sleeps → (T.skip + j / 8 < T.base + 16 * j + 8 ∨ T.base + 16 * j + 16 ≤ T.skip + j / 8) →
        ∃ t, exec w s = .next t ∧ ctxSt (t.sNum s.actCore o 8) = 0 ∧ bitOf (t.cur.tensor v.t).bits j = false ∧
          (∀ x, x ≠ j → bitOf (t.cur.tensor v.t).bits x = bitOf T.bits x) ∧ (∀ x, t.memByte x = s.memByte x) ∧
          t.cur.visit = some { v with pc := v.pc + 1, steps := v.steps + 1, ran := true, wakes := v.wakes + 1 }))

/-- R301, R318 to R323: the issue of tensor commands. -/
def Obligations.TensorCommandsFollowR319ToR323 : Prop :=
  ∀ (s : State) (c : EngCmd),
    let u := s.drainReds
    let n := c.f.toNat % 4
    let T := s.cur.tensor n
    let U := u.cur.tensor n
    let runs (w : State) : Bool := w.cur.sq.head?.elim false (fun q => q.running && q.t == n)
    let x := (u.rd c.x).toNat
    let bad (i : Instr) (sub : Nat) : Prop := TrapsFrom u s i ⟨0x0E, sub, none, none⟩
    Gives s (.bdStat c) c.x (if T.declared = false then 0 else wordOf ((if runs s then 2 ^ 63 else 0) + (if T.qui then 2 ^ 62 else 0) +
      (if T.alld then 2 ^ 61 else 0) + (if T.flt then 2 ^ 60 else 0) + T.pcnt % 2 ^ 24 * 2 ^ 32 + T.nact % 2 ^ 16 * 2 ^ 16 +
      T.ndone % 2 ^ 16)) 1 ∧
    (U.declared = true → bad (.bdDecl c) 3) ∧
    (U.declared = false → (∀ off, u.spadOf u.actCore x = some (u.actCore, off) → x % 8 ≠ 0 ∨ 2 ^ 20 < off + 64 ∨ u.cur.regHit off 64 ≠ none) →
      TrapsFrom u s (.bdDecl c) ⟨0x0E, 2, some (u.rd c.x), none⟩) ∧
    (∀ o, u.declCheck n x = .ok o → ∃ due, exec (.bdDecl c) s = .next (u.modCurTask (fun k => { k with park := .bdDecl n due none [] none }))) ∧
    (U.declared = false → bad (.bdPass c) 3) ∧
    (U.declared = true → x % 2 ^ 24 = 0 → c.f.getLsbD 3 = false → bad (.bdPass c) 1) ∧
    (U.declared = true → (x % 2 ^ 24 ≠ 0 ∨ c.f.getLsbD 3 = true) →
      (∀ t, c.f.getLsbD 2 = true → u.claspIssue (u.rd c.z).toNat = some t → TrapsFrom u s (.bdPass c) t) ∧
      ((c.f.getLsbD 2 = true → u.claspIssue (u.rd c.z).toNat = none) →
        (4 ≤ u.cur.sq.length → exec (.bdPass c) s = .next (u.modCurTask (fun k => { k with park := .sqFull }))) ∧
        (u.cur.sq.length < 4 → ∃ t q, exec (.bdPass c) s = .next t ∧ t.cur.sq = u.cur.sq ++ [q] ∧ q.t = n ∧
          q.left = x % 2 ^ 24 ∧ q.unlimited = decide (x % 2 ^ 24 = 0) ∧ q.async = c.f.getLsbD 2 ∧ q.qstop = c.f.getLsbD 3 ∧
          q.clasp = (u.rd c.z).toNat ∧ q.slot = u.actSlot ∧ q.ws = u.curWs ∧ q.pc = u.curTask.pc ∧ q.running = false ∧
          SameRegs u t [] ∧ SameBytes u t ∧ OtherThreads u t ∧ t.cur.tensors = u.cur.tensors ∧
          (q.async = true → GoesOn u t 1) ∧
          (q.async = false → t.curTask = { u.curTask with park := .bdPass q.id } ∧ t.curSlot = u.curSlot)))) ∧
    (U.declared = false → bad (.bdWake c) 3) ∧ (U.declared = true → U.beads ≤ x % 2 ^ 16 → bad (.bdWake c) 9) ∧
    (U.declared = true → x % 2 ^ 16 < U.beads →
      let j := x % 2 ^ 16
      let o := U.base + 16 * j + 8
      let sleeps : Prop := ctxSt (u.sNum u.actCore o 8) = 2 ∧ u.cur.regHit o 8 = none
      ∃ t, exec (.bdWake c) s = .next t ∧ GoesOn u t 1 ∧ SameRegs u t [] ∧ OtherThreads u t ∧
        (runs u = true → SameBytes u t ∧ ∀ k, k ∈ (t.cur.tensor n).early ↔ k = j ∨ k ∈ U.early) ∧
        (runs u = false → ¬sleeps → SameBytes u t ∧ t.cur.tensors = u.cur.tensors) ∧
        (runs u = false → sleeps → (U.skip + j / 8 < U.base + 16 * j + 8 ∨ U.base + 16 * j + 16 ≤ U.skip + j / 8) →
          ctxSt (t.sNum u.actCore o 8) = 0 ∧ bitOf (t.cur.tensor n).bits j = false)) ∧
    (T.declared = false → Traps s (.bdFree c) ⟨0x0E, 3, none, none⟩) ∧
    (T.declared = true → (∃ q ∈ s.cur.sq, q.t = n) → exec (.bdFree c) s = .next (s.modCurTask (fun k => { k with park := .bdFree n }))) ∧
    (T.declared = true → (∀ q ∈ s.cur.sq, q.t ≠ n) → ∃ t, exec (.bdFree c) s = .next t ∧ (t.cur.tensor n).declared = false ∧
      (∀ m, m ≠ n → t.cur.tensor m = s.cur.tensor m) ∧ GoesOn s t 1 ∧ SameRegs s t [] ∧ SameBytes s t ∧ OnlyCore s t ∧ OtherThreads s t)

/-- R313, R319, R320: passes. -/
def Obligations.PassesFollowR313AndR320 : Prop :=
  ∀ (s : State) (c i : Nat),
    let k := s.core c
    let sleeping (t : State) (x : Tensor) (j : Nat) : Bool := decide (2 ≤ ctxSt (t.sNum c (x.base + 16 * j + 8) 8))
    ((∀ n due f, (s.actAs c i).curTask.park = .bdDecl n due none f none → s.cycle < due) → exec (.bdDeclComplete c i) s = .next s) ∧
    (∀ n due f o, (s.actAs c i).curTask.park = .bdDecl n due none f none → due ≤ s.cycle →
      let u := s.actAs c i
      u.declCheck n (u.rd (u.curTask.issue.iw0.extractLsb' 16 5)).toNat = .ok o →
      let d := u.descTensor o
      let prog := u.sNum c (o + 0x20) 8
      poisonHit u.cur.spoison o 64 = false → poisonHit u.cur.spoison d.base (16 * d.beads) = false →
      let read := progRead ⟨c, k.world, u.curTask.pc.toNat⟩ f prog d.plen ⟨u, u.pts c⟩
      (∀ a, read = .error (.wait a) → exec (.bdDeclComplete c i) s =
        .next (u.modCurTask (fun k => { k with park := .bdDecl n due (some a) f none }))) ∧
      (∀ win off a m w, read = .error (.fabric win off a m w) → exec (.bdDeclComplete c i) s =
        .next ((u.askFabric k.world win off m false 0).modCurTask (fun k => { k with park := .bdDecl n due none f (some a) }))) ∧
      (read = .error (.bad none) → LateTraps s (.bdDeclComplete c i) u ⟨0x0E, 2, some (wordOf prog), none⟩) ∧
      ∀ words e y, read = .ok (words, e) → (e.s.raisePts c e.stamp).declBody d prog words = .ok y →
      ∃ t x, exec (.bdDeclComplete c i) s = .next t ∧ t.cur.tensor n = x ∧ x.declared = true ∧ x.base = d.base ∧ x.dims = d.dims ∧
        x.window = d.window ∧ x.prog = words ∧
        x.pcnt = 0 ∧ x.early = [] ∧ x.late = [] ∧ x.flags = 0 ∧ x.flt = false ∧
        (∀ j, j < x.beads → bitOf x.bits j = sleeping e.s d j) ∧ t.curSlot.nextAt = s.cycle + 8 ∧ t.curTask.pc = u.npc ∧
        t.curTask.park = .run) ∧
    ((∀ q, k.sq.head? = some q → q.running = true ∨ q.dead = true ∨ s.stopping c = true) → exec (.bdPassStart c) s = .next s) ∧
    (∀ q, k.sq.head? = some q → q.running = false → q.dead = false → s.stopping c = false → ∃ t p, exec (.bdPassStart c) s = .next t ∧
      (t.core c).sq.head? = some p ∧ p.running = true ∧ p.id = q.id ∧ p.left = q.left ∧ ((t.core c).tensor q.t).flt = false ∧
      (∀ j, j < (k.tensor q.t).beads → bitOf ((t.core c).tensor q.t).bits j = sleeping s (k.tensor q.t) j) ∧
      (t.core c).sq.length = k.sq.length ∧ ∀ a, t.memByte a = s.memByte a) ∧
    (k.sq.any (fun q => q.dead) = true → ∃ t, exec (.bdPassComplete c) s = .next t ∧ (t.core c).sq = k.sq.filter (fun q => !q.dead) ∧
      ∀ q zo, k.sq.filter (fun q => q.dead) = [q] → q.async = true → zo % 16 = 0 → ¬(0x200 ≤ zo % 1024 ∧ zo % 1024 < 0x240) →
        s.engineCheck c q.world q.pc.toNat q.clasp 16 true = .ok (.spad c zo) .invalid →
        claspOf (Memory.readN (t.core c).scratch zo 16) = (claspOf (Memory.readN k.scratch zo 16)).setE) ∧
    (∀ q, k.runningPass = some q →
      let r := (s.actAs c q.slot).sweep q.t
      let due : Prop := q.stop = none ∧ q.dead = false ∧ s.stopping c = false ∧ q.free ≤ s.cycle
      (¬due → exec (.sweepPass c) s = .next s) ∧
      (due → r.trap = none → ∃ t p, exec (.sweepPass c) s = .next t ∧ (t.core c).sq.head? = some p ∧ p.left = q.left - 1 ∧
        let x := (t.core c).tensor q.t
        x.pcnt = ((k.tensor q.t).pcnt + 1) % 2 ^ 32 ∧ x.qui = (!r.ran && r.wakes == 0) ∧
        (p.stop = some none ↔ (q.unlimited = false ∧ q.left - 1 = 0) ∨ x.alld = true ∨ (q.qstop = true ∧ x.qui = true)) ∧
        (x.alld = true ↔ x.ndone = x.beads) ∧ x.nact = x.beads - popCount x.beads x.bits) ∧
      (∀ tr, due → r.trap = some tr → ∃ t p, exec (.sweepPass c) s = .next t ∧ (t.core c).sq.head? = some p ∧
        p.stop = some (some tr) ∧ ((t.core c).tensor q.t).flt = true ∧ ((t.core c).tensor q.t).pcnt = (k.tensor q.t).pcnt) ∧
      (due → (k.tensor q.t).early = [] → (k.tensor q.t).late = [] →
        (∀ j, j < (k.tensor q.t).beads → bitOf (k.tensor q.t).bits j = true) →
        ∃ t, exec (.sweepPass c) s = .next t ∧ SameBytes s t ∧ ((t.core c).tensor q.t).qui = true) ∧
      ((∀ p ∈ k.sq, p.dead = false) → (q.stop = none ∨ s.cycle < q.free) → exec (.bdPassComplete c) s = .next s) ∧
      (∀ x, (∀ p ∈ k.sq, p.dead = false) → q.stop = some x → s.passWaits c q = false → q.free ≤ s.cycle → (q.async = true ∨ x = none) →
        x.elim True (fun y => y.cause ≠ 0x13) → ∃ t, exec (.bdPassComplete c) s = .next t ∧
        (t.core c).sq = k.sq.drop 1 ∧ ((t.core c).tensor q.t).flags = 0 ∧
        (q.async = false → t.curSlot.nextAt = s.cycle + 8 ∧ t.curTask.park = .run) ∧
        ∀ zo, q.async = true → zo % 16 = 0 → ¬(0x200 ≤ zo % 1024 ∧ zo % 1024 < 0x240) → zo / 1024 ≠ q.ws →
          s.engineCheck c q.world q.pc.toNat q.clasp 16 true = .ok (.spad c zo) .invalid →
          let old := claspOf (Memory.readN k.scratch zo 16)
          claspOf (Memory.readN (t.core c).scratch zo 16) = (if x = none then old.add 16 else old.setE)))

/-- R330, R334, R335, R345. -/
def Obligations.BootstrapArithmeticAndAccessesFollowR334AndR335 : Prop :=
  ∀ (s : State) (d a c : BitVec 4) (i : BitVec 18) (k : BitVec 6) (h : BitVec 22), s.burrowNow.active = true →
    let b := s.burrowNow
    let A := b.reg a
    let B := b.reg c
    let I : Word := i.signExtend 64
    let n := B.toNat % 64
    let give (w : Instr) (v : Word) : Prop := ZGives s w d v
    (give (.zadd d a c) (A + B) ∧ give (.zsub d a c) (A - B) ∧ give (.zmul d a c) (A * B) ∧
    give (.zmulh d a c) (BitVec.ofInt 64 (A.toInt * B.toInt / 2 ^ 64)) ∧
    give (.zdiv d a c) (if B = 0 then BitVec.allOnes 64 else BitVec.ofInt 64 (A.toInt.tdiv B.toInt)) ∧
    give (.zrem d a c) (if B = 0 then A else BitVec.ofInt 64 (A.toInt.tmod B.toInt)) ∧
    give (.zdivn d a c) (if B = 0 then BitVec.allOnes 64 else BitVec.ofNat 64 (A.toNat / B.toNat)) ∧
    give (.zremn d a c) (if B = 0 then A else BitVec.ofNat 64 (A.toNat % B.toNat)) ∧
    give (.zand d a c) (A &&& B) ∧ give (.zor d a c) (A ||| B) ∧ give (.zxor d a c) (A ^^^ B) ∧
    give (.zshl d a c) (A <<< n) ∧ give (.zshr d a c) (A >>> n) ∧ give (.zsra d a c) (A.sshiftRight n) ∧
    give (.zslt d a c) (oneIf (A.toInt < B.toInt)) ∧ give (.zsltn d a c) (oneIf (A.toNat < B.toNat)) ∧
    give (.zaddi d a i) (A + I) ∧ give (.zandi d a i) (A &&& I) ∧ give (.zori d a i) (A ||| I) ∧ give (.zxori d a i) (A ^^^ I) ∧
    give (.zshli d a k) (A <<< k.toNat) ∧ give (.zshri d a k) (A >>> k.toNat) ∧ give (.zsrai d a k) (A.sshiftRight k.toNat) ∧
    give (.zhi d h) (h.signExtend 64 * 1024#64) ∧ b.reg 0#4 = 0) ∧
    (let ea := (A + I).toNat
      let inIn (n : Nat) : Prop := 0x100000000000 ≤ ea ∧ ea + n ≤ 0x100000000000 + b.inBytes.length
      let inOut (n : Nat) : Prop := 0x200000000000 ≤ ea ∧ ea + n ≤ 0x200000000000 + b.outSize
      let inScr (n : Nat) : Prop := 0x300000000000 ≤ ea ∧ ea + n ≤ 0x300000000000 + 2 ^ 24
      let out (n : Nat) : Prop := ¬inIn n ∧ ¬inOut n ∧ ¬inScr n
      let ends (w : Instr) (sub : Nat) : Prop := ZEnds s s w 0x10 sub ea 0 0
      let load (w : Instr) (n : Nat) : Prop := (ea % n ≠ 0 → ends w 3) ∧ (ea % n = 0 → out n → ends w 1) ∧
        (ea % n = 0 → inIn n → give w (wordOf (descNum b.inBytes (ea - 0x100000000000) n))) ∧
        (ea % n = 0 → ¬inIn n → inOut n → give w (wordOf (Memory.num b.out (ea - 0x200000000000) n))) ∧
        (ea % n = 0 → ¬inIn n → ¬inOut n → inScr n → give w (wordOf (Memory.num b.scr (ea - 0x300000000000) n)))
      let put (m : List Host.Cell) (off n : Nat) (m' : List Host.Cell) : Prop := ∀ x, Memory.read m' x =
        if off ≤ x ∧ x < off + n then BitVec.ofNat 8 ((b.reg d).toNat / 256 ^ (x - off)) else Memory.read m x
      let store (w : Instr) (n : Nat) : Prop := (ea % n ≠ 0 → ends w 3) ∧ (ea % n = 0 → out n → ends w 1) ∧
        (ea % n = 0 → (inIn n ∨ (¬inIn n ∧ inOut n ∧ b.committed = true)) → ends w 2) ∧
        (ea % n = 0 → ¬inIn n → inOut n → b.committed = false →
          ∃ m, put b.out (ea - 0x200000000000) n m ∧ ZGoes s w { b with out := m } (b.pc + 4)) ∧
        (ea % n = 0 → ¬inIn n → ¬inOut n → inScr n →
          ∃ m, put b.scr (ea - 0x300000000000) n m ∧ ZGoes s w { b with scr := m } (b.pc + 4))
      load (.zldb d a i) 1 ∧ load (.zldh d a i) 2 ∧ load (.zldw d a i) 4 ∧ load (.zldd d a i) 8 ∧
      store (.zstb d a i) 1 ∧ store (.zsth d a i) 2 ∧ store (.zstw d a i) 4 ∧ store (.zstd d a i) 8)

/-- R336, R337, R346, R347, R353 to R361. The report's form is the model's own, and so is that the key is logged with the commit
(log 74). -/
def Obligations.BootstrapTransfersAndServicesFollowR336AndR354 : Prop :=
  (∀ (s : State) (d a c : BitVec 4) (i : BitVec 18) (p : BitVec 22), s.burrowNow.active = true →
    let b := s.burrowNow
    let A := b.reg a
    let B := b.reg c
    let lo := 0x100000000000 + b.dir 0 4
    let ok (t : Word) : Prop := t.toNat % 4 = 0 ∧ lo ≤ t.toNat ∧ t.toNat < lo + b.dir 4 4
    let ends (w : Instr) (t : Word) : Prop := ZEnds s s w 0x10 4 t.toNat 0 0
    let branch (w : Instr) (taken : Prop) : Prop :=
      let t := wordOf b.pc + 4 * i.signExtend 64
      (¬taken → ZGoes s w b (b.pc + 4)) ∧ (taken → ok t → ZGoes s w b t.toNat) ∧ (taken → ¬ok t → ends w t)
    let jump (w : Instr) (t : Word) : Prop := (ok t → ZSets s w b d (wordOf (b.pc + 4)) t.toNat) ∧ (¬ok t → ends w t)
    branch (.zbeq a c i) (A = B) ∧ branch (.zbne a c i) (A ≠ B) ∧ branch (.zblt a c i) (A.toInt < B.toInt) ∧
    branch (.zbge a c i) (B.toInt ≤ A.toInt) ∧ branch (.zbltn a c i) (A.toNat < B.toNat) ∧
    branch (.zbgen a c i) (B.toNat ≤ A.toNat) ∧ jump (.zjal d p) (wordOf b.pc + 4 * p.signExtend 64) ∧
    jump (.zjalr d a i) (A + i.signExtend 64)) ∧
  (∀ s : State, s.burrowNow.active = true →
    let b := s.burrowNow
    let x := (b.reg 1#4).toNat
    let y := (b.reg 2#4).toNat
    let z := (b.reg 3#4).toNat
    let ret (w : Instr) (v : Word) (y : Burrow) : Prop := ZSets s w y 1#4 v (b.pc + 4)
    let err (w : Instr) (e : Word) : Prop := ret w (0 - e) b
    let early := b.committed = false
    let whole (lo hi : Nat) : Prop := (∃ e ∈ b.ended, e.2.1 ≤ lo ∧ hi ≤ e.2.2) ∨ ∃ f o, b.openF = some (f, o) ∧ o ≤ lo ∧ hi ≤ b.outSize
    let W := s.world b.world
    let img := (b.image W.pref).bytes
    (b.committed = true → err .zsvcReadNstRecord 2 ∧ err .zsvcFunctionBegin 2 ∧ err .zsvcFunctionEnd 2 ∧ err .zsvcProvenanceRecord 2 ∧
      err .zsvcGrowHeap 2 ∧ err .zsvcRelocationRecord 2 ∧ err .zsvcCommit 2) ∧
    (early → (∀ n, nstFind (x % 2 ^ 8) (y % 2 ^ 24) = some n →
        ret .zsvcReadNstRecord (wordOf (0x100000000000 + b.dir 0x10 4 + 64 + 16 * n)) b) ∧
      (nstFind (x % 2 ^ 8) (y % 2 ^ 24) = none → err .zsvcReadNstRecord 4)) ∧
    (early → let f := Instr.zsvcFunctionBegin;
      (b.dir 0x24 4 ≤ x → err f 1) ∧
      (x < b.dir 0x24 4 → ((∃ e ∈ b.begun, e.1 = x) ∨ b.openF ≠ none) → err f 2) ∧
      (x < b.dir 0x24 4 → (∀ e ∈ b.begun, e.1 ≠ x) → b.openF = none → (y % 128 ≠ 0 ∨ b.outSize ≤ y) → err f 1) ∧
      (x < b.dir 0x24 4 → (∀ e ∈ b.begun, e.1 ≠ x) → b.openF = none → y % 128 = 0 → y < b.outSize →
        ((∃ e ∈ b.ended, y < e.2.2) → err f 2) ∧
        ((∀ e ∈ b.ended, e.2.2 ≤ y) → ret f 0 { b with begun := b.begun ++ [(x, y)], openF := some (x, y) }))) ∧
    (early → let f := Instr.zsvcFunctionEnd;
      ((∀ lo, b.openF ≠ some (x, lo)) → err f 2) ∧
      (∀ lo, b.openF = some (x, lo) → ((y % 128 ≠ 0 ∨ y ≤ lo ∨ b.outSize < y ∨ b.headersOk lo y = false) → err f 1) ∧
        (y % 128 = 0 → lo < y → y ≤ b.outSize → b.headersOk lo y = true →
          ret f 0 { b with ended := b.ended ++ [(x, lo, y)], openF := none }))) ∧
    (early → let f := Instr.zsvcProvenanceRecord;
      let good := x % 4 = 0 ∧ 1 ≤ z % 65536 ∧ z % 65536 ≤ 4096 ∧ y < b.dir 0x0C 4 ∧ z / 2 ^ 60 ≤ 2 ∧ whole x (x + 4 * (z % 65536))
      (good → ret f 0 { b with provs := b.provs ++ [(x, y, z / 2 ^ 60, z % 65536)] }) ∧ (¬good → err f 1)) ∧
    (early → let f := Instr.zsvcGrowHeap;
      ((x = 0 ∨ x % 65536 ≠ 0) → err f 1) ∧ (x ≠ 0 → x % 65536 = 0 → b.heapMax < b.outSize + x → err f 3) ∧
      (x ≠ 0 → x % 65536 = 0 → b.outSize + x ≤ b.heapMax → ret f (wordOf (b.outSize + x)) { b with outSize := b.outSize + x })) ∧
    (early → let f := Instr.zsvcRelocationRecord;
      let good := x % 4 = 0 ∧ whole x (x + if y % 256 = 1 then 8 else 4) ∧ 1 ≤ y % 256 ∧ y % 256 ≤ 8 ∧ y / 2 ^ 32 < cnNsym b.container
      (good → ret f 0 { b with relocs := b.relocs ++ [(x, y / 2 ^ 32, y % 256, z)] }) ∧ (¬good → err f 1)) ∧
    (early → let f := Instr.zsvcCommit;
      ((b.openF ≠ none ∨ ∃ e ∈ cnEntries b.container, ∀ g ∈ b.ended, g.1 ≠ e) → err f 2) ∧
      (b.openF = none → (∀ e ∈ cnEntries b.container, ∃ g ∈ b.ended, g.1 = e) →
        (∃ e ∈ b.ended, b.headersOk e.2.1 e.2.2 = false) → err f 1) ∧
      (b.commitError = 0 → W.tccap * 2 ^ 20 < img.length → err f 3) ∧
      (b.commitError = 0 → img.length ≤ W.tccap * 2 ^ 20 → ∃ t, exec f s = .next t ∧ (b.key, img) ∈ (t.world b.world).tcache ∧
        (t.world b.world).attest = W.attest ++ [measure (bytesOf 32 b.key.toNat), measure img] ∧ t.burrowNow.committed = true ∧ t.burrowNow.reg 1#4 = 0 ∧
        t.burrowNow.out = b.out ∧ t.burrowNow.pc = (b.pc + 4) % 2 ^ 64 ∧ t.burrowNow.meter = b.meter + 1 ∧ SameBytes s t)) ∧
    (let f := Instr.zsvcLog;
      ((y = 0 ∨ 256 < y ∨ b.window x y = none) → err f 1) ∧
      (∀ w off, 1 ≤ y → y ≤ 256 → b.window x y = some (w, off) → ret f 0 { b with
        log := b.log ++ (b.bytesAt w off y).take (65536 - b.log.length), dropped := b.dropped + (y - (65536 - b.log.length)) })) ∧
    ZEnds s s .zsvcFail 0 0 0 (x % 2 ^ 32) 1 ∧ ZEnds s s .zhalt 0 0 0 0 1) ∧
  ∀ (s : State) (c i : Nat),
    let u := s.actAs c i
    (u.burrowNow.active = true → u.burrowNow.meter < u.burrowNow.budget → exec (.meterOut c i) s = .next s) ∧
    (u.burrowNow.active = true → u.burrowNow.budget ≤ u.burrowNow.meter → ZEnds u s (.meterOut c i) 0x0F 0 0 0 0)

/-- R62, R114 to R116, R236: events of a gang's life. That the release reaches a sett after exactly 2 cycles a hop is the model's
choice (log 42). -/
def Obligations.GangsFollowR62R114R115R116AndR236 : Prop :=
  ∀ (s : State) (g : Nat),
    let G := s.gang g
    let gone (t : State) (st : StatusInfo) : Prop := AMap.find t.gangs g = none ∧
      (G.translation = false → G.item = none → .packetComplete G.q G.k st ∈ t.inbox)
    ((G.phase ≠ 0 ∨ s.cycle < G.releaseAt) → exec (.gangRelease g) s = .next s) ∧
    (G.phase = 0 → G.releaseAt ≤ s.cycle → G.cores.Nodup → G.n ≤ 16 → ∃ t, exec (.gangRelease g) s = .next t ∧
      (t.gang g).phase = 1 ∧ (t.gang g).cores = G.cores ∧ ∀ i c m, G.cores[i]? = some c → m < G.n →
        (t.slot c m).ws = some (G.wsb + m) ∧ (t.task c (G.wsb + m)).tstate = 1 ∧
        (t.slot c m).nextAt = (G.releaseAt + 2 * G.hopsOf i) / 16 * 16 + 16 + m) ∧
    (∀ f, (G.phase = 3 → exec (.gangFailure g f) s = .next s) ∧
      (G.phase ≠ 3 → ∃ t, exec (.gangFailure g f) s = .next t ∧ gone t ⟨1, f.cause, f.rank, f.jidx⟩ ∧
        (G.phase ≠ 2 → ∀ c ∈ G.cores, (t.core c).gang = none ∧ (t.core c).vq = [] ∧ (t.core c).mq = [] ∧ (t.core c).cq = [] ∧
          (t.core c).sq = [] ∧ (∀ i, (t.slot c i).ws = none) ∧ ∀ w, liveState (t.task c w).tstate = false))) ∧
    ((G.phase ≠ 1 → G.phase ≠ 4 → exec (.gangPreempt g) s = .next s) ∧
      (G.phase = 1 → ∃ t, exec (.gangPreempt g) s = .next t ∧ (t.gang g).phase = 4) ∧
      (G.phase = 4 → (∃ c ∈ G.cores, s.coreDrained c = false) → exec (.gangPreempt g) s = .next s) ∧
      (G.phase = 4 → (∀ c ∈ G.cores, s.coreDrained c = true) → G.leaveAt = none → ∃ n,
        exec (.gangPreempt g) s = .next (s.putGang g { G with leaveAt := some n }) ∧ s.cycle ≤ n ∧
        ∀ c ∈ G.cores, ∀ i, i < 16 → (s.slot c i).ws ≠ none →
          beatAt i s.cycle + 16 * (if (s.slot c i).dirtyCount ≤ 16 then 2 else 3) ≤ n) ∧
      (∀ n, G.phase = 4 → G.leaveAt = some n → s.cycle < n → exec (.gangPreempt g) s = .next s) ∧
      (∀ n, G.phase = 4 → (∀ c ∈ G.cores, s.coreDrained c = true) → G.leaveAt = some n → n ≤ s.cycle → ∃ t, exec (.gangPreempt g) s = .next t ∧ (t.gang g).phase = 2 ∧
        (t.gang g).saved.length = G.cores.length ∧ ∀ c ∈ G.cores, (t.core c).gang = none ∧ (t.core c).mq = [] ∧ (t.core c).sq = [] ∧
          (∀ i, (t.slot c i).ws = none) ∧ ∀ w, t.task c w = Task.reset)) ∧
    (∀ gx gy, (G.phase ≠ 2 → exec (.gangResume g gx gy) s = .next s) ∧
      (G.phase = 2 → s.rectCores gx gy G.w G.h G.mask = none → exec (.gangResume g gx gy) s = .next s) ∧
      (∀ l, G.phase = 2 → s.rectCores gx gy G.w G.h G.mask = some l →
        ((∃ c ∈ l, (s.core c).gang ≠ none ∨ s.guardHolds c = true) → exec (.gangResume g gx gy) s = .next s) ∧
        ((∀ c ∈ l, (s.core c).gang = none ∧ s.guardHolds c = false) → ∃ t, exec (.gangResume g gx gy) s = .next t ∧ (t.gang g).phase = 1 ∧
          (t.gang g).cores = l ∧ (t.gang g).gx = gx ∧ (t.gang g).gy = gy ∧
          (l.Nodup → l.length = G.saved.length → ∀ (i : Nat) c k, l[i]? = some c → G.saved[i]? = some k →
            (t.core c).gang = some g ∧ (t.core c).world = G.world ∧ (t.core c).mq = k.mq ∧ (t.core c).tensors = k.tensors ∧
            s.pts c ≤ t.pts c ∧ k.ptsOff ≤ t.pts c ∧
            ∀ (j : Nat) w, j < 16 → (k.slot j).ws = some w → (k.task w).tstate = 5 → (t.task c w).tstate = 1)))) ∧
    (s.canRetire g = false → exec (.gangRetire g) s = .next s) ∧
    (s.canRetire g = true → ∃ t, exec (.gangRetire g) s = .next t ∧ gone t ⟨0, 0, 0, 0⟩ ∧ ∀ c ∈ G.cores, (t.core c).gang = none ∧
      ∀ w, ((s.task c w).tstate = 2 ∨ (s.task c w).tstate = 3) → (t.task c w).tstate = 6)

/-- R386 to R388, R396 to R400: dispatch, completion and the control packets. The poll at cycle + 512 (log 26), FADDR of a
malformed packet (log 57), and that an IF whose condition holds completes over a loop packet in its range (log 85) are the
model's choices. -/
def Obligations.PacketsDispatchAndCompleteAsR386ToR400Say : Prop :=
  (∀ (x : Queue) (e : WEntry), x.ready e = true ↔ e.state = .loaded ∧ e.status = none ∧ (pktHdr e.instr).wait &&& ~~~x.tokens = 0 ∧
    (∀ y ∈ x.before e.k, isBarrier y.instr = true → y.state = .done) ∧
    (isBarrier e.instr = true → ∀ y ∈ x.before e.k, y.state = .done)) ∧
  (∀ (s : State) (q k : Nat) (h : PktHdr), (h.clr = false → ∃ u, s.takeEntry q k h = .ok u) ∧
    ∀ u, s.takeEntry q k h = .ok u → (u.queue q).tokens = (if h.clr then (s.queue q).tokens &&& ~~~h.wait else (s.queue q).tokens) ∧
      (u.queue q).loops = (s.queue q).loops ∧ ∀ e ∈ (u.queue q).window, e.k = k → e.state = .dispatched) ∧
  (∀ (s w : State) (q : Nat) (e : WEntry) (st : StatusInfo),
    s.fePut (s.queue q).world ((s.queue q).packetAt e.k + 0x38)
      (st.code % 256 * 2 ^ 56 + st.cause % 256 * 2 ^ 48 + st.rank % 65536 * 2 ^ 32 + st.jidx % 2 ^ 32) = .ok w →
    let t := s.completeEntry q e st
    let sets : Bool := decide (st.code = 0) || decide (st.code = 2) || (pktHdr e.instr).soe
    (∀ pa mt l, s.engineCheck 2048 (s.queue q).world (2 ^ 56) (((s.queue q).packetAt e.k + 0x38) % 2 ^ 64) 8 true = .ok (.mem pa mt) l →
      mt ≠ 1 → pa % 8 = 0 → (s.queue q).packetAt e.k % 64 = 0 →
      w.mNum pa 8 = st.code % 256 * 2 ^ 56 + st.cause % 256 * 2 ^ 48 + st.rank % 65536 * 2 ^ 32 + st.jidx % 2 ^ 32) ∧
    (∃ v, v.mem = w.mem ∧ v.cores = w.cores ∧ (v.queue q).tokens = (s.queue q).tokens ∧
      t = if sets then v.setTokens q (pktHdr e.instr).set else v) ∧
    (∀ y ∈ (t.queue q).window, y.k = e.k → y.state = .done) ∧
    (t.queue q).tokens = if st.code = 0 ∨ st.code = 2 ∨ (pktHdr e.instr).soe = true then (s.queue q).tokens ||| (pktHdr e.instr).set
      else (s.queue q).tokens) ∧
  ∀ (s : State) (q k : Nat) (h : PktHdr) (b : CondBody) (n target : Nat) (m : BitVec 64),
    let x := s.queue q
    let ends (u w : State) (c : Nat) : Prop := w = u.finishEntry q k ⟨c, 0, 0, 0⟩
    let idle (i : Instr) : Prop := (x.state ≠ 1 ∨ ∀ e, x.entry? k = some e → x.ready e = false) → exec i s = .next s
    (idle (.pktNop q k h) ∧ Dispatches s (.pktNop q k h) q k h (fun u w => ends u w 0)) ∧
    (idle (.pktLoop q k h n) ∧
      (x.loops.length < 4 → Dispatches s (.pktLoop q k h n) q k h (fun u w => (w.queue q).loops = (k, n, 0) :: x.loops ∧
        ∃ v, ends v w 0 ∧ (v.queue q).window = (u.queue q).window)) ∧
      (4 ≤ x.loops.length → PacketHalts s (.pktLoop q k h n) q k h (fun _ => True) (x.packetAt k))) ∧
    (idle (.pktEndloop q k h) ∧ (x.loops = [] → PacketHalts s (.pktEndloop q k h) q k h (fun _ => True) (x.packetAt k)) ∧
      (∀ p c j r, x.loops = (p, c, j) :: r → Dispatches s (.pktEndloop q k h) q k h (fun u w =>
        (j + 1 < c → (w.queue q).loops = (p, c, j + 1) :: r ∧ (w.queue q).readPos = p + 1 ∧
          ∀ y ∈ (w.queue q).window, y.k = k ∨ y ∈ (u.queue q).before k) ∧
        (c ≤ j + 1 → (w.queue q).loops = r)))) ∧
    (idle (.pktIf q k h b n) ∧
      (∀ a v, Dispatches s (.pktIf q k h b n) q k h (fun u w => u.feNum (u.queue q).world b.addr = .ok (a, v) →
        (condTest b a = true → ends v w 0) ∧
        (condTest b a = false → (∀ y ∈ (v.queue q).window, k < y.k → y.k ≤ k + n → isLoopPacket y.instr = false) →
          (w.queue q).skip = k + n + 1 ∧
          ∀ y ∈ (w.queue q).window, k < y.k → y.k ≤ k + n → y.status = some ⟨2, 0, 0, 0⟩))) ∧
      (∀ a v z, PacketHalts s (.pktIf q k h b n) q k h (fun u => u.feNum (u.queue q).world b.addr = .ok (a, v) ∧ condTest b a = false ∧
        ((v.queue q).window.filter (fun y => decide (k < y.k) && decide (y.k ≤ k + n))).find? (fun y => isLoopPacket y.instr) = some z)
        (x.packetAt z.k))) ∧
    (idle (.pktWaitmem q k h b n) ∧
      (∀ a v, Dispatches s (.pktWaitmem q k h b n) q k h (fun u w => u.feNum (u.queue q).world b.addr = .ok (a, v) →
        (condTest b a = true → ends v w 0) ∧
        (condTest b a = false → ∀ y ∈ (w.queue q).window, y.k = k →
          y.poll = s.cycle + 512 ∧ y.expire = if n = 0 then none else some (s.cycle + 1024 * n))))) ∧
    (idle (.pktSignal q k h target m) ∧ Dispatches s (.pktSignal q k h target m) q k h (fun u w =>
      ((u.queue target).made = true ∧ (u.queue target).world = (u.queue q).world →
        (w.queue target).tokens = (u.queue target).tokens ||| m ∧ ∃ v, ends v w 0) ∧
      (¬((u.queue target).made = true ∧ (u.queue target).world = (u.queue q).world) → ends u w 5)))

/-- R121, R394, R395, R401 to R405. That a launch scrubs another world's cores while its packet stays LOADED (log 13), and that a
`cl.wait` holds a shootdown (log 49), are the model's choices. -/
def Obligations.LaunchesStagesCopiesAndShootdownsFollowR394ToR405 : Prop :=
  (∀ (s : State) (q k : Nat) (h : PktHdr) (b : LaunchBody) (desc clasp : Nat) (stride : BitVec 64) (sb : StageBody) (x : ShootBody),
    let Q := s.queue q
    let idle (i : Instr) : Prop := (Q.state ≠ 1 ∨ ∀ e, Q.entry? k = some e → Q.ready e = false) → exec i s = .next s
    let launches (i : Instr) (get : State → LaunchBody → State → Prop) : Prop := idle i ∧
      ∀ e u b v r, Q.entry? k = some e → Q.state = 1 → Q.ready e = true → s.takeEntry q k h = .ok u → get u b v →
        v.planLaunch Q.world b none = .ok r →
        (r.1 = none → exec i s = .next ((r.2.finishEntry q k ⟨5, 0, 0, 0⟩).settled q)) ∧
        (∀ p, r.1 = some p → r.2.placeFor Q.world p (r.2.heldFor q k) = none → exec i s = .next (s.settled q)) ∧
        (∀ p gx gy cores, r.1 = some p → r.2.placeFor Q.world p (r.2.heldFor q k) = some (gx, gy, cores) →
          let away := cores.filter (fun c => (r.2.core c).world != Q.world)
          (away ≠ [] → exec i s = .next ((away.foldl (fun s c => s.scrub c Q.world) s).settled q)) ∧
          (away = [] → (∃ c ∈ cores, s.cycle < (r.2.core c).scrubUntil) → exec i s = .next (s.settled q)) ∧
          (away = [] → (∀ c ∈ cores, (r.2.core c).scrubUntil ≤ s.cycle) →
            exec i s = .next ((r.2.launch Q.world q k p gx gy cores).1.settled q)))
    launches (.pktLaunch q k h b) (fun u b' v => b' = b ∧ v = u) ∧
    launches (.pktLaunchi q k h desc stride) (fun u b' v =>
      u.readLaunch Q.world ((desc + (Q.loops.head?.map (fun l => l.2.2)).getD 0 * stride.toNat) % 2 ^ 64) = .ok (b', v)) ∧
    (let o := AMap.get ObjEntry.reset (s.world Q.world).handles b.handle;
      (o.valid = false ∨ o.owner ≠ Q.world ∨ o.entries.length ≤ b.entry ∨ 1024 < b.wsb + b.nm + 1 ∨
        16 < b.x0 + b.wm + 1 ∨ 16 < b.y0 + b.hm + 1 ∨
        (s.world Q.world).cquota < (b.wm + 1) * (b.hm + 1) * popCount 8 b.cmask) → s.planLaunch Q.world b none = .ok (none, s)) ∧
    idle (.pktStage q k h sb) ∧ idle (.pktCopy q k h desc clasp) ∧ idle (.pktShoot q k h x) ∧
    (∀ w', Dispatches s (.pktStage q k h sb) q k h (fun u w =>
      (u.putStage q k ⟨sb, [], [], 0, (0, false), none⟩).settleStage q k ⟨sb, [], [], 0, (0, false), none⟩ = .ok w' → w = w')) ∧
    Dispatches s (.pktCopy q k h desc clasp) q k h (fun u w => w = ({ u with nextId := u.nextId + 1 }.modQueue q (fun x => x.modEntry k (fun e => { e with
      copy := some (CopyRun.of (bridgeCmd u.nextId x.world q k desc clasp u.feStamp)) }))).runBridge q k) ∧
    Dispatches s (.pktShoot q k h x) q k h (fun u w =>
      ((u.world x.world).used = true → w = { u with
        nextId := u.nextId + 1, shoots := u.shoots ++ [⟨u.nextId, x.world, x.va, x.len, x.big, some (q, k)⟩] }) ∧
      ((u.world x.world).used = false → w = u.finishEntry q k ⟨0, 0, 0, 0⟩)) ∧
    (Q.stage? k = none → exec (.stageLaunch q k) s = .next s ∧ exec (.stageQueueObserve q k) s = .next s) ∧
    (∀ r, Q.stage? k = some r →
      (∀ w, s.settleStage q k r = .ok w → exec (.stageQueueObserve q k) s = .next (w.settled q)) ∧
      (Q.state ≠ 1 → exec (.stageLaunch q k) s = .next s) ∧
      (∀ i u v c p w gx gy cores s4, Q.state = 1 → s.stageRunnable q r = .ok (some i, u) →
        u.readLaunch Q.world r.body.ldesc = .ok (c, v) → v.planLaunch Q.world c (some i.cons) = .ok (some p, w) →
        w.placeFor Q.world p (w.heldFor q k) = some (gx, gy, cores) →
        (∀ c ∈ cores, (w.core c).world = Q.world ∧ (w.core c).scrubUntil ≤ s.cycle) → w.takeItem Q.world r.body i.cons = .ok s4 →
        ∃ t : State, exec (.stageLaunch q k) s = .next (t.settled q) ∧
          ∀ y ∈ (t.queue q).window, y.k = k → y.stage = some { r with gangs := r.gangs ++ [(s4.nextId, i.cons)] }))) ∧
  (∀ (s : State) (q k : Nat) (r : CopyRun), ((s.queue q).entry? k).bind (fun e => e.copy) = some r →
    let p1 := bridgeSteps 2 s r
    let p := bridgeSteps p1.2.bridgeFuel p1.1 p1.2
    (p.2.over = true → ∀ y ∈ ((s.runBridge q k).queue q).window, y.k = k →
      y.state = .dispatched ∧ y.status = some ⟨if p.2.bad then 4 else 0, 0, 0, 0⟩) ∧
    (p.2.over = false → ∀ y ∈ ((s.runBridge q k).queue q).window, y.k = k → y.copy = some p.2) ∧
    ∀ m, (s.copyStop r (.bad m)).2.bad = true) ∧
  (∀ (r : StageRun) (i : StageQ), (r.gangs ≠ [] → r.over i = none) ∧ (r.gangs = [] → ∀ st, r.stopped = some st → r.over i = some st) ∧
    (r.gangs = [] → r.stopped = none → r.over i = if i.closed = true ∧ i.cons = i.prod then some ⟨0, 0, 0, 0⟩ else none)) ∧
  (∀ (s : State) (w q k : Nat) (p : LaunchPlan) (gx gy : Nat) (cores : List Nat), cores.Nodup → p.wsb + p.n ≤ 1024 → (∀ c ∈ cores, (s.core c).world = w) →
    let t := (s.launch w q k p gx gy cores).1
    ∃ G, AMap.find t.gangs s.nextId = some G ∧ G.phase = 0 ∧ G.world = w ∧ G.q = q ∧ G.k = k ∧ G.cores = cores ∧
      ∀ i c m, cores[i]? = some c → m < p.n → (t.core c).gang = some s.nextId ∧ (t.core c).world = w ∧
        (t.task c (p.wsb + m)).pc = p.entry ∧ (t.task c (p.wsb + m)).gang = some s.nextId ∧ (t.task c (p.wsb + m)).tstate = 1 ∧
        t.sNum c (wsOff (p.wsb + m) 0x1C0) 8 = (i * p.n + m) % 2 ^ 64 ∧ t.drawCount c (p.wsb + m) = 0 ∧ t.hnd c (p.wsb + m) = 0 ∧
        ∀ j, j < 8 → t.sNum c (wsOff (p.wsb + m) (8 * (j + 1))) 8 = (p.args[j]?.getD 0).toNat) ∧
  ∀ (s : State) (id : Nat), (s.shoots.find? (fun x => x.id == id) = none → exec (.shootdownComplete id) s = .next s) ∧
    ∀ x, s.shoots.find? (fun x => x.id == id) = some x →
      let covers (w a : Nat) : Prop := w = x.world ∧ x.va ≤ a ∧ a < x.va + x.len
      (((∃ r ∈ s.inflight, covers r.world r.va) ∨ (∃ e ∈ s.cores, ∃ r ∈ e.2.clWait, covers r.world r.va) ∨
        ∃ e ∈ s.cores, ∃ y ∈ e.2.tasks, ∃ win ea op, y.2.park = .fabric win ea op ∧ covers e.2.world ea) →
        exec (.shootdownComplete id) s = .next s) ∧
      (s.shootReady x = true → ∃ t,
        (∀ q k, x.origin = some (q, k) → exec (.shootdownComplete id) s = .next ((t.finishEntry q k ⟨0, 0, 0, 0⟩).settled q)) ∧
        (x.origin = none → exec (.shootdownComplete id) s = .next t) ∧ (∀ y ∈ t.shoots, y.id ≠ id) ∧ SameBytes s t ∧
        (∀ c, (s.core c).world = x.world → (∀ e ∈ (t.core c).l1, ¬(x.va ≤ 32 * e.1 ∧ 32 * e.1 < x.va + x.len)) ∧
          ∀ e ∈ (t.core c).tlb, e.world = x.world → e.big = x.big → ¬(x.va ≤ e.vbase ∧ e.vbase < x.va + x.len)) ∧
        ∀ n, ∀ e ∈ (t.sett n).tlb, e.world = x.world → e.big = x.big → ¬(x.va ≤ e.vbase ∧ e.vbase < x.va + x.len))

/-- R380 to R391, R398, R408: the queues' own events. The poll at cycle + 512 (log 26), the refusal of a QCB with bits 11:5 set
(log 31), FADDR's values (log 57) and the lowest free queue number (log 86) are the model's choices. -/
def Obligations.QueuesFollowR380ToR391AndR408 : Prop :=
  ∀ (s : State) (q k : Nat),
    let x := s.queue q
    let ends (c : Nat) : State := s.finishEntry q k ⟨c, 0, 0, 0⟩
    let paused (x : Queue) : List WEntry := x.window.map (fun e => { e with
      expire := e.expire.map (fun t => t + (if x.state = 2 then s.cycle - x.faultAt else 0)) })
    let halts (i : Instr) (u : State) (reason a : Nat) : Prop := ∃ t, exec i s = .next t ∧ (t.queue q).state = 3 ∧
      (t.queue q).reason = reason ∧ (t.queue q).faddr = a % 2 ^ 64 ∧ (t.queue q).window = paused (u.queue q)
    let again : State := s.modQueue q (fun x => { x with state := 1, reason := 0, stuck := none, window := paused x })
    (∀ b, (s.canCreate b = false ∨ s.freeQueue = none) → exec (.queueCreate b) s = .next (s.report (.queueRefused b.world))) ∧
    (∀ b n v w, s.canCreate b = true → s.freeQueue = some n → s.feNum (if b.remote then 0 else b.world) b.qcb = .ok (v, w) →
      ((v / 32 % 128 ≠ 0 ∨ v % 32 < 6 ∨ 16 < v % 32) → exec (.queueCreate b) s = .next (w.report (.queueRefused b.world))) ∧
      (v / 32 % 128 = 0 → 6 ≤ v % 32 → v % 32 ≤ 16 → ∃ t, exec (.queueCreate b) s = .next t ∧ .queueMade n ∈ t.reports ∧
        (∀ m, m < n → (s.queue m).made = true) ∧ (s.queue n).made = false ∧
        (∀ pa l, w.engineCheck 2048 (if b.remote then 0 else b.world) (2 ^ 56) (b.qcb + 8) 8 true = .ok (.mem pa 0) l →
          b.qcb + 64 ≤ 2 ^ 56 → t.mNum pa 8 = 0) ∧
        t.queue n = { Queue.reset with
          owes := (t.queue n).owes, made := true, world := b.world, cls := b.cls, weight := b.weight, remote := b.remote
          qcb := b.qcb, ring := v / 4096 * 4096, log2n := v % 32 })) ∧
    (Queue.reset.state = 1 ∧ Queue.reset.tokens = 0 ∧ Queue.reset.ridx = 0 ∧ Queue.reset.reason = 0) ∧
    ((x.made = false ∨ x.state ≠ 1) → exec (.widxObserve q) s = .next s) ∧
    (∀ v w, x.made = true → x.state = 1 → s.feNum x.qcbWorld (x.qcb + 8) = .ok (v, w) →
      (x.ridx + 2 ^ x.log2n < v → halts (.widxObserve q) w 3 (x.qcb + 8)) ∧
      (v ≤ x.ridx + 2 ^ x.log2n → exec (.widxObserve q) s = .next ((w.modQueue q (fun y => { y with widx := v })).settled q))) ∧
    (∀ ok, x.state ≠ 2 → exec (.queueFaultResolved q ok) s = .next s) ∧
    (x.state = 2 → halts (.queueFaultResolved q false) s 4 x.faddr) ∧
    (∀ w, x.state = 2 → again.qcbAll q = .ok w → exec (.queueFaultResolved q true) s = .next (w.settled q)) ∧
    ((x.made = false ∨ x.state ≠ 3 ∨ (s.world x.world).dying = true) → exec (.queueRestart q) s = .next s) ∧
    (∀ w, x.made = true → x.state = 3 → (s.world x.world).dying = false → (∀ e ∈ x.window, x.mayReread e = true → x.stuck ≠ some e.k ∧ x.packetAt e.k ≠ x.faddr) →
      again.qcbAll q = .ok w → exec (.queueRestart q) s = .next (w.settled q)) ∧
    (let u := s.modQueue q (fun x => { x with state := 1 })
      ∀ e bs w, x.made = true → x.state = 3 → (s.world x.world).dying = false →
        x.window.find? (fun e => x.mayReread e && (x.stuck == some e.k || x.packetAt e.k == x.faddr)) = some e →
        u.feRead x.world (x.packetAt e.k) 64 = .ok (bs, w) → packetOf x.world q e.k bs = none →
        exec (.queueRestart q) s = .next (u.stopQueue q 3 2 (x.packetAt e.k))) ∧
    (∀ m, (x.made = false → exec (.serviceTokenSet q m) s = .next s) ∧ (x.made = true → ∃ t : State,
      exec (.serviceTokenSet q m) s = .next (t.settled q) ∧ (t.queue q).tokens = x.tokens ||| m)) ∧
    (∀ r, (x.entry? k = none → exec (.packetComplete q k r) s = .next s) ∧ ∀ e, x.entry? k = some e →
      (e.state ≠ .dispatched → exec (.packetComplete q k r) s = .next s) ∧
      (e.state = .dispatched → e.status = none → exec (.packetComplete q k r) s = .next ((s.finishEntry q k r).settled q))) ∧
    (x.waiting k = none → exec (.waitmemPoll q k) s = .next s) ∧
    (∀ b v w, x.waiting k = some b → s.feNum x.world b.addr = .ok (v, w) →
      (condTest b v = true → exec (.waitmemPoll q k) s = .next ((w.finishEntry q k ⟨0, 0, 0, 0⟩).settled q)) ∧
      (condTest b v = false → ∃ t : State, exec (.waitmemPoll q k) s = .next (t.settled q) ∧
        ∀ e ∈ (t.queue q).window, e.k = k → e.poll = s.cycle + 512)) ∧
    (s.waitmemOver q k = false → exec (.waitmemTimeout q k) s = .next s) ∧
    (s.waitmemOver q k = true → exec (.waitmemTimeout q k) s = .next ((ends 3).settled q)) ∧
    ((x.oldest = none ∨ s.cycle < x.since + 2000000) → exec (.starvationGuard q) s = .next s) ∧
    (x.oldest ≠ none → x.since + 2000000 ≤ s.cycle → ∃ t, exec (.starvationGuard q) s = .next t ∧
      t.queue q = { x with guard := true } ∧ t = { s with queues := t.queues }) ∧
    (∀ b, ((x.made = false ∨ x.remote = false) → exec (.remotePacket q b) s = .next (s.report (.remoteRefused q))) ∧
      (∀ v w, x.made = true → x.remote = true → s.feNum x.qcbWorld (x.qcb + 8) = .ok (v, w) → x.ridx + 2 ^ x.log2n ≤ v →
        exec (.remotePacket q b) s = .next (s.report (.remoteRefused q))) ∧
      (∀ v w w2 w3, x.made = true → x.remote = true → s.feNum x.qcbWorld (x.qcb + 8) = .ok (v, w) → v < x.ridx + 2 ^ x.log2n →
        w.feRun x.world (x.packetAt v) (engWrite (feCtx x.world) [] (x.packetAt v) (bytesOf 64 b.toNat)) = .ok ((), w2) →
        w2.qcbPut q 8 (v + 1) = .ok w3 → exec (.remotePacket q b) s = .next w3))

/-- R143, R363, R374, R379, R410 to R417. A load's reason 9 is the model's own (log 60; the spec's are 1 to 8), and so are the fate
of reserved bits (log 31), where records are shown to threads (log 35) and what holds a reservation (log 37). -/
def Obligations.WorldsAndImagesFollowR374ToR379AndR410ToR417 : Prop :=
  (∀ (s : State) (b : WorldSpec),
    let y : World := { World.reset with used := true, policy := b.policy, root := b.root, m0 := s.slicesOn }
    let x : World := { y with ways := s.freeWays.take y.l2w }
    let admits := s.booted = true ∧ policyOk b.policy = true ∧ s.waysHeld + b.policy.toNat / 2 ^ 320 % 16 ≤ 12
    (∀ w, s.freeWorld = some w → (1 ≤ w ∧ w ≤ 4095 ∧ (s.world w).used = false ∧ ∀ v, 1 ≤ v → v < w → (s.world v).used = true) ∧
      (admits → exec (.worldCreate b) s = .next (((s.putWorld w x).showAt b.shown (bytesOf 64 b.policy.toNat)).report (.worldMade w))) ∧
      (¬admits → exec (.worldCreate b) s = .next (s.report .refusedWorld))) ∧
    (s.freeWorld = none → exec (.worldCreate b) s = .next (s.report .refusedWorld)) ∧
    (policyOk b.policy = true → (1 ≤ x.lease ∧ x.lease ≤ 64) ∧ (1 ≤ x.nqmax ∧ x.nqmax ≤ 64) ∧ x.l2w ≤ 8)) ∧
  (∀ (s : State) (bs : List Byte), s.showAt none bs = s ∧
    ∀ pa, pa % 64 = 0 → pa + bs.length ≤ s.physTop → bs ≠ [] →
      Memory.readN (s.showAt (some pa) bs).mem pa bs.length = bs ∧
      ∀ a, (a < pa ∨ pa + bs.length ≤ a) → (s.showAt (some pa) bs).memByte a = s.memByte a) ∧
  (∀ (s : State) (w : Nat),
    let i : Instr := .worldDestroy w
    let x := s.world w
    let waits (u : State) : Prop := ∃ e ∈ u.keys, e.2.world = w ∧ e.2.state = 2
    let scrubs (t : State) : Prop := (∀ c, (t.core c).world ≠ w) ∧ ∃ z, (t.world w).ends = some z ∧ t.cycle ≤ z ∧
      ∀ c, (s.core c).world = w → (t.core c).scrubUntil ≤ z
    (x.dying = false → (w = 0 ∨ x.used = false) → exec i s = .next s) ∧
    (x.dying = false → x.ends = none → w ≠ 0 → x.used = true → ∃ t, exec i s = .next t ∧ (t.world w).used = true ∧
      (t.world w).dying = true ∧ (∀ e ∈ t.exports, exWorld e.2 ≠ w) ∧ (∀ e ∈ t.keys, e.2.world = w → e.2.state ≠ 1) ∧
      (t.world w).fwins = [] ∧ (waits t → (t.world w).ends = none) ∧ (¬waits t → (∀ c, (t.core c).world ≠ w) ∧ (t.world w).ends ≠ none)) ∧
    (x.dying = true → (waits s → exec i s = .next s) ∧
      (¬waits s → x.ends = none → w ≠ 0 → ∃ t, exec i s = .next t ∧ scrubs t ∧ t.mem = s.mem ∧ t.queues = s.queues) ∧
      (∀ z, ¬waits s → x.ends = some z → s.cycle < z → exec i s = .next s) ∧
      (∀ z, ¬waits s → x.ends = some z → z ≤ s.cycle → ∃ t, exec i s = .next t ∧ AMap.find t.worlds w = none ∧
        (∀ e ∈ t.queues, e.2.world ≠ w) ∧ (∀ e ∈ t.fmtWins, fwWorld e.2 ≠ w) ∧ (∀ c, ∀ e ∈ (t.core c).tlb, e.world ≠ w) ∧
        (∀ n, ∀ e ∈ (t.sett n).tlb, e.world ≠ w) ∧ (∀ e ∈ t.l2, ∀ y ∈ e.2, y.world ≠ w) ∧
        ∀ f ∈ s.ownFrames w, ∀ a, f.1 ≤ a → a < f.1 + f.2 → t.memByte a = 0))) ∧
  (∀ (s : State) (c w : Nat),
    ((s.core c).gang ≠ none → exec (.coreScrub c w) s = .next s) ∧
    ((s.core c).gang = none → ∃ t, exec (.coreScrub c w) s = .next t ∧ (t.core c).world = w ∧ (∀ a, t.spadByte c a = 0) ∧
      (t.core c).full = [] ∧ (t.core c).l1 = [] ∧ (t.core c).icache = [] ∧ (t.core c).tlb = [] ∧ (t.core c).handles = [] ∧
      (t.core c).tensors = [] ∧ (t.core c).mq = [] ∧ (t.core c).cq = [] ∧ (t.core c).slots = [] ∧ (t.core c).ready = [] ∧
      (t.core c).scrubUntil = s.cycle + 4096 + (s.core c).ownedLines ∧ (∀ x, x ≠ c → t.core x = s.core x) ∧ t.mem = s.mem ∧
      ∀ e ∈ (t.sett (s.settOf c)).tlb, e.world ≠ (s.core c).world)) ∧
  (∀ (s : State) (w n : Nat) (d : BitVec 256) (shown : Option Nat),
    let live := (s.world w).used = true ∧ (s.world w).dying = false
    let ex := exWorld d
    (64 ≤ n → exec (.formatWindowWrite n ⟨d, shown⟩) s = .next s) ∧
    (n < 64 → ∃ v : BitVec 256, exec (.formatWindowWrite n ⟨d, shown⟩) s =
        .next (({ s with fmtWins := AMap.put s.fmtWins n v } : State).showAt shown (bytesOf 32 v.toNat)) ∧
      ∀ i, i < 256 → v.getLsbD i = (d.getLsbD i && !decide (52 ≤ i % 64 ∨ (i / 64 = 2 ∧ i % 64 < 16) ∨ (i / 64 = 3 ∧ 1 ≤ i % 64 ∧ i % 64 < 8)))) ∧
    (¬(n < 4096 ∧ live) → exec (.fabricWindowWrite w n d) s = .next s) ∧
    (n < 4096 → live → ∃ t v, exec (.fabricWindowWrite w n d) s = .next t ∧ AMap.find (t.world w).fwins n = some v ∧
      t = { s with worlds := t.worlds } ∧ ∀ i, i < 256 → v.getLsbD i = (d.getLsbD i &&
        !decide ((55 ≤ i ∧ i < 63) ∨ (12 ≤ i ∧ i < 33) ∨ (i / 64 = 2 ∧ 36 ≤ i % 64) ∨ i / 64 = 3))) ∧
    (¬(n < 4096 ∧ (s.world ex).used = true ∧ (s.world ex).dying = false) → exec (.exportWrite n d) s = .next s) ∧
    (n < 4096 → (s.world ex).used = true → (s.world ex).dying = false → ∃ t v, exec (.exportWrite n d) s = .next t ∧
      AMap.find t.exports n = some v ∧ t = { s with exports := t.exports } ∧
      ∀ i, i < 256 → v.getLsbD i = (d.getLsbD i && !decide ((48 ≤ i ∧ i < 61) ∨ (192 ≤ i ∧ i < 196))))) ∧
  (∀ (s : State) (b : LoadSpec),
    let x := imageOf b.image
    let l := x.layout (s.loadBase b x)
    let fails (reason : Nat) (r : Option Nat) (f : Nat) : Prop := exec (.imageLoad b) s = .next (s.report (.load b.world 0 0 reason r f))
    let live := (s.world b.world).used = true ∧ (s.world b.world).dying = false
    (s.rangeFree b.world (x.layout x.pref) = true → l.b = x.pref) ∧ (s.rangeFree b.world (x.layout x.pref) = false → l.b = b.base) ∧
    (¬live → fails 9 none 0) ∧ (live → imageField b.image ≠ 0 → fails 8 none (imageField b.image)) ∧
    (live → imageField b.image = 0 → s.baseOk b.world l = false → fails 9 none 0) ∧
    (∀ e, live → imageField b.image = 0 → s.baseOk b.world l = true → x.relocate l = .error e → fails e.2 (some e.1) 0) ∧
    (∀ y, live → imageField b.image = 0 → s.baseOk b.world l = true → x.relocate l = .ok y →
      (s.install b x l y = none → fails 9 none 0) ∧
      (s.install b x l y ≠ none → ∃ t h o, exec (.imageLoad b) s = .next t ∧ AMap.find (t.world b.world).handles h = some o ∧
        1 ≤ h ∧ o.valid = true ∧ o.owner = b.world ∧ o.lo = l.b ∧ o.hi = l.e ∧ o.entries = x.entries.map (fun e => wordOf (l.b + e)) ∧
        (AMap.get ObjEntry.reset (s.world b.world).handles h).valid = false ∧
        s.unloading b.world (AMap.get ObjEntry.reset (s.world b.world).handles h) = false ∧ .load b.world h o.gen 0 none 0 ∈ t.reports))) ∧
  (∀ (s : State) (w h : Nat),
    let o := AMap.get ObjEntry.reset (s.world w).handles h
    (o.valid = false → exec (.imageUnload w h) s = .next s) ∧
    (o.valid = true → ∃ t, exec (.imageUnload w h) s = .next t ∧ AMap.find (t.world w).handles h = some { o with valid := false } ∧
      ∀ c, (s.core c).world = w → h ∉ (t.core c).hcache)) ∧
  ∀ (s : State) (w : Nat) (b : List Byte),
    let x := s.world w
    let key := translationKey x b
    let i : Instr := .translationRequest w b
    let live := x.used = true ∧ x.dying = false
    let wait := s.putWorld w { x with waiting := x.waiting ++ [(key, b)] }
    (¬live → exec i s = .next (s.report (.rejected w 0))) ∧
    (live → containerField b ≠ 0 → exec i s = .next (s.report (.rejected w (containerField b)))) ∧
    (live → containerField b = 0 →
      (∀ e, x.tcache.find? (fun e => e.1 == key) = some e → ∃ t, exec i s = .next t ∧ .image w e.2 ∈ t.reports ∧ t.burrows = s.burrows) ∧
      (x.tcache.find? (fun e => e.1 == key) = none →
        (s.runInFlight w key = true → exec i s = .next wait) ∧
        (s.runInFlight w key = false → s.canReserve w = false → exec i s = .next (s.report (.rejected w 0))) ∧
        (s.runInFlight w key = false → s.canReserve w = true → s.burrowCore w = none → exec i s = .next wait) ∧
        (∀ c, s.runInFlight w key = false → s.canReserve w = true → s.burrowCore w = some c → ∃ t y, exec i s = .next t ∧
          AMap.find t.burrows (16 * c) = some y ∧ y.active = true ∧ y.world = w ∧ y.key = key ∧ y.meter = 0 ∧
          y.reg 1#4 = 0x100000000000#64 ∧ y.reg 2#4 = wordOf (min x.heapi x.heapx) ∧
          y.reg 3#4 = wordOf (min (descNum b (cnTroff b) 8) x.mcap) ∧ (∀ r : BitVec 4, 3 < r.toNat → y.reg r = 0) ∧
          y.pc = 0x100000000000 + 64 + descNum b (cnTroff b + 8) 4 ∧ (∀ a, Memory.read y.out a = 0) ∧ (∀ a, Memory.read y.scr a = 0))))

/-- R22, R27, R28, R119, R418 to R423, R428, R430. What memory reads after a boot is the model's choice (log 12), and so are the
form of flits (log 52), the ciphers' byte orders (log 75) and the lane a torn-down link is journalled with (log 15). -/
def Obligations.PlatformServicesFollowR418ToR430 : Prop :=
  (∀ (s : State) (v : Bool) (us : List UnitRef),
    (∃ t, exec (.boot true) s = .next t ∧ t.booted = true ∧ t.recovery = false ∧ t.bootCount = s.bootCount + 1 ∧ t.journal = s.journal ∧
      t.ovf = s.ovf ∧ (∀ c, t.core c = Core.reset) ∧ (t.world 0).used = true ∧ (∀ w, w ≠ 0 → (t.world w).used = false) ∧
      t.queues = [] ∧ t.gangs = [] ∧ (∀ a, t.memByte a = State.reset.memByte a) ∧
      (∀ u ∈ s.pendingConfig.getD s.config, t.enabled u.kind u.phys = false) ∧
      ∀ l, l < 24 → (t.link l).down = t.portOut l ∧ (t.link l).sent = 0 ∧ (t.link l).received = 0) ∧
    (∃ t, exec (.boot false) s = .next t ∧ t.booted = false ∧ t.recovery = true ∧ t.bootCount = s.bootCount + 1 ∧ t.journal = s.journal) ∧
    exec (.configurationRecord v us) s = .next (if v = true then { s with pendingConfig := some us } else s)) ∧
  (∀ (s : State) (w first n : Nat) (x : BitVec 256) (e : JEntry) (r : List JEntry) (c : List Byte),
    (∃ sig, exec (.quoteRequest w x) s = .next (s.report (.quote w (bytesOf 32 x.toNat ++ bytesOf 64 (Config.logDigest s.platformLog).toNat ++
      bytesOf 64 (Config.logDigest (s.world w).attest).toNat ++ shake256 s.partSection 32 ++ nstDigest) sig s.partSection))) ∧
    (∃ sig, exec (.journalRead first n x) s = .next (s.report (.journal
      (((chained s.journal chainStart).1.drop (first - 1)).take n).flatten s.journal.length s.ovf (chained s.journal chainStart).2 sig))) ∧
    (chained (e :: r) c).1.head? = some (e.bytes ++ shake256 (c ++ e.bytes) 16) ∧ (chained (e :: r) c).1.length = r.length + 1) ∧
  (∀ (s : State) (b : FabricReq),
    let d := AMap.get 0 s.exports b.expix
    let i : Instr := .fabricRequest b
    let u := s.takeFlits b.port (Config.flits b.len)
    let comes := b.port < 24 ∧ (s.link b.port).down = false
    let good := b.flits = s.dueFlits b.port (Config.flits b.len)
      (bytesOf 8 b.key.toNat ++ bytesOf 8 b.expix ++ bytesOf 8 b.off ++ bytesOf 8 b.len ++ (if b.write then 1#8 :: b.data else [0#8]))
    let no := exec i s = .next (u.answerOut b.port false [])
    let fits := d.toNat % 2 ^ 36 + 1 ≥ b.off + b.len
    let va := ((d.toNat / 2 ^ 128 % 2 ^ 64) + b.off) % 2 ^ 64
    let on := d.getLsbD 63 = true ∧ d.toNat / 2 ^ 64 % 2 ^ 64 = b.key.toNat
    (¬comes → exec i s = .next s) ∧
    (comes → ¬good → ∃ t, exec i s = .next t ∧ (t.link b.port).down = true) ∧
    (comes → good →
    (d.getLsbD 63 = false → no) ∧
    (d.getLsbD 63 = true → d.toNat / 2 ^ 64 % 2 ^ 64 ≠ b.key.toNat → ∃ t r, exec i s = .next t ∧ .fabricAns b.port false r ∈ t.reports ∧
      SameBytes s t ∧ (s.journal.length + s.coalesce.length < 4194304 → ∃ e, t.journal.getLast? = some e ∧ e.cls = 6 ∧ e.kind = 0x12 ∧ e.phys = b.expix)) ∧
    (on → ¬fits → no) ∧ (on → fits → d.getLsbD (if b.write then 61 else 62) = false → no) ∧
    (∀ bs e, on → fits → d.getLsbD 62 = true → b.write = false → va + b.len ≤ 0x00F0000000000000 →
      engRead (feCtx (exWorld d)) [] va b.len ⟨u, 0⟩ = .ok (bs, e) → exec i s = .next (e.s.answerOut b.port true bs)) ∧
    (∀ a, on → fits → d.getLsbD 62 = true → b.write = false → va + b.len ≤ 0x00F0000000000000 →
      engRead (feCtx (exWorld d)) [] va b.len ⟨u, 0⟩ = .error (.wait a) → exec i s = .next { u with fabIn := u.fabIn ++ [(b, none)] }) ∧
    (∀ e, on → fits → d.getLsbD 61 = true → b.write = true → va + b.len ≤ 0x00F0000000000000 →
      engPut (exWriter b) (feCtx (exWorld d)) [] va (b.data.take b.len) ⟨u, 0⟩ = .ok ((), e) →
      (d.toNat / 2 ^ 192 = 0 → exec i s = .next (e.s.answerOut b.port true [])) ∧
      (d.toNat / 2 ^ 192 ≠ 0 →
        (∀ y, e.s.claspNow (feCtx (exWorld d)) (d.toNat / 2 ^ 192) e.stamp (fun c => c.add b.len) = some y →
          exec i s = .next ((y.noteCounted (feCtx (exWorld d)) (d.toNat / 2 ^ 192) (exWriter b)).answerOut b.port true [])) ∧
        (e.s.claspNow (feCtx (exWorld d)) (d.toNat / 2 ^ 192) e.stamp (fun c => c.add b.len) = none →
          exec i s = .next { e.s with fabIn := e.s.fabIn ++ [(b, some e.stamp)] }))))) ∧
  (∀ (s : State) (c j win ea n : Nat) (sg : Bool) (d : BitVec 5) (bs : List Byte) (flits : List (List Byte)),
    let u := s.actAs c j
    let l := s.portOf u.cur.world win
    let due (ok : Bool) : List (List Byte) := s.dueFlits l (Config.flits bs.length) ((if ok then 1#8 else 0#8) :: bs)
    c < 2048 → j < 16 →
    ((∀ w e o, u.curTask.park ≠ .fabric w e o) → (∀ t x f y a, u.curTask.park ≠ .bdDecl t x f y (some a)) → ∀ ok,
      exec (.fabricAnswer c j ok ⟨bs, flits⟩) s = .next s) ∧
    (u.curSlot.ws ≠ none → u.curTask.park = .fabric win ea (.load n sg d none) → ∀ ok,
      ((s.link l).down = true → exec (.fabricAnswer c j ok ⟨bs, flits⟩) s = .next s) ∧
      ((s.link l).down = false → l < 24 → flits ≠ due ok → ∃ t, exec (.fabricAnswer c j ok ⟨bs, flits⟩) s = .next t ∧ (t.link l).down = true)) ∧
    (u.curSlot.ws ≠ none → u.curTask.park = .fabric win ea (.load n sg d none) → (s.link l).down = false → l < 24 →
      (∃ t, exec (.fabricAnswer c j true ⟨bs, due true⟩) s = .next t ∧ SameRegs u t [d] ∧ t.curSlot.nextAt = s.cycle + 8 ∧ SameBytes u t ∧
        t.rd d = (if sg then (BitVec.ofNat (8 * n) (natOfBytes (bs.take n))).signExtend 64 else BitVec.ofNat 64 (natOfBytes (bs.take n))) ∧
        t.curTask = { u.curTask with park := .run, pc := u.npc, pastEnd := u.nextPc?.isNone, resume := none }) ∧
      LateTraps s (.fabricAnswer c j false ⟨bs, due false⟩)
        ((((s.takeFlits l (Config.flits bs.length)).actAs c j).raisePts c 0).modCurTask (fun k => { k with park := .run })) (trapAt 7 6 ea))) ∧
  (∀ (s : State) (b : CipherCmd) (k : KeySpec) (net : Bool) (slot : Nat),
    let K := s.keySlot b.net b.slot
    let S := s.keySlot net slot
    let good := b.slot < 1024 ∧ K.state = 1 ∧ K.world = b.world
    let whole := b.net = true ∨ (b.first % 4096 = 0 ∧ b.len % 4096 = 0)
    let room := k.slot < 1024 ∧ (s.keySlot k.net k.slot).state = 0 ∧ (s.world k.world).used = true ∧ (s.world k.world).dying = false
    (¬good → exec (.cipherCommand b) s = .next (s.report (.cipher b.slot 1))) ∧
    (good → ¬whole → exec (.cipherCommand b) s = .next (s.report (.cipher b.slot 2))) ∧
    (good → whole → ∃ t, exec (.cipherCommand b) s = .next t ∧ .cipher b.slot 0 ∈ t.reports ∧
      t.keySlot b.net b.slot = { K with
        accepted := K.accepted ++ [(b.decrypt, if b.net = true ∧ b.decrypt = false then K.counter else b.first, b.data.take b.len)]
        counter := if b.net = true ∧ b.decrypt = false then K.counter + 1 else K.counter }) ∧
    (¬room → exec (.keySlotInstall k) s = .next s) ∧
    (room → ∃ t, exec (.keySlotInstall k) s = .next t ∧ (t.keySlot k.net k.slot).state = 1 ∧ (t.keySlot k.net k.slot).world = k.world ∧
      (t.keySlot k.net k.slot).key1 = k.key1 ∧ t = { s with keys := t.keys }) ∧
    (¬(slot < 1024 ∧ S.state = 1) → exec (.keySlotRevoke net slot) s = .next s) ∧
    (slot < 1024 → S.state = 1 → ∃ t, exec (.keySlotRevoke net slot) s = .next t ∧ t.keySlot net slot = { S with state := 2 } ∧
      t = { s with keys := t.keys }) ∧
    (¬(slot < 1024 ∧ S.state = 2 ∧ S.accepted = []) → exec (.revokeComplete net slot) s = .next s) ∧
    (slot < 1024 → S.state = 2 → S.accepted = [] → ∃ t, exec (.revokeComplete net slot) s = .next t ∧ (t.keySlot net slot).state = 0 ∧
      (t.keySlot net slot).key1 = 0 ∧ (t.keySlot net slot).key2 = 0 ∧ .revoked net slot ∈ t.reports)) ∧
  (∀ (s : State) (l : Nat),
    let failed (i : Instr) : Prop := (24 ≤ l → exec i s = .next s) ∧ (l < 24 → ∃ t, exec i s = .next (t.loseLink l) ∧
      (t.link l).down = true ∧ (∀ m, m ≠ l → t.link m = s.link m) ∧ SameBytes s t ∧
      (s.journal.length + s.coalesce.length < 4194304 → ∃ e ∈ t.journal, e.kind = (if l < 16 then 6 else 7) ∧
        e.phys / 4 = l % 16 ∧ e.addr = e.phys ∧ e.cls = 5 ∧ e.boot = s.bootCount))
    let fresh (i : Instr) (down : Bool) : Prop := ∃ t, exec i s = .next t ∧ (t.link l).sent = 0 ∧ (t.link l).received = 0 ∧
      (t.link l).down = down ∧ ∀ m, m ≠ l → t.link m = s.link m
    failed (.linkAuthFailure l) ∧ failed (.linkFlitFailsAfterRetries l) ∧
    ((24 ≤ l ∨ s.portOut l = true) → exec (.linkRekeyed l) s = .next s) ∧ (l < 24 → s.portOut l = false → fresh (.linkRekeyed l) false) ∧
    (24 ≤ l → exec (.linkCounterExhaustion l) s = .next s) ∧ (l < 24 → fresh (.linkCounterExhaustion l) (s.link l).down)) ∧
  ∀ (s : State) (c i n p : Nat),
    (∀ ok, (∀ q ∈ (s.core c).vq, q.started = false ∨ q.fault = none) → exec (.engineFaultResolved (.vector c) ok) s = .next s) ∧
    (∀ ok, s.maDraining n = none → exec (.engineFaultResolved (.matrix n) ok) s = .next s) ∧
    (∀ m a, s.maDraining n = some (c, m) → m.fault = some a →
      exec (.engineFaultResolved (.matrix n) true) s = .next (s.modCore c (fun k => k.putMa { m with fault := none }))) ∧
    (∀ r a, AMap.find (s.sett n).places p = some r → r.fault = some a → ∃ t, exec (.engineFaultResolved (.copy n p) true) s = .next t ∧
      AMap.find (t.sett n).places p = some { r with fault := none } ∧ t = { s with setts := t.setts }) ∧
    (∀ ws t due a f b, (s.slot c i).ws = some ws → (s.task c ws).park = .bdDecl t due (some a) f b →
      exec (.engineFaultResolved (.decl c i) true) s = .next (s.modTask c ws (fun k => { k with park := .bdDecl t due none f none }))) ∧
    exec (.engineFaultResolved (.sweep c) true) s = .next s ∧
    (∀ ok, s.spoils = [] → exec (.engineFaultResolved .clasp ok) s = .next s) ∧
    (∀ ok, s.fabIn = [] → exec (.engineFaultResolved .inbound ok) s = .next s)

/-- R17, R22, R23, R70, R74, R407, R424 to R427, R431. The rebase by 2^46 (log 70) and the numbers of paired die-to-die links (log
15) are the model's choices. -/
def Obligations.UnitsPowerAndTimeFollowR17R22R23AndR424ToR431 : Prop :=
  (∀ (s : State) (u : UnitRef), u.phys < 65536 →
    (s.enabled u.kind u.phys = false → exec (.unitFailure u) s = .next s) ∧
    (s.enabled u.kind u.phys = true → ∃ t, exec (.unitFailure u) s = .next t ∧ t.enabled u.kind u.phys = false ∧ SameBytes s t ∧
      (∃ x, AMap.find t.units (u.kind * 65536 + u.phys) = some x ∧ x.state = 2) ∧
      (∀ k p, p < 65536 → (k, p) ≠ (u.kind, u.phys) → (u.kind = 4 ∨ u.kind = 5 → (k ≠ 4 ∧ k ≠ 5) ∨ p ≠ u.phys) →
        (u.kind = 8 → ∀ v ∈ pairedUnits u, (k, p) ≠ (v.kind, v.phys)) →
        t.enabled k p = s.enabled k p) ∧
      ((u.kind = 4 ∨ u.kind = 5) → t.enabled 4 u.phys = false ∧ t.enabled 5 u.phys = false ∧ ⟨5, u.phys⟩ ∈ t.settling) ∧
      (u.kind = 3 → u ∈ t.settling) ∧
      (u.kind = 8 → u.phys < 64 → t.enabled 8 (16 * ((u.phys / 16) ^^^ (if u.phys % 16 < 8 then 2 else 1)) + u.phys % 16) = false) ∧
      (s.journal.length + s.coalesce.length < 4194304 → ∃ e ∈ t.journal, e.kind = u.kind ∧ e.phys = u.phys ∧ e.cls = 4)) ∧
    (s.settling.contains u = false → exec (.settlementComplete u) s = .next s) ∧
    (s.settling.contains u = true → ∃ t, exec (.settlementComplete u) s = .next t ∧ u ∉ t.settling ∧
      (u.kind = 3 → s.enabled 3 u.phys = false → (∃ q ∈ s.bootSlices, s.enabled 3 q = true) →
        (∀ i, i < 4096 → t.homeEntry i ≠ u.phys) ∧ ∀ c, s.topStamp ≤ t.pts c))) ∧
  (∀ (s : State) (u : UnitRef) (a c : Nat) (l : List Nat),
    let found := s.coalesce.find? (fun e => e.kind == u.kind && e.phys == u.phys && e.addr == a)
    (found = none → exec (.journalCoalesceFlush u a) s = .next s) ∧
    (∀ e, found = some e → s.micros < e.time + 1000000 → exec (.journalCoalesceFlush u a) s = .next s) ∧
    (∀ e, found = some e → e.time + 1000000 ≤ s.micros → s.journal.length < 4194304 → ∃ t, exec (.journalCoalesceFlush u a) s = .next t ∧
      t.journal = s.journal ++ [e] ∧ t.coalesce = s.coalesce.erase e) ∧
    (∃ t, exec (.sramScrub c l) s = .next t ∧ t.core c = { s.core c with scanDue := s.micros + 10000 } ∧ (∀ x, x ≠ c → t.core x = s.core x) ∧ t.mem = s.mem ∧ t.poison = s.poison ∧ ∃ r, t.journal = s.journal ++ r) ∧
    (∃ t, exec (.memoryScrub l) s = .next t ∧ t.memScanDue = s.micros + 86400000000 ∧ t.cores = s.cores ∧ t.mem = s.mem ∧ t.poison = s.poison ∧ ∃ r, t.journal = s.journal ++ r)) ∧
  ∀ (s : State) (watts : Nat),
    exec (.powerCapSet watts) s = .next { s with cap := watts } ∧
    (∃ n, n < 16 ∧ exec (.capMeasurement watts) s = .next { s with share := n, capDue := s.micros + 10 }) ∧
    exec .thermalAlarm s = .next { s with alarm := true } ∧ exec .thermalAlarmClear s = .next { s with alarm := false } ∧
    (s.idleNow = if s.alarm = true then 15 else s.share) ∧
    (s.cycle % 16 ≠ 0 → exec .idleRotation s = .next s) ∧
    (s.cycle % 16 = 0 → exec .idleRotation s = .next { s with time := s.time + 16, idle := (s.idle + 1) % 16 }) ∧
    (∃ t, exec .ptsTick s = .next t ∧ t = { s with ptsTicks := t.ptsTicks } ∧ ∀ c, t.pts c = s.pts c + 1) ∧
    (∃ t, exec .timestampRebase s = .next t ∧ SameBytes s t ∧ (∀ c, t.pts c = s.pts c - 2 ^ 46) ∧
      (∀ c, (t.core c).hts = (s.core c).hts - 2 ^ 46) ∧
      ∀ pa, (t.homeLine pa).wts = (s.homeLine pa).wts - 2 ^ 46 ∧ (t.homeLine pa).rts = (s.homeLine pa).rts - 2 ^ 46) ∧
    ∃ r, exec .residencyReport s = .next ({ s with residencySeq := s.residencySeq + 1, residencyDue := s.micros + 20 }.report
      (.residency Config.deviceId s.residencySeq s.freeSetts r))

/-- The words of the spec's own encoding examples decode to the instructions beside them. -/
def Obligations.TheSpecsWordsDecode : Prop :=
  decodeNative 0x04642800#32 [] = .ok (.add 3#5 4#5 5#5) ∧
  decodeNative 0x04642824#32 [] = .ok (.cmpLtn 3#5 4#5 5#5) ∧
  decodeNative 0x0864FFFF#32 [] = .ok (.addi 3#5 4#5 0xFFFF#16) ∧
  decodeNative 0x18640087#32 [] = .ok (.shiSra 3#5 4#5 7#6) ∧
  decodeNative 0x1C642FFB#32 [] = .ok (.cmpiLt 3#5 4#5 0xFFB#12) ∧
  decodeNative 0x20E20035#32 [] = .ok (.lhi 7#5 0x20035#20) ∧
  decodeNative 0x28642A39#32 [] = .ok (.fsgnNeg 3#5 4#5 5#5 2#3) ∧
  decodeNative 0x2C642809#32 [] = .ok (.fms 3#5 4#5 5#5 0#3 1#3) ∧
  decodeNative 0x30640501#32 [] = .ok (.fcvt 3#5 4#5 0xA#4 0#4 1#3) ∧
  decodeNative 0x40645FFA#32 [] = .ok (.ldSx 3#5 4#5 1#2 0xFFA#12) ∧
  decodeNative 0x4464E010#32 [] = .ok (.stUp 3#5 4#5 3#2 0x010#12) ∧
  decodeNative 0x4C04E020#32 [] = .ok (.stFeClear 4#5 3#2 0x020#12) ∧
  decodeNative 0x50041000#32 [] = .ok (.ipref 4#5 0#12) ∧
  decodeNative 0x5464281A#32 [] = .ok (.amoFaddF64 3#5 4#5 5#5) ∧
  decodeNative 0x5C042817#32 [] = .ok (.redMaxn 4#5 5#5 1#2) ∧
  decodeNative 0x60000013#32 [] = .ok (.ulogMerge 3#4) ∧
  decodeNative 0x8120600C#32 [] = .ok (.brZ 9#5 0x00C#12) ∧
  decodeNative 0x87FFFFD8#32 [] = .ok (.jmp 0x3FFFFD8#26) ∧
  decodeNative 0x90070003#32 [] = .ok (.callx 7#5 3#16) ∧
  decodeNative 0xA000000A#32 [] = .ok .eret ∧
  decodeNative 0xA0000809#32 [] = .ok (.swtrap 0#5 1#5) ∧
  decodeNative 0xA1097804#32 [] = .ok (.spawn 8#5 9#5 15#5) ∧
  decodeNative 0xA4A08014#32 [] = .ok (.puts 5#5 0x014#12) ∧
  decodeNative 0xA8C00003#32 [] = .ok (.getc 6#5 3#4) ∧
  decodeNative 0xAC642803#32 [] = .ok (.clWait 3#5 4#5 5#5) ∧
  decodeNative 0xC0042800#32 [0x38030300#32] = .ok (.maLdst ⟨4#5, 5#5, 0#5, 0#6, 0x38030300#32⟩) ∧
  decodeNative 0xC0884A82#32 [0x10000303#32] = .ok (.maDrain ⟨8#5, 9#5, 10#5, 2#6, 0x10000303#32⟩) ∧
  decodeNative 0xC4440140#32 [0#32] = .ok (.dmaSc ⟨4#5, 0#5, 5#5, 0#6, 0#32⟩) ∧
  decodeNative 0xC8250184#32 [0#32] = .ok (.bdPass ⟨5#5, 0#5, 6#5, 4#6, 0#32⟩) ∧
  decodeNative 0xF0604470#32 [0x21400080#32, 0x03F00300#32, 0#32, 0x00010000#32, 0x00014000#32, 0#32, 0#32] =
    .ok (.vxRmax ⟨1#4, 1#4, 1#4, 6#3, 0#1, 0#1, 0#1, 4#5, 5#5, 0#5, 0#5, 1#5, 0#1, 0#1, 0#1, 63#12, 3#12, 0#12, 0#12, 0#12,
      0#2, 0#2, 0#2, 0#8, 1#8, 0#8, 0#8, 0#8, 1#8, 64#8, 0#8, 0#8, 0#8, 0#8, 0#8, 0#8, 0#8, 0#8⟩) ∧
  decodeBead 0x6D000001#32 = .ok (.bNbData 5#3 1#16) ∧
  decodeBead 0x01340000#32 = .ok (.bAdd 1#3 1#3 5#3 0#18) ∧
  decodeZbs 0x04C48000#32 = .ok (.zadd 3#4 1#4 2#4) ∧
  decodeZbs 0x54CC000C#32 = .ok (.zshli 3#4 3#4 12#6) ∧
  decodeZbs 0x8903FFFD#32 = .ok (.zbne 4#4 0#4 0x3FFFD#18) ∧
  decodeZbs 0x9FC00028#32 = .ok (.zjal 15#4 0x28#22) ∧
  decodeZbs 0xA4000006#32 = .ok .zsvcCommit

/-- The native decoder and the encoder agree in both directions. -/
def Obligations.NativeEncodingAndDecodingAgree : Prop :=
  (∀ i : Instr, instrSet i = .native → wellFormed i = true →
    ∃ w rest, encode i = w :: rest ∧ lengthOf w = rest.length + 1 ∧ decodeNative w rest = .ok i) ∧
  (∀ (w : IWord) (rest : List IWord) (i : Instr), lengthOf w = rest.length + 1 → decodeNative w rest = .ok i →
    instrSet i = .native ∧ wellFormed i = true ∧ encode i = w :: rest)

/-- The bootstrap and bead decoders and the encoder agree in both directions. -/
def Obligations.BootstrapAndBeadEncodingsAgree : Prop :=
  (∀ i : Instr, instrSet i = .bootstrap → ∃ w, encode i = [w] ∧ decodeZbs w = .ok i) ∧
  (∀ (w : IWord) (i : Instr), decodeZbs w = .ok i → instrSet i = .bootstrap ∧ wellFormed i = true ∧ encode i = [w]) ∧
  (∀ i : Instr, instrSet i = .bead → wellFormed i = true → ∃ w, encode i = [w] ∧ decodeBead w = .ok i) ∧
  (∀ (w : IWord) (i : Instr), decodeBead w = .ok i → instrSet i = .bead ∧ wellFormed i = true ∧ encode i = [w]) ∧
  (∀ i : Instr, instrSet i = .event → encode i = [])

/-- A step is exec of the decoded instruction, then the settling of the machine. -/
def Obligations.StepRunsWhatItDecodes : Prop :=
  (∀ (s : State) (c k : Nat) (l : ILine),
    s.turn = .thread c k →
    let v := s.actAs c k
    let u := v.settleBefore
    let a := u.curTask.pc.toNat
    let n := wordIndex a
    u.curTask.fresh = false → u.issueAt a = none → u.cur.line? (lineOf a) = some l →
    (l.meets n = true → step s = settledOutcome s (((u.latch noIssue).refetch l).demandLine a)) ∧
    (∀ i : Instr, l.meets n = false → lineCheck l.header n (lengthOf (l.word n)) = 0 → decodeNative (l.word n) (l.rest n) = .ok i →
      step s = settledOutcome s (exec i (u.issued l n))) ∧
    (∀ sub : Nat, l.meets n = false → lineCheck l.header n (lengthOf (l.word n)) = 0 → decodeNative (l.word n) (l.rest n) = .bad sub →
      step s = .next (s.settleStep ((u.issued l n).undef sub))) ∧
    (∀ sub : Nat, l.meets n = false → lineCheck l.header n (lengthOf (l.word n)) = sub + 1 →
      step s = .next (s.settleStep ((u.latch (l.issue n)).takeTrap (trapOf 3 (sub + 1)))))) ∧
  (∀ (s : State) (c k : Nat) (i : Instr),
    s.turn = .burrow c k →
    let u := s.actAs c k
    let b := u.burrowNow
    b.inText b.pc = true → b.meter < b.budget → decodeZbs b.word = .ok i → step s = settledOutcome s (exec i u)) ∧
  (∀ (s : State) (c : Nat) (w : IWord) (i : Instr),
    s.turn = .bead c →
    let u := s.actAs c s.actSlot
    u.beadHere = some w → decodeBead w = .ok i → step s = settledOutcome s (exec i u)) ∧
  (∀ (s : State) (i : Instr), s.turn = .event i → step s = settledOutcome s (exec i s)) ∧
  (∀ s : State, s.turn = .cycle → step s = .next (s.settleStep s.tick))

/-- What a turn in hand may be is an invariant of the step. -/
def Obligations.EveryStepLeavesALegalTurn : Prop :=
  ∀ s t : State, turnOk s = true → step s = .next t → turnOk t = true

/-- What reset leaves (R95, R44, R430; the memory's zeros are the model's, log 12). -/
def Obligations.ResetLeavesNothingRunning : Prop :=
  turnOk State.reset = true ∧ State.reset.turn = .event (.boot true) ∧ State.reset.booted = false ∧
  State.reset.cycle = 0 ∧ State.reset.time = 0 ∧
  State.reset.gangs = [] ∧ State.reset.queues = [] ∧ State.reset.worlds = [] ∧ State.reset.keys = [] ∧
  State.reset.inflight = [] ∧ State.reset.home = [] ∧ State.reset.shoots = [] ∧
  (∀ c, (State.reset.core c).gang = none) ∧
  (∀ c i, ((State.reset.core c).slot i).ws = none ∧ (State.reset.slot c i).live = 0) ∧
  (∀ c g, (State.reset.core c).isFull g = false) ∧
  (∀ c off n, State.reset.sNum c off n = 0) ∧
  (∀ a, State.reset.memByte a = 0) ∧
  (∀ c w, ((State.reset.core c).task w).deadm = 0x0000FF00#32)
end

