-- ==== Sys2Proof/Laws/Encoding.lean ====
section
/-! SUPPORT. The fields of an encoded word, format by format: what each field of it is, and that a word is made of its
fields. -/

namespace Sys2Proof.Laws

/-- The number of an appended pair. -/
theorem toNat_append_add {v w : Nat} (x : BitVec v) (y : BitVec w) : (x ++ y).toNat = x.toNat * 2 ^ w + y.toNat := by
  rw [BitVec.toNat_append, ← Nat.shiftLeft_add_eq_or_of_lt y.isLt, Nat.shiftLeft_eq]

/-- The number of a word of `encA` (R154). -/
theorem encA_toNat (m : BitVec 6) (d : BitVec 5) (a : BitVec 5) (b : BitVec 5) (fn : BitVec 11) :
    (encA m d a b fn).toNat = m.toNat * 2 ^ 26 + d.toNat * 2 ^ 21 + a.toNat * 2 ^ 16 + b.toNat * 2 ^ 11 + fn.toNat := by
  have h : (encA m d a b fn).toNat = (m ++ d ++ a ++ b ++ fn).toNat := rfl
  rw [h, toNat_append_add, toNat_append_add, toNat_append_add, toNat_append_add]
  omega

/-- Field m of a word of `encA`. -/
@[simp] theorem encA_m (m : BitVec 6) (d : BitVec 5) (a : BitVec 5) (b : BitVec 5) (fn : BitVec 11) :
    (encA m d a b fn).extractLsb' 26 6 = m := by
  have := encA_toNat m d a b fn
  apply BitVec.eq_of_toNat_eq
  simp only [BitVec.extractLsb'_toNat, Nat.shiftRight_eq_div_pow]
  omega

/-- Field d of a word of `encA`. -/
@[simp] theorem encA_d (m : BitVec 6) (d : BitVec 5) (a : BitVec 5) (b : BitVec 5) (fn : BitVec 11) :
    (encA m d a b fn).extractLsb' 21 5 = d := by
  have := encA_toNat m d a b fn
  apply BitVec.eq_of_toNat_eq
  simp only [BitVec.extractLsb'_toNat, Nat.shiftRight_eq_div_pow]
  omega

/-- Field a of a word of `encA`. -/
@[simp] theorem encA_a (m : BitVec 6) (d : BitVec 5) (a : BitVec 5) (b : BitVec 5) (fn : BitVec 11) :
    (encA m d a b fn).extractLsb' 16 5 = a := by
  have := encA_toNat m d a b fn
  apply BitVec.eq_of_toNat_eq
  simp only [BitVec.extractLsb'_toNat, Nat.shiftRight_eq_div_pow]
  omega

/-- Field b of a word of `encA`. -/
@[simp] theorem encA_b (m : BitVec 6) (d : BitVec 5) (a : BitVec 5) (b : BitVec 5) (fn : BitVec 11) :
    (encA m d a b fn).extractLsb' 11 5 = b := by
  have := encA_toNat m d a b fn
  apply BitVec.eq_of_toNat_eq
  simp only [BitVec.extractLsb'_toNat, Nat.shiftRight_eq_div_pow]
  omega

/-- Field fn of a word of `encA`. -/
@[simp] theorem encA_fn (m : BitVec 6) (d : BitVec 5) (a : BitVec 5) (b : BitVec 5) (fn : BitVec 11) :
    (encA m d a b fn).extractLsb' 0 11 = fn := by
  have := encA_toNat m d a b fn
  apply BitVec.eq_of_toNat_eq
  simp only [BitVec.extractLsb'_toNat, Nat.shiftRight_eq_div_pow]
  omega

/-- A word is `encA` of its fields. -/
theorem encA_fields (w : IWord) :
    encA (w.extractLsb' 26 6) (w.extractLsb' 21 5) (w.extractLsb' 16 5) (w.extractLsb' 11 5) (w.extractLsb' 0 11) = w := by
  apply BitVec.eq_of_toNat_eq
  rw [encA_toNat]
  simp only [BitVec.extractLsb'_toNat, Nat.shiftRight_eq_div_pow]
  omega

/-- The number of a word of `encI` (R154). -/
theorem encI_toNat (m : BitVec 6) (d : BitVec 5) (a : BitVec 5) (imm : BitVec 16) :
    (encI m d a imm).toNat = m.toNat * 2 ^ 26 + d.toNat * 2 ^ 21 + a.toNat * 2 ^ 16 + imm.toNat := by
  have h : (encI m d a imm).toNat = (m ++ d ++ a ++ imm).toNat := rfl
  rw [h, toNat_append_add, toNat_append_add, toNat_append_add]
  omega

/-- Field m of a word of `encI`. -/
@[simp] theorem encI_m (m : BitVec 6) (d : BitVec 5) (a : BitVec 5) (imm : BitVec 16) :
    (encI m d a imm).extractLsb' 26 6 = m := by
  have := encI_toNat m d a imm
  apply BitVec.eq_of_toNat_eq
  simp only [BitVec.extractLsb'_toNat, Nat.shiftRight_eq_div_pow]
  omega

/-- Field d of a word of `encI`. -/
@[simp] theorem encI_d (m : BitVec 6) (d : BitVec 5) (a : BitVec 5) (imm : BitVec 16) :
    (encI m d a imm).extractLsb' 21 5 = d := by
  have := encI_toNat m d a imm
  apply BitVec.eq_of_toNat_eq
  simp only [BitVec.extractLsb'_toNat, Nat.shiftRight_eq_div_pow]
  omega

/-- Field a of a word of `encI`. -/
@[simp] theorem encI_a (m : BitVec 6) (d : BitVec 5) (a : BitVec 5) (imm : BitVec 16) :
    (encI m d a imm).extractLsb' 16 5 = a := by
  have := encI_toNat m d a imm
  apply BitVec.eq_of_toNat_eq
  simp only [BitVec.extractLsb'_toNat, Nat.shiftRight_eq_div_pow]
  omega

/-- Field imm of a word of `encI`. -/
@[simp] theorem encI_imm (m : BitVec 6) (d : BitVec 5) (a : BitVec 5) (imm : BitVec 16) :
    (encI m d a imm).extractLsb' 0 16 = imm := by
  have := encI_toNat m d a imm
  apply BitVec.eq_of_toNat_eq
  simp only [BitVec.extractLsb'_toNat, Nat.shiftRight_eq_div_pow]
  omega

/-- A word is `encI` of its fields. -/
theorem encI_fields (w : IWord) :
    encI (w.extractLsb' 26 6) (w.extractLsb' 21 5) (w.extractLsb' 16 5) (w.extractLsb' 0 16) = w := by
  apply BitVec.eq_of_toNat_eq
  rw [encI_toNat]
  simp only [BitVec.extractLsb'_toNat, Nat.shiftRight_eq_div_pow]
  omega

/-- The number of a word of `encH` (R154). -/
theorem encH_toNat (m : BitVec 6) (d : BitVec 5) (imm : BitVec 20) :
    (encH m d imm).toNat = m.toNat * 2 ^ 26 + d.toNat * 2 ^ 21 + imm.toNat := by
  have h : (encH m d imm).toNat = (m ++ d ++ 0#1 ++ imm).toNat := rfl
  rw [h, toNat_append_add, toNat_append_add, toNat_append_add]
  simp only [BitVec.toNat_ofNat]
  omega

/-- Field m of a word of `encH`. -/
@[simp] theorem encH_m (m : BitVec 6) (d : BitVec 5) (imm : BitVec 20) :
    (encH m d imm).extractLsb' 26 6 = m := by
  have := encH_toNat m d imm
  apply BitVec.eq_of_toNat_eq
  simp only [BitVec.extractLsb'_toNat, Nat.shiftRight_eq_div_pow]
  omega

/-- Field d of a word of `encH`. -/
@[simp] theorem encH_d (m : BitVec 6) (d : BitVec 5) (imm : BitVec 20) :
    (encH m d imm).extractLsb' 21 5 = d := by
  have := encH_toNat m d imm
  apply BitVec.eq_of_toNat_eq
  simp only [BitVec.extractLsb'_toNat, Nat.shiftRight_eq_div_pow]
  omega

/-- Field imm of a word of `encH`. -/
@[simp] theorem encH_imm (m : BitVec 6) (d : BitVec 5) (imm : BitVec 20) :
    (encH m d imm).extractLsb' 0 20 = imm := by
  have := encH_toNat m d imm
  apply BitVec.eq_of_toNat_eq
  simp only [BitVec.extractLsb'_toNat, Nat.shiftRight_eq_div_pow]
  omega

/-- A word is `encH` of its fields where its reserved bits are zero. -/
theorem encH_fields (w : IWord) (h : w.extractLsb' 20 1 = 0#1) :
    encH (w.extractLsb' 26 6) (w.extractLsb' 21 5) (w.extractLsb' 0 20) = w := by
  apply BitVec.eq_of_toNat_eq
  rw [encH_toNat]
  have h' := congrArg BitVec.toNat h
  simp only [BitVec.extractLsb'_toNat, Nat.shiftRight_eq_div_pow, BitVec.toNat_ofNat] at h'
  simp only [BitVec.extractLsb'_toNat, Nat.shiftRight_eq_div_pow]
  omega

/-- The number of a word of `encM` (R154). -/
theorem encM_toNat (m : BitVec 6) (d : BitVec 5) (a : BitVec 5) (sz : BitVec 2) (mode : BitVec 2) (off : BitVec 12) :
    (encM m d a sz mode off).toNat = m.toNat * 2 ^ 26 + d.toNat * 2 ^ 21 + a.toNat * 2 ^ 16 + sz.toNat * 2 ^ 14 + mode.toNat * 2 ^ 12 + off.toNat := by
  have h : (encM m d a sz mode off).toNat = (m ++ d ++ a ++ sz ++ mode ++ off).toNat := rfl
  rw [h, toNat_append_add, toNat_append_add, toNat_append_add, toNat_append_add, toNat_append_add]
  omega

/-- Field m of a word of `encM`. -/
@[simp] theorem encM_m (m : BitVec 6) (d : BitVec 5) (a : BitVec 5) (sz : BitVec 2) (mode : BitVec 2) (off : BitVec 12) :
    (encM m d a sz mode off).extractLsb' 26 6 = m := by
  have := encM_toNat m d a sz mode off
  apply BitVec.eq_of_toNat_eq
  simp only [BitVec.extractLsb'_toNat, Nat.shiftRight_eq_div_pow]
  omega

/-- Field d of a word of `encM`. -/
@[simp] theorem encM_d (m : BitVec 6) (d : BitVec 5) (a : BitVec 5) (sz : BitVec 2) (mode : BitVec 2) (off : BitVec 12) :
    (encM m d a sz mode off).extractLsb' 21 5 = d := by
  have := encM_toNat m d a sz mode off
  apply BitVec.eq_of_toNat_eq
  simp only [BitVec.extractLsb'_toNat, Nat.shiftRight_eq_div_pow]
  omega

/-- Field a of a word of `encM`. -/
@[simp] theorem encM_a (m : BitVec 6) (d : BitVec 5) (a : BitVec 5) (sz : BitVec 2) (mode : BitVec 2) (off : BitVec 12) :
    (encM m d a sz mode off).extractLsb' 16 5 = a := by
  have := encM_toNat m d a sz mode off
  apply BitVec.eq_of_toNat_eq
  simp only [BitVec.extractLsb'_toNat, Nat.shiftRight_eq_div_pow]
  omega

/-- Field sz of a word of `encM`. -/
@[simp] theorem encM_sz (m : BitVec 6) (d : BitVec 5) (a : BitVec 5) (sz : BitVec 2) (mode : BitVec 2) (off : BitVec 12) :
    (encM m d a sz mode off).extractLsb' 14 2 = sz := by
  have := encM_toNat m d a sz mode off
  apply BitVec.eq_of_toNat_eq
  simp only [BitVec.extractLsb'_toNat, Nat.shiftRight_eq_div_pow]
  omega

/-- Field mode of a word of `encM`. -/
@[simp] theorem encM_mode (m : BitVec 6) (d : BitVec 5) (a : BitVec 5) (sz : BitVec 2) (mode : BitVec 2) (off : BitVec 12) :
    (encM m d a sz mode off).extractLsb' 12 2 = mode := by
  have := encM_toNat m d a sz mode off
  apply BitVec.eq_of_toNat_eq
  simp only [BitVec.extractLsb'_toNat, Nat.shiftRight_eq_div_pow]
  omega

/-- Field off of a word of `encM`. -/
@[simp] theorem encM_off (m : BitVec 6) (d : BitVec 5) (a : BitVec 5) (sz : BitVec 2) (mode : BitVec 2) (off : BitVec 12) :
    (encM m d a sz mode off).extractLsb' 0 12 = off := by
  have := encM_toNat m d a sz mode off
  apply BitVec.eq_of_toNat_eq
  simp only [BitVec.extractLsb'_toNat, Nat.shiftRight_eq_div_pow]
  omega

/-- A word is `encM` of its fields. -/
theorem encM_fields (w : IWord) :
    encM (w.extractLsb' 26 6) (w.extractLsb' 21 5) (w.extractLsb' 16 5) (w.extractLsb' 14 2) (w.extractLsb' 12 2) (w.extractLsb' 0 12) = w := by
  apply BitVec.eq_of_toNat_eq
  rw [encM_toNat]
  simp only [BitVec.extractLsb'_toNat, Nat.shiftRight_eq_div_pow]
  omega

/-- The number of a word of `encB` (R154). -/
theorem encB_toNat (m : BitVec 6) (a : BitVec 5) (b : BitVec 5) (cond : BitVec 4) (disp : BitVec 12) :
    (encB m a b cond disp).toNat = m.toNat * 2 ^ 26 + a.toNat * 2 ^ 21 + b.toNat * 2 ^ 16 + cond.toNat * 2 ^ 12 + disp.toNat := by
  have h : (encB m a b cond disp).toNat = (m ++ a ++ b ++ cond ++ disp).toNat := rfl
  rw [h, toNat_append_add, toNat_append_add, toNat_append_add, toNat_append_add]
  omega

/-- Field m of a word of `encB`. -/
@[simp] theorem encB_m (m : BitVec 6) (a : BitVec 5) (b : BitVec 5) (cond : BitVec 4) (disp : BitVec 12) :
    (encB m a b cond disp).extractLsb' 26 6 = m := by
  have := encB_toNat m a b cond disp
  apply BitVec.eq_of_toNat_eq
  simp only [BitVec.extractLsb'_toNat, Nat.shiftRight_eq_div_pow]
  omega

/-- Field a of a word of `encB`. -/
@[simp] theorem encB_a (m : BitVec 6) (a : BitVec 5) (b : BitVec 5) (cond : BitVec 4) (disp : BitVec 12) :
    (encB m a b cond disp).extractLsb' 21 5 = a := by
  have := encB_toNat m a b cond disp
  apply BitVec.eq_of_toNat_eq
  simp only [BitVec.extractLsb'_toNat, Nat.shiftRight_eq_div_pow]
  omega

/-- Field b of a word of `encB`. -/
@[simp] theorem encB_b (m : BitVec 6) (a : BitVec 5) (b : BitVec 5) (cond : BitVec 4) (disp : BitVec 12) :
    (encB m a b cond disp).extractLsb' 16 5 = b := by
  have := encB_toNat m a b cond disp
  apply BitVec.eq_of_toNat_eq
  simp only [BitVec.extractLsb'_toNat, Nat.shiftRight_eq_div_pow]
  omega

/-- Field cond of a word of `encB`. -/
@[simp] theorem encB_cond (m : BitVec 6) (a : BitVec 5) (b : BitVec 5) (cond : BitVec 4) (disp : BitVec 12) :
    (encB m a b cond disp).extractLsb' 12 4 = cond := by
  have := encB_toNat m a b cond disp
  apply BitVec.eq_of_toNat_eq
  simp only [BitVec.extractLsb'_toNat, Nat.shiftRight_eq_div_pow]
  omega

/-- Field disp of a word of `encB`. -/
@[simp] theorem encB_disp (m : BitVec 6) (a : BitVec 5) (b : BitVec 5) (cond : BitVec 4) (disp : BitVec 12) :
    (encB m a b cond disp).extractLsb' 0 12 = disp := by
  have := encB_toNat m a b cond disp
  apply BitVec.eq_of_toNat_eq
  simp only [BitVec.extractLsb'_toNat, Nat.shiftRight_eq_div_pow]
  omega

/-- A word is `encB` of its fields. -/
theorem encB_fields (w : IWord) :
    encB (w.extractLsb' 26 6) (w.extractLsb' 21 5) (w.extractLsb' 16 5) (w.extractLsb' 12 4) (w.extractLsb' 0 12) = w := by
  apply BitVec.eq_of_toNat_eq
  rw [encB_toNat]
  simp only [BitVec.extractLsb'_toNat, Nat.shiftRight_eq_div_pow]
  omega

/-- The number of a word of `encJ` (R154). -/
theorem encJ_toNat (m : BitVec 6) (disp : BitVec 26) :
    (encJ m disp).toNat = m.toNat * 2 ^ 26 + disp.toNat := by
  have h : (encJ m disp).toNat = (m ++ disp).toNat := rfl
  rw [h, toNat_append_add]

/-- Field m of a word of `encJ`. -/
@[simp] theorem encJ_m (m : BitVec 6) (disp : BitVec 26) :
    (encJ m disp).extractLsb' 26 6 = m := by
  have := encJ_toNat m disp
  apply BitVec.eq_of_toNat_eq
  simp only [BitVec.extractLsb'_toNat, Nat.shiftRight_eq_div_pow]
  omega

/-- Field disp of a word of `encJ`. -/
@[simp] theorem encJ_disp (m : BitVec 6) (disp : BitVec 26) :
    (encJ m disp).extractLsb' 0 26 = disp := by
  have := encJ_toNat m disp
  apply BitVec.eq_of_toNat_eq
  simp only [BitVec.extractLsb'_toNat, Nat.shiftRight_eq_div_pow]
  omega

/-- A word is `encJ` of its fields. -/
theorem encJ_fields (w : IWord) :
    encJ (w.extractLsb' 26 6) (w.extractLsb' 0 26) = w := by
  apply BitVec.eq_of_toNat_eq
  rw [encJ_toNat]
  simp only [BitVec.extractLsb'_toNat, Nat.shiftRight_eq_div_pow]
  omega

/-- The number of a word of `encZR` (R331). -/
theorem encZR_toNat (op : BitVec 6) (d : BitVec 4) (a : BitVec 4) (b : BitVec 4) :
    (encZR op d a b).toNat = op.toNat * 2 ^ 26 + d.toNat * 2 ^ 22 + a.toNat * 2 ^ 18 + b.toNat * 2 ^ 14 := by
  have h : (encZR op d a b).toNat = (op ++ d ++ a ++ b ++ 0#14).toNat := rfl
  rw [h, toNat_append_add, toNat_append_add, toNat_append_add, toNat_append_add]
  simp only [BitVec.toNat_ofNat]
  omega

/-- Field op of a word of `encZR`. -/
@[simp] theorem encZR_op (op : BitVec 6) (d : BitVec 4) (a : BitVec 4) (b : BitVec 4) :
    (encZR op d a b).extractLsb' 26 6 = op := by
  have := encZR_toNat op d a b
  apply BitVec.eq_of_toNat_eq
  simp only [BitVec.extractLsb'_toNat, Nat.shiftRight_eq_div_pow]
  omega

/-- Field d of a word of `encZR`. -/
@[simp] theorem encZR_d (op : BitVec 6) (d : BitVec 4) (a : BitVec 4) (b : BitVec 4) :
    (encZR op d a b).extractLsb' 22 4 = d := by
  have := encZR_toNat op d a b
  apply BitVec.eq_of_toNat_eq
  simp only [BitVec.extractLsb'_toNat, Nat.shiftRight_eq_div_pow]
  omega

/-- Field a of a word of `encZR`. -/
@[simp] theorem encZR_a (op : BitVec 6) (d : BitVec 4) (a : BitVec 4) (b : BitVec 4) :
    (encZR op d a b).extractLsb' 18 4 = a := by
  have := encZR_toNat op d a b
  apply BitVec.eq_of_toNat_eq
  simp only [BitVec.extractLsb'_toNat, Nat.shiftRight_eq_div_pow]
  omega

/-- Field b of a word of `encZR`. -/
@[simp] theorem encZR_b (op : BitVec 6) (d : BitVec 4) (a : BitVec 4) (b : BitVec 4) :
    (encZR op d a b).extractLsb' 14 4 = b := by
  have := encZR_toNat op d a b
  apply BitVec.eq_of_toNat_eq
  simp only [BitVec.extractLsb'_toNat, Nat.shiftRight_eq_div_pow]
  omega

/-- A word is `encZR` of its fields where its reserved bits are zero. -/
theorem encZR_fields (w : IWord) (h : w.extractLsb' 0 14 = 0#14) :
    encZR (w.extractLsb' 26 6) (w.extractLsb' 22 4) (w.extractLsb' 18 4) (w.extractLsb' 14 4) = w := by
  apply BitVec.eq_of_toNat_eq
  rw [encZR_toNat]
  have h' := congrArg BitVec.toNat h
  simp only [BitVec.extractLsb'_toNat, Nat.shiftRight_eq_div_pow, BitVec.toNat_ofNat] at h'
  simp only [BitVec.extractLsb'_toNat, Nat.shiftRight_eq_div_pow]
  omega

/-- The number of a word of `encZI` (R331). -/
theorem encZI_toNat (op : BitVec 6) (d : BitVec 4) (a : BitVec 4) (i : BitVec 18) :
    (encZI op d a i).toNat = op.toNat * 2 ^ 26 + d.toNat * 2 ^ 22 + a.toNat * 2 ^ 18 + i.toNat := by
  have h : (encZI op d a i).toNat = (op ++ d ++ a ++ i).toNat := rfl
  rw [h, toNat_append_add, toNat_append_add, toNat_append_add]
  omega

/-- Field op of a word of `encZI`. -/
@[simp] theorem encZI_op (op : BitVec 6) (d : BitVec 4) (a : BitVec 4) (i : BitVec 18) :
    (encZI op d a i).extractLsb' 26 6 = op := by
  have := encZI_toNat op d a i
  apply BitVec.eq_of_toNat_eq
  simp only [BitVec.extractLsb'_toNat, Nat.shiftRight_eq_div_pow]
  omega

/-- Field d of a word of `encZI`. -/
@[simp] theorem encZI_d (op : BitVec 6) (d : BitVec 4) (a : BitVec 4) (i : BitVec 18) :
    (encZI op d a i).extractLsb' 22 4 = d := by
  have := encZI_toNat op d a i
  apply BitVec.eq_of_toNat_eq
  simp only [BitVec.extractLsb'_toNat, Nat.shiftRight_eq_div_pow]
  omega

/-- Field a of a word of `encZI`. -/
@[simp] theorem encZI_a (op : BitVec 6) (d : BitVec 4) (a : BitVec 4) (i : BitVec 18) :
    (encZI op d a i).extractLsb' 18 4 = a := by
  have := encZI_toNat op d a i
  apply BitVec.eq_of_toNat_eq
  simp only [BitVec.extractLsb'_toNat, Nat.shiftRight_eq_div_pow]
  omega

/-- Field i of a word of `encZI`. -/
@[simp] theorem encZI_i (op : BitVec 6) (d : BitVec 4) (a : BitVec 4) (i : BitVec 18) :
    (encZI op d a i).extractLsb' 0 18 = i := by
  have := encZI_toNat op d a i
  apply BitVec.eq_of_toNat_eq
  simp only [BitVec.extractLsb'_toNat, Nat.shiftRight_eq_div_pow]
  omega

/-- A word is `encZI` of its fields. -/
theorem encZI_fields (w : IWord) :
    encZI (w.extractLsb' 26 6) (w.extractLsb' 22 4) (w.extractLsb' 18 4) (w.extractLsb' 0 18) = w := by
  apply BitVec.eq_of_toNat_eq
  rw [encZI_toNat]
  simp only [BitVec.extractLsb'_toNat, Nat.shiftRight_eq_div_pow]
  omega

/-- The number of a word of `encZU` (R331). -/
theorem encZU_toNat (op : BitVec 6) (d : BitVec 4) (i : BitVec 22) :
    (encZU op d i).toNat = op.toNat * 2 ^ 26 + d.toNat * 2 ^ 22 + i.toNat := by
  have h : (encZU op d i).toNat = (op ++ d ++ i).toNat := rfl
  rw [h, toNat_append_add, toNat_append_add]
  omega

/-- Field op of a word of `encZU`. -/
@[simp] theorem encZU_op (op : BitVec 6) (d : BitVec 4) (i : BitVec 22) :
    (encZU op d i).extractLsb' 26 6 = op := by
  have := encZU_toNat op d i
  apply BitVec.eq_of_toNat_eq
  simp only [BitVec.extractLsb'_toNat, Nat.shiftRight_eq_div_pow]
  omega

/-- Field d of a word of `encZU`. -/
@[simp] theorem encZU_d (op : BitVec 6) (d : BitVec 4) (i : BitVec 22) :
    (encZU op d i).extractLsb' 22 4 = d := by
  have := encZU_toNat op d i
  apply BitVec.eq_of_toNat_eq
  simp only [BitVec.extractLsb'_toNat, Nat.shiftRight_eq_div_pow]
  omega

/-- Field i of a word of `encZU`. -/
@[simp] theorem encZU_i (op : BitVec 6) (d : BitVec 4) (i : BitVec 22) :
    (encZU op d i).extractLsb' 0 22 = i := by
  have := encZU_toNat op d i
  apply BitVec.eq_of_toNat_eq
  simp only [BitVec.extractLsb'_toNat, Nat.shiftRight_eq_div_pow]
  omega

/-- A word is `encZU` of its fields. -/
theorem encZU_fields (w : IWord) :
    encZU (w.extractLsb' 26 6) (w.extractLsb' 22 4) (w.extractLsb' 0 22) = w := by
  apply BitVec.eq_of_toNat_eq
  rw [encZU_toNat]
  simp only [BitVec.extractLsb'_toNat, Nat.shiftRight_eq_div_pow]
  omega

/-- The number of a word of `encBd` (R307). -/
theorem encBd_toNat (op : BitVec 5) (d : BitVec 3) (s : BitVec 3) (t : BitVec 3) (i : BitVec 18) :
    (encBd op d s t i).toNat = op.toNat * 2 ^ 27 + d.toNat * 2 ^ 24 + s.toNat * 2 ^ 21 + t.toNat * 2 ^ 18 + i.toNat := by
  have h : (encBd op d s t i).toNat = (op ++ d ++ s ++ t ++ i).toNat := rfl
  rw [h, toNat_append_add, toNat_append_add, toNat_append_add, toNat_append_add]
  omega

/-- Field op of a word of `encBd`. -/
@[simp] theorem encBd_op (op : BitVec 5) (d : BitVec 3) (s : BitVec 3) (t : BitVec 3) (i : BitVec 18) :
    (encBd op d s t i).extractLsb' 27 5 = op := by
  have := encBd_toNat op d s t i
  apply BitVec.eq_of_toNat_eq
  simp only [BitVec.extractLsb'_toNat, Nat.shiftRight_eq_div_pow]
  omega

/-- Field d of a word of `encBd`. -/
@[simp] theorem encBd_d (op : BitVec 5) (d : BitVec 3) (s : BitVec 3) (t : BitVec 3) (i : BitVec 18) :
    (encBd op d s t i).extractLsb' 24 3 = d := by
  have := encBd_toNat op d s t i
  apply BitVec.eq_of_toNat_eq
  simp only [BitVec.extractLsb'_toNat, Nat.shiftRight_eq_div_pow]
  omega

/-- Field s of a word of `encBd`. -/
@[simp] theorem encBd_s (op : BitVec 5) (d : BitVec 3) (s : BitVec 3) (t : BitVec 3) (i : BitVec 18) :
    (encBd op d s t i).extractLsb' 21 3 = s := by
  have := encBd_toNat op d s t i
  apply BitVec.eq_of_toNat_eq
  simp only [BitVec.extractLsb'_toNat, Nat.shiftRight_eq_div_pow]
  omega

/-- Field t of a word of `encBd`. -/
@[simp] theorem encBd_t (op : BitVec 5) (d : BitVec 3) (s : BitVec 3) (t : BitVec 3) (i : BitVec 18) :
    (encBd op d s t i).extractLsb' 18 3 = t := by
  have := encBd_toNat op d s t i
  apply BitVec.eq_of_toNat_eq
  simp only [BitVec.extractLsb'_toNat, Nat.shiftRight_eq_div_pow]
  omega

/-- Field i of a word of `encBd`. -/
@[simp] theorem encBd_i (op : BitVec 5) (d : BitVec 3) (s : BitVec 3) (t : BitVec 3) (i : BitVec 18) :
    (encBd op d s t i).extractLsb' 0 18 = i := by
  have := encBd_toNat op d s t i
  apply BitVec.eq_of_toNat_eq
  simp only [BitVec.extractLsb'_toNat, Nat.shiftRight_eq_div_pow]
  omega

/-- A word is `encBd` of its fields. -/
theorem encBd_fields (w : IWord) :
    encBd (w.extractLsb' 27 5) (w.extractLsb' 24 3) (w.extractLsb' 21 3) (w.extractLsb' 18 3) (w.extractLsb' 0 18) = w := by
  apply BitVec.eq_of_toNat_eq
  rw [encBd_toNat]
  simp only [BitVec.extractLsb'_toNat, Nat.shiftRight_eq_div_pow]
  omega

/-- The length a major opcode gives (R153). -/
theorem lengthOf_of_major {w : IWord} {n : Nat} (h : (w.extractLsb' 26 6).toNat = n) :
    lengthOf w = if n = 0x30 ∨ n = 0x31 ∨ n = 0x32 then 2 else if n = 0x3C then 8 else 1 := by
  simp [lengthOf, major, h]

/-- The major opcode of an engine command's first word (R155). -/
theorem encE_major (m : BitVec 6) (sub : BitVec 5) (c : EngCmd) :
    BitVec.extractLsb' 26 6 (m ++ sub ++ c.x ++ c.y ++ c.z ++ c.f : IWord) = m := by
  apply BitVec.eq_of_toNat_eq
  have h : (m ++ sub ++ c.x ++ c.y ++ c.z ++ c.f : IWord).toNat = (m ++ sub ++ c.x ++ c.y ++ c.z ++ c.f).toNat := rfl
  simp only [BitVec.extractLsb'_toNat, Nat.shiftRight_eq_div_pow]
  rw [h, toNat_append_add, toNat_append_add, toNat_append_add, toNat_append_add, toNat_append_add]
  omega

/-- The major opcode of a nest's first word (R156). -/
theorem encN_major (vop : BitVec 8) (n : Nest) :
    BitVec.extractLsb' 26 6 (0x3C#6 ++ vop ++ n.td ++ n.ta ++ n.tb ++ n.rm ++ n.sat ++ n.mp ++ n.me : IWord) = 0x3C#6 := by
  apply BitVec.eq_of_toNat_eq
  have h : (0x3C#6 ++ vop ++ n.td ++ n.ta ++ n.tb ++ n.rm ++ n.sat ++ n.mp ++ n.me : IWord).toNat =
    (0x3C#6 ++ vop ++ n.td ++ n.ta ++ n.tb ++ n.rm ++ n.sat ++ n.mp ++ n.me).toNat := rfl
  simp only [BitVec.extractLsb'_toNat, Nat.shiftRight_eq_div_pow]
  rw [h, toNat_append_add, toNat_append_add, toNat_append_add, toNat_append_add, toNat_append_add, toNat_append_add,
    toNat_append_add, toNat_append_add]
  simp only [BitVec.toNat_ofNat]
  omega

end Sys2Proof.Laws
end

