-- ==== Sys2Proof/Laws/Map.lean ====
section
/-! SUPPORT. Laws of the total maps and of the byte-order helpers: what a put, a delete and a little-endian number read
back as. None needs the keys to be rising but those that say so. -/

namespace Sys2Proof.Machine

variable {α : Type}

@[simp] theorem AMap.find_nil (k : Nat) : AMap.find ([] : AMap α) k = none := rfl

@[simp] theorem AMap.get_nil (d : α) (k : Nat) : AMap.get d [] k = d := rfl

@[simp] theorem AMap.find_put_same (m : AMap α) (k : Nat) (v : α) : AMap.find (AMap.put m k v) k = some v := by
  induction m with
  | nil => simp [AMap.put, AMap.find]
  | cons e m ih =>
    obtain ⟨j, w⟩ := e
    by_cases h : k < j
    · simp [AMap.put, h, AMap.find]
    · by_cases h' : k = j
      · subst h'; simp [AMap.put, AMap.find]
      · simp [AMap.put, h, h', AMap.find, Ne.symm h', ih]

theorem AMap.find_put_ne (m : AMap α) {k i : Nat} (v : α) (h : i ≠ k) :
    AMap.find (AMap.put m k v) i = AMap.find m i := by
  induction m with
  | nil => simp [AMap.put, AMap.find, Ne.symm h]
  | cons e m ih =>
    obtain ⟨j, w⟩ := e
    by_cases h1 : k < j
    · simp [AMap.put, h1, AMap.find, Ne.symm h]
    · by_cases h2 : k = j
      · subst h2; simp [AMap.put, AMap.find, Ne.symm h]
      · simp [AMap.put, h1, h2, AMap.find, ih]

@[simp] theorem AMap.get_put_same (d : α) (m : AMap α) (k : Nat) (v : α) : AMap.get d (AMap.put m k v) k = v := by
  simp [AMap.get]

theorem AMap.get_put_ne (d : α) (m : AMap α) {k i : Nat} (v : α) (h : i ≠ k) :
    AMap.get d (AMap.put m k v) i = AMap.get d m i := by
  simp [AMap.get, AMap.find_put_ne m v h]

theorem AMap.get_put (d : α) (m : AMap α) (k i : Nat) (v : α) :
    AMap.get d (AMap.put m k v) i = if i = k then v else AMap.get d m i := by
  by_cases h : i = k
  · subst h; simp
  · simp [h, AMap.get_put_ne d m v h]

@[simp] theorem AMap.put_put (m : AMap α) (k : Nat) (v w : α) : AMap.put (AMap.put m k v) k w = AMap.put m k w := by
  induction m with
  | nil => simp [AMap.put]
  | cons e m ih =>
    obtain ⟨j, x⟩ := e
    by_cases h : k < j
    · simp [AMap.put, h]
    · by_cases h' : k = j
      · subst h'; simp [AMap.put]
      · simp [AMap.put, h, h', ih]

@[simp] theorem AMap.find_del_same (m : AMap α) (k : Nat) : AMap.find (AMap.del m k) k = none := by
  induction m with
  | nil => rfl
  | cons e m ih =>
    obtain ⟨j, w⟩ := e
    by_cases h : j = k
    · subst h; simpa [AMap.del] using ih
    · simp only [AMap.del] at ih
      simp [AMap.del, h, AMap.find, ih]

theorem AMap.find_del_ne (m : AMap α) {k i : Nat} (h : i ≠ k) : AMap.find (AMap.del m k) i = AMap.find m i := by
  induction m with
  | nil => rfl
  | cons e m ih =>
    obtain ⟨j, w⟩ := e
    simp only [AMap.del] at ih
    by_cases hj : j = k
    · subst hj; simp [AMap.del, AMap.find, Ne.symm h, ih]
    · simp [AMap.del, hj, AMap.find, ih]

/-! ## Rising keys -/

theorem AMap.risingFrom_mono {b c : Nat} (m : AMap α) (h : b ≤ c) (hm : AMap.risingFrom c m = true) :
    AMap.risingFrom b m = true := by
  cases m with
  | nil => rfl
  | cons e m =>
    obtain ⟨j, w⟩ := e
    simp only [AMap.risingFrom, Bool.and_eq_true, decide_eq_true_eq] at hm ⊢
    exact ⟨by omega, hm.2⟩

theorem AMap.risingFrom_put {b k : Nat} (m : AMap α) (v : α) (hk : b < k) (hm : AMap.risingFrom b m = true) :
    AMap.risingFrom b (AMap.put m k v) = true := by
  induction m generalizing b with
  | nil => simp [AMap.put, AMap.risingFrom, hk]
  | cons e m ih =>
    obtain ⟨j, w⟩ := e
    simp only [AMap.risingFrom, Bool.and_eq_true, decide_eq_true_eq] at hm
    by_cases h : k < j
    · simp [AMap.put, h, AMap.risingFrom, hk, hm.2]
    · by_cases h' : k = j
      · subst h'; simp [AMap.put, AMap.risingFrom, hk, hm.2]
      · simp [AMap.put, h, h', AMap.risingFrom, hm.1, ih (by omega) hm.2]

theorem AMap.rising_put (m : AMap α) (k : Nat) (v : α) (hm : AMap.rising m = true) : AMap.rising (AMap.put m k v) = true := by
  cases m with
  | nil => simp [AMap.put, AMap.rising, AMap.risingFrom]
  | cons e m =>
    obtain ⟨j, w⟩ := e
    simp only [AMap.rising] at hm
    by_cases h : k < j
    · simp [AMap.put, h, AMap.rising, AMap.risingFrom, hm]
    · by_cases h' : k = j
      · subst h'; simp [AMap.put, AMap.rising, hm]
      · simpa [AMap.put, h, h', AMap.rising] using AMap.risingFrom_put m v (by omega) hm

theorem AMap.risingFrom_del {b : Nat} (m : AMap α) (k : Nat) (hm : AMap.risingFrom b m = true) :
    AMap.risingFrom b (AMap.del m k) = true := by
  induction m generalizing b with
  | nil => rfl
  | cons e m ih =>
    obtain ⟨j, w⟩ := e
    simp only [AMap.risingFrom, Bool.and_eq_true, decide_eq_true_eq] at hm
    by_cases h : j = k
    · subst h
      simpa [AMap.del] using AMap.risingFrom_mono _ (Nat.le_of_lt hm.1) (ih hm.2)
    · have := ih hm.2
      simp only [AMap.del] at this
      simp [AMap.del, h, AMap.risingFrom, hm.1, this]

theorem AMap.rising_del (m : AMap α) (k : Nat) (hm : AMap.rising m = true) : AMap.rising (AMap.del m k) = true := by
  cases m with
  | nil => rfl
  | cons e m =>
    obtain ⟨j, w⟩ := e
    simp only [AMap.rising] at hm
    have h' := AMap.risingFrom_del m k hm
    by_cases h : j = k
    · subst h
      simp only [AMap.del, List.filter_cons, bne_self_eq_false] at h' ⊢
      cases hx : List.filter (fun e => e.1 != j) m with
      | nil => simp [AMap.rising]
      | cons x l =>
        obtain ⟨i, y⟩ := x
        simp only [hx, AMap.risingFrom, Bool.and_eq_true] at h'
        simpa [AMap.rising] using h'.2
    · simp only [AMap.del] at h'
      simp [AMap.del, h, AMap.rising, h']

/-! ## Little-endian numbers (R3) -/

@[simp] theorem bytesOf_length (n x : Nat) : (bytesOf n x).length = n := by
  induction n generalizing x with
  | zero => rfl
  | succ n ih => simp [bytesOf, ih]

theorem natOfBytes_bytesOf (n x : Nat) : natOfBytes (bytesOf n x) = x % 2 ^ (8 * n) := by
  induction n generalizing x with
  | zero => simp [bytesOf, natOfBytes, Nat.mod_one]
  | succ n ih =>
    have h : 2 ^ (8 * (n + 1)) = 256 * 2 ^ (8 * n) := by rw [Nat.mul_add, Nat.pow_add]; norm_num [Nat.mul_comm]
    rw [h, Nat.mod_mul]
    simp [bytesOf, natOfBytes, ih]

end Sys2Proof.Machine
end

