-- ==== Sys2Proof/Laws/Memory.lean ====
section
/-! SUPPORT. Laws of byte memories: reading after writing, and the canonical form, which every memory operation keeps. -/

namespace Sys2Proof.Machine

@[simp] theorem Memory.read_nil (a : Nat) : Memory.read [] a = 0#8 := rfl

@[simp] theorem Memory.read_write_same (m : List Host.Cell) (a : Nat) (b : Byte) :
    Memory.read (Memory.write m a b) a = b := by
  by_cases h : b = 0#8
  · simp [Memory.read, Memory.write, h, AMap.get]
  · simp [Memory.read, Memory.write, h]

theorem Memory.read_write_ne (m : List Host.Cell) {a x : Nat} (b : Byte) (h : x ≠ a) :
    Memory.read (Memory.write m a b) x = Memory.read m x := by
  by_cases hb : b = 0#8
  · simp [Memory.read, Memory.write, hb, AMap.get, AMap.find_del_ne m h]
  · simp [Memory.read, Memory.write, hb, AMap.get_put_ne _ m b h]

@[simp] theorem Memory.readN_length (m : List Host.Cell) (a n : Nat) : (Memory.readN m a n).length = n := by
  induction n generalizing a with
  | zero => rfl
  | succ n ih => simp [Memory.readN, ih]

theorem Memory.read_writeN_out (m : List Host.Cell) (a x : Nat) (bs : List Byte) (h : x < a ∨ a + bs.length ≤ x) :
    Memory.read (Memory.writeN m a bs) x = Memory.read m x := by
  induction bs generalizing m a with
  | nil => rfl
  | cons b bs ih =>
    simp only [List.length_cons] at h
    rw [Memory.writeN, ih _ _ (by omega), Memory.read_write_ne _ _ (by omega)]

theorem Memory.readN_writeN_same (m : List Host.Cell) (a : Nat) (bs : List Byte) :
    Memory.readN (Memory.writeN m a bs) a bs.length = bs := by
  induction bs generalizing m a with
  | nil => rfl
  | cons b bs ih =>
    simp only [List.length_cons, Memory.readN, Memory.writeN, ih, List.cons.injEq, and_true]
    rw [Memory.read_writeN_out _ _ _ _ (by omega), Memory.read_write_same]

theorem Memory.readN_congr {m m' : List Host.Cell} (a n : Nat)
    (h : ∀ x, a ≤ x → x < a + n → Memory.read m x = Memory.read m' x) : Memory.readN m a n = Memory.readN m' a n := by
  induction n generalizing a with
  | zero => rfl
  | succ n ih =>
    simp only [Memory.readN, h a (by omega) (by omega), ih (a + 1) (fun x h1 h2 => h x (by omega) (by omega))]

/-- A number reads back as it was written. -/
theorem Memory.num_putNum (m : List Host.Cell) (a n v : Nat) :
    Memory.num (Memory.putNum m a n v) a n = v % 2 ^ (8 * n) := by
  have h := Memory.readN_writeN_same m a (bytesOf n v)
  rw [bytesOf_length] at h
  rw [Memory.num, Memory.putNum, h, natOfBytes_bytesOf]

/-- A number elsewhere is unchanged by a write. -/
theorem Memory.num_putNum_out (m : List Host.Cell) (a n v b k : Nat) (h : b + k ≤ a ∨ a + n ≤ b) :
    Memory.num (Memory.putNum m a n v) b k = Memory.num m b k := by
  rw [Memory.num, Memory.num, Memory.putNum]
  congr 1
  exact Memory.readN_congr b k (fun x h1 h2 => Memory.read_writeN_out _ _ _ _ (by rw [bytesOf_length]; omega))

/-! ## The canonical form -/

theorem AMap.all_put {α : Type} (p : α → Bool) (m : AMap α) (k : Nat) (v : α) (hm : m.all (fun e => p e.2) = true)
    (hv : p v = true) : (AMap.put m k v).all (fun e => p e.2) = true := by
  induction m with
  | nil => simp [AMap.put, hv]
  | cons e m ih =>
    obtain ⟨j, w⟩ := e
    simp only [List.all_cons, Bool.and_eq_true] at hm
    by_cases h : k < j
    · simp only [AMap.put, h, if_true, List.all_cons, Bool.and_eq_true]; exact ⟨hv, hm⟩
    · by_cases h' : k = j
      · simp only [AMap.put, h', lt_irrefl, if_true, if_false, List.all_cons, Bool.and_eq_true]; exact ⟨hv, hm.2⟩
      · simp only [AMap.put, h, h', if_false, List.all_cons, Bool.and_eq_true]; exact ⟨hm.1, ih hm.2⟩

theorem Memory.wf_nil : Memory.wf [] = true := rfl

/-- Writing a byte keeps the canonical form. -/
theorem Memory.wf_write (m : List Host.Cell) (a : Nat) (b : Byte) (h : Memory.wf m = true) :
    Memory.wf (Memory.write m a b) = true := by
  simp only [Memory.wf, Bool.and_eq_true] at h ⊢
  by_cases hb : b = 0#8
  · refine ⟨by simpa [Memory.write, hb] using AMap.rising_del m a h.1, ?_⟩
    simp only [Memory.write, hb, if_true, AMap.del, List.all_eq_true] at h ⊢
    exact fun e he => h.2 e (List.mem_of_mem_filter he)
  · refine ⟨by simpa [Memory.write, hb] using AMap.rising_put m a b h.1, ?_⟩
    have hv : (b != 0#8) = true := by simpa using hb
    simpa only [Memory.write, hb, if_false] using AMap.all_put (fun x => x != 0#8) m a b h.2 hv

/-- Writing bytes keeps the canonical form. -/
theorem Memory.wf_writeN (m : List Host.Cell) (a : Nat) (bs : List Byte) (h : Memory.wf m = true) :
    Memory.wf (Memory.writeN m a bs) = true := by
  induction bs generalizing m a with
  | nil => exact h
  | cons b bs ih => exact ih _ _ (Memory.wf_write m a b h)

/-- Writing a number keeps the canonical form. -/
theorem Memory.wf_putNum (m : List Host.Cell) (a n v : Nat) (h : Memory.wf m = true) :
    Memory.wf (Memory.putNum m a n v) = true := Memory.wf_writeN m a _ h

/-- Below a bound that every key exceeds nothing is found. -/
theorem AMap.find_below {α : Type} {b k : Nat} (m : AMap α) (hm : AMap.risingFrom b m = true) (h : k ≤ b) :
    AMap.find m k = none := by
  induction m generalizing b with
  | nil => rfl
  | cons e m ih =>
    obtain ⟨j, w⟩ := e
    simp only [AMap.risingFrom, Bool.and_eq_true, decide_eq_true_eq] at hm
    simp [AMap.find, show ¬ j = k by omega, ih hm.2 (by omega)]

/-- Rising maps that find the same are the same. -/
theorem AMap.ext_from {α : Type} {b : Nat} (m n : AMap α) (hm : AMap.risingFrom b m = true)
    (hn : AMap.risingFrom b n = true) (h : ∀ k, AMap.find m k = AMap.find n k) : m = n := by
  induction m generalizing b n with
  | nil =>
    cases n with
    | nil => rfl
    | cons e n => obtain ⟨j, w⟩ := e; simpa [AMap.find] using h j
  | cons e m ih =>
    obtain ⟨j, w⟩ := e
    cases n with
    | nil => simpa [AMap.find] using h j
    | cons f n =>
      obtain ⟨i, x⟩ := f
      simp only [AMap.risingFrom, Bool.and_eq_true, decide_eq_true_eq] at hm hn
      have hj := h j
      have hi := h i
      have hij : i = j := by
        by_contra hne
        rcases Nat.lt_or_gt_of_ne hne with hlt | hlt
        · simp [AMap.find, Ne.symm hne, AMap.find_below m hm.2 (Nat.le_of_lt hlt)] at hi
        · simp [AMap.find, hne, AMap.find_below n hn.2 (Nat.le_of_lt hlt)] at hj
      subst hij
      have hx : w = x := by simpa [AMap.find] using hi
      subst hx
      congr 1
      refine ih n hm.2 hn.2 (fun k => ?_)
      by_cases hk : i = k
      · subst hk
        rw [AMap.find_below m hm.2 (Nat.le_refl _), AMap.find_below n hn.2 (Nat.le_refl _)]
      · simpa [AMap.find, hk] using h k

/-- What a canonical memory finds, its reads say. -/
theorem Memory.find_of_read (m : List Host.Cell) (h : m.all (fun e => e.2 != 0#8) = true) (a : Nat) :
    AMap.find m a = if Memory.read m a = 0#8 then none else some (Memory.read m a) := by
  induction m with
  | nil => simp
  | cons e m ih =>
    obtain ⟨j, w⟩ := e
    simp only [List.all_cons, Bool.and_eq_true, bne_iff_ne, ne_eq] at h
    by_cases hj : j = a
    · subst hj; simp [Memory.read, AMap.get, AMap.find, h.1]
    · have hf : AMap.find ((j, w) :: m) a = AMap.find m a := by simp [AMap.find, hj]
      have hr : Memory.read ((j, w) :: m) a = Memory.read m a := by simp [Memory.read, AMap.get, hf]
      rw [hf, hr, ih h.2]

/-- Canonical memories that read the same are the same data. -/
theorem Memory.ext (m n : List Host.Cell) (hm : Memory.wf m = true) (hn : Memory.wf n = true)
    (h : ∀ a, Memory.read m a = Memory.read n a) : m = n := by
  simp only [Memory.wf, Bool.and_eq_true] at hm hn
  have hf : ∀ k, AMap.find m k = AMap.find n k := fun k => by
    rw [Memory.find_of_read m hm.2, Memory.find_of_read n hn.2, h]
  have lift : ∀ l : List Host.Cell, AMap.rising l = true → AMap.risingFrom 0 (l.map (fun e => (e.1 + 1, e.2))) = true := by
    intro l hl
    cases l with
    | nil => rfl
    | cons e l =>
      obtain ⟨j, w⟩ := e
      have go : ∀ (b : Nat) (l : List Host.Cell), AMap.risingFrom b l = true →
          AMap.risingFrom (b + 1) (l.map (fun e => (e.1 + 1, e.2))) = true := by
        intro b l
        induction l generalizing b with
        | nil => intro _; rfl
        | cons e l ih =>
          intro hb
          simp only [AMap.risingFrom, Bool.and_eq_true, decide_eq_true_eq, List.map_cons] at hb ⊢
          exact ⟨by omega, ih _ hb.2⟩
      simp only [AMap.rising] at hl
      simp only [List.map_cons, AMap.risingFrom, Bool.and_eq_true, decide_eq_true_eq]
      exact ⟨by omega, go j l hl⟩
  have shift : ∀ (l : List Host.Cell) (k : Nat), AMap.find (l.map (fun e => (e.1 + 1, e.2))) (k + 1) = AMap.find l k := by
    intro l k
    induction l with
    | nil => rfl
    | cons e l ih => simp [AMap.find, ih]
  have zero : ∀ (l : List Host.Cell), AMap.find (l.map (fun e => (e.1 + 1, e.2))) 0 = none := by
    intro l
    induction l with
    | nil => rfl
    | cons e l ih => simp [AMap.find, ih]
  have hmap := AMap.ext_from _ _ (lift m hm.1) (lift n hn.1) (fun k => by
    cases k with
    | zero => rw [zero, zero]
    | succ k => rw [shift, shift, hf])
  have inj : Function.Injective (fun e : Host.Cell => (e.1 + 1, e.2)) := by
    intro e f h
    simp only [Prod.mk.injEq, add_left_inj] at h
    exact Prod.ext h.1 h.2
  exact List.map_injective_iff.mpr inj hmap

/-- Reset's memory has the canonical form. -/
theorem Memory.wf_reset : Memory.wf State.reset.mem = true := rfl

end Sys2Proof.Machine
end

