-- ==== Sys2Proof/Laws/State.lean ====
section
/-! SUPPORT. What each field of the device's state is after each named update of it: one lemma per field per update, true
by unfolding, so that no later proof unfolds a record update. The derived updates (a slot, a task, the acting ones) are
puts of a core. -/

namespace Sys2Proof.Machine

/-! ## `putCore` -/

@[simp] theorem State.putCore_booted (s : State) (c : Nat) (k : Core) : (s.putCore c k).booted = s.booted := rfl
@[simp] theorem State.putCore_recovery (s : State) (c : Nat) (k : Core) : (s.putCore c k).recovery = s.recovery := rfl
@[simp] theorem State.putCore_cycle (s : State) (c : Nat) (k : Core) : (s.putCore c k).cycle = s.cycle := rfl
@[simp] theorem State.putCore_time (s : State) (c : Nat) (k : Core) : (s.putCore c k).time = s.time := rfl
@[simp] theorem State.putCore_turn (s : State) (c : Nat) (k : Core) : (s.putCore c k).turn = s.turn := rfl
@[simp] theorem State.putCore_inbox (s : State) (c : Nat) (k : Core) : (s.putCore c k).inbox = s.inbox := rfl
@[simp] theorem State.putCore_actCore (s : State) (c : Nat) (k : Core) : (s.putCore c k).actCore = s.actCore := rfl
@[simp] theorem State.putCore_actSlot (s : State) (c : Nat) (k : Core) : (s.putCore c k).actSlot = s.actSlot := rfl
@[simp] theorem State.putCore_freeCount (s : State) (c : Nat) (k : Core) : (s.putCore c k).freeCount = s.freeCount := rfl
@[simp] theorem State.putCore_nextId (s : State) (c : Nat) (k : Core) : (s.putCore c k).nextId = s.nextId := rfl
@[simp] theorem State.putCore_ptsTicks (s : State) (c : Nat) (k : Core) : (s.putCore c k).ptsTicks = s.ptsTicks := rfl
@[simp] theorem State.putCore_idle (s : State) (c : Nat) (k : Core) : (s.putCore c k).idle = s.idle := rfl
@[simp] theorem State.putCore_cap (s : State) (c : Nat) (k : Core) : (s.putCore c k).cap = s.cap := rfl
@[simp] theorem State.putCore_share (s : State) (c : Nat) (k : Core) : (s.putCore c k).share = s.share := rfl
@[simp] theorem State.putCore_alarm (s : State) (c : Nat) (k : Core) : (s.putCore c k).alarm = s.alarm := rfl
@[simp] theorem State.putCore_cores (s : State) (c : Nat) (k : Core) : (s.putCore c k).cores = AMap.put s.cores c k := rfl
@[simp] theorem State.putCore_setts (s : State) (c : Nat) (k : Core) : (s.putCore c k).setts = s.setts := rfl
@[simp] theorem State.putCore_mem (s : State) (c : Nat) (k : Core) : (s.putCore c k).mem = s.mem := rfl
@[simp] theorem State.putCore_poison (s : State) (c : Nat) (k : Core) : (s.putCore c k).poison = s.poison := rfl
@[simp] theorem State.putCore_unsettled (s : State) (c : Nat) (k : Core) : (s.putCore c k).unsettled = s.unsettled := rfl
@[simp] theorem State.putCore_home (s : State) (c : Nat) (k : Core) : (s.putCore c k).home = s.home := rfl
@[simp] theorem State.putCore_homeFloor (s : State) (c : Nat) (k : Core) : (s.putCore c k).homeFloor = s.homeFloor := rfl
@[simp] theorem State.putCore_l2hts (s : State) (c : Nat) (k : Core) : (s.putCore c k).l2hts = s.l2hts := rfl
@[simp] theorem State.putCore_llchts (s : State) (c : Nat) (k : Core) : (s.putCore c k).llchts = s.llchts := rfl
@[simp] theorem State.putCore_l2 (s : State) (c : Nat) (k : Core) : (s.putCore c k).l2 = s.l2 := rfl
@[simp] theorem State.putCore_llc (s : State) (c : Nat) (k : Core) : (s.putCore c k).llc = s.llc := rfl
@[simp] theorem State.putCore_walks (s : State) (c : Nat) (k : Core) : (s.putCore c k).walks = s.walks := rfl
@[simp] theorem State.putCore_inflight (s : State) (c : Nat) (k : Core) : (s.putCore c k).inflight = s.inflight := rfl
@[simp] theorem State.putCore_settling (s : State) (c : Nat) (k : Core) : (s.putCore c k).settling = s.settling := rfl
@[simp] theorem State.putCore_units (s : State) (c : Nat) (k : Core) : (s.putCore c k).units = s.units := rfl
@[simp] theorem State.putCore_homeTab (s : State) (c : Nat) (k : Core) : (s.putCore c k).homeTab = s.homeTab := rfl
@[simp] theorem State.putCore_worlds (s : State) (c : Nat) (k : Core) : (s.putCore c k).worlds = s.worlds := rfl
@[simp] theorem State.putCore_gangs (s : State) (c : Nat) (k : Core) : (s.putCore c k).gangs = s.gangs := rfl
@[simp] theorem State.putCore_queues (s : State) (c : Nat) (k : Core) : (s.putCore c k).queues = s.queues := rfl
@[simp] theorem State.putCore_feUnits (s : State) (c : Nat) (k : Core) : (s.putCore c k).feUnits = s.feUnits := rfl
@[simp] theorem State.putCore_feStamp (s : State) (c : Nat) (k : Core) : (s.putCore c k).feStamp = s.feStamp := rfl
@[simp] theorem State.putCore_shoots (s : State) (c : Nat) (k : Core) : (s.putCore c k).shoots = s.shoots := rfl
@[simp] theorem State.putCore_burrows (s : State) (c : Nat) (k : Core) : (s.putCore c k).burrows = s.burrows := rfl
@[simp] theorem State.putCore_fmtWins (s : State) (c : Nat) (k : Core) : (s.putCore c k).fmtWins = s.fmtWins := rfl
@[simp] theorem State.putCore_fabIn (s : State) (c : Nat) (k : Core) : (s.putCore c k).fabIn = s.fabIn := rfl
@[simp] theorem State.putCore_spoils (s : State) (c : Nat) (k : Core) : (s.putCore c k).spoils = s.spoils := rfl
@[simp] theorem State.putCore_exports (s : State) (c : Nat) (k : Core) : (s.putCore c k).exports = s.exports := rfl
@[simp] theorem State.putCore_keys (s : State) (c : Nat) (k : Core) : (s.putCore c k).keys = s.keys := rfl
@[simp] theorem State.putCore_links (s : State) (c : Nat) (k : Core) : (s.putCore c k).links = s.links := rfl
@[simp] theorem State.putCore_journal (s : State) (c : Nat) (k : Core) : (s.putCore c k).journal = s.journal := rfl
@[simp] theorem State.putCore_ovf (s : State) (c : Nat) (k : Core) : (s.putCore c k).ovf = s.ovf := rfl
@[simp] theorem State.putCore_coalesce (s : State) (c : Nat) (k : Core) : (s.putCore c k).coalesce = s.coalesce := rfl
@[simp] theorem State.putCore_bootCount (s : State) (c : Nat) (k : Core) : (s.putCore c k).bootCount = s.bootCount := rfl
@[simp] theorem State.putCore_config (s : State) (c : Nat) (k : Core) : (s.putCore c k).config = s.config := rfl
@[simp] theorem State.putCore_pendingConfig (s : State) (c : Nat) (k : Core) : (s.putCore c k).pendingConfig = s.pendingConfig := rfl
@[simp] theorem State.putCore_platformLog (s : State) (c : Nat) (k : Core) : (s.putCore c k).platformLog = s.platformLog := rfl
@[simp] theorem State.putCore_reports (s : State) (c : Nat) (k : Core) : (s.putCore c k).reports = s.reports := rfl
@[simp] theorem State.putCore_residencySeq (s : State) (c : Nat) (k : Core) : (s.putCore c k).residencySeq = s.residencySeq := rfl
@[simp] theorem State.putCore_residencyDue (s : State) (c : Nat) (k : Core) : (s.putCore c k).residencyDue = s.residencyDue := rfl
@[simp] theorem State.putCore_memScanDue (s : State) (c : Nat) (k : Core) : (s.putCore c k).memScanDue = s.memScanDue := rfl
@[simp] theorem State.putCore_capDue (s : State) (c : Nat) (k : Core) : (s.putCore c k).capDue = s.capDue := rfl

/-! ## `putSett` -/

@[simp] theorem State.putSett_booted (s : State) (n : Nat) (t : Sett) : (s.putSett n t).booted = s.booted := rfl
@[simp] theorem State.putSett_recovery (s : State) (n : Nat) (t : Sett) : (s.putSett n t).recovery = s.recovery := rfl
@[simp] theorem State.putSett_cycle (s : State) (n : Nat) (t : Sett) : (s.putSett n t).cycle = s.cycle := rfl
@[simp] theorem State.putSett_time (s : State) (n : Nat) (t : Sett) : (s.putSett n t).time = s.time := rfl
@[simp] theorem State.putSett_turn (s : State) (n : Nat) (t : Sett) : (s.putSett n t).turn = s.turn := rfl
@[simp] theorem State.putSett_inbox (s : State) (n : Nat) (t : Sett) : (s.putSett n t).inbox = s.inbox := rfl
@[simp] theorem State.putSett_actCore (s : State) (n : Nat) (t : Sett) : (s.putSett n t).actCore = s.actCore := rfl
@[simp] theorem State.putSett_actSlot (s : State) (n : Nat) (t : Sett) : (s.putSett n t).actSlot = s.actSlot := rfl
@[simp] theorem State.putSett_freeCount (s : State) (n : Nat) (t : Sett) : (s.putSett n t).freeCount = s.freeCount := rfl
@[simp] theorem State.putSett_nextId (s : State) (n : Nat) (t : Sett) : (s.putSett n t).nextId = s.nextId := rfl
@[simp] theorem State.putSett_ptsTicks (s : State) (n : Nat) (t : Sett) : (s.putSett n t).ptsTicks = s.ptsTicks := rfl
@[simp] theorem State.putSett_idle (s : State) (n : Nat) (t : Sett) : (s.putSett n t).idle = s.idle := rfl
@[simp] theorem State.putSett_cap (s : State) (n : Nat) (t : Sett) : (s.putSett n t).cap = s.cap := rfl
@[simp] theorem State.putSett_share (s : State) (n : Nat) (t : Sett) : (s.putSett n t).share = s.share := rfl
@[simp] theorem State.putSett_alarm (s : State) (n : Nat) (t : Sett) : (s.putSett n t).alarm = s.alarm := rfl
@[simp] theorem State.putSett_cores (s : State) (n : Nat) (t : Sett) : (s.putSett n t).cores = s.cores := rfl
@[simp] theorem State.putSett_setts (s : State) (n : Nat) (t : Sett) : (s.putSett n t).setts = AMap.put s.setts n t := rfl
@[simp] theorem State.putSett_mem (s : State) (n : Nat) (t : Sett) : (s.putSett n t).mem = s.mem := rfl
@[simp] theorem State.putSett_poison (s : State) (n : Nat) (t : Sett) : (s.putSett n t).poison = s.poison := rfl
@[simp] theorem State.putSett_unsettled (s : State) (n : Nat) (t : Sett) : (s.putSett n t).unsettled = s.unsettled := rfl
@[simp] theorem State.putSett_home (s : State) (n : Nat) (t : Sett) : (s.putSett n t).home = s.home := rfl
@[simp] theorem State.putSett_homeFloor (s : State) (n : Nat) (t : Sett) : (s.putSett n t).homeFloor = s.homeFloor := rfl
@[simp] theorem State.putSett_l2hts (s : State) (n : Nat) (t : Sett) : (s.putSett n t).l2hts = s.l2hts := rfl
@[simp] theorem State.putSett_llchts (s : State) (n : Nat) (t : Sett) : (s.putSett n t).llchts = s.llchts := rfl
@[simp] theorem State.putSett_l2 (s : State) (n : Nat) (t : Sett) : (s.putSett n t).l2 = s.l2 := rfl
@[simp] theorem State.putSett_llc (s : State) (n : Nat) (t : Sett) : (s.putSett n t).llc = s.llc := rfl
@[simp] theorem State.putSett_walks (s : State) (n : Nat) (t : Sett) : (s.putSett n t).walks = s.walks := rfl
@[simp] theorem State.putSett_inflight (s : State) (n : Nat) (t : Sett) : (s.putSett n t).inflight = s.inflight := rfl
@[simp] theorem State.putSett_settling (s : State) (n : Nat) (t : Sett) : (s.putSett n t).settling = s.settling := rfl
@[simp] theorem State.putSett_units (s : State) (n : Nat) (t : Sett) : (s.putSett n t).units = s.units := rfl
@[simp] theorem State.putSett_homeTab (s : State) (n : Nat) (t : Sett) : (s.putSett n t).homeTab = s.homeTab := rfl
@[simp] theorem State.putSett_worlds (s : State) (n : Nat) (t : Sett) : (s.putSett n t).worlds = s.worlds := rfl
@[simp] theorem State.putSett_gangs (s : State) (n : Nat) (t : Sett) : (s.putSett n t).gangs = s.gangs := rfl
@[simp] theorem State.putSett_queues (s : State) (n : Nat) (t : Sett) : (s.putSett n t).queues = s.queues := rfl
@[simp] theorem State.putSett_feUnits (s : State) (n : Nat) (t : Sett) : (s.putSett n t).feUnits = s.feUnits := rfl
@[simp] theorem State.putSett_feStamp (s : State) (n : Nat) (t : Sett) : (s.putSett n t).feStamp = s.feStamp := rfl
@[simp] theorem State.putSett_shoots (s : State) (n : Nat) (t : Sett) : (s.putSett n t).shoots = s.shoots := rfl
@[simp] theorem State.putSett_burrows (s : State) (n : Nat) (t : Sett) : (s.putSett n t).burrows = s.burrows := rfl
@[simp] theorem State.putSett_fmtWins (s : State) (n : Nat) (t : Sett) : (s.putSett n t).fmtWins = s.fmtWins := rfl
@[simp] theorem State.putSett_fabIn (s : State) (n : Nat) (t : Sett) : (s.putSett n t).fabIn = s.fabIn := rfl
@[simp] theorem State.putSett_spoils (s : State) (n : Nat) (t : Sett) : (s.putSett n t).spoils = s.spoils := rfl
@[simp] theorem State.putSett_exports (s : State) (n : Nat) (t : Sett) : (s.putSett n t).exports = s.exports := rfl
@[simp] theorem State.putSett_keys (s : State) (n : Nat) (t : Sett) : (s.putSett n t).keys = s.keys := rfl
@[simp] theorem State.putSett_links (s : State) (n : Nat) (t : Sett) : (s.putSett n t).links = s.links := rfl
@[simp] theorem State.putSett_journal (s : State) (n : Nat) (t : Sett) : (s.putSett n t).journal = s.journal := rfl
@[simp] theorem State.putSett_ovf (s : State) (n : Nat) (t : Sett) : (s.putSett n t).ovf = s.ovf := rfl
@[simp] theorem State.putSett_coalesce (s : State) (n : Nat) (t : Sett) : (s.putSett n t).coalesce = s.coalesce := rfl
@[simp] theorem State.putSett_bootCount (s : State) (n : Nat) (t : Sett) : (s.putSett n t).bootCount = s.bootCount := rfl
@[simp] theorem State.putSett_config (s : State) (n : Nat) (t : Sett) : (s.putSett n t).config = s.config := rfl
@[simp] theorem State.putSett_pendingConfig (s : State) (n : Nat) (t : Sett) : (s.putSett n t).pendingConfig = s.pendingConfig := rfl
@[simp] theorem State.putSett_platformLog (s : State) (n : Nat) (t : Sett) : (s.putSett n t).platformLog = s.platformLog := rfl
@[simp] theorem State.putSett_reports (s : State) (n : Nat) (t : Sett) : (s.putSett n t).reports = s.reports := rfl
@[simp] theorem State.putSett_residencySeq (s : State) (n : Nat) (t : Sett) : (s.putSett n t).residencySeq = s.residencySeq := rfl
@[simp] theorem State.putSett_residencyDue (s : State) (n : Nat) (t : Sett) : (s.putSett n t).residencyDue = s.residencyDue := rfl
@[simp] theorem State.putSett_memScanDue (s : State) (n : Nat) (t : Sett) : (s.putSett n t).memScanDue = s.memScanDue := rfl
@[simp] theorem State.putSett_capDue (s : State) (n : Nat) (t : Sett) : (s.putSett n t).capDue = s.capDue := rfl

/-! ## `putWorld` -/

@[simp] theorem State.putWorld_booted (s : State) (w : Nat) (x : World) : (s.putWorld w x).booted = s.booted := rfl
@[simp] theorem State.putWorld_recovery (s : State) (w : Nat) (x : World) : (s.putWorld w x).recovery = s.recovery := rfl
@[simp] theorem State.putWorld_cycle (s : State) (w : Nat) (x : World) : (s.putWorld w x).cycle = s.cycle := rfl
@[simp] theorem State.putWorld_time (s : State) (w : Nat) (x : World) : (s.putWorld w x).time = s.time := rfl
@[simp] theorem State.putWorld_turn (s : State) (w : Nat) (x : World) : (s.putWorld w x).turn = s.turn := rfl
@[simp] theorem State.putWorld_inbox (s : State) (w : Nat) (x : World) : (s.putWorld w x).inbox = s.inbox := rfl
@[simp] theorem State.putWorld_actCore (s : State) (w : Nat) (x : World) : (s.putWorld w x).actCore = s.actCore := rfl
@[simp] theorem State.putWorld_actSlot (s : State) (w : Nat) (x : World) : (s.putWorld w x).actSlot = s.actSlot := rfl
@[simp] theorem State.putWorld_freeCount (s : State) (w : Nat) (x : World) : (s.putWorld w x).freeCount = s.freeCount := rfl
@[simp] theorem State.putWorld_nextId (s : State) (w : Nat) (x : World) : (s.putWorld w x).nextId = s.nextId := rfl
@[simp] theorem State.putWorld_ptsTicks (s : State) (w : Nat) (x : World) : (s.putWorld w x).ptsTicks = s.ptsTicks := rfl
@[simp] theorem State.putWorld_idle (s : State) (w : Nat) (x : World) : (s.putWorld w x).idle = s.idle := rfl
@[simp] theorem State.putWorld_cap (s : State) (w : Nat) (x : World) : (s.putWorld w x).cap = s.cap := rfl
@[simp] theorem State.putWorld_share (s : State) (w : Nat) (x : World) : (s.putWorld w x).share = s.share := rfl
@[simp] theorem State.putWorld_alarm (s : State) (w : Nat) (x : World) : (s.putWorld w x).alarm = s.alarm := rfl
@[simp] theorem State.putWorld_cores (s : State) (w : Nat) (x : World) : (s.putWorld w x).cores = s.cores := rfl
@[simp] theorem State.putWorld_setts (s : State) (w : Nat) (x : World) : (s.putWorld w x).setts = s.setts := rfl
@[simp] theorem State.putWorld_mem (s : State) (w : Nat) (x : World) : (s.putWorld w x).mem = s.mem := rfl
@[simp] theorem State.putWorld_poison (s : State) (w : Nat) (x : World) : (s.putWorld w x).poison = s.poison := rfl
@[simp] theorem State.putWorld_unsettled (s : State) (w : Nat) (x : World) : (s.putWorld w x).unsettled = s.unsettled := rfl
@[simp] theorem State.putWorld_home (s : State) (w : Nat) (x : World) : (s.putWorld w x).home = s.home := rfl
@[simp] theorem State.putWorld_homeFloor (s : State) (w : Nat) (x : World) : (s.putWorld w x).homeFloor = s.homeFloor := rfl
@[simp] theorem State.putWorld_l2hts (s : State) (w : Nat) (x : World) : (s.putWorld w x).l2hts = s.l2hts := rfl
@[simp] theorem State.putWorld_llchts (s : State) (w : Nat) (x : World) : (s.putWorld w x).llchts = s.llchts := rfl
@[simp] theorem State.putWorld_l2 (s : State) (w : Nat) (x : World) : (s.putWorld w x).l2 = s.l2 := rfl
@[simp] theorem State.putWorld_llc (s : State) (w : Nat) (x : World) : (s.putWorld w x).llc = s.llc := rfl
@[simp] theorem State.putWorld_walks (s : State) (w : Nat) (x : World) : (s.putWorld w x).walks = s.walks := rfl
@[simp] theorem State.putWorld_inflight (s : State) (w : Nat) (x : World) : (s.putWorld w x).inflight = s.inflight := rfl
@[simp] theorem State.putWorld_settling (s : State) (w : Nat) (x : World) : (s.putWorld w x).settling = s.settling := rfl
@[simp] theorem State.putWorld_units (s : State) (w : Nat) (x : World) : (s.putWorld w x).units = s.units := rfl
@[simp] theorem State.putWorld_homeTab (s : State) (w : Nat) (x : World) : (s.putWorld w x).homeTab = s.homeTab := rfl
@[simp] theorem State.putWorld_worlds (s : State) (w : Nat) (x : World) : (s.putWorld w x).worlds = AMap.put s.worlds w x := rfl
@[simp] theorem State.putWorld_gangs (s : State) (w : Nat) (x : World) : (s.putWorld w x).gangs = s.gangs := rfl
@[simp] theorem State.putWorld_queues (s : State) (w : Nat) (x : World) : (s.putWorld w x).queues = s.queues := rfl
@[simp] theorem State.putWorld_feUnits (s : State) (w : Nat) (x : World) : (s.putWorld w x).feUnits = s.feUnits := rfl
@[simp] theorem State.putWorld_feStamp (s : State) (w : Nat) (x : World) : (s.putWorld w x).feStamp = s.feStamp := rfl
@[simp] theorem State.putWorld_shoots (s : State) (w : Nat) (x : World) : (s.putWorld w x).shoots = s.shoots := rfl
@[simp] theorem State.putWorld_burrows (s : State) (w : Nat) (x : World) : (s.putWorld w x).burrows = s.burrows := rfl
@[simp] theorem State.putWorld_fmtWins (s : State) (w : Nat) (x : World) : (s.putWorld w x).fmtWins = s.fmtWins := rfl
@[simp] theorem State.putWorld_fabIn (s : State) (w : Nat) (x : World) : (s.putWorld w x).fabIn = s.fabIn := rfl
@[simp] theorem State.putWorld_spoils (s : State) (w : Nat) (x : World) : (s.putWorld w x).spoils = s.spoils := rfl
@[simp] theorem State.putWorld_exports (s : State) (w : Nat) (x : World) : (s.putWorld w x).exports = s.exports := rfl
@[simp] theorem State.putWorld_keys (s : State) (w : Nat) (x : World) : (s.putWorld w x).keys = s.keys := rfl
@[simp] theorem State.putWorld_links (s : State) (w : Nat) (x : World) : (s.putWorld w x).links = s.links := rfl
@[simp] theorem State.putWorld_journal (s : State) (w : Nat) (x : World) : (s.putWorld w x).journal = s.journal := rfl
@[simp] theorem State.putWorld_ovf (s : State) (w : Nat) (x : World) : (s.putWorld w x).ovf = s.ovf := rfl
@[simp] theorem State.putWorld_coalesce (s : State) (w : Nat) (x : World) : (s.putWorld w x).coalesce = s.coalesce := rfl
@[simp] theorem State.putWorld_bootCount (s : State) (w : Nat) (x : World) : (s.putWorld w x).bootCount = s.bootCount := rfl
@[simp] theorem State.putWorld_config (s : State) (w : Nat) (x : World) : (s.putWorld w x).config = s.config := rfl
@[simp] theorem State.putWorld_pendingConfig (s : State) (w : Nat) (x : World) : (s.putWorld w x).pendingConfig = s.pendingConfig := rfl
@[simp] theorem State.putWorld_platformLog (s : State) (w : Nat) (x : World) : (s.putWorld w x).platformLog = s.platformLog := rfl
@[simp] theorem State.putWorld_reports (s : State) (w : Nat) (x : World) : (s.putWorld w x).reports = s.reports := rfl
@[simp] theorem State.putWorld_residencySeq (s : State) (w : Nat) (x : World) : (s.putWorld w x).residencySeq = s.residencySeq := rfl
@[simp] theorem State.putWorld_residencyDue (s : State) (w : Nat) (x : World) : (s.putWorld w x).residencyDue = s.residencyDue := rfl
@[simp] theorem State.putWorld_memScanDue (s : State) (w : Nat) (x : World) : (s.putWorld w x).memScanDue = s.memScanDue := rfl
@[simp] theorem State.putWorld_capDue (s : State) (w : Nat) (x : World) : (s.putWorld w x).capDue = s.capDue := rfl

/-! ## `putGang` -/

@[simp] theorem State.putGang_booted (s : State) (g : Nat) (x : Gang) : (s.putGang g x).booted = s.booted := rfl
@[simp] theorem State.putGang_recovery (s : State) (g : Nat) (x : Gang) : (s.putGang g x).recovery = s.recovery := rfl
@[simp] theorem State.putGang_cycle (s : State) (g : Nat) (x : Gang) : (s.putGang g x).cycle = s.cycle := rfl
@[simp] theorem State.putGang_time (s : State) (g : Nat) (x : Gang) : (s.putGang g x).time = s.time := rfl
@[simp] theorem State.putGang_turn (s : State) (g : Nat) (x : Gang) : (s.putGang g x).turn = s.turn := rfl
@[simp] theorem State.putGang_inbox (s : State) (g : Nat) (x : Gang) : (s.putGang g x).inbox = s.inbox := rfl
@[simp] theorem State.putGang_actCore (s : State) (g : Nat) (x : Gang) : (s.putGang g x).actCore = s.actCore := rfl
@[simp] theorem State.putGang_actSlot (s : State) (g : Nat) (x : Gang) : (s.putGang g x).actSlot = s.actSlot := rfl
@[simp] theorem State.putGang_freeCount (s : State) (g : Nat) (x : Gang) : (s.putGang g x).freeCount = s.freeCount := rfl
@[simp] theorem State.putGang_nextId (s : State) (g : Nat) (x : Gang) : (s.putGang g x).nextId = s.nextId := rfl
@[simp] theorem State.putGang_ptsTicks (s : State) (g : Nat) (x : Gang) : (s.putGang g x).ptsTicks = s.ptsTicks := rfl
@[simp] theorem State.putGang_idle (s : State) (g : Nat) (x : Gang) : (s.putGang g x).idle = s.idle := rfl
@[simp] theorem State.putGang_cap (s : State) (g : Nat) (x : Gang) : (s.putGang g x).cap = s.cap := rfl
@[simp] theorem State.putGang_share (s : State) (g : Nat) (x : Gang) : (s.putGang g x).share = s.share := rfl
@[simp] theorem State.putGang_alarm (s : State) (g : Nat) (x : Gang) : (s.putGang g x).alarm = s.alarm := rfl
@[simp] theorem State.putGang_cores (s : State) (g : Nat) (x : Gang) : (s.putGang g x).cores = s.cores := rfl
@[simp] theorem State.putGang_setts (s : State) (g : Nat) (x : Gang) : (s.putGang g x).setts = s.setts := rfl
@[simp] theorem State.putGang_mem (s : State) (g : Nat) (x : Gang) : (s.putGang g x).mem = s.mem := rfl
@[simp] theorem State.putGang_poison (s : State) (g : Nat) (x : Gang) : (s.putGang g x).poison = s.poison := rfl
@[simp] theorem State.putGang_unsettled (s : State) (g : Nat) (x : Gang) : (s.putGang g x).unsettled = s.unsettled := rfl
@[simp] theorem State.putGang_home (s : State) (g : Nat) (x : Gang) : (s.putGang g x).home = s.home := rfl
@[simp] theorem State.putGang_homeFloor (s : State) (g : Nat) (x : Gang) : (s.putGang g x).homeFloor = s.homeFloor := rfl
@[simp] theorem State.putGang_l2hts (s : State) (g : Nat) (x : Gang) : (s.putGang g x).l2hts = s.l2hts := rfl
@[simp] theorem State.putGang_llchts (s : State) (g : Nat) (x : Gang) : (s.putGang g x).llchts = s.llchts := rfl
@[simp] theorem State.putGang_l2 (s : State) (g : Nat) (x : Gang) : (s.putGang g x).l2 = s.l2 := rfl
@[simp] theorem State.putGang_llc (s : State) (g : Nat) (x : Gang) : (s.putGang g x).llc = s.llc := rfl
@[simp] theorem State.putGang_walks (s : State) (g : Nat) (x : Gang) : (s.putGang g x).walks = s.walks := rfl
@[simp] theorem State.putGang_inflight (s : State) (g : Nat) (x : Gang) : (s.putGang g x).inflight = s.inflight := rfl
@[simp] theorem State.putGang_settling (s : State) (g : Nat) (x : Gang) : (s.putGang g x).settling = s.settling := rfl
@[simp] theorem State.putGang_units (s : State) (g : Nat) (x : Gang) : (s.putGang g x).units = s.units := rfl
@[simp] theorem State.putGang_homeTab (s : State) (g : Nat) (x : Gang) : (s.putGang g x).homeTab = s.homeTab := rfl
@[simp] theorem State.putGang_worlds (s : State) (g : Nat) (x : Gang) : (s.putGang g x).worlds = s.worlds := rfl
@[simp] theorem State.putGang_gangs (s : State) (g : Nat) (x : Gang) : (s.putGang g x).gangs = AMap.put s.gangs g x := rfl
@[simp] theorem State.putGang_queues (s : State) (g : Nat) (x : Gang) : (s.putGang g x).queues = s.queues := rfl
@[simp] theorem State.putGang_feUnits (s : State) (g : Nat) (x : Gang) : (s.putGang g x).feUnits = s.feUnits := rfl
@[simp] theorem State.putGang_feStamp (s : State) (g : Nat) (x : Gang) : (s.putGang g x).feStamp = s.feStamp := rfl
@[simp] theorem State.putGang_shoots (s : State) (g : Nat) (x : Gang) : (s.putGang g x).shoots = s.shoots := rfl
@[simp] theorem State.putGang_burrows (s : State) (g : Nat) (x : Gang) : (s.putGang g x).burrows = s.burrows := rfl
@[simp] theorem State.putGang_fmtWins (s : State) (g : Nat) (x : Gang) : (s.putGang g x).fmtWins = s.fmtWins := rfl
@[simp] theorem State.putGang_fabIn (s : State) (g : Nat) (x : Gang) : (s.putGang g x).fabIn = s.fabIn := rfl
@[simp] theorem State.putGang_spoils (s : State) (g : Nat) (x : Gang) : (s.putGang g x).spoils = s.spoils := rfl
@[simp] theorem State.putGang_exports (s : State) (g : Nat) (x : Gang) : (s.putGang g x).exports = s.exports := rfl
@[simp] theorem State.putGang_keys (s : State) (g : Nat) (x : Gang) : (s.putGang g x).keys = s.keys := rfl
@[simp] theorem State.putGang_links (s : State) (g : Nat) (x : Gang) : (s.putGang g x).links = s.links := rfl
@[simp] theorem State.putGang_journal (s : State) (g : Nat) (x : Gang) : (s.putGang g x).journal = s.journal := rfl
@[simp] theorem State.putGang_ovf (s : State) (g : Nat) (x : Gang) : (s.putGang g x).ovf = s.ovf := rfl
@[simp] theorem State.putGang_coalesce (s : State) (g : Nat) (x : Gang) : (s.putGang g x).coalesce = s.coalesce := rfl
@[simp] theorem State.putGang_bootCount (s : State) (g : Nat) (x : Gang) : (s.putGang g x).bootCount = s.bootCount := rfl
@[simp] theorem State.putGang_config (s : State) (g : Nat) (x : Gang) : (s.putGang g x).config = s.config := rfl
@[simp] theorem State.putGang_pendingConfig (s : State) (g : Nat) (x : Gang) : (s.putGang g x).pendingConfig = s.pendingConfig := rfl
@[simp] theorem State.putGang_platformLog (s : State) (g : Nat) (x : Gang) : (s.putGang g x).platformLog = s.platformLog := rfl
@[simp] theorem State.putGang_reports (s : State) (g : Nat) (x : Gang) : (s.putGang g x).reports = s.reports := rfl
@[simp] theorem State.putGang_residencySeq (s : State) (g : Nat) (x : Gang) : (s.putGang g x).residencySeq = s.residencySeq := rfl
@[simp] theorem State.putGang_residencyDue (s : State) (g : Nat) (x : Gang) : (s.putGang g x).residencyDue = s.residencyDue := rfl
@[simp] theorem State.putGang_memScanDue (s : State) (g : Nat) (x : Gang) : (s.putGang g x).memScanDue = s.memScanDue := rfl
@[simp] theorem State.putGang_capDue (s : State) (g : Nat) (x : Gang) : (s.putGang g x).capDue = s.capDue := rfl

/-! ## `putQueue` -/

@[simp] theorem State.putQueue_booted (s : State) (q : Nat) (x : Queue) : (s.putQueue q x).booted = s.booted := rfl
@[simp] theorem State.putQueue_recovery (s : State) (q : Nat) (x : Queue) : (s.putQueue q x).recovery = s.recovery := rfl
@[simp] theorem State.putQueue_cycle (s : State) (q : Nat) (x : Queue) : (s.putQueue q x).cycle = s.cycle := rfl
@[simp] theorem State.putQueue_time (s : State) (q : Nat) (x : Queue) : (s.putQueue q x).time = s.time := rfl
@[simp] theorem State.putQueue_turn (s : State) (q : Nat) (x : Queue) : (s.putQueue q x).turn = s.turn := rfl
@[simp] theorem State.putQueue_inbox (s : State) (q : Nat) (x : Queue) : (s.putQueue q x).inbox = s.inbox := rfl
@[simp] theorem State.putQueue_actCore (s : State) (q : Nat) (x : Queue) : (s.putQueue q x).actCore = s.actCore := rfl
@[simp] theorem State.putQueue_actSlot (s : State) (q : Nat) (x : Queue) : (s.putQueue q x).actSlot = s.actSlot := rfl
@[simp] theorem State.putQueue_freeCount (s : State) (q : Nat) (x : Queue) : (s.putQueue q x).freeCount = s.freeCount := rfl
@[simp] theorem State.putQueue_nextId (s : State) (q : Nat) (x : Queue) : (s.putQueue q x).nextId = s.nextId := rfl
@[simp] theorem State.putQueue_ptsTicks (s : State) (q : Nat) (x : Queue) : (s.putQueue q x).ptsTicks = s.ptsTicks := rfl
@[simp] theorem State.putQueue_idle (s : State) (q : Nat) (x : Queue) : (s.putQueue q x).idle = s.idle := rfl
@[simp] theorem State.putQueue_cap (s : State) (q : Nat) (x : Queue) : (s.putQueue q x).cap = s.cap := rfl
@[simp] theorem State.putQueue_share (s : State) (q : Nat) (x : Queue) : (s.putQueue q x).share = s.share := rfl
@[simp] theorem State.putQueue_alarm (s : State) (q : Nat) (x : Queue) : (s.putQueue q x).alarm = s.alarm := rfl
@[simp] theorem State.putQueue_cores (s : State) (q : Nat) (x : Queue) : (s.putQueue q x).cores = s.cores := rfl
@[simp] theorem State.putQueue_setts (s : State) (q : Nat) (x : Queue) : (s.putQueue q x).setts = s.setts := rfl
@[simp] theorem State.putQueue_mem (s : State) (q : Nat) (x : Queue) : (s.putQueue q x).mem = s.mem := rfl
@[simp] theorem State.putQueue_poison (s : State) (q : Nat) (x : Queue) : (s.putQueue q x).poison = s.poison := rfl
@[simp] theorem State.putQueue_unsettled (s : State) (q : Nat) (x : Queue) : (s.putQueue q x).unsettled = s.unsettled := rfl
@[simp] theorem State.putQueue_home (s : State) (q : Nat) (x : Queue) : (s.putQueue q x).home = s.home := rfl
@[simp] theorem State.putQueue_homeFloor (s : State) (q : Nat) (x : Queue) : (s.putQueue q x).homeFloor = s.homeFloor := rfl
@[simp] theorem State.putQueue_l2hts (s : State) (q : Nat) (x : Queue) : (s.putQueue q x).l2hts = s.l2hts := rfl
@[simp] theorem State.putQueue_llchts (s : State) (q : Nat) (x : Queue) : (s.putQueue q x).llchts = s.llchts := rfl
@[simp] theorem State.putQueue_l2 (s : State) (q : Nat) (x : Queue) : (s.putQueue q x).l2 = s.l2 := rfl
@[simp] theorem State.putQueue_llc (s : State) (q : Nat) (x : Queue) : (s.putQueue q x).llc = s.llc := rfl
@[simp] theorem State.putQueue_walks (s : State) (q : Nat) (x : Queue) : (s.putQueue q x).walks = s.walks := rfl
@[simp] theorem State.putQueue_inflight (s : State) (q : Nat) (x : Queue) : (s.putQueue q x).inflight = s.inflight := rfl
@[simp] theorem State.putQueue_settling (s : State) (q : Nat) (x : Queue) : (s.putQueue q x).settling = s.settling := rfl
@[simp] theorem State.putQueue_units (s : State) (q : Nat) (x : Queue) : (s.putQueue q x).units = s.units := rfl
@[simp] theorem State.putQueue_homeTab (s : State) (q : Nat) (x : Queue) : (s.putQueue q x).homeTab = s.homeTab := rfl
@[simp] theorem State.putQueue_worlds (s : State) (q : Nat) (x : Queue) : (s.putQueue q x).worlds = s.worlds := rfl
@[simp] theorem State.putQueue_gangs (s : State) (q : Nat) (x : Queue) : (s.putQueue q x).gangs = s.gangs := rfl
@[simp] theorem State.putQueue_queues (s : State) (q : Nat) (x : Queue) : (s.putQueue q x).queues = AMap.put s.queues q x := rfl
@[simp] theorem State.putQueue_feUnits (s : State) (q : Nat) (x : Queue) : (s.putQueue q x).feUnits = s.feUnits := rfl
@[simp] theorem State.putQueue_feStamp (s : State) (q : Nat) (x : Queue) : (s.putQueue q x).feStamp = s.feStamp := rfl
@[simp] theorem State.putQueue_shoots (s : State) (q : Nat) (x : Queue) : (s.putQueue q x).shoots = s.shoots := rfl
@[simp] theorem State.putQueue_burrows (s : State) (q : Nat) (x : Queue) : (s.putQueue q x).burrows = s.burrows := rfl
@[simp] theorem State.putQueue_fmtWins (s : State) (q : Nat) (x : Queue) : (s.putQueue q x).fmtWins = s.fmtWins := rfl
@[simp] theorem State.putQueue_fabIn (s : State) (q : Nat) (x : Queue) : (s.putQueue q x).fabIn = s.fabIn := rfl
@[simp] theorem State.putQueue_spoils (s : State) (q : Nat) (x : Queue) : (s.putQueue q x).spoils = s.spoils := rfl
@[simp] theorem State.putQueue_exports (s : State) (q : Nat) (x : Queue) : (s.putQueue q x).exports = s.exports := rfl
@[simp] theorem State.putQueue_keys (s : State) (q : Nat) (x : Queue) : (s.putQueue q x).keys = s.keys := rfl
@[simp] theorem State.putQueue_links (s : State) (q : Nat) (x : Queue) : (s.putQueue q x).links = s.links := rfl
@[simp] theorem State.putQueue_journal (s : State) (q : Nat) (x : Queue) : (s.putQueue q x).journal = s.journal := rfl
@[simp] theorem State.putQueue_ovf (s : State) (q : Nat) (x : Queue) : (s.putQueue q x).ovf = s.ovf := rfl
@[simp] theorem State.putQueue_coalesce (s : State) (q : Nat) (x : Queue) : (s.putQueue q x).coalesce = s.coalesce := rfl
@[simp] theorem State.putQueue_bootCount (s : State) (q : Nat) (x : Queue) : (s.putQueue q x).bootCount = s.bootCount := rfl
@[simp] theorem State.putQueue_config (s : State) (q : Nat) (x : Queue) : (s.putQueue q x).config = s.config := rfl
@[simp] theorem State.putQueue_pendingConfig (s : State) (q : Nat) (x : Queue) : (s.putQueue q x).pendingConfig = s.pendingConfig := rfl
@[simp] theorem State.putQueue_platformLog (s : State) (q : Nat) (x : Queue) : (s.putQueue q x).platformLog = s.platformLog := rfl
@[simp] theorem State.putQueue_reports (s : State) (q : Nat) (x : Queue) : (s.putQueue q x).reports = s.reports := rfl
@[simp] theorem State.putQueue_residencySeq (s : State) (q : Nat) (x : Queue) : (s.putQueue q x).residencySeq = s.residencySeq := rfl
@[simp] theorem State.putQueue_residencyDue (s : State) (q : Nat) (x : Queue) : (s.putQueue q x).residencyDue = s.residencyDue := rfl
@[simp] theorem State.putQueue_memScanDue (s : State) (q : Nat) (x : Queue) : (s.putQueue q x).memScanDue = s.memScanDue := rfl
@[simp] theorem State.putQueue_capDue (s : State) (q : Nat) (x : Queue) : (s.putQueue q x).capDue = s.capDue := rfl

/-! ## `report` -/

@[simp] theorem State.report_booted (s : State) (r : Report) : (s.report r).booted = s.booted := rfl
@[simp] theorem State.report_recovery (s : State) (r : Report) : (s.report r).recovery = s.recovery := rfl
@[simp] theorem State.report_cycle (s : State) (r : Report) : (s.report r).cycle = s.cycle := rfl
@[simp] theorem State.report_time (s : State) (r : Report) : (s.report r).time = s.time := rfl
@[simp] theorem State.report_turn (s : State) (r : Report) : (s.report r).turn = s.turn := rfl
@[simp] theorem State.report_inbox (s : State) (r : Report) : (s.report r).inbox = s.inbox := rfl
@[simp] theorem State.report_actCore (s : State) (r : Report) : (s.report r).actCore = s.actCore := rfl
@[simp] theorem State.report_actSlot (s : State) (r : Report) : (s.report r).actSlot = s.actSlot := rfl
@[simp] theorem State.report_freeCount (s : State) (r : Report) : (s.report r).freeCount = s.freeCount := rfl
@[simp] theorem State.report_nextId (s : State) (r : Report) : (s.report r).nextId = s.nextId := rfl
@[simp] theorem State.report_ptsTicks (s : State) (r : Report) : (s.report r).ptsTicks = s.ptsTicks := rfl
@[simp] theorem State.report_idle (s : State) (r : Report) : (s.report r).idle = s.idle := rfl
@[simp] theorem State.report_cap (s : State) (r : Report) : (s.report r).cap = s.cap := rfl
@[simp] theorem State.report_share (s : State) (r : Report) : (s.report r).share = s.share := rfl
@[simp] theorem State.report_alarm (s : State) (r : Report) : (s.report r).alarm = s.alarm := rfl
@[simp] theorem State.report_cores (s : State) (r : Report) : (s.report r).cores = s.cores := rfl
@[simp] theorem State.report_setts (s : State) (r : Report) : (s.report r).setts = s.setts := rfl
@[simp] theorem State.report_mem (s : State) (r : Report) : (s.report r).mem = s.mem := rfl
@[simp] theorem State.report_poison (s : State) (r : Report) : (s.report r).poison = s.poison := rfl
@[simp] theorem State.report_unsettled (s : State) (r : Report) : (s.report r).unsettled = s.unsettled := rfl
@[simp] theorem State.report_home (s : State) (r : Report) : (s.report r).home = s.home := rfl
@[simp] theorem State.report_homeFloor (s : State) (r : Report) : (s.report r).homeFloor = s.homeFloor := rfl
@[simp] theorem State.report_l2hts (s : State) (r : Report) : (s.report r).l2hts = s.l2hts := rfl
@[simp] theorem State.report_llchts (s : State) (r : Report) : (s.report r).llchts = s.llchts := rfl
@[simp] theorem State.report_l2 (s : State) (r : Report) : (s.report r).l2 = s.l2 := rfl
@[simp] theorem State.report_llc (s : State) (r : Report) : (s.report r).llc = s.llc := rfl
@[simp] theorem State.report_walks (s : State) (r : Report) : (s.report r).walks = s.walks := rfl
@[simp] theorem State.report_inflight (s : State) (r : Report) : (s.report r).inflight = s.inflight := rfl
@[simp] theorem State.report_settling (s : State) (r : Report) : (s.report r).settling = s.settling := rfl
@[simp] theorem State.report_units (s : State) (r : Report) : (s.report r).units = s.units := rfl
@[simp] theorem State.report_homeTab (s : State) (r : Report) : (s.report r).homeTab = s.homeTab := rfl
@[simp] theorem State.report_worlds (s : State) (r : Report) : (s.report r).worlds = s.worlds := rfl
@[simp] theorem State.report_gangs (s : State) (r : Report) : (s.report r).gangs = s.gangs := rfl
@[simp] theorem State.report_queues (s : State) (r : Report) : (s.report r).queues = s.queues := rfl
@[simp] theorem State.report_feUnits (s : State) (r : Report) : (s.report r).feUnits = s.feUnits := rfl
@[simp] theorem State.report_feStamp (s : State) (r : Report) : (s.report r).feStamp = s.feStamp := rfl
@[simp] theorem State.report_shoots (s : State) (r : Report) : (s.report r).shoots = s.shoots := rfl
@[simp] theorem State.report_burrows (s : State) (r : Report) : (s.report r).burrows = s.burrows := rfl
@[simp] theorem State.report_fmtWins (s : State) (r : Report) : (s.report r).fmtWins = s.fmtWins := rfl
@[simp] theorem State.report_fabIn (s : State) (r : Report) : (s.report r).fabIn = s.fabIn := rfl
@[simp] theorem State.report_spoils (s : State) (r : Report) : (s.report r).spoils = s.spoils := rfl
@[simp] theorem State.report_exports (s : State) (r : Report) : (s.report r).exports = s.exports := rfl
@[simp] theorem State.report_keys (s : State) (r : Report) : (s.report r).keys = s.keys := rfl
@[simp] theorem State.report_links (s : State) (r : Report) : (s.report r).links = s.links := rfl
@[simp] theorem State.report_journal (s : State) (r : Report) : (s.report r).journal = s.journal := rfl
@[simp] theorem State.report_ovf (s : State) (r : Report) : (s.report r).ovf = s.ovf := rfl
@[simp] theorem State.report_coalesce (s : State) (r : Report) : (s.report r).coalesce = s.coalesce := rfl
@[simp] theorem State.report_bootCount (s : State) (r : Report) : (s.report r).bootCount = s.bootCount := rfl
@[simp] theorem State.report_config (s : State) (r : Report) : (s.report r).config = s.config := rfl
@[simp] theorem State.report_pendingConfig (s : State) (r : Report) : (s.report r).pendingConfig = s.pendingConfig := rfl
@[simp] theorem State.report_platformLog (s : State) (r : Report) : (s.report r).platformLog = s.platformLog := rfl
@[simp] theorem State.report_reports (s : State) (r : Report) : (s.report r).reports = s.reports ++ [r] := rfl
@[simp] theorem State.report_residencySeq (s : State) (r : Report) : (s.report r).residencySeq = s.residencySeq := rfl
@[simp] theorem State.report_residencyDue (s : State) (r : Report) : (s.report r).residencyDue = s.residencyDue := rfl
@[simp] theorem State.report_memScanDue (s : State) (r : Report) : (s.report r).memScanDue = s.memScanDue := rfl
@[simp] theorem State.report_capDue (s : State) (r : Report) : (s.report r).capDue = s.capDue := rfl

/-! ## Derived updates -/

theorem State.modCore_eq (s : State) (c : Nat) (f : Core → Core) : s.modCore c f = s.putCore c (f (s.core c)) := rfl
theorem State.modSlot_eq (s : State) (c i : Nat) (f : Slot → Slot) :
    s.modSlot c i f = s.putCore c ((s.core c).putSlot i (f (s.slot c i))) := rfl
theorem State.modTask_eq (s : State) (c w : Nat) (f : Task → Task) :
    s.modTask c w f = s.putCore c ((s.core c).putTask w (f (s.task c w))) := rfl
theorem State.modCurSlot_eq (s : State) (f : Slot → Slot) :
    s.modCurSlot f = s.putCore s.actCore (s.cur.putSlot s.actSlot (f s.curSlot)) := rfl
theorem State.modCurTask_eq (s : State) (f : Task → Task) :
    s.modCurTask f = s.putCore s.actCore (s.cur.putTask s.curWs (f s.curTask)) := rfl

/-! ## Accessors after puts -/

@[simp] theorem State.core_putCore_same (s : State) (c : Nat) (k : Core) : (s.putCore c k).core c = k := by
  simp [State.core]
theorem State.core_putCore_ne (s : State) {c d : Nat} (k : Core) (h : d ≠ c) : (s.putCore c k).core d = s.core d := by
  simp [State.core, AMap.get_put_ne _ _ _ h]
theorem State.core_putCore (s : State) (c d : Nat) (k : Core) :
    (s.putCore c k).core d = if d = c then k else s.core d := by
  simp [State.core, AMap.get_put]
@[simp] theorem State.putCore_putCore (s : State) (c : Nat) (k l : Core) : (s.putCore c k).putCore c l = s.putCore c l := by
  simp [State.putCore]
@[simp] theorem State.sett_putSett_same (s : State) (c : Nat) (k : Sett) : (s.putSett c k).sett c = k := by
  simp [State.sett]
theorem State.sett_putSett (s : State) (c d : Nat) (k : Sett) : (s.putSett c k).sett d = if d = c then k else s.sett d := by
  simp [State.sett, AMap.get_put]
@[simp] theorem State.world_putWorld_same (s : State) (c : Nat) (k : World) : (s.putWorld c k).world c = k := by
  simp [State.world]
theorem State.world_putWorld (s : State) (c d : Nat) (k : World) : (s.putWorld c k).world d = if d = c then k else s.world d := by
  simp [State.world, AMap.get_put]
@[simp] theorem State.gang_putGang_same (s : State) (c : Nat) (k : Gang) : (s.putGang c k).gang c = k := by
  simp [State.gang]
theorem State.gang_putGang (s : State) (c d : Nat) (k : Gang) : (s.putGang c k).gang d = if d = c then k else s.gang d := by
  simp [State.gang, AMap.get_put]
@[simp] theorem State.queue_putQueue_same (s : State) (c : Nat) (k : Queue) : (s.putQueue c k).queue c = k := by
  simp [State.queue]
theorem State.queue_putQueue (s : State) (c d : Nat) (k : Queue) : (s.putQueue c k).queue d = if d = c then k else s.queue d := by
  simp [State.queue, AMap.get_put]
@[simp] theorem State.sett_putCore (s : State) (c : Nat) (k : Core) (y : Nat) : (s.putCore c k).sett y = s.sett y := rfl
@[simp] theorem State.world_putCore (s : State) (c : Nat) (k : Core) (y : Nat) : (s.putCore c k).world y = s.world y := rfl
@[simp] theorem State.gang_putCore (s : State) (c : Nat) (k : Core) (y : Nat) : (s.putCore c k).gang y = s.gang y := rfl
@[simp] theorem State.queue_putCore (s : State) (c : Nat) (k : Core) (y : Nat) : (s.putCore c k).queue y = s.queue y := rfl
@[simp] theorem State.core_putSett (s : State) (n : Nat) (t : Sett) (y : Nat) : (s.putSett n t).core y = s.core y := rfl
@[simp] theorem State.world_putSett (s : State) (n : Nat) (t : Sett) (y : Nat) : (s.putSett n t).world y = s.world y := rfl
@[simp] theorem State.gang_putSett (s : State) (n : Nat) (t : Sett) (y : Nat) : (s.putSett n t).gang y = s.gang y := rfl
@[simp] theorem State.queue_putSett (s : State) (n : Nat) (t : Sett) (y : Nat) : (s.putSett n t).queue y = s.queue y := rfl
@[simp] theorem State.core_putWorld (s : State) (w : Nat) (x : World) (y : Nat) : (s.putWorld w x).core y = s.core y := rfl
@[simp] theorem State.sett_putWorld (s : State) (w : Nat) (x : World) (y : Nat) : (s.putWorld w x).sett y = s.sett y := rfl
@[simp] theorem State.gang_putWorld (s : State) (w : Nat) (x : World) (y : Nat) : (s.putWorld w x).gang y = s.gang y := rfl
@[simp] theorem State.queue_putWorld (s : State) (w : Nat) (x : World) (y : Nat) : (s.putWorld w x).queue y = s.queue y := rfl
@[simp] theorem State.core_putGang (s : State) (g : Nat) (x : Gang) (y : Nat) : (s.putGang g x).core y = s.core y := rfl
@[simp] theorem State.sett_putGang (s : State) (g : Nat) (x : Gang) (y : Nat) : (s.putGang g x).sett y = s.sett y := rfl
@[simp] theorem State.world_putGang (s : State) (g : Nat) (x : Gang) (y : Nat) : (s.putGang g x).world y = s.world y := rfl
@[simp] theorem State.queue_putGang (s : State) (g : Nat) (x : Gang) (y : Nat) : (s.putGang g x).queue y = s.queue y := rfl
@[simp] theorem State.core_putQueue (s : State) (q : Nat) (x : Queue) (y : Nat) : (s.putQueue q x).core y = s.core y := rfl
@[simp] theorem State.sett_putQueue (s : State) (q : Nat) (x : Queue) (y : Nat) : (s.putQueue q x).sett y = s.sett y := rfl
@[simp] theorem State.world_putQueue (s : State) (q : Nat) (x : Queue) (y : Nat) : (s.putQueue q x).world y = s.world y := rfl
@[simp] theorem State.gang_putQueue (s : State) (q : Nat) (x : Queue) (y : Nat) : (s.putQueue q x).gang y = s.gang y := rfl
@[simp] theorem State.core_report (s : State) (r : Report) (y : Nat) : (s.report r).core y = s.core y := rfl
@[simp] theorem State.sett_report (s : State) (r : Report) (y : Nat) : (s.report r).sett y = s.sett y := rfl
@[simp] theorem State.world_report (s : State) (r : Report) (y : Nat) : (s.report r).world y = s.world y := rfl
@[simp] theorem State.gang_report (s : State) (r : Report) (y : Nat) : (s.report r).gang y = s.gang y := rfl
@[simp] theorem State.queue_report (s : State) (r : Report) (y : Nat) : (s.report r).queue y = s.queue y := rfl

/-! ## `Core.putSlot` -/

@[simp] theorem Core.putSlot_world (k : Core) (i : Nat) (x : Slot) : (k.putSlot i x).world = k.world := rfl
@[simp] theorem Core.putSlot_gang (k : Core) (i : Nat) (x : Slot) : (k.putSlot i x).gang = k.gang := rfl
@[simp] theorem Core.putSlot_scratch (k : Core) (i : Nat) (x : Slot) : (k.putSlot i x).scratch = k.scratch := rfl
@[simp] theorem Core.putSlot_full (k : Core) (i : Nat) (x : Slot) : (k.putSlot i x).full = k.full := rfl
@[simp] theorem Core.putSlot_spoison (k : Core) (i : Nat) (x : Slot) : (k.putSlot i x).spoison = k.spoison := rfl
@[simp] theorem Core.putSlot_hts (k : Core) (i : Nat) (x : Slot) : (k.putSlot i x).hts = k.hts := rfl
@[simp] theorem Core.putSlot_ptsOff (k : Core) (i : Nat) (x : Slot) : (k.putSlot i x).ptsOff = k.ptsOff := rfl
@[simp] theorem Core.putSlot_tq (k : Core) (i : Nat) (x : Slot) : (k.putSlot i x).tq = k.tq := rfl
@[simp] theorem Core.putSlot_tqNew (k : Core) (i : Nat) (x : Slot) : (k.putSlot i x).tqNew = k.tqNew := rfl
@[simp] theorem Core.putSlot_lease (k : Core) (i : Nat) (x : Slot) : (k.putSlot i x).lease = k.lease := rfl
@[simp] theorem Core.putSlot_commons (k : Core) (i : Nat) (x : Slot) : (k.putSlot i x).commons = k.commons := rfl
@[simp] theorem Core.putSlot_commonsNew (k : Core) (i : Nat) (x : Slot) : (k.putSlot i x).commonsNew = k.commonsNew := rfl
@[simp] theorem Core.putSlot_handles (k : Core) (i : Nat) (x : Slot) : (k.putSlot i x).handles = k.handles := rfl
@[simp] theorem Core.putSlot_edits (k : Core) (i : Nat) (x : Slot) : (k.putSlot i x).edits = k.edits := rfl
@[simp] theorem Core.putSlot_slots (k : Core) (i : Nat) (x : Slot) : (k.putSlot i x).slots = AMap.put k.slots i x := rfl
@[simp] theorem Core.putSlot_tasks (k : Core) (i : Nat) (x : Slot) : (k.putSlot i x).tasks = k.tasks := rfl
@[simp] theorem Core.putSlot_ready (k : Core) (i : Nat) (x : Slot) : (k.putSlot i x).ready = k.ready := rfl
@[simp] theorem Core.putSlot_feWait (k : Core) (i : Nat) (x : Slot) : (k.putSlot i x).feWait = k.feWait := rfl
@[simp] theorem Core.putSlot_clWait (k : Core) (i : Nat) (x : Slot) : (k.putSlot i x).clWait = k.clWait := rfl
@[simp] theorem Core.putSlot_sendWait (k : Core) (i : Nat) (x : Slot) : (k.putSlot i x).sendWait = k.sendWait := rfl
@[simp] theorem Core.putSlot_l1 (k : Core) (i : Nat) (x : Slot) : (k.putSlot i x).l1 = k.l1 := rfl
@[simp] theorem Core.putSlot_lmiss (k : Core) (i : Nat) (x : Slot) : (k.putSlot i x).lmiss = k.lmiss := rfl
@[simp] theorem Core.putSlot_icache (k : Core) (i : Nat) (x : Slot) : (k.putSlot i x).icache = k.icache := rfl
@[simp] theorem Core.putSlot_ireq (k : Core) (i : Nat) (x : Slot) : (k.putSlot i x).ireq = k.ireq := rfl
@[simp] theorem Core.putSlot_tlb (k : Core) (i : Nat) (x : Slot) : (k.putSlot i x).tlb = k.tlb := rfl
@[simp] theorem Core.putSlot_late (k : Core) (i : Nat) (x : Slot) : (k.putSlot i x).late = k.late := rfl
@[simp] theorem Core.putSlot_hcache (k : Core) (i : Nat) (x : Slot) : (k.putSlot i x).hcache = k.hcache := rfl
@[simp] theorem Core.putSlot_vq (k : Core) (i : Nat) (x : Slot) : (k.putSlot i x).vq = k.vq := rfl
@[simp] theorem Core.putSlot_vlast (k : Core) (i : Nat) (x : Slot) : (k.putSlot i x).vlast = k.vlast := rfl
@[simp] theorem Core.putSlot_nestLog (k : Core) (i : Nat) (x : Slot) : (k.putSlot i x).nestLog = k.nestLog := rfl
@[simp] theorem Core.putSlot_held (k : Core) (i : Nat) (x : Slot) : (k.putSlot i x).held = k.held := rfl
@[simp] theorem Core.putSlot_mq (k : Core) (i : Nat) (x : Slot) : (k.putSlot i x).mq = k.mq := rfl
@[simp] theorem Core.putSlot_jobOpen (k : Core) (i : Nat) (x : Slot) : (k.putSlot i x).jobOpen = k.jobOpen := rfl
@[simp] theorem Core.putSlot_jobCmds (k : Core) (i : Nat) (x : Slot) : (k.putSlot i x).jobCmds = k.jobCmds := rfl
@[simp] theorem Core.putSlot_jobCycles (k : Core) (i : Nat) (x : Slot) : (k.putSlot i x).jobCycles = k.jobCycles := rfl
@[simp] theorem Core.putSlot_shadowTag (k : Core) (i : Nat) (x : Slot) : (k.putSlot i x).shadowTag = k.shadowTag := rfl
@[simp] theorem Core.putSlot_activeTag (k : Core) (i : Nat) (x : Slot) : (k.putSlot i x).activeTag = k.activeTag := rfl
@[simp] theorem Core.putSlot_accTag0 (k : Core) (i : Nat) (x : Slot) : (k.putSlot i x).accTag0 = k.accTag0 := rfl
@[simp] theorem Core.putSlot_accTag1 (k : Core) (i : Nat) (x : Slot) : (k.putSlot i x).accTag1 = k.accTag1 := rfl
@[simp] theorem Core.putSlot_cq (k : Core) (i : Nat) (x : Slot) : (k.putSlot i x).cq = k.cq := rfl
@[simp] theorem Core.putSlot_tensors (k : Core) (i : Nat) (x : Slot) : (k.putSlot i x).tensors = k.tensors := rfl
@[simp] theorem Core.putSlot_sq (k : Core) (i : Nat) (x : Slot) : (k.putSlot i x).sq = k.sq := rfl
@[simp] theorem Core.putSlot_visit (k : Core) (i : Nat) (x : Slot) : (k.putSlot i x).visit = k.visit := rfl
@[simp] theorem Core.putSlot_scrubUntil (k : Core) (i : Nat) (x : Slot) : (k.putSlot i x).scrubUntil = k.scrubUntil := rfl
@[simp] theorem Core.putSlot_scanDue (k : Core) (i : Nat) (x : Slot) : (k.putSlot i x).scanDue = k.scanDue := rfl

/-! ## `Core.putTask` -/

@[simp] theorem Core.putTask_world (k : Core) (w : Nat) (t : Task) : (k.putTask w t).world = k.world := rfl
@[simp] theorem Core.putTask_gang (k : Core) (w : Nat) (t : Task) : (k.putTask w t).gang = k.gang := rfl
@[simp] theorem Core.putTask_scratch (k : Core) (w : Nat) (t : Task) : (k.putTask w t).scratch = k.scratch := rfl
@[simp] theorem Core.putTask_full (k : Core) (w : Nat) (t : Task) : (k.putTask w t).full = k.full := rfl
@[simp] theorem Core.putTask_spoison (k : Core) (w : Nat) (t : Task) : (k.putTask w t).spoison = k.spoison := rfl
@[simp] theorem Core.putTask_hts (k : Core) (w : Nat) (t : Task) : (k.putTask w t).hts = k.hts := rfl
@[simp] theorem Core.putTask_ptsOff (k : Core) (w : Nat) (t : Task) : (k.putTask w t).ptsOff = k.ptsOff := rfl
@[simp] theorem Core.putTask_tq (k : Core) (w : Nat) (t : Task) : (k.putTask w t).tq = k.tq := rfl
@[simp] theorem Core.putTask_tqNew (k : Core) (w : Nat) (t : Task) : (k.putTask w t).tqNew = k.tqNew := rfl
@[simp] theorem Core.putTask_lease (k : Core) (w : Nat) (t : Task) : (k.putTask w t).lease = k.lease := rfl
@[simp] theorem Core.putTask_commons (k : Core) (w : Nat) (t : Task) : (k.putTask w t).commons = k.commons := rfl
@[simp] theorem Core.putTask_commonsNew (k : Core) (w : Nat) (t : Task) : (k.putTask w t).commonsNew = k.commonsNew := rfl
@[simp] theorem Core.putTask_handles (k : Core) (w : Nat) (t : Task) : (k.putTask w t).handles = k.handles := rfl
@[simp] theorem Core.putTask_edits (k : Core) (w : Nat) (t : Task) : (k.putTask w t).edits = k.edits := rfl
@[simp] theorem Core.putTask_slots (k : Core) (w : Nat) (t : Task) : (k.putTask w t).slots = k.slots := rfl
@[simp] theorem Core.putTask_tasks (k : Core) (w : Nat) (t : Task) : (k.putTask w t).tasks = AMap.put k.tasks w t := rfl
@[simp] theorem Core.putTask_ready (k : Core) (w : Nat) (t : Task) : (k.putTask w t).ready = k.ready := rfl
@[simp] theorem Core.putTask_feWait (k : Core) (w : Nat) (t : Task) : (k.putTask w t).feWait = k.feWait := rfl
@[simp] theorem Core.putTask_clWait (k : Core) (w : Nat) (t : Task) : (k.putTask w t).clWait = k.clWait := rfl
@[simp] theorem Core.putTask_sendWait (k : Core) (w : Nat) (t : Task) : (k.putTask w t).sendWait = k.sendWait := rfl
@[simp] theorem Core.putTask_l1 (k : Core) (w : Nat) (t : Task) : (k.putTask w t).l1 = k.l1 := rfl
@[simp] theorem Core.putTask_lmiss (k : Core) (w : Nat) (t : Task) : (k.putTask w t).lmiss = k.lmiss := rfl
@[simp] theorem Core.putTask_icache (k : Core) (w : Nat) (t : Task) : (k.putTask w t).icache = k.icache := rfl
@[simp] theorem Core.putTask_ireq (k : Core) (w : Nat) (t : Task) : (k.putTask w t).ireq = k.ireq := rfl
@[simp] theorem Core.putTask_tlb (k : Core) (w : Nat) (t : Task) : (k.putTask w t).tlb = k.tlb := rfl
@[simp] theorem Core.putTask_late (k : Core) (w : Nat) (t : Task) : (k.putTask w t).late = k.late := rfl
@[simp] theorem Core.putTask_hcache (k : Core) (w : Nat) (t : Task) : (k.putTask w t).hcache = k.hcache := rfl
@[simp] theorem Core.putTask_vq (k : Core) (w : Nat) (t : Task) : (k.putTask w t).vq = k.vq := rfl
@[simp] theorem Core.putTask_vlast (k : Core) (w : Nat) (t : Task) : (k.putTask w t).vlast = k.vlast := rfl
@[simp] theorem Core.putTask_nestLog (k : Core) (w : Nat) (t : Task) : (k.putTask w t).nestLog = k.nestLog := rfl
@[simp] theorem Core.putTask_held (k : Core) (w : Nat) (t : Task) : (k.putTask w t).held = k.held := rfl
@[simp] theorem Core.putTask_mq (k : Core) (w : Nat) (t : Task) : (k.putTask w t).mq = k.mq := rfl
@[simp] theorem Core.putTask_jobOpen (k : Core) (w : Nat) (t : Task) : (k.putTask w t).jobOpen = k.jobOpen := rfl
@[simp] theorem Core.putTask_jobCmds (k : Core) (w : Nat) (t : Task) : (k.putTask w t).jobCmds = k.jobCmds := rfl
@[simp] theorem Core.putTask_jobCycles (k : Core) (w : Nat) (t : Task) : (k.putTask w t).jobCycles = k.jobCycles := rfl
@[simp] theorem Core.putTask_shadowTag (k : Core) (w : Nat) (t : Task) : (k.putTask w t).shadowTag = k.shadowTag := rfl
@[simp] theorem Core.putTask_activeTag (k : Core) (w : Nat) (t : Task) : (k.putTask w t).activeTag = k.activeTag := rfl
@[simp] theorem Core.putTask_accTag0 (k : Core) (w : Nat) (t : Task) : (k.putTask w t).accTag0 = k.accTag0 := rfl
@[simp] theorem Core.putTask_accTag1 (k : Core) (w : Nat) (t : Task) : (k.putTask w t).accTag1 = k.accTag1 := rfl
@[simp] theorem Core.putTask_cq (k : Core) (w : Nat) (t : Task) : (k.putTask w t).cq = k.cq := rfl
@[simp] theorem Core.putTask_tensors (k : Core) (w : Nat) (t : Task) : (k.putTask w t).tensors = k.tensors := rfl
@[simp] theorem Core.putTask_sq (k : Core) (w : Nat) (t : Task) : (k.putTask w t).sq = k.sq := rfl
@[simp] theorem Core.putTask_visit (k : Core) (w : Nat) (t : Task) : (k.putTask w t).visit = k.visit := rfl
@[simp] theorem Core.putTask_scrubUntil (k : Core) (w : Nat) (t : Task) : (k.putTask w t).scrubUntil = k.scrubUntil := rfl
@[simp] theorem Core.putTask_scanDue (k : Core) (w : Nat) (t : Task) : (k.putTask w t).scanDue = k.scanDue := rfl

/-! ## `Core.putHandle` -/

@[simp] theorem Core.putHandle_world (k : Core) (h : Nat) (x : Handle) : (k.putHandle h x).world = k.world := rfl
@[simp] theorem Core.putHandle_gang (k : Core) (h : Nat) (x : Handle) : (k.putHandle h x).gang = k.gang := rfl
@[simp] theorem Core.putHandle_scratch (k : Core) (h : Nat) (x : Handle) : (k.putHandle h x).scratch = k.scratch := rfl
@[simp] theorem Core.putHandle_full (k : Core) (h : Nat) (x : Handle) : (k.putHandle h x).full = k.full := rfl
@[simp] theorem Core.putHandle_spoison (k : Core) (h : Nat) (x : Handle) : (k.putHandle h x).spoison = k.spoison := rfl
@[simp] theorem Core.putHandle_hts (k : Core) (h : Nat) (x : Handle) : (k.putHandle h x).hts = k.hts := rfl
@[simp] theorem Core.putHandle_ptsOff (k : Core) (h : Nat) (x : Handle) : (k.putHandle h x).ptsOff = k.ptsOff := rfl
@[simp] theorem Core.putHandle_tq (k : Core) (h : Nat) (x : Handle) : (k.putHandle h x).tq = k.tq := rfl
@[simp] theorem Core.putHandle_tqNew (k : Core) (h : Nat) (x : Handle) : (k.putHandle h x).tqNew = k.tqNew := rfl
@[simp] theorem Core.putHandle_lease (k : Core) (h : Nat) (x : Handle) : (k.putHandle h x).lease = k.lease := rfl
@[simp] theorem Core.putHandle_commons (k : Core) (h : Nat) (x : Handle) : (k.putHandle h x).commons = k.commons := rfl
@[simp] theorem Core.putHandle_commonsNew (k : Core) (h : Nat) (x : Handle) : (k.putHandle h x).commonsNew = k.commonsNew := rfl
@[simp] theorem Core.putHandle_handles (k : Core) (h : Nat) (x : Handle) : (k.putHandle h x).handles = AMap.put k.handles h x := rfl
@[simp] theorem Core.putHandle_edits (k : Core) (h : Nat) (x : Handle) : (k.putHandle h x).edits = k.edits := rfl
@[simp] theorem Core.putHandle_slots (k : Core) (h : Nat) (x : Handle) : (k.putHandle h x).slots = k.slots := rfl
@[simp] theorem Core.putHandle_tasks (k : Core) (h : Nat) (x : Handle) : (k.putHandle h x).tasks = k.tasks := rfl
@[simp] theorem Core.putHandle_ready (k : Core) (h : Nat) (x : Handle) : (k.putHandle h x).ready = k.ready := rfl
@[simp] theorem Core.putHandle_feWait (k : Core) (h : Nat) (x : Handle) : (k.putHandle h x).feWait = k.feWait := rfl
@[simp] theorem Core.putHandle_clWait (k : Core) (h : Nat) (x : Handle) : (k.putHandle h x).clWait = k.clWait := rfl
@[simp] theorem Core.putHandle_sendWait (k : Core) (h : Nat) (x : Handle) : (k.putHandle h x).sendWait = k.sendWait := rfl
@[simp] theorem Core.putHandle_l1 (k : Core) (h : Nat) (x : Handle) : (k.putHandle h x).l1 = k.l1 := rfl
@[simp] theorem Core.putHandle_lmiss (k : Core) (h : Nat) (x : Handle) : (k.putHandle h x).lmiss = k.lmiss := rfl
@[simp] theorem Core.putHandle_icache (k : Core) (h : Nat) (x : Handle) : (k.putHandle h x).icache = k.icache := rfl
@[simp] theorem Core.putHandle_ireq (k : Core) (h : Nat) (x : Handle) : (k.putHandle h x).ireq = k.ireq := rfl
@[simp] theorem Core.putHandle_tlb (k : Core) (h : Nat) (x : Handle) : (k.putHandle h x).tlb = k.tlb := rfl
@[simp] theorem Core.putHandle_late (k : Core) (h : Nat) (x : Handle) : (k.putHandle h x).late = k.late := rfl
@[simp] theorem Core.putHandle_hcache (k : Core) (h : Nat) (x : Handle) : (k.putHandle h x).hcache = k.hcache := rfl
@[simp] theorem Core.putHandle_vq (k : Core) (h : Nat) (x : Handle) : (k.putHandle h x).vq = k.vq := rfl
@[simp] theorem Core.putHandle_vlast (k : Core) (h : Nat) (x : Handle) : (k.putHandle h x).vlast = k.vlast := rfl
@[simp] theorem Core.putHandle_nestLog (k : Core) (h : Nat) (x : Handle) : (k.putHandle h x).nestLog = k.nestLog := rfl
@[simp] theorem Core.putHandle_held (k : Core) (h : Nat) (x : Handle) : (k.putHandle h x).held = k.held := rfl
@[simp] theorem Core.putHandle_mq (k : Core) (h : Nat) (x : Handle) : (k.putHandle h x).mq = k.mq := rfl
@[simp] theorem Core.putHandle_jobOpen (k : Core) (h : Nat) (x : Handle) : (k.putHandle h x).jobOpen = k.jobOpen := rfl
@[simp] theorem Core.putHandle_jobCmds (k : Core) (h : Nat) (x : Handle) : (k.putHandle h x).jobCmds = k.jobCmds := rfl
@[simp] theorem Core.putHandle_jobCycles (k : Core) (h : Nat) (x : Handle) : (k.putHandle h x).jobCycles = k.jobCycles := rfl
@[simp] theorem Core.putHandle_shadowTag (k : Core) (h : Nat) (x : Handle) : (k.putHandle h x).shadowTag = k.shadowTag := rfl
@[simp] theorem Core.putHandle_activeTag (k : Core) (h : Nat) (x : Handle) : (k.putHandle h x).activeTag = k.activeTag := rfl
@[simp] theorem Core.putHandle_accTag0 (k : Core) (h : Nat) (x : Handle) : (k.putHandle h x).accTag0 = k.accTag0 := rfl
@[simp] theorem Core.putHandle_accTag1 (k : Core) (h : Nat) (x : Handle) : (k.putHandle h x).accTag1 = k.accTag1 := rfl
@[simp] theorem Core.putHandle_cq (k : Core) (h : Nat) (x : Handle) : (k.putHandle h x).cq = k.cq := rfl
@[simp] theorem Core.putHandle_tensors (k : Core) (h : Nat) (x : Handle) : (k.putHandle h x).tensors = k.tensors := rfl
@[simp] theorem Core.putHandle_sq (k : Core) (h : Nat) (x : Handle) : (k.putHandle h x).sq = k.sq := rfl
@[simp] theorem Core.putHandle_visit (k : Core) (h : Nat) (x : Handle) : (k.putHandle h x).visit = k.visit := rfl
@[simp] theorem Core.putHandle_scrubUntil (k : Core) (h : Nat) (x : Handle) : (k.putHandle h x).scrubUntil = k.scrubUntil := rfl
@[simp] theorem Core.putHandle_scanDue (k : Core) (h : Nat) (x : Handle) : (k.putHandle h x).scanDue = k.scanDue := rfl

@[simp] theorem Core.slot_putSlot_same (k : Core) (i : Nat) (x : Slot) : (k.putSlot i x).slot i = x := by simp [Core.slot]
theorem Core.slot_putSlot (k : Core) (i j : Nat) (x : Slot) : (k.putSlot i x).slot j = if j = i then x else k.slot j := by
  simp [Core.slot, AMap.get_put]
@[simp] theorem Core.task_putTask_same (k : Core) (w : Nat) (t : Task) : (k.putTask w t).task w = t := by simp [Core.task]
theorem Core.task_putTask (k : Core) (w v : Nat) (t : Task) : (k.putTask w t).task v = if v = w then t else k.task v := by
  simp [Core.task, AMap.get_put]
@[simp] theorem Core.handle_putHandle_same (k : Core) (h : Nat) (x : Handle) : (k.putHandle h x).handle h = x := by
  simp [Core.handle]
theorem Core.handle_putHandle (k : Core) (h j : Nat) (x : Handle) :
    (k.putHandle h x).handle j = if j = h then x else k.handle j := by
  simp [Core.handle, AMap.get_put]
@[simp] theorem Core.slot_putTask (k : Core) (w : Nat) (t : Task) (i : Nat) : (k.putTask w t).slot i = k.slot i := rfl
@[simp] theorem Core.task_putSlot (k : Core) (i : Nat) (x : Slot) (w : Nat) : (k.putSlot i x).task w = k.task w := rfl
@[simp] theorem Core.putSlot_putSlot (k : Core) (i : Nat) (x y : Slot) : (k.putSlot i x).putSlot i y = k.putSlot i y := by
  simp [Core.putSlot]
@[simp] theorem Core.putTask_putTask (k : Core) (w : Nat) (t u : Task) : (k.putTask w t).putTask w u = k.putTask w u := by
  simp [Core.putTask]
theorem Core.putTask_putSlot (k : Core) (w : Nat) (t : Task) (i : Nat) (x : Slot) :
    (k.putSlot i x).putTask w t = (k.putTask w t).putSlot i x := rfl

end Sys2Proof.Machine
end

