-- ==== Sys2Proof/Laws/Ops.lean ====
section
/-! SUPPORT. What the shared operations over registers and sequential flow do: register writes, completing in sequence and
by a transfer, and the frames of both. -/

namespace Sys2Proof.Machine

/-! ## Registers -/

@[simp] theorem Slot.reg_setReg_same (sl : Slot) (n : Nat) (v : Word) (h : n < 32) : (sl.setReg n v).reg n = v := by
  have : (sl.live ||| 1#32 <<< n).getLsbD n = true := by
    rw [BitVec.getLsbD_or, BitVec.getLsbD_shiftLeft]; simp [h]
  simp [Slot.reg, Slot.setReg, this]

theorem Slot.reg_setReg_ne (sl : Slot) {n m : Nat} (v : Word) (h : m ≠ n) : (sl.setReg n v).reg m = sl.reg m := by
  have : (sl.live ||| 1#32 <<< n).getLsbD m = sl.live.getLsbD m := by
    rw [BitVec.getLsbD_or, BitVec.getLsbD_shiftLeft]
    by_cases hm : m < n
    · simp [hm]
    · have : m - n ≠ 0 := by omega
      simp [this]
  simp [Slot.reg, Slot.setReg, this, AMap.get_put_ne _ _ _ h]

/-! ## The acting slot and task -/

@[simp] theorem State.curSlot_modCurSlot (s : State) (f : Slot → Slot) : (s.modCurSlot f).curSlot = f s.curSlot := by
  simp [State.modCurSlot, State.modSlot, State.curSlot, State.slot]

@[simp] theorem State.curSlot_modCurTask (s : State) (f : Task → Task) : (s.modCurTask f).curSlot = s.curSlot := by
  simp [State.modCurTask, State.modTask, State.curSlot, State.slot]

@[simp] theorem State.curWs_modCurTask (s : State) (f : Task → Task) : (s.modCurTask f).curWs = s.curWs := by
  simp [State.curWs]

theorem State.curWs_modCurSlot (s : State) (f : Slot → Slot) (h : (f s.curSlot).ws = s.curSlot.ws) :
    (s.modCurSlot f).curWs = s.curWs := by
  simp [State.curWs, h]

@[simp] theorem State.curTask_modCurTask (s : State) (f : Task → Task) : (s.modCurTask f).curTask = f s.curTask := by
  simp only [State.curTask, State.curWs_modCurTask]
  simp [State.modCurTask, State.modTask, State.task]

theorem State.curTask_modCurSlot (s : State) (f : Slot → Slot) (h : (f s.curSlot).ws = s.curSlot.ws) :
    (s.modCurSlot f).curTask = s.curTask := by
  simp only [State.curTask, State.curWs_modCurSlot s f h]
  simp [State.modCurSlot, State.modSlot, State.task]

@[simp] theorem State.rd_modCurTask (s : State) (f : Task → Task) (r : BitVec 5) : (s.modCurTask f).rd r = s.rd r := by
  simp [State.rd]

theorem State.rd_modCurSlot (s : State) (f : Slot → Slot) (r : BitVec 5) :
    (s.modCurSlot f).rd r = (f s.curSlot).reg r.toNat := by
  simp [State.rd]

@[simp] theorem State.rd_wr_same (s : State) (d : BitVec 5) (v : Word) : (s.wr d v).rd d = v := by
  simp [State.wr, State.rd_modCurSlot, Slot.reg_setReg_same _ _ _ d.isLt]

theorem State.rd_wr_ne (s : State) {d r : BitVec 5} (v : Word) (h : r ≠ d) : (s.wr d v).rd r = s.rd r := by
  have : r.toNat ≠ d.toNat := fun e => h (BitVec.eq_of_toNat_eq e)
  simp [State.wr, Slot.reg_setReg_ne _ _ this, State.rd]

@[simp] theorem Slot.setReg_ws (sl : Slot) (n : Nat) (v : Word) : (sl.setReg n v).ws = sl.ws := rfl
@[simp] theorem Slot.setReg_nextAt (sl : Slot) (n : Nat) (v : Word) : (sl.setReg n v).nextAt = sl.nextAt := rfl
@[simp] theorem Slot.setReg_switching (sl : Slot) (n : Nat) (v : Word) : (sl.setReg n v).switching = sl.switching := rfl
@[simp] theorem Slot.setReg_faultReg (sl : Slot) (n : Nat) (v : Word) : (sl.setReg n v).faultReg = sl.faultReg := rfl
@[simp] theorem Slot.setReg_burrow (sl : Slot) (n : Nat) (v : Word) : (sl.setReg n v).burrow = sl.burrow := rfl

@[simp] theorem State.curSlot_wr (s : State) (d : BitVec 5) (v : Word) : (s.wr d v).curSlot = s.curSlot.setReg d.toNat v := by
  simp [State.wr]

@[simp] theorem State.wr_cycle (s : State) (d : BitVec 5) (v : Word) : (s.wr d v).cycle = s.cycle := rfl

@[simp] theorem State.curWs_wr (s : State) (d : BitVec 5) (v : Word) : (s.wr d v).curWs = s.curWs :=
  State.curWs_modCurSlot s _ rfl

@[simp] theorem State.curTask_wr (s : State) (d : BitVec 5) (v : Word) : (s.wr d v).curTask = s.curTask :=
  State.curTask_modCurSlot s _ rfl

@[simp] theorem State.nextPc?_wr (s : State) (d : BitVec 5) (v : Word) : (s.wr d v).nextPc? = s.nextPc? := by
  simp [State.nextPc?, State.lineBase]

@[simp] theorem State.npc_wr (s : State) (d : BitVec 5) (v : Word) : (s.wr d v).npc = s.npc := by
  simp [State.npc]

/-! ## Completing in sequence -/

@[simp] theorem State.rd_finish (s : State) (n : Nat) (r : BitVec 5) : (s.finish n).rd r = s.rd r := by
  simp [State.finish, Slot.reg, State.rd]

@[simp] theorem State.curTask_finish (s : State) (n : Nat) :
    (s.finish n).curTask = { s.curTask with pc := s.npc, pastEnd := s.nextPc?.isNone, resume := none } := by
  rw [State.finish, State.curTask_modCurSlot]
  · simp
  · rfl

@[simp] theorem State.curSlot_finish (s : State) (n : Nat) :
    (s.finish n).curSlot = { s.curSlot with nextAt := s.cycle + 16 * n } := by
  simp [State.finish]

@[simp] theorem State.mem_modCurSlot (s : State) (f : Slot → Slot) : (s.modCurSlot f).mem = s.mem := rfl
@[simp] theorem State.mem_modCurTask (s : State) (f : Task → Task) : (s.modCurTask f).mem = s.mem := rfl

theorem State.scratch_modCurSlot (s : State) (f : Slot → Slot) (c : Nat) :
    ((s.modCurSlot f).core c).scratch = (s.core c).scratch := by
  simp only [State.modCurSlot_eq, State.core_putCore]
  split
  · subst_vars; rfl
  · rfl

theorem State.scratch_modCurTask (s : State) (f : Task → Task) (c : Nat) :
    ((s.modCurTask f).core c).scratch = (s.core c).scratch := by
  simp only [State.modCurTask_eq, State.core_putCore]
  split
  · subst_vars; rfl
  · rfl

/-! ## What changes one core alone -/

theorem OneCore.refl (c : Nat) (s : State) : OneCore c s s := ⟨rfl, fun _ _ => rfl⟩

theorem OneCore.of_put (c : Nat) (s : State) (k : Core) : OneCore c s (s.putCore c k) :=
  ⟨rfl, fun _ hx => State.core_putCore_ne _ _ hx⟩

theorem OneCore.trans {c : Nat} {s t u : State} (h : OneCore c s t) (h' : OneCore c t u) : OneCore c s u := by
  refine ⟨?_, fun x hx => (h'.2 x hx).trans (h.2 x hx)⟩
  have h1 := h.1
  have h2 := h'.1
  rw [h2, h1]

theorem OneCore.mem {c : Nat} {s t : State} (h : OneCore c s t) : t.mem = s.mem := by rw [h.1]
theorem OneCore.actCore {c : Nat} {s t : State} (h : OneCore c s t) : t.actCore = s.actCore := by rw [h.1]
theorem OneCore.actSlot {c : Nat} {s t : State} (h : OneCore c s t) : t.actSlot = s.actSlot := by rw [h.1]
theorem OneCore.cycle {c : Nat} {s t : State} (h : OneCore c s t) : t.cycle = s.cycle := by rw [h.1]

theorem OneCore.modCurSlot (s : State) (f : Slot → Slot) : OneCore s.actCore s (s.modCurSlot f) := OneCore.of_put _ _ _
theorem OneCore.modCurTask (s : State) (f : Task → Task) : OneCore s.actCore s (s.modCurTask f) := OneCore.of_put _ _ _
theorem OneCore.modCore (s : State) (c : Nat) (f : Core → Core) : OneCore c s (s.modCore c f) := OneCore.of_put _ _ _
theorem OneCore.sPut (s : State) (c off n v : Nat) : OneCore c s (s.sPut c off n v) := OneCore.of_put _ _ _

/-! ## What changes the acting slot and task alone -/

theorem SameElseSpad.trans {s t u : State} (h : SameElseSpad s t) (h' : SameElseSpad t u) (hw : t.curWs = s.curWs) :
    SameElseSpad s u := by
  have ha : t.actCore = s.actCore := h.device.actCore
  have hi : t.actSlot = s.actSlot := h.device.actSlot
  have hd : OneCore s.actCore t u := ha ▸ h'.device
  refine ⟨OneCore.trans h.device hd, ?_, ?_, ?_⟩
  · rw [h'.core, h.core]
  · intro i hne
    have := h'.slots i (by rw [hi]; exact hne)
    rw [ha] at this
    rw [this, h.slots i hne]
  · intro w hne
    have := h'.tasks w (by rw [hw]; exact hne)
    rw [ha] at this
    rw [this, h.tasks w hne]

theorem SameElse.trans {s t u : State} (h : SameElse s t) (h' : SameElse t u) (hw : t.curWs = s.curWs) : SameElse s u :=
  ⟨h.1.trans h'.1 hw, h'.2.1.trans h.2.1, h'.2.2.trans h.2.2⟩

theorem SameElse.modCurSlot (s : State) (f : Slot → Slot) : SameElse s (s.modCurSlot f) := by
  refine ⟨⟨OneCore.of_put _ _ _, ?_, ?_, ?_⟩, ?_⟩
  · simp [State.modCurSlot_eq, State.cur, Core.putSlot]
  · intro i hi
    simp [State.modCurSlot_eq, State.slot, State.cur, Core.slot_putSlot, hi]
  · intro w _
    simp [State.modCurSlot_eq, State.task, State.cur]
  · simp [State.modCurSlot_eq, State.cur]

theorem SameElse.modCurTask (s : State) (g : Task → Task) : SameElse s (s.modCurTask g) := by
  refine ⟨⟨OneCore.of_put _ _ _, ?_, ?_, ?_⟩, ?_⟩
  · simp [State.modCurTask_eq, State.cur, Core.putTask]
  · intro i _
    simp [State.modCurTask_eq, State.slot, State.cur]
  · intro w hw
    simp [State.modCurTask_eq, State.task, State.cur, Core.task_putTask, hw]
  · simp [State.modCurTask_eq, State.cur]

theorem SameElseSpad.sPut (s : State) (off n v : Nat) : SameElseSpad s (s.sPut s.actCore off n v) := by
  refine ⟨OneCore.of_put _ _ _, ?_, ?_, ?_⟩
  · simp [State.sPut, State.modCore_eq, State.cur]
  · intro i _
    simp [State.sPut, State.modCore_eq, State.slot]; rfl
  · intro w _
    simp [State.sPut, State.modCore_eq, State.task]; rfl

/-- What changes the acting task alone changes no byte. -/
theorem State.sameBytes_modCurTask (s : State) (g : Task → Task) : SameBytes s (s.modCurTask g) := by
  constructor
  · intro a; rfl
  · intro c a; rw [State.spadByte, State.scratch_modCurTask]; rfl

/-- Completing in sequence touches the acting slot and task alone. -/
theorem State.finish_sameElse (s : State) (n : Nat) : SameElse s (s.finish n) :=
  (SameElse.modCurTask s _).trans (SameElse.modCurSlot _ _) (State.curWs_modCurTask s _)

/-- A transfer touches the acting slot and task alone. -/
theorem State.finishAt_sameElse (s : State) (a : Word) (n : Nat) : SameElse s (s.finishAt a n) :=
  (SameElse.modCurTask s _).trans (SameElse.modCurSlot _ _) (State.curWs_modCurTask s _)

/-- A register write and completing in sequence touch the acting slot and task alone. -/
theorem State.result_sameElse (s : State) (d : BitVec 5) (v : Word) (n : Nat) : SameElse s ((s.wr d v).finish n) :=
  (SameElse.modCurSlot s _).trans (State.finish_sameElse _ n) (State.curWs_wr s d v)

/-- What changes nothing else changes no byte. -/
theorem SameElse.sameBytes {s t : State} (h : SameElse s t) : SameBytes s t := by
  constructor
  · intro a; rw [State.memByte, h.1.device.mem, State.memByte]
  · intro c a
    rw [State.spadByte, State.spadByte]
    by_cases hc : c = s.actCore
    · have := h.2.1
      rw [State.cur, State.cur, h.1.device.actCore] at this
      rw [hc, this]
    · rw [h.1.device.2 c hc]

/-- The frame of a register result. -/
theorem State.result_goesOn (s : State) (d : BitVec 5) (v : Word) (n : Nat) : GoesOn s ((s.wr d v).finish n) n := by
  constructor <;> simp

/-- Every instruction whose meaning is to write one register and go on gives its value and keeps the rest. -/
theorem gives_of_exec {s : State} {i : Instr} {d : BitVec 5} {v : Word} {n : Nat}
    (h : exec i s = .next ((s.wr d v).finish n)) : Gives s i d v n := by
  refine ⟨_, h, by simp, ?_, s.result_goesOn d v n, s.result_sameElse d v n, (s.result_sameElse d v n).sameBytes⟩
  intro r hr
  rw [State.rd_finish, State.rd_wr_ne _ _ (by simpa using hr)]

end Sys2Proof.Machine
end

