-- ==== Sys2Proof/Laws/Trap.lean ====
section
/-! SUPPORT. What taking a trap does, said once (R107, R108): the words of the trap record, the write-back of the bank, and
where the thread stands afterwards. -/

namespace Sys2Proof.Machine

/-! ## Device writes to a scratchpad -/

theorem State.sPut_eq (s : State) (c off n v : Nat) :
    s.sPut c off n v = s.putCore c { s.core c with scratch := Memory.putNum (s.core c).scratch off n v } := rfl

@[simp] theorem State.sPut_actCore (s : State) (c off n v : Nat) : (s.sPut c off n v).actCore = s.actCore := rfl
@[simp] theorem State.sPut_actSlot (s : State) (c off n v : Nat) : (s.sPut c off n v).actSlot = s.actSlot := rfl
@[simp] theorem State.sPut_cycle (s : State) (c off n v : Nat) : (s.sPut c off n v).cycle = s.cycle := rfl
@[simp] theorem State.sPut_mem (s : State) (c off n v : Nat) : (s.sPut c off n v).mem = s.mem := rfl

@[simp] theorem State.slot_sPut (s : State) (c off n v x i : Nat) : (s.sPut c off n v).slot x i = s.slot x i := by
  rw [State.sPut_eq, State.slot, State.core_putCore, State.slot]
  split
  · subst_vars; rfl
  · rfl

@[simp] theorem State.task_sPut (s : State) (c off n v x w : Nat) : (s.sPut c off n v).task x w = s.task x w := by
  rw [State.sPut_eq, State.task, State.core_putCore, State.task]
  split
  · subst_vars; rfl
  · rfl

@[simp] theorem State.curSlot_sPut (s : State) (c off n v : Nat) : (s.sPut c off n v).curSlot = s.curSlot := by
  simp [State.curSlot]
@[simp] theorem State.curWs_sPut (s : State) (c off n v : Nat) : (s.sPut c off n v).curWs = s.curWs := by
  simp [State.curWs]
@[simp] theorem State.curTask_sPut (s : State) (c off n v : Nat) : (s.sPut c off n v).curTask = s.curTask := by
  simp [State.curTask]
@[simp] theorem State.rd_sPut (s : State) (c off n v : Nat) (r : BitVec 5) : (s.sPut c off n v).rd r = s.rd r := by
  simp [State.rd]

/-- A number written by the device reads back. -/
theorem State.sNum_sPut_same (s : State) (c off n v : Nat) : (s.sPut c off n v).sNum c off n = v % 2 ^ (8 * n) := by
  simp [State.sPut_eq, State.sNum, Memory.num_putNum]

/-- A number elsewhere in the same scratchpad is unchanged. -/
theorem State.sNum_sPut_out (s : State) (c off n v b k : Nat) (h : b + k ≤ off ∨ off + n ≤ b) :
    (s.sPut c off n v).sNum c b k = s.sNum c b k := by
  simp [State.sPut_eq, State.sNum, Memory.num_putNum_out _ _ _ _ _ _ h]

/-! ## Numbers after updates that touch no byte -/

theorem State.sNum_congr {s t : State} {c : Nat} (off n : Nat) (h : (t.core c).scratch = (s.core c).scratch) :
    t.sNum c off n = s.sNum c off n := by rw [State.sNum, h, State.sNum]

@[simp] theorem State.sNum_modCurSlot (s : State) (f : Slot → Slot) (c off n : Nat) :
    (s.modCurSlot f).sNum c off n = s.sNum c off n := State.sNum_congr _ _ (State.scratch_modCurSlot s f c)

@[simp] theorem State.sNum_modCurTask (s : State) (f : Task → Task) (c off n : Nat) :
    (s.modCurTask f).sNum c off n = s.sNum c off n := State.sNum_congr _ _ (State.scratch_modCurTask s f c)

/-! ## The write-back of the acting bank (R46) -/

theorem wsOff_eq (ws off : Nat) : wsOff ws off = wsOff ws 0 + off := rfl

/-- One register that is live and dirty, written over its workspace. -/
def bankStep (sl : Slot) (ws : Nat) (m : List Host.Cell) (n : Nat) : List Host.Cell :=
  if sl.live.getLsbD n && sl.dirty.getLsbD n then Memory.putNum m (wsOff ws (8 * n)) 8 (sl.reg n).toNat else m

/-- The bytes of the registers that are live and dirty, written over their workspace. -/
def bankBytes (sl : Slot) (ws : Nat) (m : List Host.Cell) (l : List Nat) : List Host.Cell := l.foldl (bankStep sl ws) m

theorem bankStep_out (sl : Slot) (ws : Nat) (m : List Host.Cell) (n x : Nat) (hn : n < 32)
    (h : x < wsOff ws 0 ∨ wsOff ws 256 ≤ x) : Memory.read (bankStep sl ws m n) x = Memory.read m x := by
  rw [bankStep]
  split
  · rw [Memory.putNum, Memory.read_writeN_out]
    rw [bytesOf_length]
    rw [wsOff_eq ws 256] at h
    rw [wsOff_eq ws (8 * n)]
    generalize wsOff ws 0 = b at h ⊢
    omega
  · rfl

theorem bankBytes_out (sl : Slot) (ws : Nat) (l : List Nat) (hl : ∀ n ∈ l, n < 32) (m : List Host.Cell) (x : Nat)
    (h : x < wsOff ws 0 ∨ wsOff ws 256 ≤ x) : Memory.read (bankBytes sl ws m l) x = Memory.read m x := by
  induction l generalizing m with
  | nil => rfl
  | cons n l ih =>
    rw [bankBytes, List.foldl_cons, ← bankBytes, ih (fun k hk => hl k (List.mem_cons_of_mem n hk)),
      bankStep_out _ _ _ _ _ (hl n (by simp)) h]

/-- The words of a workspace that hold an error after a write-back of its bank: those it does not cover, and its own. -/
def bankPoison (sl : Slot) (ws : Nat) (p : List Nat) : List Nat :=
  p.filter (fun w => !((regWords ws (sl.live &&& sl.dirty)).contains w)) ++ regWords ws (sl.live &&& sl.dirty &&& sl.bad)

theorem State.writeBack_eq (s : State) (c i w : Nat) (h : (s.slot c i).ws = some w) :
    s.writeBack c i = s.putCore c { s.core c with
      scratch := bankBytes (s.slot c i) w (s.core c).scratch (List.range 32)
      spoison := bankPoison (s.slot c i) w (s.core c).spoison } := by
  rw [State.writeBack]
  simp only [h]
  rfl

theorem State.writeBack_none (s : State) (c i : Nat) (h : (s.slot c i).ws = none) : s.writeBack c i = s := by
  simp [State.writeBack, h]

@[simp] theorem State.writeBack_actCore (s : State) (c i : Nat) : (s.writeBack c i).actCore = s.actCore := by
  cases h : (s.slot c i).ws with
  | none => rw [s.writeBack_none c i h]
  | some w => rw [s.writeBack_eq c i w h]; rfl

@[simp] theorem State.writeBack_actSlot (s : State) (c i : Nat) : (s.writeBack c i).actSlot = s.actSlot := by
  cases h : (s.slot c i).ws with
  | none => rw [s.writeBack_none c i h]
  | some w => rw [s.writeBack_eq c i w h]; rfl

@[simp] theorem State.writeBack_cycle (s : State) (c i : Nat) : (s.writeBack c i).cycle = s.cycle := by
  cases h : (s.slot c i).ws with
  | none => rw [s.writeBack_none c i h]
  | some w => rw [s.writeBack_eq c i w h]; rfl

@[simp] theorem State.writeBack_mem (s : State) (c i : Nat) : (s.writeBack c i).mem = s.mem := by
  cases h : (s.slot c i).ws with
  | none => rw [s.writeBack_none c i h]
  | some w => rw [s.writeBack_eq c i w h]; rfl

@[simp] theorem State.task_writeBack (s : State) (c i x w : Nat) : (s.writeBack c i).task x w = s.task x w := by
  cases h : (s.slot c i).ws with
  | none => rw [s.writeBack_none c i h]
  | some v =>
    rw [s.writeBack_eq c i v h, State.task, State.core_putCore, State.task]
    split
    · subst_vars; rfl
    · rfl

/-- A write-back changes no slot: the registers stay dirty (R46). -/
@[simp] theorem State.slot_writeBack (s : State) (c i x j : Nat) : (s.writeBack c i).slot x j = s.slot x j := by
  cases h : (s.slot c i).ws with
  | none => rw [s.writeBack_none c i h]
  | some v =>
    rw [s.writeBack_eq c i v h, State.slot, State.core_putCore, State.slot]
    split
    · subst_vars; rfl
    · rfl

@[simp] theorem State.curSlot_writeBack (s : State) (c i : Nat) : (s.writeBack c i).curSlot = s.curSlot := by
  simp [State.curSlot]
@[simp] theorem State.curWs_writeBack (s : State) (c i : Nat) : (s.writeBack c i).curWs = s.curWs := by simp [State.curWs]
@[simp] theorem State.curTask_writeBack (s : State) (c i : Nat) : (s.writeBack c i).curTask = s.curTask := by
  simp [State.curTask]
@[simp] theorem State.rd_writeBack (s : State) (c i : Nat) (r : BitVec 5) : (s.writeBack c i).rd r = s.rd r := by
  simp [State.rd]

/-- A write-back of the acting slot's bank changes bytes of the scratchpad alone. -/
theorem SameElseSpad.writeBack (s : State) (i : Nat) : SameElseSpad s (s.writeBack s.actCore i) := by
  cases h : (s.slot s.actCore i).ws with
  | none => rw [s.writeBack_none _ _ h]; exact ⟨OneCore.refl _ _, rfl, fun _ _ => rfl, fun _ _ => rfl⟩
  | some w =>
    rw [s.writeBack_eq _ _ w h]
    refine ⟨OneCore.of_put _ _ _, ?_, ?_, ?_⟩
    · simp [State.cur]
    · intro j _; simp [State.slot]; rfl
    · intro j _; simp [State.task]; rfl

/-- What lies outside the register bytes of the workspace reads as before. -/
theorem State.sNum_writeBack (s : State) (off n : Nat)
    (h : off + n ≤ wsOff s.curWs 0 ∨ wsOff s.curWs 256 ≤ off) :
    (s.writeBack s.actCore s.actSlot).sNum s.actCore off n = s.sNum s.actCore off n := by
  cases hw : (s.slot s.actCore s.actSlot).ws with
  | none => rw [s.writeBack_none _ _ hw]
  | some w =>
    have : s.curWs = w := by simp [State.curWs, State.curSlot, hw]
    rw [s.writeBack_eq _ _ w hw, State.sNum, State.core_putCore_same, State.sNum, Memory.num, Memory.num]
    congr 1
    apply Memory.readN_congr
    intro x h1 h2
    rw [this] at h
    exact bankBytes_out _ _ _ (fun n hn => List.mem_range.mp hn) _ _ (by omega)

/-! ## The trap record (R108) -/

/-- NPC of a trap (R108). -/
def State.trapNpc (s : State) (t : Trap) : Word := if t.cause = 3 ∧ t.sub = 6 then s.curTask.pc else s.npc

/-- RPC of a trap (R104). -/
def State.trapRpc (s : State) (t : Trap) : Word := if t.cause = 0x12 then s.trapNpc t else s.curTask.pc

@[simp] theorem State.curSlot_writeTrap (s : State) (t : Trap) (h : Nat) : (s.writeTrap t h).curSlot = s.curSlot := by
  simp [State.writeTrap]
@[simp] theorem State.curWs_writeTrap (s : State) (t : Trap) (h : Nat) : (s.writeTrap t h).curWs = s.curWs := by
  simp [State.writeTrap]
@[simp] theorem State.curTask_writeTrap (s : State) (t : Trap) (h : Nat) : (s.writeTrap t h).curTask = s.curTask := by
  simp [State.writeTrap]
@[simp] theorem State.rd_writeTrap (s : State) (t : Trap) (h : Nat) (r : BitVec 5) : (s.writeTrap t h).rd r = s.rd r := by
  simp [State.writeTrap]
@[simp] theorem State.writeTrap_actCore (s : State) (t : Trap) (h : Nat) : (s.writeTrap t h).actCore = s.actCore := by
  simp [State.writeTrap]
@[simp] theorem State.writeTrap_actSlot (s : State) (t : Trap) (h : Nat) : (s.writeTrap t h).actSlot = s.actSlot := by
  simp [State.writeTrap]
@[simp] theorem State.writeTrap_cycle (s : State) (t : Trap) (h : Nat) : (s.writeTrap t h).cycle = s.cycle := by
  simp [State.writeTrap]
@[simp] theorem State.writeTrap_mem (s : State) (t : Trap) (h : Nat) : (s.writeTrap t h).mem = s.mem := by
  simp [State.writeTrap]

theorem Word.toNat_mod64 (w : Word) : w.toNat % 2 ^ (8 * 8) = w.toNat := Nat.mod_eq_of_lt w.isLt

/-- The record's words, as the trap entry writes them. -/
structure RecordWords (s u : State) (t : Trap) (hv : Nat) : Prop where
  word0 : u.sNum s.actCore (wsOff s.curWs 0x100) 8 =
    trapWord0 s.curTask.flags hv t.eidx.isSome t.faddr.isSome s.ilen t.sub t.cause % 2 ^ 64
  epc : u.sNum s.actCore (wsOff s.curWs 0x108) 8 = s.curTask.pc.toNat
  faddr : u.sNum s.actCore (wsOff s.curWs 0x110) 8 = (t.faddr.getD 0).toNat
  words : u.sNum s.actCore (wsOff s.curWs 0x118) 8 = s.curTask.issue.iw1.toNat * 2 ^ 32 + s.curTask.issue.iw0.toNat
  eidx : u.sNum s.actCore (wsOff s.curWs 0x120) 8 = t.eidx.getD 0 % 2 ^ 32
  npc : u.sNum s.actCore (wsOff s.curWs 0x128) 8 = (s.trapNpc t).toNat
  rpc : u.sNum s.actCore (wsOff s.curWs 0x130) 8 = (s.trapRpc t).toNat

theorem State.sNum_sPut_ws (s : State) (c ws a b v : Nat) (h : b + 8 ≤ a ∨ a + 8 ≤ b) :
    (s.sPut c (wsOff ws a) 8 v).sNum c (wsOff ws b) 8 = s.sNum c (wsOff ws b) 8 := by
  apply State.sNum_sPut_out
  rw [wsOff_eq ws a, wsOff_eq ws b]
  generalize wsOff ws 0 = x
  omega

theorem State.writeTrap_words (s : State) (t : Trap) (hv : Nat) : RecordWords s (s.writeTrap t hv) t hv := by
  have h1 := s.curTask.issue.iw0.isLt
  have h2 := s.curTask.issue.iw1.isLt
  constructor
  · simp only [State.writeTrap]
    rw [State.sNum_sPut_ws _ _ _ _ _ _ (by omega), State.sNum_sPut_ws _ _ _ _ _ _ (by omega),
      State.sNum_sPut_ws _ _ _ _ _ _ (by omega), State.sNum_sPut_ws _ _ _ _ _ _ (by omega),
      State.sNum_sPut_ws _ _ _ _ _ _ (by omega), State.sNum_sPut_ws _ _ _ _ _ _ (by omega),
      State.sNum_sPut_ws _ _ _ _ _ _ (by omega), State.sNum_sPut_same]
  · simp only [State.writeTrap]
    rw [State.sNum_sPut_ws _ _ _ _ _ _ (by omega), State.sNum_sPut_ws _ _ _ _ _ _ (by omega),
      State.sNum_sPut_ws _ _ _ _ _ _ (by omega), State.sNum_sPut_ws _ _ _ _ _ _ (by omega),
      State.sNum_sPut_ws _ _ _ _ _ _ (by omega), State.sNum_sPut_ws _ _ _ _ _ _ (by omega), State.sNum_sPut_same,
      Word.toNat_mod64]
  · simp only [State.writeTrap]
    rw [State.sNum_sPut_ws _ _ _ _ _ _ (by omega), State.sNum_sPut_ws _ _ _ _ _ _ (by omega),
      State.sNum_sPut_ws _ _ _ _ _ _ (by omega), State.sNum_sPut_ws _ _ _ _ _ _ (by omega),
      State.sNum_sPut_ws _ _ _ _ _ _ (by omega), State.sNum_sPut_same, Word.toNat_mod64]
  · simp only [State.writeTrap]
    rw [State.sNum_sPut_ws _ _ _ _ _ _ (by omega), State.sNum_sPut_ws _ _ _ _ _ _ (by omega),
      State.sNum_sPut_ws _ _ _ _ _ _ (by omega), State.sNum_sPut_ws _ _ _ _ _ _ (by omega), State.sNum_sPut_same]
    simp only [State.curTask_sPut]
    omega
  · simp only [State.writeTrap]
    rw [State.sNum_sPut_ws _ _ _ _ _ _ (by omega), State.sNum_sPut_ws _ _ _ _ _ _ (by omega),
      State.sNum_sPut_ws _ _ _ _ _ _ (by omega), State.sNum_sPut_same]
    omega
  · simp only [State.writeTrap]
    rw [State.sNum_sPut_ws _ _ _ _ _ _ (by omega), State.sNum_sPut_ws _ _ _ _ _ _ (by omega), State.sNum_sPut_same,
      Word.toNat_mod64]
    rfl
  · simp only [State.writeTrap]
    rw [State.sNum_sPut_ws _ _ _ _ _ _ (by omega), State.sNum_sPut_same, Word.toNat_mod64]
    rfl

/-! ## Entry (R107) -/

theorem State.takeTrap_entry (s : State) (t : Trap) (vec : Word) (hv : Nat) (h0 : s.hnd s.actCore s.curWs = 0)
    (hvec : s.curTask.vector t.cause = (vec, hv)) (hne : vec ≠ 0) :
    s.takeTrap t = (((s.writeTrap t hv).writeBack s.actCore s.actSlot).modCurTask (fun k => k.atHandler vec)).modCurSlot
      (fun sl => { sl with nextAt := s.cycle + 48 }) := by
  simp only [State.takeTrap, hvec, h0, ne_eq, not_true_eq_false, if_false, hne]

/-- Where a thread stands when a trap has entered its handler. -/
structure Stands (s u : State) (vec : Word) : Prop where
  task : u.curTask = s.curTask.atHandler vec
  slot : u.curSlot = { s.curSlot with nextAt := s.cycle + 48 }
  regs : ∀ r, u.rd r = s.rd r
  ws : u.curWs = s.curWs
  core : u.actCore = s.actCore
  mem : u.mem = s.mem

section
variable (s : State) (t : Trap) (vec : Word) (hv : Nat) (h0 : s.hnd s.actCore s.curWs = 0)
  (hvec : s.curTask.vector t.cause = (vec, hv)) (hne : vec ≠ 0)
include h0 hvec hne

theorem State.takeTrap_stands : Stands s (s.takeTrap t) vec := by
  have he := s.takeTrap_entry t vec hv h0 hvec hne
  have hslot : ∀ (u : State), ((u.modCurTask (fun k => k.atHandler vec)).modCurSlot
      (fun sl => { sl with nextAt := s.cycle + 48 })).curTask = u.curTask.atHandler vec := by
    intro u
    rw [State.curTask_modCurSlot _ _ rfl, State.curTask_modCurTask]
  constructor
  · rw [he, hslot]
    simp
  · rw [he]; simp
  · intro r
    rw [he, State.rd_modCurSlot, Slot.reg]
    simp [State.rd, Slot.reg]
  · rw [he, State.curWs_modCurSlot _ _ rfl, State.curWs_modCurTask]
    simp
  · rw [he, State.modCurSlot_eq, State.modCurTask_eq, State.putCore_actCore, State.putCore_actCore,
      State.writeBack_actCore, State.writeTrap_actCore]
  · rw [he, State.modCurSlot_eq, State.modCurTask_eq, State.putCore_mem, State.putCore_mem, State.writeBack_mem,
      State.writeTrap_mem]

/-- Past the register bytes, the scratchpad after the entry is the one the record was written to. -/
theorem State.sNum_takeTrap (off n : Nat) (ho : 256 ≤ off) :
    (s.takeTrap t).sNum s.actCore (wsOff s.curWs off) n = (s.writeTrap t hv).sNum s.actCore (wsOff s.curWs off) n := by
  rw [s.takeTrap_entry t vec hv h0 hvec hne, State.sNum_modCurSlot, State.sNum_modCurTask]
  have := State.sNum_writeBack (s.writeTrap t hv) (wsOff s.curWs off) n (by
    right
    rw [State.curWs_writeTrap, wsOff_eq _ 256, wsOff_eq _ off]
    generalize wsOff s.curWs 0 = x
    omega)
  rw [State.writeTrap_actCore, State.writeTrap_actSlot] at this
  exact this

theorem State.takeTrap_words : RecordWords s (s.takeTrap t) t hv := by
  have hr := s.writeTrap_words t hv
  constructor
  · rw [s.sNum_takeTrap t vec hv h0 hvec hne _ _ (by omega)]; exact hr.word0
  · rw [s.sNum_takeTrap t vec hv h0 hvec hne _ _ (by omega)]; exact hr.epc
  · rw [s.sNum_takeTrap t vec hv h0 hvec hne _ _ (by omega)]; exact hr.faddr
  · rw [s.sNum_takeTrap t vec hv h0 hvec hne _ _ (by omega)]; exact hr.words
  · rw [s.sNum_takeTrap t vec hv h0 hvec hne _ _ (by omega)]; exact hr.eidx
  · rw [s.sNum_takeTrap t vec hv h0 hvec hne _ _ (by omega)]; exact hr.npc
  · rw [s.sNum_takeTrap t vec hv h0 hvec hne _ _ (by omega)]; exact hr.rpc

end

/-! ## The fields of the record's first word -/

theorem trapWord0_fields (fl : Flags) (hnd : Nat) (ev av : Bool) (ilen sub cause : Nat) :
    let x := trapWord0 fl hnd ev av ilen sub cause % 2 ^ 64
    bitsOf x 0 8 = cause % 256 ∧ bitsOf x 8 16 = sub % 65536 ∧ bitsOf x 26 2 = ilen % 4 ∧ bitOf x 28 = av ∧
      bitOf x 29 = ev ∧ bitsOf x 30 2 = hnd % 4 ∧ bitsOf x 32 5 = fl.toNat := by
  have hf := fl.isLt
  have he : (if ev then 2 ^ 29 else 0) = (if ev then 1 else 0) * 536870912 := by cases ev <;> rfl
  have ha : (if av then 2 ^ 28 else 0) = (if av then 1 else 0) * 268435456 := by cases av <;> rfl
  have hx : trapWord0 fl hnd ev av ilen sub cause % 2 ^ 64 = trapWord0 fl hnd ev av ilen sub cause := by
    apply Nat.mod_eq_of_lt
    rw [trapWord0, he, ha]
    cases ev <;> cases av <;> simp only [if_true, if_false, Bool.false_eq_true] <;> omega
  intro x
  have hx' : x = fl.toNat * 4294967296 + hnd % 4 * 1073741824 + (if ev then 1 else 0) * 536870912 +
      (if av then 1 else 0) * 268435456 + ilen % 4 * 67108864 + sub % 65536 * 256 + cause % 256 := by
    show trapWord0 fl hnd ev av ilen sub cause % 2 ^ 64 = _
    rw [hx, trapWord0, he, ha]
    simp only [Nat.reducePow]
  have he2 : (if ev then 1 else 0) < 2 := by cases ev <;> decide
  have ha2 : (if av then 1 else 0) < 2 := by cases av <;> decide
  clear_value x
  have main : x / 256 % 65536 = sub % 65536 ∧ x % 256 = cause % 256 ∧ x / 67108864 % 4 = ilen % 4 ∧
      x / 268435456 % 2 = (if av then 1 else 0) ∧ x / 536870912 % 2 = (if ev then 1 else 0) ∧
      x / 1073741824 % 4 = hnd % 4 ∧ x / 4294967296 % 32 = fl.toNat := by
    generalize (if ev then 1 else 0) = e at *
    generalize (if av then 1 else 0) = a at *
    omega
  simp only [bitsOf, bitOf, Nat.shiftRight_eq_div_pow]
  refine ⟨by simpa using main.2.1, by simpa using main.1, by simpa using main.2.2.1, ?_, ?_, by simpa using main.2.2.2.2.2.1,
    by simpa using main.2.2.2.2.2.2⟩
  · have := main.2.2.2.1
    cases av <;> simp_all
  · have := main.2.2.2.2.1
    cases ev <;> simp_all

/-! ## The entry as claims state it -/

theorem Memory.num_split (m : List Host.Cell) (a k n : Nat) :
    Memory.num m a (k + n) = Memory.num m a k + 2 ^ (8 * k) * Memory.num m (a + k) n := by
  induction k generalizing a with
  | zero => simp [Memory.num, Memory.readN, natOfBytes]
  | succ k ih =>
    have h := ih (a + 1)
    simp only [Memory.num] at h ⊢
    rw [show k + 1 + n = (k + n) + 1 by omega, Memory.readN, natOfBytes, h, Memory.readN, natOfBytes,
      show a + 1 + k = a + (k + 1) by omega, show 8 * (k + 1) = 8 + 8 * k by omega, Nat.pow_add]
    ring

theorem Memory.num_lt (m : List Host.Cell) (a n : Nat) : Memory.num m a n < 2 ^ (8 * n) := by
  induction n generalizing a with
  | zero => simp [Memory.num, Memory.readN, natOfBytes]
  | succ n ih =>
    have h := ih (a + 1)
    have hb := (Memory.read m a).isLt
    simp only [Memory.num, Memory.readN, natOfBytes] at h ⊢
    rw [show 8 * (n + 1) = 8 + 8 * n by omega, Nat.pow_add]
    omega

/-- The trap record's words change bytes of the scratchpad alone. -/
theorem SameElseSpad.writeTrap (s : State) (t : Trap) (hv : Nat) : SameElseSpad s (s.writeTrap t hv) := by
  have step : ∀ (u : State) (off n v : Nat), SameElseSpad s u → u.curWs = s.curWs →
      SameElseSpad s (u.sPut s.actCore off n v) := by
    intro u off n v h hw
    have := SameElseSpad.sPut u off n v
    rw [h.device.actCore] at this
    exact h.trans this hw
  simp only [State.writeTrap]
  refine step _ _ _ _ (step _ _ _ _ (step _ _ _ _ (step _ _ _ _ (step _ _ _ _ (step _ _ _ _ (step _ _ _ _
    (SameElseSpad.sPut _ _ _ _) ?_) ?_) ?_) ?_) ?_) ?_) ?_ <;> simp

/-- What an entry leaves alone. -/
theorem State.takeTrap_frame (s : State) (t : Trap) (vec : Word) (hv : Nat) (h0 : s.hnd s.actCore s.curWs = 0)
    (hvec : s.curTask.vector t.cause = (vec, hv)) (hne : vec ≠ 0) : SameElseSpad s (s.takeTrap t) := by
  rw [s.takeTrap_entry t vec hv h0 hvec hne]
  have e := SameElseSpad.writeBack (s.writeTrap t hv) s.actSlot
  rw [State.writeTrap_actCore] at e
  have e1 := (SameElseSpad.writeTrap s t hv).trans e (by simp)
  have e2 := e1.trans (SameElse.modCurTask _ (fun k => k.atHandler vec)).1 (by simp)
  exact e2.trans (SameElse.modCurSlot _ (fun sl => { sl with nextAt := s.cycle + 48 })).1 (by simp)

/-- A byte of a scratchpad outside a range that the device writes. -/
theorem State.spadByte_sPut (s : State) (c off n v x a : Nat) (h : ¬(x = c ∧ off ≤ a ∧ a < off + n)) :
    (s.sPut c off n v).spadByte x a = s.spadByte x a := by
  rw [State.spadByte, State.sPut_eq, State.core_putCore, State.spadByte]
  split
  · subst_vars
    exact Memory.read_writeN_out _ _ _ _ (by rw [bytesOf_length]; omega)
  · rfl

theorem State.writeTrap_bytes (s : State) (t : Trap) (hv x a : Nat)
    (h : ¬(x = s.actCore ∧ wsOff s.curWs 0 ≤ a ∧ a < wsOff s.curWs 0 + 0x140)) :
    (s.writeTrap t hv).spadByte x a = s.spadByte x a := by
  have step : ∀ (u : State) (off v : Nat), off + 8 ≤ 0x140 →
      (u.sPut s.actCore (wsOff s.curWs off) 8 v).spadByte x a = u.spadByte x a := by
    intro u off v ho
    apply State.spadByte_sPut
    rw [wsOff_eq _ off]
    generalize wsOff s.curWs 0 = b at h ⊢
    omega
  simp only [State.writeTrap]
  rw [step _ _ _ (by omega), step _ _ _ (by omega), step _ _ _ (by omega), step _ _ _ (by omega), step _ _ _ (by omega),
    step _ _ _ (by omega), step _ _ _ (by omega), step _ _ _ (by omega)]

theorem State.writeBack_bytes (s : State) (x a : Nat)
    (h : ¬(x = s.actCore ∧ wsOff s.curWs 0 ≤ a ∧ a < wsOff s.curWs 0 + 0x100)) :
    (s.writeBack s.actCore s.actSlot).spadByte x a = s.spadByte x a := by
  cases hw : (s.slot s.actCore s.actSlot).ws with
  | none => rw [s.writeBack_none _ _ hw]
  | some w =>
    have hc : s.curWs = w := by simp [State.curWs, State.curSlot, hw]
    rw [s.writeBack_eq _ _ w hw, State.spadByte, State.core_putCore, State.spadByte]
    split
    · subst_vars
      refine bankBytes_out _ _ _ (fun n hn => List.mem_range.mp hn) _ _ ?_
      rw [wsOff_eq _ 256]
      generalize wsOff s.curWs 0 = b at h ⊢
      omega
    · rfl

/-- Taking a trap with a handler and none running, as claims state it: the spec lemma of `State.takeTrap`. -/
theorem State.takeTrap_handlerEntered (s : State) (t : Trap) (vec : Word) (hv : Nat)
    (h0 : s.hnd s.actCore s.curWs = 0) (hvec : s.curTask.vector t.cause = (vec, hv)) (hne : vec ≠ 0) :
    HandlerEntered s (s.takeTrap t) t vec hv := by
  have hs := s.takeTrap_stands t vec hv h0 hvec hne
  have hw := s.takeTrap_words t vec hv h0 hvec hne
  have hv4 : hv < 4 := by
    simp only [Task.vector] at hvec
    split at hvec <;> cases hvec <;> decide
  have hil : s.ilen < 4 := by simp only [State.ilen]; split <;> [decide; split <;> decide]
  have hf := trapWord0_fields s.curTask.flags hv t.eidx.isSome t.faddr.isSome s.ilen t.sub t.cause
  have hr0 : recordAt s (s.takeTrap t) 0 8 = _ := hw.word0
  have h1 := s.curTask.issue.iw0.isLt
  have h2 := s.curTask.issue.iw1.isLt
  have sp := Memory.num_split ((s.takeTrap t).core s.actCore).scratch (wsOff s.curWs 0x118) 4 4
  have lo := Memory.num_lt ((s.takeTrap t).core s.actCore).scratch (wsOff s.curWs 0x118) 4
  have spe := Memory.num_split ((s.takeTrap t).core s.actCore).scratch (wsOff s.curWs 0x120) 4 4
  have loe := Memory.num_lt ((s.takeTrap t).core s.actCore).scratch (wsOff s.curWs 0x120) 4
  have hww := hw.words
  have hwe := hw.eidx
  rw [State.sNum] at hww hwe
  rw [show (4 + 4 : Nat) = 8 from rfl] at sp spe
  constructor
  · exact hs.task
  · exact hs.slot
  · exact fun r _ => hs.regs r
  · rw [hr0]; exact hf.1
  · rw [hr0]; exact hf.2.1
  · rw [hr0, hf.2.2.1]; exact Nat.mod_eq_of_lt hil
  · rw [hr0]; exact hf.2.2.2.1
  · rw [hr0]; exact hf.2.2.2.2.1
  · rw [hr0, hf.2.2.2.2.2.1]; exact Nat.mod_eq_of_lt hv4
  · rw [hr0]; exact hf.2.2.2.2.2.2
  · exact hw.epc
  · exact hw.faddr
  · show Memory.num _ (wsOff s.curWs 0x118) 4 = _
    omega
  · show Memory.num _ (wsOff s.curWs 0x118 + 4) 4 = _
    omega
  · show Memory.num _ (wsOff s.curWs 0x120) 4 = _
    have := Nat.mod_lt (t.eidx.getD 0) (show 0 < 2 ^ 32 by decide)
    omega
  · exact hw.npc
  · rw [show recordAt s (s.takeTrap t) 0x30 8 = _ from hw.rpc, State.trapRpc, State.trapNpc]
    split <;> [rw [if_neg (by omega)]; rfl]
  · constructor
    · intro a; rw [State.memByte, hs.mem, State.memByte]
    · intro x a hxa
      have hb := State.writeBack_bytes (s.writeTrap t hv) x a (by
        rw [State.writeTrap_actCore, State.curWs_writeTrap]; omega)
      rw [State.writeTrap_actCore, State.writeTrap_actSlot] at hb
      rw [s.takeTrap_entry t vec hv h0 hvec hne, State.spadByte, State.scratch_modCurSlot, State.scratch_modCurTask]
      exact hb.trans (s.writeTrap_bytes t hv x a hxa)
  · exact s.takeTrap_frame t vec hv h0 hvec hne

end Sys2Proof.Machine
end

