-- ==== Sys2Proof/Laws/Float.lean ====
section
/-! SUPPORT. Completing a float instruction, said once: its result, flags and draws, or the ARITH trap (R133, R138, R180). -/

namespace Sys2Proof.Machine

theorem State.takeDraws_core (s : State) (c w n : Nat) :
    s.takeDraws c w n = s ∧ n = 0 ∨
      n ≠ 0 ∧ s.takeDraws c w n = s.sPut c (wsOff w 0x1D0) 8 (s.drawCount c w + n) := by
  by_cases h : n = 0
  · exact .inl ⟨by simp [State.takeDraws, h], h⟩
  · exact .inr ⟨h, by simp [State.takeDraws, h]⟩

theorem State.drawCount_lt (s : State) (c w : Nat) : s.drawCount c w < 2 ^ 64 := Memory.num_lt _ _ 8

@[simp] theorem State.curWs_orFlags (s : State) (f : Flags) : (s.orFlags f).curWs = s.curWs := by
  simp [State.orFlags]
@[simp] theorem State.curSlot_orFlags (s : State) (f : Flags) : (s.orFlags f).curSlot = s.curSlot := by
  simp [State.orFlags]
@[simp] theorem State.curTask_orFlags (s : State) (f : Flags) :
    (s.orFlags f).curTask = { s.curTask with flags := s.curTask.flags ||| f } := by
  simp [State.orFlags]
@[simp] theorem State.rd_orFlags (s : State) (f : Flags) (r : BitVec 5) : (s.orFlags f).rd r = s.rd r := by
  simp [State.orFlags]
@[simp] theorem State.orFlags_cycle (s : State) (f : Flags) : (s.orFlags f).cycle = s.cycle := rfl
@[simp] theorem State.orFlags_actCore (s : State) (f : Flags) : (s.orFlags f).actCore = s.actCore := rfl

theorem State.nextPc?_congr {s t : State} (hp : t.curTask.pc = s.curTask.pc) (hi : t.curTask.issue = s.curTask.issue) :
    t.nextPc? = s.nextPc? := by
  simp [State.nextPc?, State.lineBase, hp, hi]

theorem State.npc_congr {s t : State} (hp : t.curTask.pc = s.curTask.pc) (hi : t.curTask.issue = s.curTask.issue) :
    t.npc = s.npc := by
  simp [State.npc, State.nextPc?_congr hp hi, hp, hi]

theorem State.takeDraws_sameElseSpad (s : State) (n : Nat) : SameElseSpad s (s.takeDraws s.actCore s.curWs n) := by
  rcases s.takeDraws_core s.actCore s.curWs n with ⟨h, _⟩ | ⟨_, h⟩
  · rw [h]; exact ⟨OneCore.refl _ _, rfl, fun _ _ => rfl, fun _ _ => rfl⟩
  · rw [h]; exact SameElseSpad.sPut s _ _ _

@[simp] theorem State.curSlot_takeDraws (s : State) (c w n : Nat) : (s.takeDraws c w n).curSlot = s.curSlot := by
  rcases s.takeDraws_core c w n with ⟨h, _⟩ | ⟨_, h⟩ <;> simp [h]
@[simp] theorem State.curWs_takeDraws (s : State) (c w n : Nat) : (s.takeDraws c w n).curWs = s.curWs := by
  rcases s.takeDraws_core c w n with ⟨h, _⟩ | ⟨_, h⟩ <;> simp [h]
@[simp] theorem State.curTask_takeDraws (s : State) (c w n : Nat) : (s.takeDraws c w n).curTask = s.curTask := by
  rcases s.takeDraws_core c w n with ⟨h, _⟩ | ⟨_, h⟩ <;> simp [h]
@[simp] theorem State.rd_takeDraws (s : State) (c w n : Nat) (r : BitVec 5) : (s.takeDraws c w n).rd r = s.rd r := by
  rcases s.takeDraws_core c w n with ⟨h, _⟩ | ⟨_, h⟩ <;> simp [h]
@[simp] theorem State.takeDraws_cycle (s : State) (c w n : Nat) : (s.takeDraws c w n).cycle = s.cycle := by
  rcases s.takeDraws_core c w n with ⟨h, _⟩ | ⟨_, h⟩ <;> simp [h]
@[simp] theorem State.takeDraws_actCore (s : State) (c w n : Nat) : (s.takeDraws c w n).actCore = s.actCore := by
  rcases s.takeDraws_core c w n with ⟨h, _⟩ | ⟨_, h⟩ <;> simp [h]

/-- What a float instruction that completes leaves: the spec lemma of `State.floatDone` without a trap. -/
theorem State.floatDone_gives {s : State} {i : Instr} {d : BitVec 5} {v : Word} {fl : Flags} {draws rot : Nat}
    (h : exec i s = .next ((((s.takeDraws s.actCore s.curWs draws).orFlags fl).wr d v).finish rot)) :
    GivesFlags s i d v fl draws rot := by
  generalize hu : s.takeDraws s.actCore s.curWs draws = u at h
  have us : u.curSlot = s.curSlot := by rw [← hu]; simp
  have uw : u.curWs = s.curWs := by rw [← hu]; simp
  have ut : u.curTask = s.curTask := by rw [← hu]; simp
  have uc : u.cycle = s.cycle := by rw [← hu]; simp
  have ua : u.actCore = s.actCore := by rw [← hu]; simp
  have ur : ∀ r, u.rd r = s.rd r := by intro r; rw [← hu]; simp
  have ue : SameElseSpad s u := hu ▸ s.takeDraws_sameElseSpad draws
  have hn : ((u.orFlags fl).wr d v).npc = s.npc := State.npc_congr (by simp [ut]) (by simp [ut])
  have hp : ((u.orFlags fl).wr d v).nextPc? = s.nextPc? := State.nextPc?_congr (by simp [ut]) (by simp [ut])
  have e1 : SameElse u (((u.orFlags fl).wr d v).finish rot) :=
    (SameElse.modCurTask u _).trans (State.result_sameElse _ d v rot) (State.curWs_orFlags u fl)
  have hm : (((u.orFlags fl).wr d v).finish rot).mem = s.mem := by rw [e1.1.device.mem, ue.device.mem]
  have hb : ∀ c, ((((u.orFlags fl).wr d v).finish rot).core c).scratch = (u.core c).scratch := by
    intro c
    rw [State.finish, State.scratch_modCurSlot, State.scratch_modCurTask, State.wr, State.scratch_modCurSlot,
      State.orFlags, State.scratch_modCurTask]
  refine ⟨_, h, by simp, ?_, ⟨?_, ?_, ?_⟩, ue.trans e1.1 uw, ⟨?_, ?_⟩, ?_⟩
  · intro r hr
    rw [State.rd_finish, State.rd_wr_ne _ _ (by simpa using hr), State.rd_orFlags, ur]
  · simp [hn]
  · simp [hn, hp, ut]
  · simp [us, uc]
  · intro a; rw [State.memByte, hm, State.memByte]
  · intro x a hxa
    rw [State.spadByte, hb, ← State.spadByte, ← hu]
    rcases s.takeDraws_core s.actCore s.curWs draws with ⟨h1, _⟩ | ⟨h0, h1⟩
    · rw [h1]
    · rw [h1]
      rw [if_neg h0] at hxa
      exact State.spadByte_sPut s _ _ _ _ _ _ hxa
  · rw [State.drawCount, State.sNum, hb, ← State.sNum, ← hu]
    rcases s.takeDraws_core s.actCore s.curWs draws with ⟨h1, h0⟩ | ⟨_, h1⟩
    · rw [h1, h0, Nat.add_zero, Nat.mod_eq_of_lt (s.drawCount_lt _ _)]; rfl
    · rw [h1, State.sNum_sPut_same]

/-- The spec lemma of `State.floatDone`: the result, or the ARITH trap with no effect. -/
theorem State.floatDone_floatGives {s : State} {i : Instr} {d : BitVec 5} {v : Word} {fl : Flags} {draws rot : Nat}
    (h : exec i s = .next (s.floatDone d v fl draws rot)) : FloatGives s i d (v, fl) draws rot := by
  constructor
  · intro h0
    apply State.floatDone_gives
    rw [h, State.floatDone, if_neg]
    simpa [State.enabledFlag] using h0
  · intro h1 vec hv h0 hvec hne
    refine ⟨_, h, ?_⟩
    rw [State.floatDone, if_pos (by simpa [State.enabledFlag] using h1)]
    exact s.takeTrap_handlerEntered _ vec hv h0 hvec hne

end Sys2Proof.Machine
end

