-- ==== Sys2Proof/Laws/Open.lean ====
section
/-! SUPPORT. What loads, stores and engines leave of the bytes that engines have written and nobody has acquired (R84,
R98, R101): each operation changes only the list of what is open, and the free values used; where nothing is open, a load
and a store are plain. -/

namespace Sys2Proof.Machine

variable (s : State) (w : Nat) (l : Loc) (n : Nat)

theorem State.opened_of_nil (h : s.unsettled = []) : s.opened w l n = false := by simp [State.opened, h]

theorem State.taken_settled {bs : List Byte} (h : s.opened w l n = false) : s.taken w l n bs = bs := by
  simp [State.taken, h]

theorem State.peekOpen_settled (h : s.opened w l n = false) : s.peekOpen w l n = s.peek w l n :=
  s.taken_settled w l n h

theorem State.took_settled (h : s.opened w l n = false) : s.took w l n = s := by simp [State.took, h]

theorem State.took_frame : s.took w l n = { s with freeCount := (s.took w l n).freeCount } := by
  unfold State.took; split <;> rfl

theorem State.settleAt_frame : s.settleAt l n = { s with unsettled := (s.settleAt l n).unsettled } := by
  unfold State.settleAt; repeat' split
  all_goals rfl

theorem State.acquirePhase_frame (key phc : Nat) :
    s.acquirePhase key phc = { s with unsettled := (s.acquirePhase key phc).unsettled } := by
  unfold State.acquirePhase; split <;> rfl

theorem State.dropPhases_frame (key : Nat) : s.dropPhases key = { s with unsettled := (s.dropPhases key).unsettled } := by
  unfold State.dropPhases; split <;> rfl

theorem State.seeClasp_frame : s.seeClasp w l = { s with unsettled := (s.seeClasp w l).unsettled } := by
  unfold State.seeClasp; repeat' split
  all_goals first | rfl | exact s.acquirePhase_frame _ _

theorem State.observe_frame : s.observe w l n = { s with unsettled := (s.observe w l n).unsettled } := by
  unfold State.observe; repeat' split
  all_goals first | rfl | exact s.seeClasp_frame _ _

theorem State.loadedAt_frame (h : s.opened w l n = false) :
    s.loadedAt w l n = { s with unsettled := (s.loadedAt w l n).unsettled } := by
  rw [State.loadedAt, s.took_settled w l n h]; exact s.observe_frame w l n

theorem State.noteEngine_frame (id core : Nat) (bs : List Byte) :
    s.noteEngine id core w l bs = { s with unsettled := (s.noteEngine id core w l bs).unsettled } := by
  unfold State.noteEngine
  split
  · rfl
  · dsimp only
    split
    · rw [s.settleAt_frame]
    · exact s.settleAt_frame l _

theorem State.pokeBy_settled {bs : List Byte} (h : s.opened w l bs.length = false) :
    s.pokeBy w l bs = (s.settleAt l bs.length).poke w l bs := by simp [State.pokeBy, State.decided, h]

/-- With nothing open a thread's store is a plain one. -/
theorem State.pokeBy_of_nil {bs : List Byte} (h : s.unsettled = []) : s.pokeBy w l bs = s.poke w l bs := by
  rw [s.pokeBy_settled w l (s.opened_of_nil w l _ h)]; simp [State.settleAt, h]

/-- With nothing open a load leaves the state. -/
theorem State.loadedAt_of_nil (h : s.unsettled = []) : s.loadedAt w l n = s := by
  rw [State.loadedAt, s.took_settled w l n (s.opened_of_nil w l n h)]
  unfold State.observe State.seeClasp; simp only [h, List.isEmpty_nil, if_true]
  repeat' split
  all_goals rfl

/-- A byte that a load takes is the one given to it or an earlier value of the place. -/
theorem State.taken_byte {bs : List Byte} {j : Nat} {b : Byte} (h : (s.taken w l n bs)[j]? = some b) :
    bs[j]? = some b ∨ (s.earlier w l n)[j]? = some (some b) := by
  unfold State.taken at h
  split at h
  · rw [List.getElem?_map, List.getElem?_zipIdx] at h
    cases hz : (bs.zip (s.earlier w l n))[j]? with
    | none => simp [hz] at h
    | some q =>
      have hq := List.getElem?_zip_eq_some.mp hz
      simp only [hz, Option.map_some, Option.some.injEq] at h
      split at h
      · cases hy : q.2 with
        | none => left; rw [hq.1, ← h, hy]; rfl
        | some v => right; rw [hq.2, hy, ← h, hy]; rfl
      · left; rw [hq.1, h]
  · exact .inl h

end Sys2Proof.Machine
end

