-- ==== Sys2Proof/Laws/PerInstr.lean ====
section
/-! SUPPORT. For every instruction as syntax: its encoding has the length its set gives it (R153, R331, R307), and an event of
the device has no words. -/

namespace Sys2Proof.Laws.Encoding

open Sys2Proof.Machine

/-- The words of an instruction: none for an event; one for a bead word or a bootstrap word; for a native instruction as many
as its first word's major opcode says (R153). -/
def Statement (i : Instr) : Prop :=
  match instrSet i, encode i with
  | .event, l => l = []
  | .native, w :: r => lengthOf w = r.length + 1
  | .native, [] => False
  | _, l => l.length = 1

theorem add (d : BitVec 5) (a : BitVec 5) (b : BitVec 5) : Statement (.add d a b) :=
  lengthOf_of_major (congrArg BitVec.toNat (Laws.encA_m _ _ _ _ _))
theorem sub (d : BitVec 5) (a : BitVec 5) (b : BitVec 5) : Statement (.sub d a b) :=
  lengthOf_of_major (congrArg BitVec.toNat (Laws.encA_m _ _ _ _ _))
theorem mul (d : BitVec 5) (a : BitVec 5) (b : BitVec 5) : Statement (.mul d a b) :=
  lengthOf_of_major (congrArg BitVec.toNat (Laws.encA_m _ _ _ _ _))
theorem mulh (d : BitVec 5) (a : BitVec 5) (b : BitVec 5) : Statement (.mulh d a b) :=
  lengthOf_of_major (congrArg BitVec.toNat (Laws.encA_m _ _ _ _ _))
theorem mulhn (d : BitVec 5) (a : BitVec 5) (b : BitVec 5) : Statement (.mulhn d a b) :=
  lengthOf_of_major (congrArg BitVec.toNat (Laws.encA_m _ _ _ _ _))
theorem div (d : BitVec 5) (a : BitVec 5) (b : BitVec 5) : Statement (.div d a b) :=
  lengthOf_of_major (congrArg BitVec.toNat (Laws.encA_m _ _ _ _ _))
theorem divn (d : BitVec 5) (a : BitVec 5) (b : BitVec 5) : Statement (.divn d a b) :=
  lengthOf_of_major (congrArg BitVec.toNat (Laws.encA_m _ _ _ _ _))
theorem rem (d : BitVec 5) (a : BitVec 5) (b : BitVec 5) : Statement (.rem d a b) :=
  lengthOf_of_major (congrArg BitVec.toNat (Laws.encA_m _ _ _ _ _))
theorem remn (d : BitVec 5) (a : BitVec 5) (b : BitVec 5) : Statement (.remn d a b) :=
  lengthOf_of_major (congrArg BitVec.toNat (Laws.encA_m _ _ _ _ _))
theorem and (d : BitVec 5) (a : BitVec 5) (b : BitVec 5) : Statement (.and d a b) :=
  lengthOf_of_major (congrArg BitVec.toNat (Laws.encA_m _ _ _ _ _))
theorem or (d : BitVec 5) (a : BitVec 5) (b : BitVec 5) : Statement (.or d a b) :=
  lengthOf_of_major (congrArg BitVec.toNat (Laws.encA_m _ _ _ _ _))
theorem xor (d : BitVec 5) (a : BitVec 5) (b : BitVec 5) : Statement (.xor d a b) :=
  lengthOf_of_major (congrArg BitVec.toNat (Laws.encA_m _ _ _ _ _))
theorem andn (d : BitVec 5) (a : BitVec 5) (b : BitVec 5) : Statement (.andn d a b) :=
  lengthOf_of_major (congrArg BitVec.toNat (Laws.encA_m _ _ _ _ _))
theorem shl (d : BitVec 5) (a : BitVec 5) (b : BitVec 5) : Statement (.shl d a b) :=
  lengthOf_of_major (congrArg BitVec.toNat (Laws.encA_m _ _ _ _ _))
theorem shr (d : BitVec 5) (a : BitVec 5) (b : BitVec 5) : Statement (.shr d a b) :=
  lengthOf_of_major (congrArg BitVec.toNat (Laws.encA_m _ _ _ _ _))
theorem sra (d : BitVec 5) (a : BitVec 5) (b : BitVec 5) : Statement (.sra d a b) :=
  lengthOf_of_major (congrArg BitVec.toNat (Laws.encA_m _ _ _ _ _))
theorem rot (d : BitVec 5) (a : BitVec 5) (b : BitVec 5) : Statement (.rot d a b) :=
  lengthOf_of_major (congrArg BitVec.toNat (Laws.encA_m _ _ _ _ _))
theorem min (d : BitVec 5) (a : BitVec 5) (b : BitVec 5) : Statement (.min d a b) :=
  lengthOf_of_major (congrArg BitVec.toNat (Laws.encA_m _ _ _ _ _))
theorem max (d : BitVec 5) (a : BitVec 5) (b : BitVec 5) : Statement (.max d a b) :=
  lengthOf_of_major (congrArg BitVec.toNat (Laws.encA_m _ _ _ _ _))
theorem minn (d : BitVec 5) (a : BitVec 5) (b : BitVec 5) : Statement (.minn d a b) :=
  lengthOf_of_major (congrArg BitVec.toNat (Laws.encA_m _ _ _ _ _))
theorem maxn (d : BitVec 5) (a : BitVec 5) (b : BitVec 5) : Statement (.maxn d a b) :=
  lengthOf_of_major (congrArg BitVec.toNat (Laws.encA_m _ _ _ _ _))
theorem clz (d : BitVec 5) (a : BitVec 5) : Statement (.clz d a) :=
  lengthOf_of_major (congrArg BitVec.toNat (Laws.encA_m _ _ _ _ _))
theorem ctz (d : BitVec 5) (a : BitVec 5) : Statement (.ctz d a) :=
  lengthOf_of_major (congrArg BitVec.toNat (Laws.encA_m _ _ _ _ _))
theorem popc (d : BitVec 5) (a : BitVec 5) : Statement (.popc d a) :=
  lengthOf_of_major (congrArg BitVec.toNat (Laws.encA_m _ _ _ _ _))
theorem sel (d : BitVec 5) (a : BitVec 5) (b : BitVec 5) : Statement (.sel d a b) :=
  lengthOf_of_major (congrArg BitVec.toNat (Laws.encA_m _ _ _ _ _))
theorem cmpEq (d : BitVec 5) (a : BitVec 5) (b : BitVec 5) : Statement (.cmpEq d a b) :=
  lengthOf_of_major (congrArg BitVec.toNat (Laws.encA_m _ _ _ _ _))
theorem cmpNe (d : BitVec 5) (a : BitVec 5) (b : BitVec 5) : Statement (.cmpNe d a b) :=
  lengthOf_of_major (congrArg BitVec.toNat (Laws.encA_m _ _ _ _ _))
theorem cmpLt (d : BitVec 5) (a : BitVec 5) (b : BitVec 5) : Statement (.cmpLt d a b) :=
  lengthOf_of_major (congrArg BitVec.toNat (Laws.encA_m _ _ _ _ _))
theorem cmpGe (d : BitVec 5) (a : BitVec 5) (b : BitVec 5) : Statement (.cmpGe d a b) :=
  lengthOf_of_major (congrArg BitVec.toNat (Laws.encA_m _ _ _ _ _))
theorem cmpLtn (d : BitVec 5) (a : BitVec 5) (b : BitVec 5) : Statement (.cmpLtn d a b) :=
  lengthOf_of_major (congrArg BitVec.toNat (Laws.encA_m _ _ _ _ _))
theorem cmpGen (d : BitVec 5) (a : BitVec 5) (b : BitVec 5) : Statement (.cmpGen d a b) :=
  lengthOf_of_major (congrArg BitVec.toNat (Laws.encA_m _ _ _ _ _))
theorem sxb (d : BitVec 5) (a : BitVec 5) : Statement (.sxb d a) :=
  lengthOf_of_major (congrArg BitVec.toNat (Laws.encA_m _ _ _ _ _))
theorem sxh (d : BitVec 5) (a : BitVec 5) : Statement (.sxh d a) :=
  lengthOf_of_major (congrArg BitVec.toNat (Laws.encA_m _ _ _ _ _))
theorem sxw (d : BitVec 5) (a : BitVec 5) : Statement (.sxw d a) :=
  lengthOf_of_major (congrArg BitVec.toNat (Laws.encA_m _ _ _ _ _))
theorem zxb (d : BitVec 5) (a : BitVec 5) : Statement (.zxb d a) :=
  lengthOf_of_major (congrArg BitVec.toNat (Laws.encA_m _ _ _ _ _))
theorem zxh (d : BitVec 5) (a : BitVec 5) : Statement (.zxh d a) :=
  lengthOf_of_major (congrArg BitVec.toNat (Laws.encA_m _ _ _ _ _))
theorem zxw (d : BitVec 5) (a : BitVec 5) : Statement (.zxw d a) :=
  lengthOf_of_major (congrArg BitVec.toNat (Laws.encA_m _ _ _ _ _))
theorem addi (d : BitVec 5) (a : BitVec 5) (i : BitVec 16) : Statement (.addi d a i) :=
  lengthOf_of_major (congrArg BitVec.toNat (Laws.encI_m _ _ _ _))
theorem andi (d : BitVec 5) (a : BitVec 5) (i : BitVec 16) : Statement (.andi d a i) :=
  lengthOf_of_major (congrArg BitVec.toNat (Laws.encI_m _ _ _ _))
theorem ori (d : BitVec 5) (a : BitVec 5) (i : BitVec 16) : Statement (.ori d a i) :=
  lengthOf_of_major (congrArg BitVec.toNat (Laws.encI_m _ _ _ _))
theorem xori (d : BitVec 5) (a : BitVec 5) (i : BitVec 16) : Statement (.xori d a i) :=
  lengthOf_of_major (congrArg BitVec.toNat (Laws.encI_m _ _ _ _))
theorem shiShl (d : BitVec 5) (a : BitVec 5) (n : BitVec 6) : Statement (.shiShl d a n) :=
  lengthOf_of_major (congrArg BitVec.toNat (Laws.encI_m _ _ _ _))
theorem shiShr (d : BitVec 5) (a : BitVec 5) (n : BitVec 6) : Statement (.shiShr d a n) :=
  lengthOf_of_major (congrArg BitVec.toNat (Laws.encI_m _ _ _ _))
theorem shiSra (d : BitVec 5) (a : BitVec 5) (n : BitVec 6) : Statement (.shiSra d a n) :=
  lengthOf_of_major (congrArg BitVec.toNat (Laws.encI_m _ _ _ _))
theorem shiRot (d : BitVec 5) (a : BitVec 5) (n : BitVec 6) : Statement (.shiRot d a n) :=
  lengthOf_of_major (congrArg BitVec.toNat (Laws.encI_m _ _ _ _))
theorem cmpiEq (d : BitVec 5) (a : BitVec 5) (i : BitVec 12) : Statement (.cmpiEq d a i) :=
  lengthOf_of_major (congrArg BitVec.toNat (Laws.encI_m _ _ _ _))
theorem cmpiNe (d : BitVec 5) (a : BitVec 5) (i : BitVec 12) : Statement (.cmpiNe d a i) :=
  lengthOf_of_major (congrArg BitVec.toNat (Laws.encI_m _ _ _ _))
theorem cmpiLt (d : BitVec 5) (a : BitVec 5) (i : BitVec 12) : Statement (.cmpiLt d a i) :=
  lengthOf_of_major (congrArg BitVec.toNat (Laws.encI_m _ _ _ _))
theorem cmpiGe (d : BitVec 5) (a : BitVec 5) (i : BitVec 12) : Statement (.cmpiGe d a i) :=
  lengthOf_of_major (congrArg BitVec.toNat (Laws.encI_m _ _ _ _))
theorem cmpiLtn (d : BitVec 5) (a : BitVec 5) (i : BitVec 12) : Statement (.cmpiLtn d a i) :=
  lengthOf_of_major (congrArg BitVec.toNat (Laws.encI_m _ _ _ _))
theorem cmpiGen (d : BitVec 5) (a : BitVec 5) (i : BitVec 12) : Statement (.cmpiGen d a i) :=
  lengthOf_of_major (congrArg BitVec.toNat (Laws.encI_m _ _ _ _))
theorem lhi (d : BitVec 5) (i : BitVec 20) : Statement (.lhi d i) :=
  lengthOf_of_major (congrArg BitVec.toNat (Laws.encH_m _ _ _))
theorem phi (d : BitVec 5) (i : BitVec 20) : Statement (.phi d i) :=
  lengthOf_of_major (congrArg BitVec.toNat (Laws.encH_m _ _ _))
theorem fadd (d : BitVec 5) (a : BitVec 5) (b : BitVec 5) (f : BitVec 3) (r : BitVec 3) : Statement (.fadd d a b f r) :=
  lengthOf_of_major (congrArg BitVec.toNat (Laws.encA_m _ _ _ _ _))
theorem fsub (d : BitVec 5) (a : BitVec 5) (b : BitVec 5) (f : BitVec 3) (r : BitVec 3) : Statement (.fsub d a b f r) :=
  lengthOf_of_major (congrArg BitVec.toNat (Laws.encA_m _ _ _ _ _))
theorem fmul (d : BitVec 5) (a : BitVec 5) (b : BitVec 5) (f : BitVec 3) (r : BitVec 3) : Statement (.fmul d a b f r) :=
  lengthOf_of_major (congrArg BitVec.toNat (Laws.encA_m _ _ _ _ _))
theorem fdiv (d : BitVec 5) (a : BitVec 5) (b : BitVec 5) (f : BitVec 3) (r : BitVec 3) : Statement (.fdiv d a b f r) :=
  lengthOf_of_major (congrArg BitVec.toNat (Laws.encA_m _ _ _ _ _))
theorem fsqrt (d : BitVec 5) (a : BitVec 5) (f : BitVec 3) (r : BitVec 3) : Statement (.fsqrt d a f r) :=
  lengthOf_of_major (congrArg BitVec.toNat (Laws.encA_m _ _ _ _ _))
theorem fmin (d : BitVec 5) (a : BitVec 5) (b : BitVec 5) (f : BitVec 3) : Statement (.fmin d a b f) :=
  lengthOf_of_major (congrArg BitVec.toNat (Laws.encA_m _ _ _ _ _))
theorem fmax (d : BitVec 5) (a : BitVec 5) (b : BitVec 5) (f : BitVec 3) : Statement (.fmax d a b f) :=
  lengthOf_of_major (congrArg BitVec.toNat (Laws.encA_m _ _ _ _ _))
theorem fsgnCopy (d : BitVec 5) (a : BitVec 5) (b : BitVec 5) (f : BitVec 3) : Statement (.fsgnCopy d a b f) :=
  lengthOf_of_major (congrArg BitVec.toNat (Laws.encA_m _ _ _ _ _))
theorem fsgnNeg (d : BitVec 5) (a : BitVec 5) (b : BitVec 5) (f : BitVec 3) : Statement (.fsgnNeg d a b f) :=
  lengthOf_of_major (congrArg BitVec.toNat (Laws.encA_m _ _ _ _ _))
theorem fsgnXor (d : BitVec 5) (a : BitVec 5) (b : BitVec 5) (f : BitVec 3) : Statement (.fsgnXor d a b f) :=
  lengthOf_of_major (congrArg BitVec.toNat (Laws.encA_m _ _ _ _ _))
theorem fcmpEq (d : BitVec 5) (a : BitVec 5) (b : BitVec 5) (f : BitVec 3) : Statement (.fcmpEq d a b f) :=
  lengthOf_of_major (congrArg BitVec.toNat (Laws.encA_m _ _ _ _ _))
theorem fcmpLt (d : BitVec 5) (a : BitVec 5) (b : BitVec 5) (f : BitVec 3) : Statement (.fcmpLt d a b f) :=
  lengthOf_of_major (congrArg BitVec.toNat (Laws.encA_m _ _ _ _ _))
theorem fcmpLe (d : BitVec 5) (a : BitVec 5) (b : BitVec 5) (f : BitVec 3) : Statement (.fcmpLe d a b f) :=
  lengthOf_of_major (congrArg BitVec.toNat (Laws.encA_m _ _ _ _ _))
theorem fcmpUnordered (d : BitVec 5) (a : BitVec 5) (b : BitVec 5) (f : BitVec 3) : Statement (.fcmpUnordered d a b f) :=
  lengthOf_of_major (congrArg BitVec.toNat (Laws.encA_m _ _ _ _ _))
theorem fclass (d : BitVec 5) (a : BitVec 5) (f : BitVec 3) : Statement (.fclass d a f) :=
  lengthOf_of_major (congrArg BitVec.toNat (Laws.encA_m _ _ _ _ _))
theorem fma (d : BitVec 5) (a : BitVec 5) (b : BitVec 5) (f : BitVec 3) (r : BitVec 3) : Statement (.fma d a b f r) :=
  lengthOf_of_major (congrArg BitVec.toNat (Laws.encA_m _ _ _ _ _))
theorem fms (d : BitVec 5) (a : BitVec 5) (b : BitVec 5) (f : BitVec 3) (r : BitVec 3) : Statement (.fms d a b f r) :=
  lengthOf_of_major (congrArg BitVec.toNat (Laws.encA_m _ _ _ _ _))
theorem fnma (d : BitVec 5) (a : BitVec 5) (b : BitVec 5) (f : BitVec 3) (r : BitVec 3) : Statement (.fnma d a b f r) :=
  lengthOf_of_major (congrArg BitVec.toNat (Laws.encA_m _ _ _ _ _))
theorem fcvt (d : BitVec 5) (a : BitVec 5) (t : BitVec 4) (u : BitVec 4) (r : BitVec 3) : Statement (.fcvt d a t u r) :=
  lengthOf_of_major (congrArg BitVec.toNat (Laws.encA_m _ _ _ _ _))
theorem ld (d : BitVec 5) (a : BitVec 5) (z : BitVec 2) (o : BitVec 12) : Statement (.ld d a z o) :=
  lengthOf_of_major (congrArg BitVec.toNat (Laws.encM_m _ _ _ _ _ _))
theorem ldSx (d : BitVec 5) (a : BitVec 5) (z : BitVec 2) (o : BitVec 12) : Statement (.ldSx d a z o) :=
  lengthOf_of_major (congrArg BitVec.toNat (Laws.encM_m _ _ _ _ _ _))
theorem ldUp (d : BitVec 5) (a : BitVec 5) (z : BitVec 2) (o : BitVec 12) : Statement (.ldUp d a z o) :=
  lengthOf_of_major (congrArg BitVec.toNat (Laws.encM_m _ _ _ _ _ _))
theorem st (s : BitVec 5) (a : BitVec 5) (z : BitVec 2) (o : BitVec 12) : Statement (.st s a z o) :=
  lengthOf_of_major (congrArg BitVec.toNat (Laws.encM_m _ _ _ _ _ _))
theorem stUp (s : BitVec 5) (a : BitVec 5) (z : BitVec 2) (o : BitVec 12) : Statement (.stUp s a z o) :=
  lengthOf_of_major (congrArg BitVec.toNat (Laws.encM_m _ _ _ _ _ _))
theorem ldFeKeep (d : BitVec 5) (a : BitVec 5) (z : BitVec 2) (o : BitVec 12) : Statement (.ldFeKeep d a z o) :=
  lengthOf_of_major (congrArg BitVec.toNat (Laws.encM_m _ _ _ _ _ _))
theorem ldFeTake (d : BitVec 5) (a : BitVec 5) (z : BitVec 2) (o : BitVec 12) : Statement (.ldFeTake d a z o) :=
  lengthOf_of_major (congrArg BitVec.toNat (Laws.encM_m _ _ _ _ _ _))
theorem stFeFill (s : BitVec 5) (a : BitVec 5) (z : BitVec 2) (o : BitVec 12) : Statement (.stFeFill s a z o) :=
  lengthOf_of_major (congrArg BitVec.toNat (Laws.encM_m _ _ _ _ _ _))
theorem stFePut (s : BitVec 5) (a : BitVec 5) (z : BitVec 2) (o : BitVec 12) : Statement (.stFePut s a z o) :=
  lengthOf_of_major (congrArg BitVec.toNat (Laws.encM_m _ _ _ _ _ _))
theorem stFeClear (a : BitVec 5) (z : BitVec 2) (o : BitVec 12) : Statement (.stFeClear a z o) :=
  lengthOf_of_major (congrArg BitVec.toNat (Laws.encM_m _ _ _ _ _ _))
theorem dpref (a : BitVec 5) (o : BitVec 12) : Statement (.dpref a o) :=
  lengthOf_of_major (congrArg BitVec.toNat (Laws.encM_m _ _ _ _ _ _))
theorem ipref (a : BitVec 5) (o : BitVec 12) : Statement (.ipref a o) :=
  lengthOf_of_major (congrArg BitVec.toNat (Laws.encM_m _ _ _ _ _ _))
theorem amoAdd (d : BitVec 5) (a : BitVec 5) (b : BitVec 5) (z : BitVec 2) : Statement (.amoAdd d a b z) :=
  lengthOf_of_major (congrArg BitVec.toNat (Laws.encA_m _ _ _ _ _))
theorem amoAnd (d : BitVec 5) (a : BitVec 5) (b : BitVec 5) (z : BitVec 2) : Statement (.amoAnd d a b z) :=
  lengthOf_of_major (congrArg BitVec.toNat (Laws.encA_m _ _ _ _ _))
theorem amoOr (d : BitVec 5) (a : BitVec 5) (b : BitVec 5) (z : BitVec 2) : Statement (.amoOr d a b z) :=
  lengthOf_of_major (congrArg BitVec.toNat (Laws.encA_m _ _ _ _ _))
theorem amoXor (d : BitVec 5) (a : BitVec 5) (b : BitVec 5) (z : BitVec 2) : Statement (.amoXor d a b z) :=
  lengthOf_of_major (congrArg BitVec.toNat (Laws.encA_m _ _ _ _ _))
theorem amoMin (d : BitVec 5) (a : BitVec 5) (b : BitVec 5) (z : BitVec 2) : Statement (.amoMin d a b z) :=
  lengthOf_of_major (congrArg BitVec.toNat (Laws.encA_m _ _ _ _ _))
theorem amoMax (d : BitVec 5) (a : BitVec 5) (b : BitVec 5) (z : BitVec 2) : Statement (.amoMax d a b z) :=
  lengthOf_of_major (congrArg BitVec.toNat (Laws.encA_m _ _ _ _ _))
theorem amoMinn (d : BitVec 5) (a : BitVec 5) (b : BitVec 5) (z : BitVec 2) : Statement (.amoMinn d a b z) :=
  lengthOf_of_major (congrArg BitVec.toNat (Laws.encA_m _ _ _ _ _))
theorem amoMaxn (d : BitVec 5) (a : BitVec 5) (b : BitVec 5) (z : BitVec 2) : Statement (.amoMaxn d a b z) :=
  lengthOf_of_major (congrArg BitVec.toNat (Laws.encA_m _ _ _ _ _))
theorem amoSwap (d : BitVec 5) (a : BitVec 5) (b : BitVec 5) (z : BitVec 2) : Statement (.amoSwap d a b z) :=
  lengthOf_of_major (congrArg BitVec.toNat (Laws.encA_m _ _ _ _ _))
theorem amoFaddF32 (d : BitVec 5) (a : BitVec 5) (b : BitVec 5) : Statement (.amoFaddF32 d a b) :=
  lengthOf_of_major (congrArg BitVec.toNat (Laws.encA_m _ _ _ _ _))
theorem amoFaddF64 (d : BitVec 5) (a : BitVec 5) (b : BitVec 5) : Statement (.amoFaddF64 d a b) :=
  lengthOf_of_major (congrArg BitVec.toNat (Laws.encA_m _ _ _ _ _))
theorem cas (d : BitVec 5) (a : BitVec 5) (b : BitVec 5) (z : BitVec 2) : Statement (.cas d a b z) :=
  lengthOf_of_major (congrArg BitVec.toNat (Laws.encA_m _ _ _ _ _))
theorem redAdd (a : BitVec 5) (b : BitVec 5) (z : BitVec 2) : Statement (.redAdd a b z) :=
  lengthOf_of_major (congrArg BitVec.toNat (Laws.encA_m _ _ _ _ _))
theorem redAnd (a : BitVec 5) (b : BitVec 5) (z : BitVec 2) : Statement (.redAnd a b z) :=
  lengthOf_of_major (congrArg BitVec.toNat (Laws.encA_m _ _ _ _ _))
theorem redOr (a : BitVec 5) (b : BitVec 5) (z : BitVec 2) : Statement (.redOr a b z) :=
  lengthOf_of_major (congrArg BitVec.toNat (Laws.encA_m _ _ _ _ _))
theorem redXor (a : BitVec 5) (b : BitVec 5) (z : BitVec 2) : Statement (.redXor a b z) :=
  lengthOf_of_major (congrArg BitVec.toNat (Laws.encA_m _ _ _ _ _))
theorem redMin (a : BitVec 5) (b : BitVec 5) (z : BitVec 2) : Statement (.redMin a b z) :=
  lengthOf_of_major (congrArg BitVec.toNat (Laws.encA_m _ _ _ _ _))
theorem redMax (a : BitVec 5) (b : BitVec 5) (z : BitVec 2) : Statement (.redMax a b z) :=
  lengthOf_of_major (congrArg BitVec.toNat (Laws.encA_m _ _ _ _ _))
theorem redMinn (a : BitVec 5) (b : BitVec 5) (z : BitVec 2) : Statement (.redMinn a b z) :=
  lengthOf_of_major (congrArg BitVec.toNat (Laws.encA_m _ _ _ _ _))
theorem redMaxn (a : BitVec 5) (b : BitVec 5) (z : BitVec 2) : Statement (.redMaxn a b z) :=
  lengthOf_of_major (congrArg BitVec.toNat (Laws.encA_m _ _ _ _ _))
theorem ulogAppAddF32 (a : BitVec 5) (b : BitVec 5) (l : BitVec 4) : Statement (.ulogAppAddF32 a b l) :=
  lengthOf_of_major (congrArg BitVec.toNat (Laws.encA_m _ _ _ _ _))
theorem ulogAppAddF64 (a : BitVec 5) (b : BitVec 5) (l : BitVec 4) : Statement (.ulogAppAddF64 a b l) :=
  lengthOf_of_major (congrArg BitVec.toNat (Laws.encA_m _ _ _ _ _))
theorem ulogAppAddI32 (a : BitVec 5) (b : BitVec 5) (l : BitVec 4) : Statement (.ulogAppAddI32 a b l) :=
  lengthOf_of_major (congrArg BitVec.toNat (Laws.encA_m _ _ _ _ _))
theorem ulogAppAddI64 (a : BitVec 5) (b : BitVec 5) (l : BitVec 4) : Statement (.ulogAppAddI64 a b l) :=
  lengthOf_of_major (congrArg BitVec.toNat (Laws.encA_m _ _ _ _ _))
theorem ulogAppMaxF32 (a : BitVec 5) (b : BitVec 5) (l : BitVec 4) : Statement (.ulogAppMaxF32 a b l) :=
  lengthOf_of_major (congrArg BitVec.toNat (Laws.encA_m _ _ _ _ _))
theorem ulogAppMinF32 (a : BitVec 5) (b : BitVec 5) (l : BitVec 4) : Statement (.ulogAppMinF32 a b l) :=
  lengthOf_of_major (congrArg BitVec.toNat (Laws.encA_m _ _ _ _ _))
theorem ulogAppMaxF64 (a : BitVec 5) (b : BitVec 5) (l : BitVec 4) : Statement (.ulogAppMaxF64 a b l) :=
  lengthOf_of_major (congrArg BitVec.toNat (Laws.encA_m _ _ _ _ _))
theorem ulogAppMinF64 (a : BitVec 5) (b : BitVec 5) (l : BitVec 4) : Statement (.ulogAppMinF64 a b l) :=
  lengthOf_of_major (congrArg BitVec.toNat (Laws.encA_m _ _ _ _ _))
theorem ulogMerge (l : BitVec 4) : Statement (.ulogMerge l) :=
  lengthOf_of_major (congrArg BitVec.toNat (Laws.encA_m _ _ _ _ _))
theorem brEq (a : BitVec 5) (b : BitVec 5) (disp : BitVec 12) : Statement (.brEq a b disp) :=
  lengthOf_of_major (congrArg BitVec.toNat (Laws.encB_m _ _ _ _ _))
theorem brNe (a : BitVec 5) (b : BitVec 5) (disp : BitVec 12) : Statement (.brNe a b disp) :=
  lengthOf_of_major (congrArg BitVec.toNat (Laws.encB_m _ _ _ _ _))
theorem brLt (a : BitVec 5) (b : BitVec 5) (disp : BitVec 12) : Statement (.brLt a b disp) :=
  lengthOf_of_major (congrArg BitVec.toNat (Laws.encB_m _ _ _ _ _))
theorem brGe (a : BitVec 5) (b : BitVec 5) (disp : BitVec 12) : Statement (.brGe a b disp) :=
  lengthOf_of_major (congrArg BitVec.toNat (Laws.encB_m _ _ _ _ _))
theorem brLtn (a : BitVec 5) (b : BitVec 5) (disp : BitVec 12) : Statement (.brLtn a b disp) :=
  lengthOf_of_major (congrArg BitVec.toNat (Laws.encB_m _ _ _ _ _))
theorem brGen (a : BitVec 5) (b : BitVec 5) (disp : BitVec 12) : Statement (.brGen a b disp) :=
  lengthOf_of_major (congrArg BitVec.toNat (Laws.encB_m _ _ _ _ _))
theorem brZ (a : BitVec 5) (disp : BitVec 12) : Statement (.brZ a disp) :=
  lengthOf_of_major (congrArg BitVec.toNat (Laws.encB_m _ _ _ _ _))
theorem brNz (a : BitVec 5) (disp : BitVec 12) : Statement (.brNz a disp) :=
  lengthOf_of_major (congrArg BitVec.toNat (Laws.encB_m _ _ _ _ _))
theorem jmp (disp : BitVec 26) : Statement (.jmp disp) :=
  lengthOf_of_major (congrArg BitVec.toNat (Laws.encJ_m _ _))
theorem call (disp : BitVec 26) : Statement (.call disp) :=
  lengthOf_of_major (congrArg BitVec.toNat (Laws.encJ_m _ _))
theorem jr (a : BitVec 5) : Statement (.jr a) :=
  lengthOf_of_major (congrArg BitVec.toNat (Laws.encA_m _ _ _ _ _))
theorem callr (a : BitVec 5) : Statement (.callr a) :=
  lengthOf_of_major (congrArg BitVec.toNat (Laws.encA_m _ _ _ _ _))
theorem ret (a : BitVec 5) : Statement (.ret a) :=
  lengthOf_of_major (congrArg BitVec.toNat (Laws.encA_m _ _ _ _ _))
theorem callx (a : BitVec 5) (i : BitVec 16) : Statement (.callx a i) :=
  lengthOf_of_major (congrArg BitVec.toNat (Laws.encI_m _ _ _ _))
theorem wswap (d : BitVec 5) (a : BitVec 5) : Statement (.wswap d a) :=
  lengthOf_of_major (congrArg BitVec.toNat (Laws.encA_m _ _ _ _ _))
theorem spawn (d : BitVec 5) (a : BitVec 5) (b : BitVec 5) : Statement (.spawn d a b) :=
  lengthOf_of_major (congrArg BitVec.toNat (Laws.encA_m _ _ _ _ _))
theorem wake (d : BitVec 5) (a : BitVec 5) : Statement (.wake d a) :=
  lengthOf_of_major (congrArg BitVec.toNat (Laws.encA_m _ _ _ _ _))
theorem msgSend (a : BitVec 5) (b : BitVec 5) : Statement (.msgSend a b) :=
  lengthOf_of_major (congrArg BitVec.toNat (Laws.encA_m _ _ _ _ _))
theorem gbar (i : BitVec 5) : Statement (.gbar i) :=
  lengthOf_of_major (congrArg BitVec.toNat (Laws.encA_m _ _ _ _ _))
theorem swtrap (h : BitVec 5) (l : BitVec 5) : Statement (.swtrap h l) :=
  lengthOf_of_major (congrArg BitVec.toNat (Laws.encA_m _ _ _ _ _))
theorem dead (a : BitVec 5) : Statement (.dead a) :=
  lengthOf_of_major (congrArg BitVec.toNat (Laws.encA_m _ _ _ _ _))
theorem gets (d : BitVec 5) (s : BitVec 12) : Statement (.gets d s) :=
  lengthOf_of_major (congrArg BitVec.toNat (Laws.encI_m _ _ _ _))
theorem puts (d : BitVec 5) (s : BitVec 12) : Statement (.puts d s) :=
  lengthOf_of_major (congrArg BitVec.toNat (Laws.encI_m _ _ _ _))
theorem getc (d : BitVec 5) (c : BitVec 4) : Statement (.getc d c) :=
  lengthOf_of_major (congrArg BitVec.toNat (Laws.encI_m _ _ _ _))
theorem putc (d : BitVec 5) (c : BitVec 4) : Statement (.putc d c) :=
  lengthOf_of_major (congrArg BitVec.toNat (Laws.encI_m _ _ _ _))
theorem clInit (a : BitVec 5) (b : BitVec 5) : Statement (.clInit a b) :=
  lengthOf_of_major (congrArg BitVec.toNat (Laws.encA_m _ _ _ _ _))
theorem clArm (a : BitVec 5) (b : BitVec 5) : Statement (.clArm a b) :=
  lengthOf_of_major (congrArg BitVec.toNat (Laws.encA_m _ _ _ _ _))
theorem clAdd (a : BitVec 5) (b : BitVec 5) : Statement (.clAdd a b) :=
  lengthOf_of_major (congrArg BitVec.toNat (Laws.encA_m _ _ _ _ _))
theorem clWait (d : BitVec 5) (a : BitVec 5) (b : BitVec 5) : Statement (.clWait d a b) :=
  lengthOf_of_major (congrArg BitVec.toNat (Laws.encA_m _ _ _ _ _))
theorem clTest (d : BitVec 5) (a : BitVec 5) : Statement (.clTest d a) :=
  lengthOf_of_major (congrArg BitVec.toNat (Laws.encA_m _ _ _ _ _))
theorem cbDef (d : BitVec 5) (h : BitVec 5) (b : BitVec 5) : Statement (.cbDef d h b) :=
  lengthOf_of_major (congrArg BitVec.toNat (Laws.encA_m _ _ _ _ _))
theorem cbFill (h : BitVec 5) (b : BitVec 5) : Statement (.cbFill h b) :=
  lengthOf_of_major (congrArg BitVec.toNat (Laws.encA_m _ _ _ _ _))
theorem cbDrain (h : BitVec 5) (b : BitVec 5) : Statement (.cbDrain h b) :=
  lengthOf_of_major (congrArg BitVec.toNat (Laws.encA_m _ _ _ _ _))
theorem cbWfill (h : BitVec 5) (b : BitVec 5) : Statement (.cbWfill h b) :=
  lengthOf_of_major (congrArg BitVec.toNat (Laws.encA_m _ _ _ _ _))
theorem cbWfree (h : BitVec 5) (b : BitVec 5) : Statement (.cbWfree h b) :=
  lengthOf_of_major (congrArg BitVec.toNat (Laws.encA_m _ _ _ _ _))
theorem cbStat (d : BitVec 5) (h : BitVec 5) : Statement (.cbStat d h) :=
  lengthOf_of_major (congrArg BitVec.toNat (Laws.encA_m _ _ _ _ _))
theorem meterOut (core : Nat) (slot : Nat) : Statement (.meterOut core slot) := rfl
theorem capMeasurement (watts : Nat) : Statement (.capMeasurement watts) := rfl
theorem powerCapSet (watts : Nat) : Statement (.powerCapSet watts) := rfl
theorem quantumExpiry (core : Nat) (slot : Nat) : Statement (.quantumExpiry core slot) := rfl
theorem memoryReturn (core : Nat) (slot : Nat) : Statement (.memoryReturn core slot) := rfl
theorem homeRequestArrival (id : Nat) : Statement (.homeRequestArrival id) := rfl
theorem parkRelease (core : Nat) (slot : Nat) : Statement (.parkRelease core slot) := rfl
theorem feDeadline (core : Nat) (ws : Nat) : Statement (.feDeadline core ws) := rfl
theorem trapEntry (core : Nat) (slot : Nat) : Statement (.trapEntry core slot) := rfl
theorem serviceResume (core : Nat) (ws : Nat) : Statement (.serviceResume core ws) := rfl
theorem serviceEscalate (core : Nat) (ws : Nat) : Statement (.serviceEscalate core ws) := rfl
theorem switchComplete (core : Nat) (slot : Nat) : Statement (.switchComplete core slot) := rfl
theorem emptySlotFill (core : Nat) (slot : Nat) : Statement (.emptySlotFill core slot) := rfl
theorem lineFill (core : Nat) (line : Nat) : Statement (.lineFill core line) := rfl
theorem gangRelease (g : Nat) : Statement (.gangRelease g) := rfl
theorem gbarRelease (g : Nat) (id : Nat) : Statement (.gbarRelease g id) := rfl
theorem gangFailure (g : Nat) (f : FailInfo) : Statement (.gangFailure g f) := rfl
theorem gangPreempt (g : Nat) : Statement (.gangPreempt g) := rfl
theorem gangResume (g : Nat) (gx : Nat) (gy : Nat) : Statement (.gangResume g gx gy) := rfl
theorem gangRetire (g : Nat) : Statement (.gangRetire g) := rfl
theorem unitFailure (u : UnitRef) : Statement (.unitFailure u) := rfl
theorem settlementComplete (u : UnitRef) : Statement (.settlementComplete u) := rfl
theorem journalCoalesceFlush (u : UnitRef) (addr : Nat) : Statement (.journalCoalesceFlush u addr) := rfl
theorem sramScrub (core : Nat) (fixed : List Nat) : Statement (.sramScrub core fixed) := rfl
theorem memoryScrub (fixed : List Nat) : Statement (.memoryScrub fixed) := rfl
theorem shootdownComplete (id : Nat) : Statement (.shootdownComplete id) := rfl
theorem nestStart (core : Nat) : Statement (.nestStart core) := rfl
theorem nestComplete (core : Nat) : Statement (.nestComplete core) := rfl
theorem maGrant (sett : Nat) : Statement (.maGrant sett) := rfl
theorem maCommandStart (sett : Nat) (i : Nat) : Statement (.maCommandStart sett i) := rfl
theorem maDrainRow (sett : Nat) : Statement (.maDrainRow sett) := rfl
theorem maCommandComplete (sett : Nat) (i : Nat) : Statement (.maCommandComplete sett i) := rfl
theorem maJobAutoClose (core : Nat) : Statement (.maJobAutoClose core) := rfl
theorem copyCommandStart (sett : Nat) : Statement (.copyCommandStart sett) := rfl
theorem copyRunWritten (sett : Nat) (place : Nat) : Statement (.copyRunWritten sett place) := rfl
theorem copyCommandComplete (sett : Nat) (place : Nat) : Statement (.copyCommandComplete sett place) := rfl
theorem collectiveComplete (g : Nat) (m : Nat) : Statement (.collectiveComplete g m) := rfl
theorem bdPassStart (core : Nat) : Statement (.bdPassStart core) := rfl
theorem sweepPass (core : Nat) : Statement (.sweepPass core) := rfl
theorem bdPassComplete (core : Nat) : Statement (.bdPassComplete core) := rfl
theorem widxObserve (q : Nat) : Statement (.widxObserve q) := rfl
theorem stageQueueObserve (q : Nat) (k : Nat) : Statement (.stageQueueObserve q k) := rfl
theorem pktNop (q : Nat) (k : Nat) (h : PktHdr) : Statement (.pktNop q k h) := rfl
theorem pktLaunch (q : Nat) (k : Nat) (h : PktHdr) (b : LaunchBody) : Statement (.pktLaunch q k h b) := rfl
theorem pktLaunchi (q : Nat) (k : Nat) (h : PktHdr) (desc : Nat) (stride : BitVec 64) : Statement (.pktLaunchi q k h desc stride) := rfl
theorem pktLoop (q : Nat) (k : Nat) (h : PktHdr) (count : Nat) : Statement (.pktLoop q k h count) := rfl
theorem pktEndloop (q : Nat) (k : Nat) (h : PktHdr) : Statement (.pktEndloop q k h) := rfl
theorem pktIf (q : Nat) (k : Nat) (h : PktHdr) (b : CondBody) (skip : Nat) : Statement (.pktIf q k h b skip) := rfl
theorem pktWaitmem (q : Nat) (k : Nat) (h : PktHdr) (b : CondBody) (tmo : Nat) : Statement (.pktWaitmem q k h b tmo) := rfl
theorem waitmemPoll (q : Nat) (k : Nat) : Statement (.waitmemPoll q k) := rfl
theorem waitmemTimeout (q : Nat) (k : Nat) : Statement (.waitmemTimeout q k) := rfl
theorem pktSignal (q : Nat) (k : Nat) (h : PktHdr) (target : Nat) (tset : BitVec 64) : Statement (.pktSignal q k h target tset) := rfl
theorem pktCopy (q : Nat) (k : Nat) (h : PktHdr) (desc : Nat) (clasp : Nat) : Statement (.pktCopy q k h desc clasp) := rfl
theorem pktStage (q : Nat) (k : Nat) (h : PktHdr) (b : StageBody) : Statement (.pktStage q k h b) := rfl
theorem pktShoot (q : Nat) (k : Nat) (h : PktHdr) (b : ShootBody) : Statement (.pktShoot q k h b) := rfl
theorem stageLaunch (q : Nat) (k : Nat) : Statement (.stageLaunch q k) := rfl
theorem packetComplete (q : Nat) (k : Nat) (r : StatusInfo) : Statement (.packetComplete q k r) := rfl
theorem starvationGuard (q : Nat) : Statement (.starvationGuard q) := rfl
theorem queueFaultResolved (q : Nat) (ok : Bool) : Statement (.queueFaultResolved q ok) := rfl
theorem queueRestart (q : Nat) : Statement (.queueRestart q) := rfl
theorem queueCreate (b : QueueSpec) : Statement (.queueCreate b) := rfl
theorem serviceTokenSet (q : Nat) (tset : BitVec 64) : Statement (.serviceTokenSet q tset) := rfl
theorem remotePacket (q : Nat) (bytes : BitVec 512) : Statement (.remotePacket q bytes) := rfl
theorem worldCreate (b : WorldSpec) : Statement (.worldCreate b) := rfl
theorem worldDestroy (w : Nat) : Statement (.worldDestroy w) := rfl
theorem coreScrub (core : Nat) (w : Nat) : Statement (.coreScrub core w) := rfl
theorem fabricRequest (b : FabricReq) : Statement (.fabricRequest b) := rfl
theorem fabricAnswer (core : Nat) (slot : Nat) (ok : Bool) (data : FabricReply) : Statement (.fabricAnswer core slot ok data) := rfl
theorem cipherCommand (b : CipherCmd) : Statement (.cipherCommand b) := rfl
theorem keySlotInstall (b : KeySpec) : Statement (.keySlotInstall b) := rfl
theorem keySlotRevoke (net : Bool) (slot : Nat) : Statement (.keySlotRevoke net slot) := rfl
theorem revokeComplete (net : Bool) (slot : Nat) : Statement (.revokeComplete net slot) := rfl
theorem linkAuthFailure (link : Nat) : Statement (.linkAuthFailure link) := rfl
theorem linkCounterExhaustion (link : Nat) : Statement (.linkCounterExhaustion link) := rfl
theorem translationRequest (w : Nat) (container : List (BitVec 8)) : Statement (.translationRequest w container) := rfl
theorem imageLoad (b : LoadSpec) : Statement (.imageLoad b) := rfl
theorem imageUnload (w : Nat) (handle : Nat) : Statement (.imageUnload w handle) := rfl
theorem quoteRequest (w : Nat) (nonce : BitVec 256) : Statement (.quoteRequest w nonce) := rfl
theorem journalRead (first : Nat) (count : Nat) (nonce : BitVec 256) : Statement (.journalRead first count nonce) := rfl
theorem configurationRecord (verified : Bool) (out : List UnitRef) : Statement (.configurationRecord verified out) := rfl
theorem boot (verified : Bool) : Statement (.boot verified) := rfl
theorem linkRekeyed (link : Nat) : Statement (.linkRekeyed link) := rfl
theorem linkFlitFailsAfterRetries (link : Nat) : Statement (.linkFlitFailsAfterRetries link) := rfl
theorem engineFaultResolved (unit : EngineRef) (ok : Bool) : Statement (.engineFaultResolved unit ok) := rfl
theorem bdDeclComplete (core : Nat) (slot : Nat) : Statement (.bdDeclComplete core slot) := rfl
theorem formatWindowWrite (n : Nat) (desc : WindowSpec) : Statement (.formatWindowWrite n desc) := rfl
theorem fabricWindowWrite (w : Nat) (n : Nat) (desc : BitVec 256) : Statement (.fabricWindowWrite w n desc) := rfl
theorem exportWrite (n : Nat) (desc : BitVec 256) : Statement (.exportWrite n desc) := rfl
theorem yield : Statement .yield :=
  lengthOf_of_major (congrArg BitVec.toNat (Laws.encA_m _ _ _ _ _))
theorem sleep : Statement .sleep :=
  lengthOf_of_major (congrArg BitVec.toNat (Laws.encA_m _ _ _ _ _))
theorem halt : Statement .halt :=
  lengthOf_of_major (congrArg BitVec.toNat (Laws.encA_m _ _ _ _ _))
theorem msgWait : Statement .msgWait :=
  lengthOf_of_major (congrArg BitVec.toNat (Laws.encA_m _ _ _ _ _))
theorem eret : Statement .eret :=
  lengthOf_of_major (congrArg BitVec.toNat (Laws.encA_m _ _ _ _ _))
theorem maLdst (c : EngCmd) : Statement (.maLdst c) :=
  lengthOf_of_major (congrArg BitVec.toNat (encE_major _ _ _))
theorem maSwap (c : EngCmd) : Statement (.maSwap c) :=
  lengthOf_of_major (congrArg BitVec.toNat (encE_major _ _ _))
theorem maZero (c : EngCmd) : Statement (.maZero c) :=
  lengthOf_of_major (congrArg BitVec.toNat (encE_major _ _ _))
theorem maStream (c : EngCmd) : Statement (.maStream c) :=
  lengthOf_of_major (congrArg BitVec.toNat (encE_major _ _ _))
theorem maDrain (c : EngCmd) : Statement (.maDrain c) :=
  lengthOf_of_major (congrArg BitVec.toNat (encE_major _ _ _))
theorem maEnd (c : EngCmd) : Statement (.maEnd c) :=
  lengthOf_of_major (congrArg BitVec.toNat (encE_major _ _ _))
theorem maWait (c : EngCmd) : Statement (.maWait c) :=
  lengthOf_of_major (congrArg BitVec.toNat (encE_major _ _ _))
theorem dmaCp (c : EngCmd) : Statement (.dmaCp c) :=
  lengthOf_of_major (congrArg BitVec.toNat (encE_major _ _ _))
theorem dmaGt (c : EngCmd) : Statement (.dmaGt c) :=
  lengthOf_of_major (congrArg BitVec.toNat (encE_major _ _ _))
theorem dmaSc (c : EngCmd) : Statement (.dmaSc c) :=
  lengthOf_of_major (congrArg BitVec.toNat (encE_major _ _ _))
theorem dmaColl (c : EngCmd) : Statement (.dmaColl c) :=
  lengthOf_of_major (congrArg BitVec.toNat (encE_major _ _ _))
theorem bdDecl (c : EngCmd) : Statement (.bdDecl c) :=
  lengthOf_of_major (congrArg BitVec.toNat (encE_major _ _ _))
theorem bdPass (c : EngCmd) : Statement (.bdPass c) :=
  lengthOf_of_major (congrArg BitVec.toNat (encE_major _ _ _))
theorem bdWake (c : EngCmd) : Statement (.bdWake c) :=
  lengthOf_of_major (congrArg BitVec.toNat (encE_major _ _ _))
theorem bdStat (c : EngCmd) : Statement (.bdStat c) :=
  lengthOf_of_major (congrArg BitVec.toNat (encE_major _ _ _))
theorem bdFree (c : EngCmd) : Statement (.bdFree c) :=
  lengthOf_of_major (congrArg BitVec.toNat (encE_major _ _ _))
theorem vxCopy (n : Nest) : Statement (.vxCopy n) :=
  lengthOf_of_major (congrArg BitVec.toNat (encN_major _ _))
theorem vxAdd (n : Nest) : Statement (.vxAdd n) :=
  lengthOf_of_major (congrArg BitVec.toNat (encN_major _ _))
theorem vxSub (n : Nest) : Statement (.vxSub n) :=
  lengthOf_of_major (congrArg BitVec.toNat (encN_major _ _))
theorem vxMul (n : Nest) : Statement (.vxMul n) :=
  lengthOf_of_major (congrArg BitVec.toNat (encN_major _ _))
theorem vxFma (n : Nest) : Statement (.vxFma n) :=
  lengthOf_of_major (congrArg BitVec.toNat (encN_major _ _))
theorem vxMin (n : Nest) : Statement (.vxMin n) :=
  lengthOf_of_major (congrArg BitVec.toNat (encN_major _ _))
theorem vxMax (n : Nest) : Statement (.vxMax n) :=
  lengthOf_of_major (congrArg BitVec.toNat (encN_major _ _))
theorem vxAbs (n : Nest) : Statement (.vxAbs n) :=
  lengthOf_of_major (congrArg BitVec.toNat (encN_major _ _))
theorem vxNeg (n : Nest) : Statement (.vxNeg n) :=
  lengthOf_of_major (congrArg BitVec.toNat (encN_major _ _))
theorem vxDiv (n : Nest) : Statement (.vxDiv n) :=
  lengthOf_of_major (congrArg BitVec.toNat (encN_major _ _))
theorem vxCvt (n : Nest) : Statement (.vxCvt n) :=
  lengthOf_of_major (congrArg BitVec.toNat (encN_major _ _))
theorem vxSel (n : Nest) : Statement (.vxSel n) :=
  lengthOf_of_major (congrArg BitVec.toNat (encN_major _ _))
theorem vxCmpeq (n : Nest) : Statement (.vxCmpeq n) :=
  lengthOf_of_major (congrArg BitVec.toNat (encN_major _ _))
theorem vxCmplt (n : Nest) : Statement (.vxCmplt n) :=
  lengthOf_of_major (congrArg BitVec.toNat (encN_major _ _))
theorem vxCmple (n : Nest) : Statement (.vxCmple n) :=
  lengthOf_of_major (congrArg BitVec.toNat (encN_major _ _))
theorem vxAnd (n : Nest) : Statement (.vxAnd n) :=
  lengthOf_of_major (congrArg BitVec.toNat (encN_major _ _))
theorem vxOr (n : Nest) : Statement (.vxOr n) :=
  lengthOf_of_major (congrArg BitVec.toNat (encN_major _ _))
theorem vxXor (n : Nest) : Statement (.vxXor n) :=
  lengthOf_of_major (congrArg BitVec.toNat (encN_major _ _))
theorem vxShl (n : Nest) : Statement (.vxShl n) :=
  lengthOf_of_major (congrArg BitVec.toNat (encN_major _ _))
theorem vxShr (n : Nest) : Statement (.vxShr n) :=
  lengthOf_of_major (congrArg BitVec.toNat (encN_major _ _))
theorem vxSra (n : Nest) : Statement (.vxSra n) :=
  lengthOf_of_major (congrArg BitVec.toNat (encN_major _ _))
theorem vxQuant (n : Nest) : Statement (.vxQuant n) :=
  lengthOf_of_major (congrArg BitVec.toNat (encN_major _ _))
theorem vxDequant (n : Nest) : Statement (.vxDequant n) :=
  lengthOf_of_major (congrArg BitVec.toNat (encN_major _ _))
theorem vxRsum (n : Nest) : Statement (.vxRsum n) :=
  lengthOf_of_major (congrArg BitVec.toNat (encN_major _ _))
theorem vxRmax (n : Nest) : Statement (.vxRmax n) :=
  lengthOf_of_major (congrArg BitVec.toNat (encN_major _ _))
theorem vxRmin (n : Nest) : Statement (.vxRmin n) :=
  lengthOf_of_major (congrArg BitVec.toNat (encN_major _ _))
theorem vxRargmax (n : Nest) : Statement (.vxRargmax n) :=
  lengthOf_of_major (congrArg BitVec.toNat (encN_major _ _))
theorem vxGather (n : Nest) : Statement (.vxGather n) :=
  lengthOf_of_major (congrArg BitVec.toNat (encN_major _ _))
theorem vxIota (n : Nest) : Statement (.vxIota n) :=
  lengthOf_of_major (congrArg BitVec.toNat (encN_major _ _))
theorem vxFill (n : Nest) : Statement (.vxFill n) :=
  lengthOf_of_major (congrArg BitVec.toNat (encN_major _ _))
theorem vxExp (n : Nest) : Statement (.vxExp n) :=
  lengthOf_of_major (congrArg BitVec.toNat (encN_major _ _))
theorem vxExp2 (n : Nest) : Statement (.vxExp2 n) :=
  lengthOf_of_major (congrArg BitVec.toNat (encN_major _ _))
theorem vxExpm1 (n : Nest) : Statement (.vxExpm1 n) :=
  lengthOf_of_major (congrArg BitVec.toNat (encN_major _ _))
theorem vxLog (n : Nest) : Statement (.vxLog n) :=
  lengthOf_of_major (congrArg BitVec.toNat (encN_major _ _))
theorem vxLog2 (n : Nest) : Statement (.vxLog2 n) :=
  lengthOf_of_major (congrArg BitVec.toNat (encN_major _ _))
theorem vxLog1p (n : Nest) : Statement (.vxLog1p n) :=
  lengthOf_of_major (congrArg BitVec.toNat (encN_major _ _))
theorem vxSin (n : Nest) : Statement (.vxSin n) :=
  lengthOf_of_major (congrArg BitVec.toNat (encN_major _ _))
theorem vxCos (n : Nest) : Statement (.vxCos n) :=
  lengthOf_of_major (congrArg BitVec.toNat (encN_major _ _))
theorem vxSinpi (n : Nest) : Statement (.vxSinpi n) :=
  lengthOf_of_major (congrArg BitVec.toNat (encN_major _ _))
theorem vxCospi (n : Nest) : Statement (.vxCospi n) :=
  lengthOf_of_major (congrArg BitVec.toNat (encN_major _ _))
theorem vxTanh (n : Nest) : Statement (.vxTanh n) :=
  lengthOf_of_major (congrArg BitVec.toNat (encN_major _ _))
theorem vxSigmoid (n : Nest) : Statement (.vxSigmoid n) :=
  lengthOf_of_major (congrArg BitVec.toNat (encN_major _ _))
theorem vxErf (n : Nest) : Statement (.vxErf n) :=
  lengthOf_of_major (congrArg BitVec.toNat (encN_major _ _))
theorem vxAtan (n : Nest) : Statement (.vxAtan n) :=
  lengthOf_of_major (congrArg BitVec.toNat (encN_major _ _))
theorem vxSqrt (n : Nest) : Statement (.vxSqrt n) :=
  lengthOf_of_major (congrArg BitVec.toNat (encN_major _ _))
theorem vxRsqrt (n : Nest) : Statement (.vxRsqrt n) :=
  lengthOf_of_major (congrArg BitVec.toNat (encN_major _ _))
theorem vxRcp (n : Nest) : Statement (.vxRcp n) :=
  lengthOf_of_major (congrArg BitVec.toNat (encN_major _ _))
theorem vxXaExp2 (n : Nest) : Statement (.vxXaExp2 n) :=
  lengthOf_of_major (congrArg BitVec.toNat (encN_major _ _))
theorem vxXaLog2 (n : Nest) : Statement (.vxXaLog2 n) :=
  lengthOf_of_major (congrArg BitVec.toNat (encN_major _ _))
theorem vxXaRcp (n : Nest) : Statement (.vxXaRcp n) :=
  lengthOf_of_major (congrArg BitVec.toNat (encN_major _ _))
theorem vxXaRsqrt (n : Nest) : Statement (.vxXaRsqrt n) :=
  lengthOf_of_major (congrArg BitVec.toNat (encN_major _ _))
theorem vxXaTanh (n : Nest) : Statement (.vxXaTanh n) :=
  lengthOf_of_major (congrArg BitVec.toNat (encN_major _ _))
theorem vxXaSigmoid (n : Nest) : Statement (.vxXaSigmoid n) :=
  lengthOf_of_major (congrArg BitVec.toNat (encN_major _ _))
theorem bAdd (d : BitVec 3) (s : BitVec 3) (t : BitVec 3) (i : BitVec 18) : Statement (.bAdd d s t i) := rfl
theorem bSub (d : BitVec 3) (s : BitVec 3) (t : BitVec 3) (i : BitVec 18) : Statement (.bSub d s t i) := rfl
theorem bMul (d : BitVec 3) (s : BitVec 3) (t : BitVec 3) (i : BitVec 18) : Statement (.bMul d s t i) := rfl
theorem bMin (d : BitVec 3) (s : BitVec 3) (t : BitVec 3) (i : BitVec 18) : Statement (.bMin d s t i) := rfl
theorem bMax (d : BitVec 3) (s : BitVec 3) (t : BitVec 3) (i : BitVec 18) : Statement (.bMax d s t i) := rfl
theorem bAnd (d : BitVec 3) (s : BitVec 3) (t : BitVec 3) (i : BitVec 18) : Statement (.bAnd d s t i) := rfl
theorem bOr (d : BitVec 3) (s : BitVec 3) (t : BitVec 3) (i : BitVec 18) : Statement (.bOr d s t i) := rfl
theorem bXor (d : BitVec 3) (s : BitVec 3) (t : BitVec 3) (i : BitVec 18) : Statement (.bXor d s t i) := rfl
theorem bShiShl (d : BitVec 3) (s : BitVec 3) (n : BitVec 6) : Statement (.bShiShl d s n) := rfl
theorem bShiShr (d : BitVec 3) (s : BitVec 3) (n : BitVec 6) : Statement (.bShiShr d s n) := rfl
theorem bShiSra (d : BitVec 3) (s : BitVec 3) (n : BitVec 6) : Statement (.bShiSra d s n) := rfl
theorem bShiRot (d : BitVec 3) (s : BitVec 3) (n : BitVec 6) : Statement (.bShiRot d s n) := rfl
theorem bLi (d : BitVec 3) (i : BitVec 18) : Statement (.bLi d i) := rfl
theorem bCmpEq (d : BitVec 3) (s : BitVec 3) (t : BitVec 3) (i : BitVec 15) : Statement (.bCmpEq d s t i) := rfl
theorem bCmpNe (d : BitVec 3) (s : BitVec 3) (t : BitVec 3) (i : BitVec 15) : Statement (.bCmpNe d s t i) := rfl
theorem bCmpLt (d : BitVec 3) (s : BitVec 3) (t : BitVec 3) (i : BitVec 15) : Statement (.bCmpLt d s t i) := rfl
theorem bCmpGe (d : BitVec 3) (s : BitVec 3) (t : BitVec 3) (i : BitVec 15) : Statement (.bCmpGe d s t i) := rfl
theorem bCmpLtn (d : BitVec 3) (s : BitVec 3) (t : BitVec 3) (i : BitVec 15) : Statement (.bCmpLtn d s t i) := rfl
theorem bCmpGen (d : BitVec 3) (s : BitVec 3) (t : BitVec 3) (i : BitVec 15) : Statement (.bCmpGen d s t i) := rfl
theorem bSel (d : BitVec 3) (s : BitVec 3) (t : BitVec 3) : Statement (.bSel d s t) := rfl
theorem bFopFadd (d : BitVec 3) (s : BitVec 3) (t : BitVec 3) (r : BitVec 3) (f : BitVec 1) : Statement (.bFopFadd d s t r f) := rfl
theorem bFopFmul (d : BitVec 3) (s : BitVec 3) (t : BitVec 3) (r : BitVec 3) (f : BitVec 1) : Statement (.bFopFmul d s t r f) := rfl
theorem bFopFmin (d : BitVec 3) (s : BitVec 3) (t : BitVec 3) (r : BitVec 3) (f : BitVec 1) : Statement (.bFopFmin d s t r f) := rfl
theorem bFopFmax (d : BitVec 3) (s : BitVec 3) (t : BitVec 3) (r : BitVec 3) (f : BitVec 1) : Statement (.bFopFmax d s t r f) := rfl
theorem bFopFma (d : BitVec 3) (s : BitVec 3) (t : BitVec 3) (r : BitVec 3) (f : BitVec 1) : Statement (.bFopFma d s t r f) := rfl
theorem bNbData (d : BitVec 3) (o : BitVec 16) : Statement (.bNbData d o) := rfl
theorem bNbCtx (d : BitVec 3) (o : BitVec 16) : Statement (.bNbCtx d o) := rfl
theorem bLd (d : BitVec 3) (s : BitVec 3) (z : BitVec 2) (i : BitVec 16) : Statement (.bLd d s z i) := rfl
theorem bSt (s : BitVec 3) (t : BitVec 3) (z : BitVec 2) (i : BitVec 16) : Statement (.bSt s t z i) := rfl
theorem bStPut (s : BitVec 3) (t : BitVec 3) (z : BitVec 2) (i : BitVec 16) : Statement (.bStPut s t z i) := rfl
theorem bBrNz (s : BitVec 3) (p : BitVec 8) : Statement (.bBrNz s p) := rfl
theorem bBrZ (s : BitVec 3) (p : BitVec 8) : Statement (.bBrZ s p) := rfl
theorem bJmp (p : BitVec 8) : Statement (.bJmp p) := rfl
theorem bWaitNbdone (s : BitVec 3) : Statement (.bWaitNbdone s) := rfl
theorem bWaitNbpc (s : BitVec 3) (p : BitVec 8) : Statement (.bWaitNbpc s p) := rfl
theorem bWaitFull (s : BitVec 3) : Statement (.bWaitFull s) := rfl
theorem bWaitPhase (s : BitVec 3) (i : BitVec 18) : Statement (.bWaitPhase s i) := rfl
theorem bWaitPass (s : BitVec 3) : Statement (.bWaitPass s) := rfl
theorem bWaitLocal (s : BitVec 3) : Statement (.bWaitLocal s) := rfl
theorem bSleep : Statement .bSleep := rfl
theorem bWake (s : BitVec 3) (i : BitVec 18) : Statement (.bWake s i) := rfl
theorem bDone : Statement .bDone := rfl
theorem bSete (s : BitVec 3) : Statement (.bSete s) := rfl
theorem zadd (d : BitVec 4) (a : BitVec 4) (b : BitVec 4) : Statement (.zadd d a b) := rfl
theorem zsub (d : BitVec 4) (a : BitVec 4) (b : BitVec 4) : Statement (.zsub d a b) := rfl
theorem zmul (d : BitVec 4) (a : BitVec 4) (b : BitVec 4) : Statement (.zmul d a b) := rfl
theorem zmulh (d : BitVec 4) (a : BitVec 4) (b : BitVec 4) : Statement (.zmulh d a b) := rfl
theorem zdiv (d : BitVec 4) (a : BitVec 4) (b : BitVec 4) : Statement (.zdiv d a b) := rfl
theorem zdivn (d : BitVec 4) (a : BitVec 4) (b : BitVec 4) : Statement (.zdivn d a b) := rfl
theorem zrem (d : BitVec 4) (a : BitVec 4) (b : BitVec 4) : Statement (.zrem d a b) := rfl
theorem zremn (d : BitVec 4) (a : BitVec 4) (b : BitVec 4) : Statement (.zremn d a b) := rfl
theorem zand (d : BitVec 4) (a : BitVec 4) (b : BitVec 4) : Statement (.zand d a b) := rfl
theorem zor (d : BitVec 4) (a : BitVec 4) (b : BitVec 4) : Statement (.zor d a b) := rfl
theorem zxor (d : BitVec 4) (a : BitVec 4) (b : BitVec 4) : Statement (.zxor d a b) := rfl
theorem zshl (d : BitVec 4) (a : BitVec 4) (b : BitVec 4) : Statement (.zshl d a b) := rfl
theorem zshr (d : BitVec 4) (a : BitVec 4) (b : BitVec 4) : Statement (.zshr d a b) := rfl
theorem zsra (d : BitVec 4) (a : BitVec 4) (b : BitVec 4) : Statement (.zsra d a b) := rfl
theorem zslt (d : BitVec 4) (a : BitVec 4) (b : BitVec 4) : Statement (.zslt d a b) := rfl
theorem zsltn (d : BitVec 4) (a : BitVec 4) (b : BitVec 4) : Statement (.zsltn d a b) := rfl
theorem zaddi (d : BitVec 4) (a : BitVec 4) (i : BitVec 18) : Statement (.zaddi d a i) := rfl
theorem zandi (d : BitVec 4) (a : BitVec 4) (i : BitVec 18) : Statement (.zandi d a i) := rfl
theorem zori (d : BitVec 4) (a : BitVec 4) (i : BitVec 18) : Statement (.zori d a i) := rfl
theorem zxori (d : BitVec 4) (a : BitVec 4) (i : BitVec 18) : Statement (.zxori d a i) := rfl
theorem zshli (d : BitVec 4) (a : BitVec 4) (n : BitVec 6) : Statement (.zshli d a n) := rfl
theorem zshri (d : BitVec 4) (a : BitVec 4) (n : BitVec 6) : Statement (.zshri d a n) := rfl
theorem zsrai (d : BitVec 4) (a : BitVec 4) (n : BitVec 6) : Statement (.zsrai d a n) := rfl
theorem zhi (d : BitVec 4) (i : BitVec 22) : Statement (.zhi d i) := rfl
theorem zldb (d : BitVec 4) (a : BitVec 4) (i : BitVec 18) : Statement (.zldb d a i) := rfl
theorem zldh (d : BitVec 4) (a : BitVec 4) (i : BitVec 18) : Statement (.zldh d a i) := rfl
theorem zldw (d : BitVec 4) (a : BitVec 4) (i : BitVec 18) : Statement (.zldw d a i) := rfl
theorem zldd (d : BitVec 4) (a : BitVec 4) (i : BitVec 18) : Statement (.zldd d a i) := rfl
theorem zstb (s : BitVec 4) (a : BitVec 4) (i : BitVec 18) : Statement (.zstb s a i) := rfl
theorem zsth (s : BitVec 4) (a : BitVec 4) (i : BitVec 18) : Statement (.zsth s a i) := rfl
theorem zstw (s : BitVec 4) (a : BitVec 4) (i : BitVec 18) : Statement (.zstw s a i) := rfl
theorem zstd (s : BitVec 4) (a : BitVec 4) (i : BitVec 18) : Statement (.zstd s a i) := rfl
theorem zbeq (a : BitVec 4) (b : BitVec 4) (disp : BitVec 18) : Statement (.zbeq a b disp) := rfl
theorem zbne (a : BitVec 4) (b : BitVec 4) (disp : BitVec 18) : Statement (.zbne a b disp) := rfl
theorem zblt (a : BitVec 4) (b : BitVec 4) (disp : BitVec 18) : Statement (.zblt a b disp) := rfl
theorem zbge (a : BitVec 4) (b : BitVec 4) (disp : BitVec 18) : Statement (.zbge a b disp) := rfl
theorem zbltn (a : BitVec 4) (b : BitVec 4) (disp : BitVec 18) : Statement (.zbltn a b disp) := rfl
theorem zbgen (a : BitVec 4) (b : BitVec 4) (disp : BitVec 18) : Statement (.zbgen a b disp) := rfl
theorem zjal (d : BitVec 4) (p : BitVec 22) : Statement (.zjal d p) := rfl
theorem zjalr (d : BitVec 4) (a : BitVec 4) (i : BitVec 18) : Statement (.zjalr d a i) := rfl
theorem zsvcReadNstRecord : Statement .zsvcReadNstRecord := rfl
theorem zsvcFunctionBegin : Statement .zsvcFunctionBegin := rfl
theorem zsvcFunctionEnd : Statement .zsvcFunctionEnd := rfl
theorem zsvcProvenanceRecord : Statement .zsvcProvenanceRecord := rfl
theorem zsvcGrowHeap : Statement .zsvcGrowHeap := rfl
theorem zsvcRelocationRecord : Statement .zsvcRelocationRecord := rfl
theorem zsvcCommit : Statement .zsvcCommit := rfl
theorem zsvcFail : Statement .zsvcFail := rfl
theorem zsvcLog : Statement .zsvcLog := rfl
theorem zhalt : Statement .zhalt := rfl
theorem idleRotation : Statement .idleRotation := rfl
theorem thermalAlarm : Statement .thermalAlarm := rfl
theorem ptsTick : Statement .ptsTick := rfl
theorem timestampRebase : Statement .timestampRebase := rfl
theorem residencyReport : Statement .residencyReport := rfl
theorem thermalAlarmClear : Statement .thermalAlarmClear := rfl

end Sys2Proof.Laws.Encoding
end

