-- ==== Sys2Proof/Tests/Slice0.lean ====
section
/-! SUPPORT. Tests: every constructor's decoding by words written out from the spec's encodings, ill-formed terms that are
refused, and for every statement with hypotheses a state and operands that meet them. -/



namespace Sys2Proof.Tests

open Sys2Proof Sys2Proof.Machine

set_option maxRecDepth 4000
set_option Elab.async false

/-! ## Decoding -/

/-- Whether every word decodes to the instruction beside it, and encodes it. -/
def decodesAll (f : IWord → Decoded) (l : List (IWord × Instr)) : Bool :=
  l.all (fun e => decide (f e.1 = .ok e.2) && decide (encode e.2 = [e.1]))

/-- Words written out from the encodings of R154, R160. -/
theorem test_words_alu_1 : decodesAll (fun w => decodeNative w [])
    [(0b000001_00011_10001_01010_00000000000#32, (.add 0x3#5 0x11#5 0xA#5)),
     (0b000001_00011_10001_01010_00000000001#32, (.sub 0x3#5 0x11#5 0xA#5)),
     (0b000001_00011_10001_01010_00000000010#32, (.mul 0x3#5 0x11#5 0xA#5)),
     (0b000001_00011_10001_01010_00000000011#32, (.mulh 0x3#5 0x11#5 0xA#5)),
     (0b000001_00011_10001_01010_00000000100#32, (.mulhn 0x3#5 0x11#5 0xA#5)),
     (0b000001_00011_10001_01010_00000000101#32, (.div 0x3#5 0x11#5 0xA#5)),
     (0b000001_00011_10001_01010_00000000110#32, (.divn 0x3#5 0x11#5 0xA#5)),
     (0b000001_00011_10001_01010_00000000111#32, (.rem 0x3#5 0x11#5 0xA#5)),
     (0b000001_00011_10001_01010_00000001000#32, (.remn 0x3#5 0x11#5 0xA#5)),
     (0b000001_00011_10001_01010_00000001001#32, (.and 0x3#5 0x11#5 0xA#5)),
     (0b000001_00011_10001_01010_00000001010#32, (.or 0x3#5 0x11#5 0xA#5)),
     (0b000001_00011_10001_01010_00000001011#32, (.xor 0x3#5 0x11#5 0xA#5)),
     (0b000001_00011_10001_01010_00000001100#32, (.andn 0x3#5 0x11#5 0xA#5)),
     (0b000001_00011_10001_01010_00000001101#32, (.shl 0x3#5 0x11#5 0xA#5)),
     (0b000001_00011_10001_01010_00000001110#32, (.shr 0x3#5 0x11#5 0xA#5)),
     (0b000001_00011_10001_01010_00000001111#32, (.sra 0x3#5 0x11#5 0xA#5)),
     (0b000001_00011_10001_01010_00000010000#32, (.rot 0x3#5 0x11#5 0xA#5)),
     (0b000001_00011_10001_01010_00000010001#32, (.min 0x3#5 0x11#5 0xA#5)),
     (0b000001_00011_10001_01010_00000010010#32, (.max 0x3#5 0x11#5 0xA#5)),
     (0b000001_00011_10001_01010_00000010011#32, (.minn 0x3#5 0x11#5 0xA#5)),
     (0b000001_00011_10001_01010_00000010100#32, (.maxn 0x3#5 0x11#5 0xA#5)),
     (0b000001_00011_10001_0000000000010101#32, (.clz 0x3#5 0x11#5)),
     (0b000001_00011_10001_0000000000010110#32, (.ctz 0x3#5 0x11#5)),
     (0b000001_00011_10001_0000000000010111#32, (.popc 0x3#5 0x11#5))] = true := by decide

/-- Words written out from the encodings of R154, R160. -/
theorem test_words_alu_2 : decodesAll (fun w => decodeNative w [])
    [(0b000001_00011_10001_01010_00000011000#32, (.sel 0x3#5 0x11#5 0xA#5)),
     (0b000001_00011_10001_01010_00000100000#32, (.cmpEq 0x3#5 0x11#5 0xA#5)),
     (0b000001_00011_10001_01010_00000100001#32, (.cmpNe 0x3#5 0x11#5 0xA#5)),
     (0b000001_00011_10001_01010_00000100010#32, (.cmpLt 0x3#5 0x11#5 0xA#5)),
     (0b000001_00011_10001_01010_00000100011#32, (.cmpGe 0x3#5 0x11#5 0xA#5)),
     (0b000001_00011_10001_01010_00000100100#32, (.cmpLtn 0x3#5 0x11#5 0xA#5)),
     (0b000001_00011_10001_01010_00000100101#32, (.cmpGen 0x3#5 0x11#5 0xA#5)),
     (0b000001_00011_10001_0000000000101000#32, (.sxb 0x3#5 0x11#5)),
     (0b000001_00011_10001_0000000000101001#32, (.sxh 0x3#5 0x11#5)),
     (0b000001_00011_10001_0000000000101010#32, (.sxw 0x3#5 0x11#5)),
     (0b000001_00011_10001_0000000000101011#32, (.zxb 0x3#5 0x11#5)),
     (0b000001_00011_10001_0000000000101100#32, (.zxh 0x3#5 0x11#5)),
     (0b000001_00011_10001_0000000000101101#32, (.zxw 0x3#5 0x11#5))] = true := by decide

/-- Words written out from the encodings of R154, R160. -/
theorem test_words_immediate : decodesAll (fun w => decodeNative w [])
    [(0b000010_00011_10001_1000000000000101#32, (.addi 0x3#5 0x11#5 0x8005#16)),
     (0b000011_00011_10001_1000000000000101#32, (.andi 0x3#5 0x11#5 0x8005#16)),
     (0b000100_00011_10001_1000000000000101#32, (.ori 0x3#5 0x11#5 0x8005#16)),
     (0b000101_00011_10001_1000000000000101#32, (.xori 0x3#5 0x11#5 0x8005#16)),
     (0b000110_00011_10001_0000000000_100101#32, (.shiShl 0x3#5 0x11#5 0x25#6)),
     (0b000110_00011_10001_0000000001_100101#32, (.shiShr 0x3#5 0x11#5 0x25#6)),
     (0b000110_00011_10001_0000000010_100101#32, (.shiSra 0x3#5 0x11#5 0x25#6)),
     (0b000110_00011_10001_0000000011_100101#32, (.shiRot 0x3#5 0x11#5 0x25#6)),
     (0b000111_00011_10001_0000_100000000101#32, (.cmpiEq 0x3#5 0x11#5 0x805#12)),
     (0b000111_00011_10001_0001_100000000101#32, (.cmpiNe 0x3#5 0x11#5 0x805#12)),
     (0b000111_00011_10001_0010_100000000101#32, (.cmpiLt 0x3#5 0x11#5 0x805#12)),
     (0b000111_00011_10001_0011_100000000101#32, (.cmpiGe 0x3#5 0x11#5 0x805#12)),
     (0b000111_00011_10001_0100_100000000101#32, (.cmpiLtn 0x3#5 0x11#5 0x805#12)),
     (0b000111_00011_10001_0101_100000000101#32, (.cmpiGen 0x3#5 0x11#5 0x805#12)),
     (0b001000_00011_0_10000000000000000101#32, (.lhi 0x3#5 0x80005#20)),
     (0b001001_00011_0_10000000000000000101#32, (.phi 0x3#5 0x80005#20))] = true := by decide

/-- Words written out from the encodings of R161. -/
theorem test_words_float : decodesAll (fun w => decodeNative w [])
    [(0b001010_00011_10001_01010_001_00000_010#32, (.fadd 0x3#5 0x11#5 0xA#5 0x1#3 0x2#3)),
     (0b001010_00011_10001_01010_001_00001_010#32, (.fsub 0x3#5 0x11#5 0xA#5 0x1#3 0x2#3)),
     (0b001010_00011_10001_01010_001_00010_010#32, (.fmul 0x3#5 0x11#5 0xA#5 0x1#3 0x2#3)),
     (0b001010_00011_10001_01010_001_00011_010#32, (.fdiv 0x3#5 0x11#5 0xA#5 0x1#3 0x2#3)),
     (0b001010_00011_10001_00000_001_00100_010#32, (.fsqrt 0x3#5 0x11#5 0x1#3 0x2#3)),
     (0b001010_00011_10001_01010_001_00101000#32, (.fmin 0x3#5 0x11#5 0xA#5 0x1#3)),
     (0b001010_00011_10001_01010_001_00110000#32, (.fmax 0x3#5 0x11#5 0xA#5 0x1#3)),
     (0b001010_00011_10001_01010_001_00111000#32, (.fsgnCopy 0x3#5 0x11#5 0xA#5 0x1#3)),
     (0b001010_00011_10001_01010_001_00111001#32, (.fsgnNeg 0x3#5 0x11#5 0xA#5 0x1#3)),
     (0b001010_00011_10001_01010_001_00111010#32, (.fsgnXor 0x3#5 0x11#5 0xA#5 0x1#3)),
     (0b001010_00011_10001_01010_001_01000000#32, (.fcmpEq 0x3#5 0x11#5 0xA#5 0x1#3)),
     (0b001010_00011_10001_01010_001_01000001#32, (.fcmpLt 0x3#5 0x11#5 0xA#5 0x1#3)),
     (0b001010_00011_10001_01010_001_01000010#32, (.fcmpLe 0x3#5 0x11#5 0xA#5 0x1#3)),
     (0b001010_00011_10001_01010_001_01000011#32, (.fcmpUnordered 0x3#5 0x11#5 0xA#5 0x1#3)),
     (0b001010_00011_10001_00000_001_01001000#32, (.fclass 0x3#5 0x11#5 0x1#3)),
     (0b001011_00011_10001_01010_001_00000_010#32, (.fma 0x3#5 0x11#5 0xA#5 0x1#3 0x2#3)),
     (0b001011_00011_10001_01010_001_00001_010#32, (.fms 0x3#5 0x11#5 0xA#5 0x1#3 0x2#3)),
     (0b001011_00011_10001_01010_001_00010_010#32, (.fnma 0x3#5 0x11#5 0xA#5 0x1#3 0x2#3)),
     (0b001100_00011_10001_00000_0010_1000_010#32, (.fcvt 0x3#5 0x11#5 0x2#4 0x8#4 0x2#3))] = true := by decide

/-- Words written out from the encodings of R154, R157. -/
theorem test_words_memory : decodesAll (fun w => decodeNative w [])
    [(0b010000_00011_10001_01_00_100000000011#32, (.ld 0x3#5 0x11#5 0x1#2 0x803#12)),
     (0b010000_00011_10001_01_01_100000000011#32, (.ldSx 0x3#5 0x11#5 0x1#2 0x803#12)),
     (0b010000_00011_10001_01_10_100000000011#32, (.ldUp 0x3#5 0x11#5 0x1#2 0x803#12)),
     (0b010001_00101_10001_01_00_100000000011#32, (.st 0x5#5 0x11#5 0x1#2 0x803#12)),
     (0b010001_00101_10001_01_10_100000000011#32, (.stUp 0x5#5 0x11#5 0x1#2 0x803#12)),
     (0b010010_00011_10001_01_00_100000000011#32, (.ldFeKeep 0x3#5 0x11#5 0x1#2 0x803#12)),
     (0b010010_00011_10001_01_01_100000000011#32, (.ldFeTake 0x3#5 0x11#5 0x1#2 0x803#12)),
     (0b010011_00101_10001_01_00_100000000011#32, (.stFeFill 0x5#5 0x11#5 0x1#2 0x803#12)),
     (0b010011_00101_10001_01_01_100000000011#32, (.stFePut 0x5#5 0x11#5 0x1#2 0x803#12)),
     (0b01001100000_10001_01_10_100000000011#32, (.stFeClear 0x11#5 0x1#2 0x803#12)),
     (0b01010000000_10001_0000_100000000011#32, (.dpref 0x11#5 0x803#12)),
     (0b01010000000_10001_0001_100000000011#32, (.ipref 0x11#5 0x803#12))] = true := by decide

/-- Words written out from the encodings of R162. -/
theorem test_words_atomic_1 : decodesAll (fun w => decodeNative w [])
    [(0b010101_00011_10001_01010_00000_01_0000#32, (.amoAdd 0x3#5 0x11#5 0xA#5 0x1#2)),
     (0b010101_00011_10001_01010_00000_01_0001#32, (.amoAnd 0x3#5 0x11#5 0xA#5 0x1#2)),
     (0b010101_00011_10001_01010_00000_01_0010#32, (.amoOr 0x3#5 0x11#5 0xA#5 0x1#2)),
     (0b010101_00011_10001_01010_00000_01_0011#32, (.amoXor 0x3#5 0x11#5 0xA#5 0x1#2)),
     (0b010101_00011_10001_01010_00000_01_0100#32, (.amoMin 0x3#5 0x11#5 0xA#5 0x1#2)),
     (0b010101_00011_10001_01010_00000_01_0101#32, (.amoMax 0x3#5 0x11#5 0xA#5 0x1#2)),
     (0b010101_00011_10001_01010_00000_01_0110#32, (.amoMinn 0x3#5 0x11#5 0xA#5 0x1#2)),
     (0b010101_00011_10001_01010_00000_01_0111#32, (.amoMaxn 0x3#5 0x11#5 0xA#5 0x1#2)),
     (0b010101_00011_10001_01010_00000_01_1000#32, (.amoSwap 0x3#5 0x11#5 0xA#5 0x1#2)),
     (0b010101_00011_10001_01010_00000001001#32, (.amoFaddF32 0x3#5 0x11#5 0xA#5)),
     (0b010101_00011_10001_01010_00000011010#32, (.amoFaddF64 0x3#5 0x11#5 0xA#5)),
     (0b010110_00011_10001_01010_00000_01_0000#32, (.cas 0x3#5 0x11#5 0xA#5 0x1#2)),
     (0b01011100000_10001_01010_00000_01_0000#32, (.redAdd 0x11#5 0xA#5 0x1#2)),
     (0b01011100000_10001_01010_00000_01_0001#32, (.redAnd 0x11#5 0xA#5 0x1#2)),
     (0b01011100000_10001_01010_00000_01_0010#32, (.redOr 0x11#5 0xA#5 0x1#2)),
     (0b01011100000_10001_01010_00000_01_0011#32, (.redXor 0x11#5 0xA#5 0x1#2)),
     (0b01011100000_10001_01010_00000_01_0100#32, (.redMin 0x11#5 0xA#5 0x1#2)),
     (0b01011100000_10001_01010_00000_01_0101#32, (.redMax 0x11#5 0xA#5 0x1#2)),
     (0b01011100000_10001_01010_00000_01_0110#32, (.redMinn 0x11#5 0xA#5 0x1#2)),
     (0b01011100000_10001_01010_00000_01_0111#32, (.redMaxn 0x11#5 0xA#5 0x1#2)),
     (0b01100000000_10001_01010_0000000_1100#32, (.ulogAppAddF32 0x11#5 0xA#5 0xC#4)),
     (0b01100000000_10001_01010_0000010_1100#32, (.ulogAppAddF64 0x11#5 0xA#5 0xC#4)),
     (0b01100000000_10001_01010_0000100_1100#32, (.ulogAppAddI32 0x11#5 0xA#5 0xC#4)),
     (0b01100000000_10001_01010_0000110_1100#32, (.ulogAppAddI64 0x11#5 0xA#5 0xC#4))] = true := by decide

/-- Words written out from the encodings of R162. -/
theorem test_words_atomic_2 : decodesAll (fun w => decodeNative w [])
    [(0b01100000000_10001_01010_0001000_1100#32, (.ulogAppMaxF32 0x11#5 0xA#5 0xC#4)),
     (0b01100000000_10001_01010_0001010_1100#32, (.ulogAppMinF32 0x11#5 0xA#5 0xC#4)),
     (0b01100000000_10001_01010_0001100_1100#32, (.ulogAppMaxF64 0x11#5 0xA#5 0xC#4)),
     (0b01100000000_10001_01010_0001110_1100#32, (.ulogAppMinF64 0x11#5 0xA#5 0xC#4)),
     (0b0110000000000000000000000001_1100#32, (.ulogMerge 0xC#4))] = true := by decide

/-- Words written out from the encodings of R157, R162. -/
theorem test_words_transfer : decodesAll (fun w => decodeNative w [])
    [(0b100000_10001_01010_0000_100000000011#32, (.brEq 0x11#5 0xA#5 0x803#12)),
     (0b100000_10001_01010_0001_100000000011#32, (.brNe 0x11#5 0xA#5 0x803#12)),
     (0b100000_10001_01010_0010_100000000011#32, (.brLt 0x11#5 0xA#5 0x803#12)),
     (0b100000_10001_01010_0011_100000000011#32, (.brGe 0x11#5 0xA#5 0x803#12)),
     (0b100000_10001_01010_0100_100000000011#32, (.brLtn 0x11#5 0xA#5 0x803#12)),
     (0b100000_10001_01010_0101_100000000011#32, (.brGen 0x11#5 0xA#5 0x803#12)),
     (0b100000_10001_000000110_100000000011#32, (.brZ 0x11#5 0x803#12)),
     (0b100000_10001_000000111_100000000011#32, (.brNz 0x11#5 0x803#12)),
     (0b100001_10000000000000000000000011#32, (.jmp 0x2000003#26)),
     (0b100010_10000000000000000000000011#32, (.call 0x2000003#26)),
     (0b10001100000_10001_0000000000000000#32, (.jr 0x11#5)),
     (0b10001100000_10001_0000000000000001#32, (.callr 0x11#5)),
     (0b10001100000_10001_0000000000000010#32, (.ret 0x11#5)),
     (0b10010000000_10001_1000000000000101#32, (.callx 0x11#5 0x8005#16))] = true := by decide

/-- Words written out from the encodings of R157, R163. -/
theorem test_words_thread : decodesAll (fun w => decodeNative w [])
    [(0b101000_00011_10001_0000000000000011#32, (.wswap 0x3#5 0x11#5)),
     (0b101000_00011_10001_01010_00000000100#32, (.spawn 0x3#5 0x11#5 0xA#5)),
     (0b101000_00011_10001_0000000000000101#32, (.wake 0x3#5 0x11#5)),
     (0b10100000000_10001_01010_00000000110#32, (.msgSend 0x11#5 0xA#5)),
     (0b10100000000_00010_0000000000001000#32, (.gbar 0x2#5)),
     (0b10100000000_01001_01100_00000001001#32, (.swtrap 0x9#5 0xC#5)),
     (0b10100000000_10001_0000000000001011#32, (.dead 0x11#5)),
     (0b101001_00011_000000000_000000100000#32, (.gets 0x3#5 0x20#12)),
     (0b101001_00011_000001000_000000100000#32, (.puts 0x3#5 0x20#12)),
     (0b101010_00011_00000000000000000_1011#32, (.getc 0x3#5 0xB#4)),
     (0b101010_00011_00000100000000000_1011#32, (.putc 0x3#5 0xB#4)),
     (0b10100000000000000000000000000000#32, .yield),
     (0b10100000000000000000000000000001#32, .sleep),
     (0b10100000000000000000000000000010#32, .halt),
     (0b10100000000000000000000000000111#32, .msgWait),
     (0b10100000000000000000000000001010#32, .eret)] = true := by decide

/-- Words written out from the encodings of R163. -/
theorem test_words_claspAndBuffer : decodesAll (fun w => decodeNative w [])
    [(0b10101100000_10001_01010_00000000000#32, (.clInit 0x11#5 0xA#5)),
     (0b10101100000_10001_01010_00000000001#32, (.clArm 0x11#5 0xA#5)),
     (0b10101100000_10001_01010_00000000010#32, (.clAdd 0x11#5 0xA#5)),
     (0b101011_00011_10001_01010_00000000011#32, (.clWait 0x3#5 0x11#5 0xA#5)),
     (0b101011_00011_10001_0000000000000100#32, (.clTest 0x3#5 0x11#5)),
     (0b110011_00011_01001_01010_00000000000#32, (.cbDef 0x3#5 0x9#5 0xA#5)),
     (0b11001100000_01001_01010_00000000001#32, (.cbFill 0x9#5 0xA#5)),
     (0b11001100000_01001_01010_00000000010#32, (.cbDrain 0x9#5 0xA#5)),
     (0b11001100000_01001_01010_00000000011#32, (.cbWfill 0x9#5 0xA#5)),
     (0b11001100000_01001_01010_00000000100#32, (.cbWfree 0x9#5 0xA#5)),
     (0b110011_00011_01001_0000000000000101#32, (.cbStat 0x3#5 0x9#5))] = true := by decide

/-- Words written out from the encodings of R307. -/
theorem test_words_bead_1 : decodesAll decodeBead
    [(0b00000_001_010_101_100000000000000101#32, (.bAdd 0x1#3 0x2#3 0x5#3 0x20005#18)),
     (0b00001_001_010_101_100000000000000101#32, (.bSub 0x1#3 0x2#3 0x5#3 0x20005#18)),
     (0b00010_001_010_101_100000000000000101#32, (.bMul 0x1#3 0x2#3 0x5#3 0x20005#18)),
     (0b00011_001_010_101_100000000000000101#32, (.bMin 0x1#3 0x2#3 0x5#3 0x20005#18)),
     (0b00100_001_010_101_100000000000000101#32, (.bMax 0x1#3 0x2#3 0x5#3 0x20005#18)),
     (0b00101_001_010_101_100000000000000101#32, (.bAnd 0x1#3 0x2#3 0x5#3 0x20005#18)),
     (0b00110_001_010_101_100000000000000101#32, (.bOr 0x1#3 0x2#3 0x5#3 0x20005#18)),
     (0b00111_001_010_101_100000000000000101#32, (.bXor 0x1#3 0x2#3 0x5#3 0x20005#18)),
     (0b01000_001_010_000000000000000_100101#32, (.bShiShl 0x1#3 0x2#3 0x25#6)),
     (0b01000_001_010_000000000000001_100101#32, (.bShiShr 0x1#3 0x2#3 0x25#6)),
     (0b01000_001_010_000000000000010_100101#32, (.bShiSra 0x1#3 0x2#3 0x25#6)),
     (0b01000_001_010_000000000000011_100101#32, (.bShiRot 0x1#3 0x2#3 0x25#6)),
     (0b01001_001_000000_100000000000000101#32, (.bLi 0x1#3 0x20005#18)),
     (0b01010_001_010_101_000_100000000000101#32, (.bCmpEq 0x1#3 0x2#3 0x5#3 0x4005#15)),
     (0b01010_001_010_101_001_100000000000101#32, (.bCmpNe 0x1#3 0x2#3 0x5#3 0x4005#15)),
     (0b01010_001_010_101_010_100000000000101#32, (.bCmpLt 0x1#3 0x2#3 0x5#3 0x4005#15)),
     (0b01010_001_010_101_011_100000000000101#32, (.bCmpGe 0x1#3 0x2#3 0x5#3 0x4005#15)),
     (0b01010_001_010_101_100_100000000000101#32, (.bCmpLtn 0x1#3 0x2#3 0x5#3 0x4005#15)),
     (0b01010_001_010_101_101_100000000000101#32, (.bCmpGen 0x1#3 0x2#3 0x5#3 0x4005#15)),
     (0b01011_001_010_101_000000000000000000#32, (.bSel 0x1#3 0x2#3 0x5#3)),
     (0b01100_001_010_101_00000000000_011_000_1#32, (.bFopFadd 0x1#3 0x2#3 0x5#3 0x3#3 0x1#1)),
     (0b01100_001_010_101_00000000000_011_001_1#32, (.bFopFmul 0x1#3 0x2#3 0x5#3 0x3#3 0x1#1)),
     (0b01100_001_010_101_00000000000_011_010_1#32, (.bFopFmin 0x1#3 0x2#3 0x5#3 0x3#3 0x1#1)),
     (0b01100_001_010_101_00000000000_011_011_1#32, (.bFopFmax 0x1#3 0x2#3 0x5#3 0x3#3 0x1#1))] = true := by decide

/-- Words written out from the encodings of R307. -/
theorem test_words_bead_2 : decodesAll decodeBead
    [(0b01100_001_010_101_00000000000_011_100_1#32, (.bFopFma 0x1#3 0x2#3 0x5#3 0x3#3 0x1#1)),
     (0b01101_001_00000000_1000000000000001#32, (.bNbData 0x1#3 0x8001#16)),
     (0b01101_001_00000001_1000000000000001#32, (.bNbCtx 0x1#3 0x8001#16)),
     (0b01110_001_010_000_10_1000000000000101#32, (.bLd 0x1#3 0x2#3 0x2#2 0x8005#16)),
     (0b01111000_010_101_10_1000000000000101#32, (.bSt 0x2#3 0x5#3 0x2#2 0x8005#16)),
     (0b01111001_010_101_10_1000000000000101#32, (.bStPut 0x2#3 0x5#3 0x2#2 0x8005#16)),
     (0b10000000_010_0000000000000_10000001#32, (.bBrNz 0x2#3 0x81#8)),
     (0b10000000_010_0000000000001_10000001#32, (.bBrZ 0x2#3 0x81#8)),
     (0b100010000000000000000000_10000001#32, (.bJmp 0x81#8)),
     (0b10010000_010_000000000000000000000#32, (.bWaitNbdone 0x2#3)),
     (0b10010001_010_0000000000000_10000001#32, (.bWaitNbpc 0x2#3 0x81#8)),
     (0b10010010_010_000000000000000000000#32, (.bWaitFull 0x2#3)),
     (0b10010011_010_000_100000000000000101#32, (.bWaitPhase 0x2#3 0x20005#18)),
     (0b10010100_010_000000000000000000000#32, (.bWaitPass 0x2#3)),
     (0b10010101_010_000000000000000000000#32, (.bWaitLocal 0x2#3)),
     (0b10011000000000000000000000000000#32, .bSleep),
     (0b10100000_010_000_100000000000000101#32, (.bWake 0x2#3 0x20005#18)),
     (0b10101000000000000000000000000000#32, .bDone),
     (0b10110000_010_000000000000000000000#32, (.bSete 0x2#3))] = true := by decide

/-- Words written out from the encodings of R331, R332. -/
theorem test_words_bootstrap_1 : decodesAll decodeZbs
    [(0b000001_0011_1001_0110_00000000000000#32, (.zadd 0x3#4 0x9#4 0x6#4)),
     (0b000010_0011_1001_0110_00000000000000#32, (.zsub 0x3#4 0x9#4 0x6#4)),
     (0b000011_0011_1001_0110_00000000000000#32, (.zmul 0x3#4 0x9#4 0x6#4)),
     (0b000100_0011_1001_0110_00000000000000#32, (.zmulh 0x3#4 0x9#4 0x6#4)),
     (0b000101_0011_1001_0110_00000000000000#32, (.zdiv 0x3#4 0x9#4 0x6#4)),
     (0b000110_0011_1001_0110_00000000000000#32, (.zdivn 0x3#4 0x9#4 0x6#4)),
     (0b000111_0011_1001_0110_00000000000000#32, (.zrem 0x3#4 0x9#4 0x6#4)),
     (0b001000_0011_1001_0110_00000000000000#32, (.zremn 0x3#4 0x9#4 0x6#4)),
     (0b001001_0011_1001_0110_00000000000000#32, (.zand 0x3#4 0x9#4 0x6#4)),
     (0b001010_0011_1001_0110_00000000000000#32, (.zor 0x3#4 0x9#4 0x6#4)),
     (0b001011_0011_1001_0110_00000000000000#32, (.zxor 0x3#4 0x9#4 0x6#4)),
     (0b001100_0011_1001_0110_00000000000000#32, (.zshl 0x3#4 0x9#4 0x6#4)),
     (0b001101_0011_1001_0110_00000000000000#32, (.zshr 0x3#4 0x9#4 0x6#4)),
     (0b001110_0011_1001_0110_00000000000000#32, (.zsra 0x3#4 0x9#4 0x6#4)),
     (0b001111_0011_1001_0110_00000000000000#32, (.zslt 0x3#4 0x9#4 0x6#4)),
     (0b010000_0011_1001_0110_00000000000000#32, (.zsltn 0x3#4 0x9#4 0x6#4)),
     (0b010001_0011_1001_100000000000000101#32, (.zaddi 0x3#4 0x9#4 0x20005#18)),
     (0b010010_0011_1001_100000000000000101#32, (.zandi 0x3#4 0x9#4 0x20005#18)),
     (0b010011_0011_1001_100000000000000101#32, (.zori 0x3#4 0x9#4 0x20005#18)),
     (0b010100_0011_1001_100000000000000101#32, (.zxori 0x3#4 0x9#4 0x20005#18)),
     (0b010101_0011_1001_000000000000_100101#32, (.zshli 0x3#4 0x9#4 0x25#6)),
     (0b010110_0011_1001_000000000000_100101#32, (.zshri 0x3#4 0x9#4 0x25#6)),
     (0b010111_0011_1001_000000000000_100101#32, (.zsrai 0x3#4 0x9#4 0x25#6)),
     (0b011000_0011_1000000000000000000101#32, (.zhi 0x3#4 0x200005#22))] = true := by decide

/-- Words written out from the encodings of R331, R332. -/
theorem test_words_bootstrap_2 : decodesAll decodeZbs
    [(0b011001_0011_1001_100000000000000101#32, (.zldb 0x3#4 0x9#4 0x20005#18)),
     (0b011010_0011_1001_100000000000000101#32, (.zldh 0x3#4 0x9#4 0x20005#18)),
     (0b011011_0011_1001_100000000000000101#32, (.zldw 0x3#4 0x9#4 0x20005#18)),
     (0b011100_0011_1001_100000000000000101#32, (.zldd 0x3#4 0x9#4 0x20005#18)),
     (0b011101_0101_1001_100000000000000101#32, (.zstb 0x5#4 0x9#4 0x20005#18)),
     (0b011110_0101_1001_100000000000000101#32, (.zsth 0x5#4 0x9#4 0x20005#18)),
     (0b011111_0101_1001_100000000000000101#32, (.zstw 0x5#4 0x9#4 0x20005#18)),
     (0b100000_0101_1001_100000000000000101#32, (.zstd 0x5#4 0x9#4 0x20005#18)),
     (0b100001_1001_0110_100000000000000011#32, (.zbeq 0x9#4 0x6#4 0x20003#18)),
     (0b100010_1001_0110_100000000000000011#32, (.zbne 0x9#4 0x6#4 0x20003#18)),
     (0b100011_1001_0110_100000000000000011#32, (.zblt 0x9#4 0x6#4 0x20003#18)),
     (0b100100_1001_0110_100000000000000011#32, (.zbge 0x9#4 0x6#4 0x20003#18)),
     (0b100101_1001_0110_100000000000000011#32, (.zbltn 0x9#4 0x6#4 0x20003#18)),
     (0b100110_1001_0110_100000000000000011#32, (.zbgen 0x9#4 0x6#4 0x20003#18)),
     (0b100111_0011_1000000000000000000011#32, (.zjal 0x3#4 0x200003#22)),
     (0b101000_0011_1001_100000000000000101#32, (.zjalr 0x3#4 0x9#4 0x20005#18)),
     (0b10100100000000000000000000000000#32, .zsvcReadNstRecord),
     (0b10100100000000000000000000000001#32, .zsvcFunctionBegin),
     (0b10100100000000000000000000000010#32, .zsvcFunctionEnd),
     (0b10100100000000000000000000000011#32, .zsvcProvenanceRecord),
     (0b10100100000000000000000000000100#32, .zsvcGrowHeap),
     (0b10100100000000000000000000000101#32, .zsvcRelocationRecord),
     (0b10100100000000000000000000000110#32, .zsvcCommit),
     (0b10100100000000000000000000000111#32, .zsvcFail)] = true := by decide

/-- Words written out from the encodings of R331, R332. -/
theorem test_words_bootstrap_3 : decodesAll decodeZbs
    [(0b10100100000000000000000000001000#32, .zsvcLog),
     (0b10101000000000000000000000000000#32, .zhalt)] = true := by decide

/-- The words of VX_ADD, VX_SUB, VX_MUL, VX_FMA, VX_DIV nests, as R156 and R165 give them. -/
theorem test_nest_words_arith :
    let n : Nest := ⟨0x1, 0x2, 0x3, 0x2, 0x1, 0x1, 0x1, 0x3, 0x14, 0x6, 0x9, 0x0, 0x1, 0x0, 0x1, 0x1F, 0x6, 0x11, 0x2, 0x1, 0x2, 0x1, 0x2, 0x1, 0x2, 0x3, 0x4, 0x5, 0x6, 0x7, 0x8, 0x9, 0xFA, 0xFB, 0xC, 0xD, 0xE, 0x8F⟩
    let rest : List IWord := [0b00011_10100_00110_01001_00000_1_0_1_0000#32,
      0b000000011111_000000000110_00000001#32,
      0b0001_000000000010_000000000001_10_01#32,
      0b00000001_00000010_00000011_00000100#32,
      0b00000101_00000110_00000111_00001000#32,
      0b00001001_11111010_11111011_00001100#32,
      0b00001101_00001110_10001111_10_000000#32]
    encode (.vxAdd n) = 0b111100_00000001_0001_0010_0011_010_1_1_1#32 :: rest ∧
    decodeNative 0b111100_00000001_0001_0010_0011_010_1_1_1#32 rest = .ok (.vxAdd n) ∧
    decodeNative 0b111100_00000010_0001_0010_0011_010_1_1_1#32 rest = .ok (.vxSub n) ∧
    decodeNative 0b111100_00000011_0001_0010_0011_010_1_1_1#32 rest = .ok (.vxMul n) ∧
    decodeNative 0b111100_00000100_0001_0010_0011_010_1_1_1#32 rest = .ok (.vxFma n) ∧
    decodeNative 0b111100_00001001_0001_0010_0011_010_1_1_1#32 rest = .ok (.vxDiv n) := by decide

/-- The words of VX_MIN, VX_MAX, VX_SEL nests, as R156 and R165 give them. -/
theorem test_nest_words_min :
    let n : Nest := ⟨0x2, 0x2, 0x2, 0x2, 0x0, 0x1, 0x1, 0x3, 0x14, 0x6, 0x9, 0x0, 0x1, 0x0, 0x1, 0x1F, 0x6, 0x11, 0x2, 0x1, 0x2, 0x1, 0x2, 0x1, 0x2, 0x3, 0x4, 0x5, 0x6, 0x7, 0x8, 0x9, 0xFA, 0xFB, 0xC, 0xD, 0xE, 0x8F⟩
    let rest : List IWord := [0b00011_10100_00110_01001_00000_1_0_1_0000#32,
      0b000000011111_000000000110_00000001#32,
      0b0001_000000000010_000000000001_10_01#32,
      0b00000001_00000010_00000011_00000100#32,
      0b00000101_00000110_00000111_00001000#32,
      0b00001001_11111010_11111011_00001100#32,
      0b00001101_00001110_10001111_10_000000#32]
    encode (.vxMin n) = 0b111100_00000101_0010_0010_0010_010_0_1_1#32 :: rest ∧
    decodeNative 0b111100_00000101_0010_0010_0010_010_0_1_1#32 rest = .ok (.vxMin n) ∧
    decodeNative 0b111100_00000110_0010_0010_0010_010_0_1_1#32 rest = .ok (.vxMax n) ∧
    decodeNative 0b111100_00001011_0010_0010_0010_010_0_1_1#32 rest = .ok (.vxSel n) := by decide

/-- The words of VX_COPY nests, as R156 and R165 give them. -/
theorem test_nest_words_unary :
    let n : Nest := ⟨0x3, 0x3, 0x7, 0x2, 0x0, 0x1, 0x1, 0x3, 0x14, 0x0, 0x9, 0x0, 0x1, 0x0, 0x0, 0x1F, 0x6, 0x11, 0x2, 0x1, 0x2, 0x1, 0x2, 0x1, 0x2, 0x3, 0x4, 0x5, 0x6, 0x7, 0x8, 0x9, 0xFA, 0x0, 0x0, 0x0, 0x0, 0x0⟩
    let rest : List IWord := [0b00011_10100_00000_01001_00000_1_0_0_0000#32,
      0b000000011111_000000000110_00000001#32,
      0b0001_000000000010_000000000001_10_01#32,
      0b00000001_00000010_00000011_00000100#32,
      0b00000101_00000110_00000111_00001000#32,
      0b00001001_11111010_00000000_00000000#32,
      0b00000000_00000000_00000000_10_000000#32]
    encode (.vxCopy n) = 0b111100_00000000_0011_0011_0111_010_0_1_1#32 :: rest ∧
    decodeNative 0b111100_00000000_0011_0011_0111_010_0_1_1#32 rest = .ok (.vxCopy n) := by decide

/-- The words of VX_ABS, VX_NEG nests, as R156 and R165 give them. -/
theorem test_nest_words_unaryS :
    let n : Nest := ⟨0x3, 0x3, 0x7, 0x2, 0x1, 0x1, 0x1, 0x3, 0x14, 0x0, 0x9, 0x0, 0x1, 0x0, 0x0, 0x1F, 0x6, 0x11, 0x2, 0x1, 0x2, 0x1, 0x2, 0x1, 0x2, 0x3, 0x4, 0x5, 0x6, 0x7, 0x8, 0x9, 0xFA, 0x0, 0x0, 0x0, 0x0, 0x0⟩
    let rest : List IWord := [0b00011_10100_00000_01001_00000_1_0_0_0000#32,
      0b000000011111_000000000110_00000001#32,
      0b0001_000000000010_000000000001_10_01#32,
      0b00000001_00000010_00000011_00000100#32,
      0b00000101_00000110_00000111_00001000#32,
      0b00001001_11111010_00000000_00000000#32,
      0b00000000_00000000_00000000_10_000000#32]
    encode (.vxAbs n) = 0b111100_00000111_0011_0011_0111_010_1_1_1#32 :: rest ∧
    decodeNative 0b111100_00000111_0011_0011_0111_010_1_1_1#32 rest = .ok (.vxAbs n) ∧
    decodeNative 0b111100_00001000_0011_0011_0111_010_1_1_1#32 rest = .ok (.vxNeg n) := by decide

/-- The words of VX_CVT nests, as R156 and R165 give them. -/
theorem test_nest_words_cvt :
    let n : Nest := ⟨0x4, 0xA, 0x7, 0x2, 0x1, 0x1, 0x1, 0x3, 0x14, 0x0, 0x9, 0x0, 0x1, 0x0, 0x0, 0x1F, 0x6, 0x11, 0x2, 0x1, 0x2, 0x1, 0x2, 0x1, 0x2, 0x3, 0x4, 0x5, 0x6, 0x7, 0x8, 0x9, 0xFA, 0x0, 0x0, 0x0, 0x0, 0x0⟩
    let rest : List IWord := [0b00011_10100_00000_01001_00000_1_0_0_0000#32,
      0b000000011111_000000000110_00000001#32,
      0b0001_000000000010_000000000001_10_01#32,
      0b00000001_00000010_00000011_00000100#32,
      0b00000101_00000110_00000111_00001000#32,
      0b00001001_11111010_00000000_00000000#32,
      0b00000000_00000000_00000000_10_000000#32]
    encode (.vxCvt n) = 0b111100_00001010_0100_1010_0111_010_1_1_1#32 :: rest ∧
    decodeNative 0b111100_00001010_0100_1010_0111_010_1_1_1#32 rest = .ok (.vxCvt n) := by decide

/-- The words of VX_CMPEQ, VX_CMPLT, VX_CMPLE nests, as R156 and R165 give them. -/
theorem test_nest_words_cmp :
    let n : Nest := ⟨0xC, 0xA, 0xA, 0x2, 0x0, 0x1, 0x1, 0x3, 0x14, 0x6, 0x9, 0x0, 0x0, 0x0, 0x1, 0x1F, 0x6, 0x11, 0x2, 0x1, 0x0, 0x1, 0x2, 0x0, 0x0, 0x0, 0x0, 0x0, 0x6, 0x7, 0x8, 0x9, 0xFA, 0xFB, 0xC, 0xD, 0xE, 0x8F⟩
    let rest : List IWord := [0b00011_10100_00110_01001_00000_0_0_1_0000#32,
      0b000000011111_000000000110_00000001#32,
      0b0001_000000000010_000000000001_00_01#32,
      0b00000000_00000000_00000000_00000000#32,
      0b00000000_00000110_00000111_00001000#32,
      0b00001001_11111010_11111011_00001100#32,
      0b00001101_00001110_10001111_10_000000#32]
    encode (.vxCmpeq n) = 0b111100_00001100_1100_1010_1010_010_0_1_1#32 :: rest ∧
    decodeNative 0b111100_00001100_1100_1010_1010_010_0_1_1#32 rest = .ok (.vxCmpeq n) ∧
    decodeNative 0b111100_00001101_1100_1010_1010_010_0_1_1#32 rest = .ok (.vxCmplt n) ∧
    decodeNative 0b111100_00001110_1100_1010_1010_010_0_1_1#32 rest = .ok (.vxCmple n) := by decide

/-- The words of VX_AND, VX_OR, VX_XOR nests, as R156 and R165 give them. -/
theorem test_nest_words_bits :
    let n : Nest := ⟨0xA, 0xA, 0xA, 0x2, 0x0, 0x1, 0x1, 0x3, 0x14, 0x6, 0x9, 0x0, 0x1, 0x0, 0x1, 0x1F, 0x6, 0x11, 0x2, 0x1, 0x2, 0x1, 0x2, 0x1, 0x2, 0x3, 0x4, 0x5, 0x6, 0x7, 0x8, 0x9, 0xFA, 0xFB, 0xC, 0xD, 0xE, 0x8F⟩
    let rest : List IWord := [0b00011_10100_00110_01001_00000_1_0_1_0000#32,
      0b000000011111_000000000110_00000001#32,
      0b0001_000000000010_000000000001_10_01#32,
      0b00000001_00000010_00000011_00000100#32,
      0b00000101_00000110_00000111_00001000#32,
      0b00001001_11111010_11111011_00001100#32,
      0b00001101_00001110_10001111_10_000000#32]
    encode (.vxAnd n) = 0b111100_00001111_1010_1010_1010_010_0_1_1#32 :: rest ∧
    decodeNative 0b111100_00001111_1010_1010_1010_010_0_1_1#32 rest = .ok (.vxAnd n) ∧
    decodeNative 0b111100_00010000_1010_1010_1010_010_0_1_1#32 rest = .ok (.vxOr n) ∧
    decodeNative 0b111100_00010001_1010_1010_1010_010_0_1_1#32 rest = .ok (.vxXor n) := by decide

/-- The words of VX_SHL, VX_SHR, VX_SRA nests, as R156 and R165 give them. -/
theorem test_nest_words_shift :
    let n : Nest := ⟨0xA, 0xA, 0x9, 0x2, 0x0, 0x1, 0x1, 0x3, 0x14, 0x6, 0x9, 0x0, 0x1, 0x0, 0x1, 0x1F, 0x6, 0x11, 0x2, 0x1, 0x2, 0x1, 0x2, 0x1, 0x2, 0x3, 0x4, 0x5, 0x6, 0x7, 0x8, 0x9, 0xFA, 0xFB, 0xC, 0xD, 0xE, 0x8F⟩
    let rest : List IWord := [0b00011_10100_00110_01001_00000_1_0_1_0000#32,
      0b000000011111_000000000110_00000001#32,
      0b0001_000000000010_000000000001_10_01#32,
      0b00000001_00000010_00000011_00000100#32,
      0b00000101_00000110_00000111_00001000#32,
      0b00001001_11111010_11111011_00001100#32,
      0b00001101_00001110_10001111_10_000000#32]
    encode (.vxShl n) = 0b111100_00010010_1010_1010_1001_010_0_1_1#32 :: rest ∧
    decodeNative 0b111100_00010010_1010_1010_1001_010_0_1_1#32 rest = .ok (.vxShl n) ∧
    decodeNative 0b111100_00010011_1010_1010_1001_010_0_1_1#32 rest = .ok (.vxShr n) ∧
    decodeNative 0b111100_00010100_1010_1010_1001_010_0_1_1#32 rest = .ok (.vxSra n) := by decide

/-- The words of VX_QUANT nests, as R156 and R165 give them. -/
theorem test_nest_words_quant :
    let n : Nest := ⟨0x6, 0x1, 0x7, 0x2, 0x0, 0x0, 0x0, 0x3, 0x14, 0x0, 0x0, 0x0, 0x0, 0x0, 0x0, 0x1F, 0x6, 0x11, 0x2, 0x1, 0x0, 0x1, 0x2, 0x1, 0x20, 0x0, 0x40, 0xE0, 0x6, 0x7, 0x8, 0x9, 0xFA, 0x0, 0x0, 0x0, 0x0, 0x0⟩
    let rest : List IWord := [0b00011_10100_00000_00000_00000_0_0_0_0000#32,
      0b000000011111_000000000110_00000001#32,
      0b0001_000000000010_000000000001_00_01#32,
      0b00000001_00100000_00000000_01000000#32,
      0b11100000_00000110_00000111_00001000#32,
      0b00001001_11111010_00000000_00000000#32,
      0b00000000_00000000_00000000_10_000000#32]
    encode (.vxQuant n) = 0b111100_00010101_0110_0001_0111_010_0_0_0#32 :: rest ∧
    decodeNative 0b111100_00010101_0110_0001_0111_010_0_0_0#32 rest = .ok (.vxQuant n) := by decide

/-- The words of VX_DEQUANT nests, as R156 and R165 give them. -/
theorem test_nest_words_dequant :
    let n : Nest := ⟨0x1, 0x6, 0x7, 0x2, 0x0, 0x1, 0x1, 0x3, 0x14, 0x0, 0x9, 0x0, 0x1, 0x0, 0x0, 0x1F, 0x6, 0x11, 0x2, 0x1, 0x2, 0x1, 0x2, 0x1, 0x2, 0x3, 0x4, 0x5, 0x6, 0x7, 0x8, 0x9, 0xFA, 0x0, 0x0, 0x0, 0x0, 0x0⟩
    let rest : List IWord := [0b00011_10100_00000_01001_00000_1_0_0_0000#32,
      0b000000011111_000000000110_00000001#32,
      0b0001_000000000010_000000000001_10_01#32,
      0b00000001_00000010_00000011_00000100#32,
      0b00000101_00000110_00000111_00001000#32,
      0b00001001_11111010_00000000_00000000#32,
      0b00000000_00000000_00000000_10_000000#32]
    encode (.vxDequant n) = 0b111100_00010110_0001_0110_0111_010_0_1_1#32 :: rest ∧
    decodeNative 0b111100_00010110_0001_0110_0111_010_0_1_1#32 rest = .ok (.vxDequant n) := by decide

/-- The words of VX_RSUM nests, as R156 and R165 give them. -/
theorem test_nest_words_rsum :
    let n : Nest := ⟨0x1, 0x1, 0x7, 0x2, 0x1, 0x1, 0x1, 0x3, 0x14, 0x0, 0x9, 0xA, 0x1, 0x0, 0x0, 0x1F, 0x6, 0x11, 0x2, 0x1, 0x2, 0x1, 0x2, 0x1, 0x0, 0x3, 0x0, 0x5, 0x6, 0x7, 0x8, 0x9, 0xFA, 0x0, 0x0, 0x0, 0x0, 0x0⟩
    let rest : List IWord := [0b00011_10100_00000_01001_01010_1_0_0_0000#32,
      0b000000011111_000000000110_00000001#32,
      0b0001_000000000010_000000000001_10_01#32,
      0b00000001_00000000_00000011_00000000#32,
      0b00000101_00000110_00000111_00001000#32,
      0b00001001_11111010_00000000_00000000#32,
      0b00000000_00000000_00000000_10_000000#32]
    encode (.vxRsum n) = 0b111100_00010111_0001_0001_0111_010_1_1_1#32 :: rest ∧
    decodeNative 0b111100_00010111_0001_0001_0111_010_1_1_1#32 rest = .ok (.vxRsum n) := by decide

/-- The words of VX_RMAX, VX_RMIN nests, as R156 and R165 give them. -/
theorem test_nest_words_rext :
    let n : Nest := ⟨0xA, 0xA, 0x7, 0x2, 0x0, 0x1, 0x1, 0x3, 0x14, 0x0, 0x9, 0x11, 0x1, 0x0, 0x0, 0x1F, 0x6, 0x11, 0x2, 0x1, 0x2, 0x1, 0x2, 0x0, 0x2, 0x3, 0x4, 0x0, 0x6, 0x7, 0x8, 0x9, 0xFA, 0x0, 0x0, 0x0, 0x0, 0x0⟩
    let rest : List IWord := [0b00011_10100_00000_01001_10001_1_0_0_0000#32,
      0b000000011111_000000000110_00000001#32,
      0b0001_000000000010_000000000001_10_01#32,
      0b00000000_00000010_00000011_00000100#32,
      0b00000000_00000110_00000111_00001000#32,
      0b00001001_11111010_00000000_00000000#32,
      0b00000000_00000000_00000000_10_000000#32]
    encode (.vxRmax n) = 0b111100_00011000_1010_1010_0111_010_0_1_1#32 :: rest ∧
    decodeNative 0b111100_00011000_1010_1010_0111_010_0_1_1#32 rest = .ok (.vxRmax n) ∧
    decodeNative 0b111100_00011001_1010_1010_0111_010_0_1_1#32 rest = .ok (.vxRmin n) := by decide

/-- The words of VX_RARGMAX nests, as R156 and R165 give them. -/
theorem test_nest_words_rarg :
    let n : Nest := ⟨0xA, 0x1, 0x7, 0x2, 0x0, 0x1, 0x1, 0x3, 0x14, 0x0, 0x9, 0x1, 0x1, 0x0, 0x0, 0x1F, 0x6, 0x11, 0x2, 0x1, 0x2, 0x1, 0x2, 0x0, 0x2, 0x3, 0x4, 0x5, 0x6, 0x7, 0x8, 0x9, 0xFA, 0x0, 0x0, 0x0, 0x0, 0x0⟩
    let rest : List IWord := [0b00011_10100_00000_01001_00001_1_0_0_0000#32,
      0b000000011111_000000000110_00000001#32,
      0b0001_000000000010_000000000001_10_01#32,
      0b00000000_00000010_00000011_00000100#32,
      0b00000101_00000110_00000111_00001000#32,
      0b00001001_11111010_00000000_00000000#32,
      0b00000000_00000000_00000000_10_000000#32]
    encode (.vxRargmax n) = 0b111100_00011010_1010_0001_0111_010_0_1_1#32 :: rest ∧
    decodeNative 0b111100_00011010_1010_0001_0111_010_0_1_1#32 rest = .ok (.vxRargmax n) := by decide

/-- The words of VX_GATHER nests, as R156 and R165 give them. -/
theorem test_nest_words_gather :
    let n : Nest := ⟨0x5, 0x5, 0xA, 0x2, 0x0, 0x1, 0x1, 0x3, 0x14, 0x6, 0x9, 0x0, 0x1, 0x0, 0x1, 0x1F, 0x6, 0x11, 0x2, 0x1, 0x2, 0x1, 0x2, 0x1, 0x2, 0x3, 0x4, 0x5, 0x6, 0x7, 0x8, 0x9, 0xFA, 0xFB, 0xC, 0xD, 0xE, 0x8F⟩
    let rest : List IWord := [0b00011_10100_00110_01001_00000_1_0_1_0000#32,
      0b000000011111_000000000110_00000001#32,
      0b0001_000000000010_000000000001_10_01#32,
      0b00000001_00000010_00000011_00000100#32,
      0b00000101_00000110_00000111_00001000#32,
      0b00001001_11111010_11111011_00001100#32,
      0b00001101_00001110_10001111_10_000000#32]
    encode (.vxGather n) = 0b111100_00011011_0101_0101_1010_010_0_1_1#32 :: rest ∧
    decodeNative 0b111100_00011011_0101_0101_1010_010_0_1_1#32 rest = .ok (.vxGather n) := by decide

/-- The words of VX_IOTA nests, as R156 and R165 give them. -/
theorem test_nest_words_iota :
    let n : Nest := ⟨0xA, 0x7, 0x7, 0x2, 0x1, 0x1, 0x1, 0x3, 0x0, 0x0, 0x9, 0x0, 0x1, 0x0, 0x0, 0x1F, 0x6, 0x11, 0x2, 0x1, 0x2, 0x1, 0x2, 0x1, 0x2, 0x3, 0x4, 0x5, 0x0, 0x0, 0x0, 0x0, 0x0, 0x0, 0x0, 0x0, 0x0, 0x0⟩
    let rest : List IWord := [0b00011_00000_00000_01001_00000_1_0_0_0000#32,
      0b000000011111_000000000110_00000001#32,
      0b0001_000000000010_000000000001_10_01#32,
      0b00000001_00000010_00000011_00000100#32,
      0b00000101_00000000_00000000_00000000#32,
      0b00000000_00000000_00000000_00000000#32,
      0b00000000_00000000_00000000_10_000000#32]
    encode (.vxIota n) = 0b111100_00011100_1010_0111_0111_010_1_1_1#32 :: rest ∧
    decodeNative 0b111100_00011100_1010_0111_0111_010_1_1_1#32 rest = .ok (.vxIota n) := by decide

/-- The words of VX_FILL nests, as R156 and R165 give them. -/
theorem test_nest_words_fill :
    let n : Nest := ⟨0xA, 0x7, 0x7, 0x2, 0x0, 0x1, 0x1, 0x3, 0x13, 0x0, 0x9, 0x0, 0x1, 0x0, 0x0, 0x1F, 0x6, 0x11, 0x2, 0x1, 0x2, 0x1, 0x2, 0x1, 0x2, 0x3, 0x4, 0x5, 0x0, 0x0, 0x0, 0x0, 0x0, 0x0, 0x0, 0x0, 0x0, 0x0⟩
    let rest : List IWord := [0b00011_10011_00000_01001_00000_1_0_0_0000#32,
      0b000000011111_000000000110_00000001#32,
      0b0001_000000000010_000000000001_10_01#32,
      0b00000001_00000010_00000011_00000100#32,
      0b00000101_00000000_00000000_00000000#32,
      0b00000000_00000000_00000000_00000000#32,
      0b00000000_00000000_00000000_10_000000#32]
    encode (.vxFill n) = 0b111100_00011101_1010_0111_0111_010_0_1_1#32 :: rest ∧
    decodeNative 0b111100_00011101_1010_0111_0111_010_0_1_1#32 rest = .ok (.vxFill n) := by decide

/-- The words of VX_EXP, VX_EXP2, VX_EXPM1, VX_LOG, VX_LOG2, VX_LOG1P, VX_SIN, VX_COS, VX_SINPI, VX_COSPI, VX_TANH, VX_SIGMOID, VX_ERF, VX_ATAN, VX_SQRT, VX_RSQRT, VX_RCP nests, as R156 and R165 give them. -/
theorem test_nest_words_func :
    let n : Nest := ⟨0x1, 0x1, 0x7, 0x2, 0x1, 0x1, 0x1, 0x3, 0x14, 0x0, 0x9, 0x0, 0x1, 0x0, 0x0, 0x1F, 0x6, 0x11, 0x2, 0x1, 0x2, 0x1, 0x2, 0x1, 0x2, 0x3, 0x4, 0x5, 0x6, 0x7, 0x8, 0x9, 0xFA, 0x0, 0x0, 0x0, 0x0, 0x0⟩
    let rest : List IWord := [0b00011_10100_00000_01001_00000_1_0_0_0000#32,
      0b000000011111_000000000110_00000001#32,
      0b0001_000000000010_000000000001_10_01#32,
      0b00000001_00000010_00000011_00000100#32,
      0b00000101_00000110_00000111_00001000#32,
      0b00001001_11111010_00000000_00000000#32,
      0b00000000_00000000_00000000_10_000000#32]
    encode (.vxExp n) = 0b111100_01000000_0001_0001_0111_010_1_1_1#32 :: rest ∧
    decodeNative 0b111100_01000000_0001_0001_0111_010_1_1_1#32 rest = .ok (.vxExp n) ∧
    decodeNative 0b111100_01000001_0001_0001_0111_010_1_1_1#32 rest = .ok (.vxExp2 n) ∧
    decodeNative 0b111100_01000010_0001_0001_0111_010_1_1_1#32 rest = .ok (.vxExpm1 n) ∧
    decodeNative 0b111100_01000011_0001_0001_0111_010_1_1_1#32 rest = .ok (.vxLog n) ∧
    decodeNative 0b111100_01000100_0001_0001_0111_010_1_1_1#32 rest = .ok (.vxLog2 n) ∧
    decodeNative 0b111100_01000101_0001_0001_0111_010_1_1_1#32 rest = .ok (.vxLog1p n) ∧
    decodeNative 0b111100_01000110_0001_0001_0111_010_1_1_1#32 rest = .ok (.vxSin n) ∧
    decodeNative 0b111100_01000111_0001_0001_0111_010_1_1_1#32 rest = .ok (.vxCos n) ∧
    decodeNative 0b111100_01001000_0001_0001_0111_010_1_1_1#32 rest = .ok (.vxSinpi n) ∧
    decodeNative 0b111100_01001001_0001_0001_0111_010_1_1_1#32 rest = .ok (.vxCospi n) ∧
    decodeNative 0b111100_01001010_0001_0001_0111_010_1_1_1#32 rest = .ok (.vxTanh n) ∧
    decodeNative 0b111100_01001011_0001_0001_0111_010_1_1_1#32 rest = .ok (.vxSigmoid n) ∧
    decodeNative 0b111100_01001100_0001_0001_0111_010_1_1_1#32 rest = .ok (.vxErf n) ∧
    decodeNative 0b111100_01001101_0001_0001_0111_010_1_1_1#32 rest = .ok (.vxAtan n) ∧
    decodeNative 0b111100_01001110_0001_0001_0111_010_1_1_1#32 rest = .ok (.vxSqrt n) ∧
    decodeNative 0b111100_01001111_0001_0001_0111_010_1_1_1#32 rest = .ok (.vxRsqrt n) ∧
    decodeNative 0b111100_01010000_0001_0001_0111_010_1_1_1#32 rest = .ok (.vxRcp n) := by decide

/-- The words of VX_XA_EXP2, VX_XA_LOG2, VX_XA_RCP, VX_XA_RSQRT, VX_XA_TANH, VX_XA_SIGMOID nests, as R156 and R165 give them. -/
theorem test_nest_words_xa :
    let n : Nest := ⟨0x2, 0x2, 0x7, 0x2, 0x1, 0x1, 0x1, 0x3, 0x14, 0x0, 0x9, 0x0, 0x1, 0x0, 0x0, 0x1F, 0x6, 0x11, 0x2, 0x1, 0x2, 0x1, 0x2, 0x1, 0x2, 0x3, 0x4, 0x5, 0x6, 0x7, 0x8, 0x9, 0xFA, 0x0, 0x0, 0x0, 0x0, 0x0⟩
    let rest : List IWord := [0b00011_10100_00000_01001_00000_1_0_0_0000#32,
      0b000000011111_000000000110_00000001#32,
      0b0001_000000000010_000000000001_10_01#32,
      0b00000001_00000010_00000011_00000100#32,
      0b00000101_00000110_00000111_00001000#32,
      0b00001001_11111010_00000000_00000000#32,
      0b00000000_00000000_00000000_10_000000#32]
    encode (.vxXaExp2 n) = 0b111100_01100000_0010_0010_0111_010_1_1_1#32 :: rest ∧
    decodeNative 0b111100_01100000_0010_0010_0111_010_1_1_1#32 rest = .ok (.vxXaExp2 n) ∧
    decodeNative 0b111100_01100001_0010_0010_0111_010_1_1_1#32 rest = .ok (.vxXaLog2 n) ∧
    decodeNative 0b111100_01100010_0010_0010_0111_010_1_1_1#32 rest = .ok (.vxXaRcp n) ∧
    decodeNative 0b111100_01100011_0010_0010_0111_010_1_1_1#32 rest = .ok (.vxXaRsqrt n) ∧
    decodeNative 0b111100_01100100_0010_0010_0111_010_1_1_1#32 rest = .ok (.vxXaTanh n) ∧
    decodeNative 0b111100_01100101_0010_0010_0111_010_1_1_1#32 rest = .ok (.vxXaSigmoid n) := by decide

/-- The two words of every engine command, written out from the encodings of R155, R286, R293 and R318. -/
theorem test_words_engine :
    ([(0b110000_00000_00011_10001_00000_000000#32, 0b0010_1_000_00000100_0_0001001_00101000#32, .maLdst ⟨0x3, 0x11, 0x0, 0x0, 0b0010_1_000_00000100_0_0001001_00101000#32⟩),
      (0b110000_00001_00000_00000_00000_000000#32, 0#32, .maSwap ⟨0x0, 0x0, 0x0, 0x0, 0#32⟩),
      (0b110000_00010_00000_00000_00000_000001#32, 0#32, .maZero ⟨0x0, 0x0, 0x0, 0x1, 0#32⟩),
      (0b110000_00011_00011_10001_00000_000001#32, 0b0011_00_0000000101_0_0001001_00101000#32, .maStream ⟨0x3, 0x11, 0x0, 0x1, 0b0011_00_0000000101_0_0001001_00101000#32⟩),
      (0b110000_00100_00011_10001_01010_000011#32, 0b0011_010_1_00000000_0_0000000_00101000#32, .maDrain ⟨0x3, 0x11, 0xA, 0x3, 0b0011_010_1_00000000_0_0000000_00101000#32⟩),
      (0b110000_00101_00000_00000_00000_000000#32, 0#32, .maEnd ⟨0x0, 0x0, 0x0, 0x0, 0#32⟩),
      (0b110000_00110_00000_00000_00000_000000#32, 0#32, .maWait ⟨0x0, 0x0, 0x0, 0x0, 0#32⟩),
      (0b110001_00000_00011_00000_10001_000000#32, 0#32, .dmaCp ⟨0x3, 0x0, 0x11, 0x0, 0#32⟩),
      (0b110001_00001_00011_00000_10001_000000#32, 0#32, .dmaGt ⟨0x3, 0x0, 0x11, 0x0, 0#32⟩),
      (0b110001_00010_00011_00000_10001_000000#32, 0#32, .dmaSc ⟨0x3, 0x0, 0x11, 0x0, 0#32⟩),
      (0b110001_00011_00011_00000_10001_000000#32, 0#32, .dmaColl ⟨0x3, 0x0, 0x11, 0x0, 0#32⟩),
      (0b110010_00000_10011_00000_00000_000011#32, 0#32, .bdDecl ⟨0x13, 0x0, 0x0, 0x3, 0#32⟩),
      (0b110010_00001_10011_00000_00111_001100#32, 0#32, .bdPass ⟨0x13, 0x0, 0x7, 0xC, 0#32⟩),
      (0b110010_00010_10011_00000_00000_000010#32, 0#32, .bdWake ⟨0x13, 0x0, 0x0, 0x2, 0#32⟩),
      (0b110010_00011_10011_00000_00000_000001#32, 0#32, .bdStat ⟨0x13, 0x0, 0x0, 0x1, 0#32⟩),
      (0b110010_00100_00000_00000_00000_000011#32, 0#32, .bdFree ⟨0x0, 0x0, 0x0, 0x3, 0#32⟩)] : List (IWord × IWord × Instr)).all (fun e =>
      decide (decodeNative e.1 [e.2.1] = .ok e.2.2) && decide (encode e.2.2 = [e.1, e.2.1])) = true := by decide

/-! ## States that meet the hypotheses of the statements -/

/-- A fetch line at an address whose every word is an instruction's start and a target. -/
def lineAll (base : Nat) : ILine := ⟨base, 0x7FFFFFFF40000000 + 0x3FFFFFFF, List.replicate 30 0, []⟩

/-- A running task at word 0 of the line at 0x10000, with both handlers. -/
def taskNow : Task := { Task.reset with tstate := 1, pc := 0x10008, trapv := 0x20000, emulv := 0x30000 }

/-- The address of an offset of the own scratchpad (R67). -/
def aliasAt (o : Nat) : Word := BitVec.ofNat 64 (0x00FFFFFFFFF00000 + o)

/-- A core with a running task in slot 0: W(1) and W(2) name own scratchpad, W(3) a page of world memory that is mapped, W(4)
a scratchpad window of core 1, W(5) is 7, W(6) is the line's word 1, W(7) is -1. -/
def coreNow : Core := { Core.reset with
  slots := [(0, { Slot.reset with
    ws := some 0
    bank := [(1, aliasAt 0x4000), (2, aliasAt 0x4010), (3, 0x8000), (4, 0x00F0000000104000), (5, 7), (6, 0x1000C), (7, -1)]
    live := 0xFFFFFFFF })]
  tasks := [(0, taskNow)]
  tlb := [⟨0, 0, false, 0x400017, 0⟩]
  icache := [(0, [lineAll 0x10000])] }

/-- A device with that core, at the beat of its slot 0. -/
def standWith (k : Core) : State := { State.reset with booted := true, turn := .thread 0 0, cores := [(0, k)] }

/-- A device at the beat of slot 0 of core 0. -/
def stand : State := standWith coreNow

/-- The same with another task record. -/
def standTask (t : Task) : State := standWith { coreNow with tasks := [(0, t)] }

/-- The same with a number in the scratchpad. -/
def standPut (off n v : Nat) : State := stand.sPut 0 off n v

/-- A trap can be delivered (R107): the hypotheses of every statement that an instruction traps. -/
theorem witness_Traps : stand.hnd stand.actCore stand.curWs = 0 ∧ stand.curTask.vector 7 = (0x20000, 1) ∧
    stand.curTask.vector 1 = (0x30000, 2) := by decide +kernel

/-- DivisionFollowsR135: a zero and a nonzero divisor, with the divide trap disabled and enabled. -/
theorem witness_DivisionFollowsR135 : stand.rd 8 = 0 ∧ stand.idz = false ∧ stand.rd 5 ≠ 0 ∧
    (standTask { taskNow with ften := 0x20 }).idz = true ∧ (standTask { taskNow with ften := 0x20 }).rd 8 = 0 := by
  decide +kernel

/-- RoundedFloatOperationsGive: 0 / 0 is invalid; it gives its result with no trap enabled and traps with NV enabled. -/
theorem witness_RoundedFloatOperationsGive :
    (divVal .f64 .rne false 0 (floatVal .f64 0) (floatVal .f64 0)).2 &&& stand.curTask.ften.setWidth 5 = 0#5 ∧
    (divVal .f64 .rne false 0 (floatVal .f64 0) (floatVal .f64 0)).2 &&& (0x3F#6).setWidth 5 ≠ 0#5 := by decide +kernel

/-- ConversionsFollowR192: the same float type with a number and with a quiet NaN; an integer type; a float too large for it. -/
theorem witness_ConversionsFollowR192 : tyOfCode 1#4 = some .f32 ∧ floatVal .f32 ((stand.rd 5).toNat % 2 ^ 32) = .fin false 7 (-149) ∧
    floatVal .f32 0x7FC00000 = .nan false ∧ tyOfCode 10#4 = some .i32 ∧ tyIsInt .i32 = true ∧
    floatVal .f64 0x4530000000000000 = .fin false (2 ^ 52) 32 ∧ 2 ^ 64 ≤ 2 ^ 52 * 2 ^ (32 : Int).toNat := by decide +kernel

/-- FloatBitOperationsGive: ordered numbers either way, signed zeros and NaNs. -/
theorem witness_FloatBitOperationsGive : compareVal (floatVal .f64 0) (floatVal .f64 1) = some .lt ∧
    compareVal (floatVal .f64 1) (floatVal .f64 0) = some .gt ∧ (∃ e, floatVal .f64 (2 ^ 63) = .fin true 0 e) ∧
    (∃ e, floatVal .f64 0 = .fin false 0 e) ∧ floatVal .f64 0x7FF8000000000000 = .nan false ∧
    floatVal .f64 0x7FF0000000000001 = .nan true := by
  refine ⟨?_, ?_, ⟨_, rfl⟩, ⟨_, rfl⟩, ?_, ?_⟩ <;> decide +kernel

/-- The line of the standing state has a landable word at 0x1000C. -/
theorem stand_landable : Landable stand 0x1000C := by
  refine ⟨?_, ?_, ?_, lineAll 0x10000, ?_, ?_⟩ <;> decide +kernel

/-- BranchesFollowR204: a taken branch of one word with a landable target, and a relation that does not hold. -/
theorem witness_BranchesAndJumpsFollowR204 : stand.rd 8 = stand.rd 9 ∧ stand.rd 5 ≠ stand.rd 8 ∧
    Landable stand (BitVec.ofInt 64 (stand.curTask.pc.toNat + 4 * (1#12).toInt)) := ⟨by decide +kernel, by decide +kernel, stand_landable⟩

/-- A world whose object 1 holds the pc's line and object 2 the next page. -/
def standObjects : State := { stand with worlds := [(0, { World.reset with
  handles := [(1, { ObjEntry.reset with
      valid := true, lo := 0x10000, hi := 0x20000, textEnd := 0x20000, entries := [0x1000C] }),
    (2, { ObjEntry.reset with valid := true, lo := 0x20000, hi := 0x30000, textEnd := 0x30000, entries := [0x20008, 0x1000C] }),
    (3, { ObjEntry.reset with valid := true, owner := 5 })] })] }

/-- JumpTransfersUnconditionally: a landable target, one in another object, one in a line's header, one not marked. -/
theorem witness_JumpTransfersUnconditionally :
    Landable stand (BitVec.ofInt 64 (stand.curTask.pc.toNat + 4 * (1#26).toInt)) ∧
    standObjects.obj 0x20008 ≠ standObjects.obj standObjects.curTask.pc.toNat ∧
    stand.obj 0x10004 = stand.obj stand.curTask.pc.toNat ∧ (0x10004 : Nat) % 128 < 8 ∧
    (standWith { coreNow with icache := [(0, [{ lineAll 0x10000 with header := 0x40000001 }])] }).cur.line? 0x10000 =
      some { lineAll 0x10000 with header := 0x40000001 } ∧ (0x40000001#64).getLsbD 33 = false := by
  refine ⟨stand_landable, ?_, ?_, ?_, ?_, ?_⟩ <;> decide +kernel

/-- A task in object 2 that object 1 has called: one valid entry of its return stack names 0x1000C. -/
def standCalled : State := ({ standObjects with cores := [(0, { coreNow with
  tasks := [(0, { taskNow with pc := 0x20008 })] })] }).sPut 0 0x200 8 0x1000D

/-- CallsAndReturnsFollowR206: a landable call, a return across objects with its entry, and one without. -/
theorem witness_CallsAndReturnsFollowR206 : Landable stand (stand.rd 6) ∧
    standCalled.obj (standCalled.rd 6).toNat ≠ standCalled.obj standCalled.curTask.pc.toNat ∧ standCalled.stackDepth = 1 ∧
    standCalled.stackEntry 0 / 2 * 2 = (standCalled.rd 6).toNat ∧ (standCalled.rd 6).toNat % 4 = 0 ∧
    standCalled.cur.line? 0x10000 = some (lineAll 0x10000) ∧
    standObjects.stackDepth = 0 ∧ standObjects.obj 0x20008 ≠ standObjects.obj standObjects.curTask.pc.toNat := by
  refine ⟨stand_landable, ?_, ?_, ?_, ?_, ?_, ?_, ?_⟩ <;> decide +kernel

/-- The entry of the handle that W(r) names. -/
def handleAt (s : State) (h : Nat) : ObjEntry := AMap.get ObjEntry.reset (s.world s.cur.world).handles h

/-- CallxEntersListedEntries: a listed entry in the own and in another object, an absent handle, another world's, an entry
beyond the list, and a full stack. -/
theorem witness_CallxEntersListedEntries : (handleAt standObjects 1).entries[0]? = some 0x1000C ∧ (handleAt standObjects 1).valid = true ∧
    (handleAt standObjects 1).owner = standObjects.cur.world ∧ (handleAt standCalled 1).entries[0]? = some 0x1000C ∧
    standCalled.obj 0x1000C ≠ standCalled.obj standCalled.curTask.pc.toNat ∧ (handleAt standObjects 4).valid = false ∧
    (handleAt standObjects 3).owner ≠ standObjects.cur.world ∧ (handleAt standObjects 1).entries.length ≤ 1 ∧
    ({ standCalled with cores := [(0, { standCalled.cur with scratch := (List.range 64).map (fun j => (0x200 + j, 1#8)) })] }).stackDepth = 8 := by
  decide +kernel

/-- TrapsFollowR104ToR110: a handler that runs, whose RPC is its EPC; none that runs; a task of no gang with no handler. -/
theorem witness_TrapsFollowR104ToR110 : bitsOf (recordAt (standPut 0x100 8 0x40000000) (standPut 0x100 8 0x40000000) 0 8) 30 2 = 1 ∧
    recordAt (standPut 0x100 8 0x40000000) (standPut 0x100 8 0x40000000) 0x30 8 =
      recordAt (standPut 0x100 8 0x40000000) (standPut 0x100 8 0x40000000) 8 8 ∧
    bitsOf (recordAt stand stand 0 8) 30 2 = 0 ∧ (standTask { taskNow with trapv := 0 }).curTask.trapv = 0 ∧
    (standPut 0x100 8 0x80000000).hnd 0 0 = 2 ∧ stand.curTask.gang = none := by decide +kernel

/-- A gang of two cores of two tasks each, running. -/
def gangNow : Gang := { Gang.reset with phase := 1, w := 2, h := 1, cores := [0, 1], n := 2, maw := 3 }

/-- The same, with slot 0's task a member of that gang. -/
def standGang (G : Gang) : State := { standTask { taskNow with gang := some 1 } with
  gangs := [(1, G)], cores := [(0, { coreNow with gang := some 1, tasks := [(0, { taskNow with gang := some 1 })] })] }

/-- StateRegistersFollowR237: with and without a gang, with a nest out and none, and values in and out of range. -/
theorem witness_StateRegistersFollowR237 : stand.curTask.gang = none ∧ (standGang gangNow).curTask.gang = some 1 ∧
    (standGang gangNow).cur.gang = some 1 ∧ stand.nestsOut = false ∧ (stand.rd 5).toNat < 32 ∧ ¬((stand.rd 7).toNat < 2 ^ 32) ∧
    (stand.rd 5).toNat = 7 ∧ ¬((stand.rd 7).toNat % 4 = 0) ∧ (stand.rd 6).toNat % 4 = 0 ∧ ¬((stand.rd 7).toNat < 8) := by
  decide +kernel

/-- CommonRegistersFollowR38: a core with an ordered write still to show. -/
theorem witness_CommonRegistersFollowR38 :
    (standWith { coreNow with commonsNew := [(3, 4, 9)] }).cur.commonsNew.Pairwise (fun e f => e.2.1 ≤ f.2.1) ∧
    ∀ e ∈ (standWith { coreNow with commonsNew := [(3, 4, 9)] }).cur.commonsNew,
      e.2.1 ≤ (standWith { coreNow with commonsNew := [(3, 4, 9)] }).cycle + 8 := by decide +kernel

/-- A core on which workspace 7 is ready at priority 0, and 9 sleeps. -/
def coreReady : Core := { coreNow with
  tasks := [(0, taskNow), (7, { Task.reset with tstate := 0 }), (9, { Task.reset with tstate := 2 })], ready := [(0, [7])] }

/-- LeavingASlotFollowsR227: a ready task that yields would enter, none, a full mailbox, and a switch that can be made. -/
theorem witness_LeavingASlotFollowsR227 : (standWith coreReady).cur.readyHead = some (0, 7) ∧ stand.cur.readyHead = none ∧
    ((standPut 0x170 8 1).sNum 0 (wsOff 0 0x170) 8) % 2 = 1 ∧ (stand.sNum 0 (wsOff 0 0x170) 8) % 2 ≠ 1 ∧
    (stand.rd 5).toNat % 1024 = 7 ∧ ((standWith coreReady).task 0 7).tstate = 0 ∧ (stand.rd 8).toNat % 1024 = stand.curWs := by
  decide +kernel

/-- SpawnFollowsR229: a workspace that is free, and one that is not. -/
theorem witness_SpawnFollowsR229 : (stand.rd 5).toNat % 1024 = 7 ∧ (stand.task 0 7).tstate = 4 ∧
    ((standWith coreReady).task 0 7).tstate = 0 ∧ (stand.cur.readyList 0).getLast? ≠ some 7 := by decide +kernel

/-- Core 0 as coreReady, with workspace 9 in slot 1 leaving for SLEEP, and a core 1 of the same world. -/
def standPair : State := { standWith coreReady with cores := [(0, { coreReady with
    slots := coreReady.slots ++ [(1, { Slot.reset with ws := some 9, switching := some ⟨some (9, 2), none, 64, none⟩ })] }), (1, Core.reset)] }

/-- A workspace named by a register of the standing state. -/
def standRef (v : Word) : State := standWith { coreReady with
  slots := [(0, { Slot.reset with ws := some 0, bank := [(1, v)], live := 0xFFFFFFFF })] }

/-- WakesAndMessagesFollowR230AndR233: a reference to no core, to another and to the own; a sleeping task, one leaving for
SLEEP, one that is awake; an empty and a full mailbox; a task that waits for one. -/
theorem witness_WakesAndMessagesFollowR230AndR233 : (standRef 0xFFFF0000).refCore ((standRef 0xFFFF0000).rd 1) = none ∧
    (standRef 0x10009).refCore ((standRef 0x10009).rd 1) = some 1 ∧ (standRef 9).refCore ((standRef 9).rd 1) = some 0 ∧
    ((standRef 9).task 0 9).tstate = 2 ∧ (standRef 9).cur.switchingOut 9 2 = none ∧ standPair.cur.switchingOut 9 2 = some 1 ∧
    ((standRef 7).task 0 7).tstate ≠ 2 ∧ (standRef 7).sNum 0 (wsOff 7 0x170) 8 % 2 = 0 ∧
    ((standRef 7).sPut 0 (wsOff 7 0x170) 8 1).sNum 0 (wsOff 7 0x170) 8 % 2 = 1 ∧
    ((standRef 7).modTask 0 7 (fun t => { t with tstate := 3 })).cur.switchingOut 7 3 = none ∧ (standRef 9).drainReds = standRef 9 := by
  decide +kernel

/-- GangBarriersFollowR61AndR235: no gang, a gang, an arrival that is not the last, a release that is due, one that is not. -/
theorem witness_GangBarriersFollowR61AndR235 : stand.curTask.gang = none ∧ (standGang gangNow).curTask.gang = some 1 ∧
    (AMap.get [] ((standGang gangNow).gang 1).arrivals 2).length + 1 ≠ ((standGang gangNow).gang 1).size ∧
    (AMap.get [] ((standGang { gangNow with arrivals := [(2, [0, 1, 2])] }).gang 1).arrivals 2).length + 1 =
      ((standGang { gangNow with arrivals := [(2, [0, 1, 2])] }).gang 1).size ∧
    AMap.find ((standGang { gangNow with arrDue := [(2, 0)] }).gang 1).arrDue 2 = some 0 ∧
    AMap.find ((standGang { gangNow with arrDue := [(2, 90)] }).gang 1).arrDue 2 = some 90 ∧ ((standGang gangNow).gang 1).phase = 1 := by
  decide +kernel

/-- A load of eight bytes, and a store. -/
def load8 : Acc := ⟨0, 8, 8, true, false, 0x10008⟩
/-- A store of eight bytes. -/
def store8 : Acc := ⟨0, 8, 8, false, true, 0x10008⟩

/-- A state with a tensor declared whose skip map is in the scratchpad. -/
def standTensor : State := standWith { coreNow with tensors := [(0, { Tensor.reset with declared := true, skip := 0x8000 })] }

/-- The state of the page that holds W(3), with another leaf entry. -/
def standLeaf (pte : Nat) : State := standWith { coreNow with tlb := [⟨0, 0, false, pte, 0⟩] }

/-- AccessesFollowR195AndR213: each place of the map, each page's right and each stop. -/
theorem witness_AccessesFollowR195AndR213 : 0x8004 % load8.align ≠ 0 ∧ 0x8000 % load8.align = 0 ∧
    stand.spadOf 0 0x00FFFFFFFFF04000 = some (0, 0x4000) ∧ stand.spadOf 0 0x00F0000000104000 = some (1, 0x4000) ∧
    (stand.core 1).world = (stand.core 0).world ∧ 1 < stand.coreList.length ∧ ¬(2048 < stand.coreList.length) ∧
    ((stand.core 0).slot 0).ws = some 0 ∧ stand.cur.recordHit 0x180 8 = true ∧ stand.cur.recordHit 0x4000 8 = false ∧
    standTensor.cur.skipHit 0x8000 8 = true ∧ poisonHit stand.cur.spoison 0x4000 8 = false ∧
    stand.translate 0 0 0x8000 = .leaf 0x400017 false ∧ stand.translate 0 0 0x18000 = .invalid ∧
    standObjects.cur.tlb = coreNow.tlb ∧ (stand.world 0).handles.find? (fun e => e.2.holds 0x8000) = none ∧
    (standObjects.world 0).handles.find? (fun e => e.2.holds 0x1FFF8) ≠ none ∧ bitOf 0x400017 2 = true ∧ bitOf 0x400013 2 = false ∧
    bitOf 0x400015 1 = false ∧ leafLoc 0x400017 false 0x8000 = .mem 0x408000 0 ∧ 0x408000 < stand.physTop ∧ stand.settling = [] ∧
    stand.lostAt 0x408000 = false ∧ pteMt 0x400037 ≠ 0 := by decide +kernel

/-- AccessesFollowR195AndR213: instructions whose access each outcome of the check stops. -/
theorem witness_AccessesStop : stand.accessOf (.ld 9 6 3 0) = some (0x1000C, load8) ∧
    stand.check 0 0 0x1000C load8 = .trap (trapAt 5 0 0x1000C) ∧ stand.check 0 0 0x18000 load8 = .service 6 0x18000 ∧
    ({ stand with poison := [0x81000] }).check 0 0 0x8000 load8 = .service 0x13 0x8000 ∧
    ({ stand with settling := [⟨5, stand.llcOf 0x408000⟩] }).check 0 0 0x8000 load8 = .settle ∧
    (standLeaf 0xFFFFFFFF0017).check 0 0 0x8000 load8 = .absent ∧
    stand.check 0 0 0x8000 load8 = .ok (.mem 0x408000 0) (.leaf 0x400017 false) := by decide +kernel

/-- A line copied from world memory, valid for ever. -/
def l1Owned : L1Line := ⟨0, 0, true, 0x400017, false, 0x408000, List.replicate 32 5, []⟩

/-- World 0 with an open fabric window 1 and an open format window of one block whose alias is the page of W(3). -/
def standWindows : State := { standLeaf 0x400037 with
  worlds := [(0, { World.reset with fwins := [(1, BitVec.ofNat 256 (2 ^ 63 + 0xFFFFF * 2 ^ 128))] })]
  fmtWins := [(0, BitVec.ofNat 256 (0x900000 + 0xA00000 * 2 ^ 64 + 0x40 * 2 ^ 144 + 2 ^ 192 + 0x1000 * 2 ^ 200))] }

/-- LoadsFollowR194: own scratchpad inside and outside the register bytes, world memory with and without a copy, an alias, an
uncached page, another core's scratchpad and a fabric window. -/
theorem witness_LoadsFollowR194 : Reaches stand 0x00FFFFFFFFF04000 load8 (.spad 0 0x4000) .invalid ∧ ¬stand.inBank 0x4000 ∧
    Reaches stand 0x00FFFFFFFFF00008 load8 (.spad 0 8) .invalid ∧ stand.inBank 8 ∧
    Reaches stand 0x8000 load8 (.mem 0x408000 0) (.leaf 0x400017 false) ∧ stand.l1Hit 0 0x8000 = none ∧
    (standWith { coreNow with l1 := [(0x400, l1Owned)] }).l1Hit 0 0x8000 = some l1Owned ∧
    Reaches standWindows 0x8000 load8 (.mem 0x408000 1) (.leaf 0x400037 false) ∧
    Reaches (standLeaf 0x400057) 0x8000 load8 (.mem 0x408000 2) (.leaf 0x400057 false) ∧
    Reaches stand 0x00F0000000104000 load8 (.spad 1 0x4000) .invalid ∧
    Reaches standWindows 0x00F8001000000040 load8 (.fabric 1 0x40) .invalid := by
  refine ⟨⟨by decide +kernel, ?_⟩, by unfold State.inBank; decide +kernel, ⟨by decide +kernel, ?_⟩, by unfold State.inBank; decide +kernel,
    ⟨by decide +kernel, ?_⟩, by decide +kernel, by decide +kernel, ⟨by decide +kernel, ?_⟩, ⟨by decide +kernel, ?_⟩,
    ⟨by decide +kernel, ?_⟩, ⟨by decide +kernel, ?_⟩⟩ <;>
  · refine ⟨by decide +kernel, ?_⟩
    intro off h
    simp [State.footHit, stand, standWindows, standLeaf, standWith, coreNow, Core.reset, State.core, AMap.get, AMap.find, State.reset]

/-- StoresFollowR194: the same places, with a format window at the alias. -/
theorem witness_StoresFollowR194 : Reaches stand 0x00FFFFFFFFF04000 store8 (.spad 0 0x4000) .invalid ∧
    Reaches stand 0x00FFFFFFFFF00008 store8 (.spad 0 8) .invalid ∧
    Reaches stand 0x8000 store8 (.mem 0x408000 0) (.leaf 0x400017 false) ∧
    Reaches standWindows 0x8000 store8 (.mem 0x408000 1) (.leaf 0x400037 false) ∧
    (∃ w, standWindows.windowOf standWindows.cur.world 0x408000 = some w ∧ fwCbase w + 16 * 512 + 16 ≤ fwSbase w + 2 * 512) ∧
    Reaches (standLeaf 0x400057) 0x8000 store8 (.mem 0x408000 2) (.leaf 0x400057 false) ∧
    Reaches stand 0x00F0000000104000 store8 (.spad 1 0x4000) .invalid ∧
    Reaches standWindows 0x00F8001000000040 store8 (.fabric 1 0x40) .invalid := by
  refine ⟨⟨by decide +kernel, ?_⟩, ⟨by decide +kernel, ?_⟩, ⟨by decide +kernel, ?_⟩, ⟨by decide +kernel, ?_⟩,
    ⟨BitVec.ofNat 256 (0x900000 + 0xA00000 * 2 ^ 64 + 0x40 * 2 ^ 144 + 2 ^ 192 + 0x1000 * 2 ^ 200), by decide +kernel, by decide +kernel⟩,
    ⟨by decide +kernel, ?_⟩, ⟨by decide +kernel, ?_⟩, ⟨by decide +kernel, ?_⟩⟩ <;>
  · refine ⟨by decide +kernel, ?_⟩
    intro off h
    simp [State.footHit, stand, standWindows, standLeaf, standWith, coreNow, Core.reset, State.core, AMap.get, AMap.find, State.reset]

/-- PrefetchesFollowR199AndR200: a page with no copy and one with a copy; a line present, one absent that can be fetched, and
one that cannot. -/
theorem witness_PrefetchesFollowR199AndR200 :
    stand.check 0 0 0x8000 ⟨0, 1, 1, true, false, 0x10008⟩ = .ok (.mem 0x408000 0) (.leaf 0x400017 false) ∧
    (stand.l1Hit 0 0x8000).isSome = false ∧ ((standWith { coreNow with l1 := [(0x400, l1Owned)] }).l1Hit 0 0x8000).isSome = true ∧
    (stand.cur.line? 0x10000).isSome = true ∧ stand.cur.line? 0x8000 = none ∧
    (standLeaf 0x40001B).fetchCheck 0 0x8000 = .ok (.mem 0x408000 0) (.leaf 0x40001B false) ∧
    stand.fetchCheck 0 0x8000 = .trap (trapAt 7 4 0x8000) := by decide +kernel

/-- No nest is out, so no access of the standing state meets a footprint. -/
theorem stand_reaches {ea : Nat} {acc : Acc} {l : Loc} {x : Walk} (h : stand.check 0 0 ea acc = .ok l x) : Reaches stand ea acc l x :=
  ⟨h, rfl, by intro off _; simp [State.footHit, stand, standWith, coreNow, Core.reset, State.core, AMap.get, AMap.find, State.reset]⟩

/-- AtomicsFollowR215ToR218: 4- and 8-byte operands, an atomic, a `red` and an append at each place that admits them, with
a swap value that agrees and one that does not. -/
theorem witness_AtomicsFollowR215ToR218 : (7 : Nat) < 2 ^ (8 * 4) ∧ (7 : Nat) < 2 ^ (8 * 8) ∧
    Reaches stand 0x00FFFFFFFFF04000 ⟨1, 8, 8, true, true, 0x10008⟩ (.spad 0 0x4000) .invalid ∧
    Reaches stand 0x8000 ⟨1, 4, 4, true, true, 0x10008⟩ (.mem 0x408000 0) (.leaf 0x400017 false) ∧
    Reaches stand 0x00FFFFFFFFF04000 ⟨7, 8, 8, true, true, 0x10008⟩ (.spad 0 0x4000) .invalid ∧
    Reaches stand 0x8000 ⟨7, 4, 4, true, true, 0x10008⟩ (.mem 0x408000 0) (.leaf 0x400017 false) ∧
    Reaches stand 0x8000 ⟨2, 8, 8, true, true, 0x10008⟩ (.mem 0x408000 0) (.leaf 0x400017 false) ∧
    poisonHit stand.cur.spoison 0x4000 8 = false ∧ poisonHit [0x800] 0x4000 8 = true ∧
    stand.sNum 0 0x4000 8 = (stand.rd 8).toNat % 2 ^ (8 * 8) ∧ stand.sNum 0 0x4000 8 ≠ (stand.rd 5).toNat % 2 ^ (8 * 8) ∧
    stand.drainReds = stand :=
  ⟨by decide, by decide, stand_reaches (by decide +kernel), stand_reaches (by decide +kernel), stand_reaches (by decide +kernel),
    stand_reaches (by decide +kernel), stand_reaches (by decide +kernel), by decide +kernel⟩

/-- A record of log 3. -/
def rec3 (a : Nat) : ULogRec := ⟨3, a, 7, 2, 0, 0, 0, false⟩

/-- A world with records of log 3, and log 4 lost. -/
def standLog (rs : List ULogRec) : State := { stand with worlds := [(0, { World.reset with ulogs := rs, lost := [4] })] }

/-- UpdateLogsFollowR91ToR95AndR219: a lost log, a record whose place traps, one whose place fits, no record; an append
that fits and one that finds no room. -/
theorem witness_UpdateLogsFollowR91ToR95AndR219 : ((standLog [rec3 0x8000]).world 0).lost.contains 4 = true ∧
    ((standLog [rec3 0x8000]).world 0).lost.contains 3 = false ∧
    (standLog [rec3 0x8000]).check 0 0 0x8000 ⟨8, ulogBytes 2, 1, true, true, 0x10008⟩ = .ok (.mem 0x408000 0) (.leaf 0x400017 false) ∧
    (standLog [rec3 0x00FFFFFFFFF04000]).check 0 0 0x00FFFFFFFFF04000 ⟨8, ulogBytes 2, 1, true, true, 0x10008⟩ =
      .trap (trapAt 7 2 0x00FFFFFFFFF04000) ∧
    ((standLog [rec3 0x8000]).world 0).ulogs.filter (fun r => r.log == 3) = [rec3 0x8000] ∧
    (sortRecs [rec3 0x00FFFFFFFFF04000]).head? = some (rec3 0x00FFFFFFFFF04000) ∧
    ((standLog []).world 0).ulogs.filter (fun r => r.log == 3) = [] ∧
    ((List.replicate 8192 (rec3 0x8000)).filter (fun (e : ULogRec) => e.log == 3 && !e.spilled)).length = 8192 ∧
    World.reset.share ≤ 0 := by decide +kernel

/-- The granule of W(2) full. -/
def standFull : State := standWith { coreNow with full := [0x401] }

/-- FullEmptyFormsFollowR96: a full and an empty granule of the own scratchpad, and another core's, to be read and written. -/
theorem witness_FullEmptyFormsFollowR96 : standFull.cur.isFull (0x4010 / 16) = true ∧ standFull.cur.isFull (0x4000 / 16) = false ∧
    Reaches stand 0x00FFFFFFFFF04010 ⟨4, 8, 8, true, false, 0x10008⟩ (.spad 0 0x4010) .invalid ∧
    Reaches stand 0x00FFFFFFFFF04010 ⟨4, 8, 8, false, true, 0x10008⟩ (.spad 0 0x4010) .invalid ∧
    Reaches stand 0x00F0000000104000 ⟨4, 8, 8, true, false, 0x10008⟩ (.spad 1 0x4000) .invalid ∧
    standFull.check 0 0 0x00FFFFFFFFF04010 ⟨4, 8, 8, false, true, 0x10008⟩ = .ok (.spad 0 0x4010) .invalid ∧
    standFull.check 0 0 0x00FFFFFFFFF04010 ⟨4, 8, 8, true, false, 0x10008⟩ = .ok (.spad 0 0x4010) .invalid :=
  ⟨by decide +kernel, by decide +kernel, stand_reaches (by decide +kernel), stand_reaches (by decide +kernel),
    stand_reaches (by decide +kernel), by decide +kernel, by decide +kernel⟩

/-- ClaspInstructionsFollowR224: clasps of each kind: zero and nonzero operands and EXP, a phase that is reached and not. -/
theorem witness_ClaspInstructionsFollowR224 :
    Reaches stand 0x00FFFFFFFFF04000 ⟨3, 16, 16, true, true, 0x10008⟩ (.spad 0 0x4000) .invalid ∧
    Reaches stand 0x00FFFFFFFFF04000 ⟨3, 16, 16, true, false, 0x10008⟩ (.spad 0 0x4000) .invalid ∧
    Reaches stand 0x00F0000000104000 ⟨3, 16, 16, true, true, 0x10008⟩ (.spad 1 0x4000) .invalid ∧
    (stand.rd 8).toNat % 2 ^ 40 = 0 ∧ (stand.rd 5).toNat % 2 ^ 40 ≠ 0 ∧ stand.sNum 0 0x4000 8 % 2 ^ 40 = 0 ∧
    (standPut 0x4000 8 3).sNum 0 0x4000 8 % 2 ^ 40 ≠ 0 ∧ stand.sNum 0 0x4008 8 / 2 ^ 40 % 2 ^ 24 = (stand.rd 8).toNat % 2 ^ 24 ∧
    stand.sNum 0 0x4008 8 / 2 ^ 40 % 2 ^ 24 ≠ (stand.rd 5).toNat % 2 ^ 24 ∧ (stand.sNum 0 0x4000 8).testBit 63 = false :=
  ⟨stand_reaches (by decide +kernel), stand_reaches (by decide +kernel), stand_reaches (by decide +kernel), by decide +kernel⟩

/-- A request of core 0's workspace 0 at its home. -/
def reqOf (op : ReqOp) (l : Loc) : Request := ⟨1, 0, 0, 0, 0, 5, 0, op, 0x8000, l, none⟩

/-- A state with that request in flight. -/
def standReq (op : ReqOp) (l : Loc) : State := { stand with inflight := [reqOf op l] }

/-- RequestsActAtTheirHomes: a request that has arrived, one that has not, at a scratchpad and at world memory, with a full
and an empty granule, and a clasp in and out of its phase. -/
theorem witness_RequestsActAtTheirHomes : (standReq (.store 8 7 none) (.spad 1 0x4000)).inflight.find? (fun x => x.id == 1) =
      some (reqOf (.store 8 7 none) (.spad 1 0x4000)) ∧
    (reqOf (.store 8 7 none) (.spad 1 0x4000)).arrive ≤ stand.cycle ∧ stand.cycle < { reqOf (.wake 0) (.spad 1 0) with arrive := 9 }.arrive ∧
    0x4000 % 8 = 0 ∧ stand.poison = [] ∧ (∀ q ∈ [0, 1], (stand.core q).spoison = []) ∧ stand.lostAt 0x408000 = false ∧
    (stand.core 1).isFull (0x4000 / 16) = false ∧ (standFull.core 0).isFull (0x4010 / 16) = true ∧
    (claspOf (stand.peek 0 (.spad 1 0x4000) 16)).phc = 0 ∧ (claspOf (stand.peek 0 (.spad 1 0x4000) 16)).e = false := by decide +kernel

/-- A task that is parked. -/
def standPark (p : Park) : State := standTask { taskNow with park := p }

/-- An answer with a result and an updated base, or a trap. -/
def answer (t : Option Trap) : Answer := ⟨some (9, 5), some (3, 0x8008), 0, t, 0, true⟩

/-- ReturnsAndReleasesFollowR34AndR37: each park, due and not, an answer that traps, an overdue full-empty form, a line asked for. -/
theorem witness_ReturnsAndReleasesFollowR34AndR37 : (standPark (.memory 0)).curTask.park = .memory 0 ∧ (0 : Nat) ≤ stand.cycle ∧
    stand.cycle < 9 ∧ (standPark (.answered 0 (answer none))).curTask.park = .answered 0 (answer none) ∧ (answer none).trap = none ∧
    (standPark (.released 0 (answer (some (trapOf 9 0))))).curTask.park = .released 0 (answer (some (trapOf 9 0))) ∧
    (({ standWith { coreNow with feWait := [{ reqOf (.feLoad true 8 9) (.spad 0 0x4000) with deadline := some 0 }] } with cycle := 64 }).overdue 0 0).isSome = true ∧
    stand.overdue 0 0 = none ∧ (stand.core 0).ireq.find? (fun r => r.1 == 0x8000) = none ∧
    ((standWith { coreNow with ireq := [(0x8000, 0)] }).core 0).ireq.find? (fun r => r.1 == 0x8000) = some (0x8000, 0) ∧
    0x8000 % 128 = 0 ∧ (stand.core 0).slotOf 0 = some 0 ∧ (standPark (.line 0x8000)).curTask.park = .line 0x8000 ∧
    (standLeaf 0x40001B).fetchCheck 0 0x8000 = .ok (.mem 0x408000 0) (.leaf 0x40001B false) := by decide +kernel

/-- A nest of one i32 element at W(1), W(2) and W(2), of no mask. -/
def nestOne : Nest := ⟨10, 10, 10, 0, 0, 0, 0, 1, 2, 2, 0, 0, 0, 0, 0, 0, 0, 0, 0, 0, 0, 0, 0, 0, 0, 0, 0, 0, 0, 0, 0, 0, 0, 0, 0, 0, 0, 0⟩

/-- The add of nestOne as issued in the standing state. -/
def addCmd : NestCmd := stand.nestCmd 1 nestOne

/-- ConditionsReleaseTheirThreads: a resident task for each condition, met and not met. -/
theorem witness_ConditionsReleaseTheirThreads : (stand.slot 0 0).ws = some 0 ∧
    (standPark (.cbFill 3 1)).curTask.park = .cbFill 3 1 ∧ ¬(1 ≤ (stand.cur.handle 3).filled - (stand.cur.handle 3).cheld) ∧
    0 ≤ (stand.cur.handle 3).filled - (stand.cur.handle 3).cheld ∧ (∀ m ∈ stand.cur.mq, 1 ≤ m.id) ∧ stand.cur.passQueued 0 = false ∧
    stand.cur.vq.length < 8 ∧ ¬((List.replicate 8 addCmd).length < 8) ∧ stand.footHit 0 0 0x4000 8 = false ∧ stand.nestsOut = false ∧
    (standWith { coreNow with vq := [{ addCmd with attached := false }] }).nestsOut = true ∧
    (standWith { coreNow with vq := [{ addCmd with attached := false }] }).footHit 0 0 0x4000 8 = true := by decide +kernel

/-- A core whose slot 0 is switching. -/
def standSwitch (x : Switch) : State := standWith { coreReady with
  slots := [(0, { Slot.reset with ws := x.outgoing.map (fun e => e.1), bank := [(5, 7)], live := 0x20, dirty := 0x20, switching := some x })] }

/-- SwitchesAndServiceAnswersFollowR46ToR50AndR111: an empty slot and a ready task, a quantum that has run out, switches out and
in that are due and not due, a task that waits for the service, in a slot and not. -/
theorem witness_SwitchesAndServiceAnswersFollowR46ToR50AndR111 : (standWith coreReady).slotEmpty 0 1 = true ∧
    (standWith coreReady).slotEmpty 0 0 = false ∧ ((standWith coreReady).core 0).readyHead = some (0, 7) ∧
    (stand.task 0 0).qrem = 0 ∧ (stand.slot 0 0).switching = none ∧ (stand.tqNow 0).toNat = 0 ∧
    ((standWith { coreReady with tq := 9 }).tqNow 0).toNat = 9 ∧ (stand.task 0 0).park = .run ∧ stand.stopping 0 = false ∧
    ((standSwitch ⟨some (0, 2), none, 0, none⟩).slot 0 0).switching = some ⟨some (0, 2), none, 0, none⟩ ∧
    ((standSwitch ⟨some (0, 2), none, 0, none⟩).slot 0 0).ws = some 0 ∧
    (standSwitch ⟨none, some 7, 0, none⟩).recordOk 0 7 = true ∧ (standSwitch ⟨none, some 7, 9, none⟩).cycle < 9 ∧
    (standPark (.service 6 0x18000 0x10008)).curTask.park = .service 6 0x18000 0x10008 ∧ (stand.core 0).slotOf 0 = some 0 ∧
    (stand.core 0).slotOf 7 = none ∧ (standTask { taskNow with lateTrap := some (trapOf 9 0) }).curTask.lateTrap = some (trapOf 9 0) ∧
    stand.curTask.lateTrap = none ∧ stand.hnd 0 0 = 0 := by decide +kernel

/-- VectorElementsFollowR261ToR266: an integer and a float type, saturating and not, and operands in range. -/
theorem witness_VectorElementsFollowR261ToR266 : tyIsInt (nestType nestOne 0) = true ∧ 7 < 2 ^ tyBits (nestType nestOne 0) ∧
    nestOne.sat ≠ 1 ∧ ({ nestOne with sat := 1 }).sat = 1 ∧ nestType nestOne 2 = nestType nestOne 0 ∧
    tyIsFloat (nestType { nestOne with td := 1, ta := 1, tb := 1 } 0) = true ∧ tyIsFloat .f32 = true ∧
    compareVal (floatVal .f32 0x7FC00000) (floatVal .f32 0) = none := by decide +kernel

/-- A core of the standing state with nests in its queue, some cycles on. -/
def standNests (l : List NestCmd) : State := { standWith { coreNow with vq := l } with cycle := 64 }

/-- NestsFollowR240ToR253: a nest that issues, one under SR, one whose base is misaligned, one that starts, one-element and in
own scratchpad, and finished nests of each kind. -/
theorem witness_NestsFollowR240ToR253 : vopOf (.vxAdd nestOne) = some (1, nestOne) ∧
    (vopKindOf 64 = .func ∧ ({ nestOne with rm := 5 }).rm.toNat = 5) ∧ stand.heldWindows = none ∧ stand.nestCheck 1 nestOne = none ∧
    (stand.nestCheck 1 { nestOne with bd := 7 }).isSome = true ∧ stand.cur.vq.length < 8 ∧
    stand.boxesDetach addCmd = true ∧
    (standTask { taskNow with resume := some 3 }).curTask.resume = some 3 ∧
    ((standNests []).nestReady 0) = none ∧ (standNests [addCmd]).nestReady 0 = some addCmd ∧
    addCmd.started = false ∧ addCmd.ran = false ∧ addCmd.first = 0 ∧ addCmd.maskStop = none ∧ addCmd.n.extents = [1, 1, 1, 1, 1] ∧
    addCmd.rm ≠ 5 ∧ vopKindOf addCmd.vop = .arith ∧ (∀ w ∈ [0, 1, 2], nestTy addCmd.n w ≠ 6) ∧
    (standNests [addCmd]).check 0 0 addCmd.based ⟨6, 4, 1, true, false, 0x10008⟩ = .ok (.spad 0 0x4000) .invalid ∧
    (standNests [addCmd]).check 0 0 addCmd.based ⟨6, 4, 1, false, true, 0x10008⟩ = .ok (.spad 0 0x4000) .invalid ∧
    (standNests [addCmd]).check 0 0 addCmd.basea ⟨6, 4, 1, true, false, 0x10008⟩ = .ok (.spad 0 0x4010) .invalid ∧
    ((standNests [{ addCmd with started := true, finished := some none }]).nestDone 0).isSome = true ∧
    ((standNests [{ addCmd with started := true, finished := some (some (trapOf 10 1)) }]).nestDone 0).isSome = true ∧
    ((standNests [{ addCmd with started := true, finished := some none, attached := false }]).nestDone 0).isSome = true ∧
    (standNests []).nestDone 0 = none := by decide +kernel

/-- A core with handle 3 defined over four slots of 16 bytes, one of them filled, perhaps held. -/
def standCb (pres cheld : Nat) : State := standWith { coreNow with handles := [(3, ⟨true, 0x4000, 16, 4, 0, 1, pres, cheld, [], []⟩)] }

/-- CircularBuffersFollowR257: an undefined handle, a busy one, a size that fits and one that does not, and fills, drains and
waits with and without room. -/
theorem witness_CircularBuffersFollowR257 : (stand.cur.handle 3).v = false ∧ ((standCb 0 0).cur.handle 3).v = true ∧
    stand.cbBusy 3 = false ∧ (standCb 1 0).cbBusy 3 = true ∧ (stand.rd 3).toNat % 2 ^ 20 % 16 = 0 ∧ (stand.rd 5).toNat % 2 ^ 16 ≠ 0 ∧
    (stand.rd 3).toNat % 2 ^ 20 + 16 * 7 * 1 ≤ 2 ^ 20 ∧ (stand.rd 5).toNat / 2 ^ 16 % 2 ^ 12 + 1 = 1 ∧ (stand.rd 8).toNat % 2 ^ 16 = 0 ∧
    ((standCb 0 0).cur.handle 3).nslot - 1 - 0 < 7 ∧ (stand.rd 8).toNat % 8192 ≤ ((standCb 0 0).cur.handle 3).nslot ∧
    ((standCb 0 1).cur.handle 3).cheld ≠ 0 ∧ ((standCb 1 0).cur.handle 3).pres ≠ 0 ∧ ((standCb 0 0).cur.handle 3).nslot < (stand.rd 5).toNat % 8192 ∧
    ((standCb 0 1).cur.handle 3).filled - ((standCb 0 1).cur.handle 3).cheld < 1 := by decide +kernel

/-- An array command of the standing task, queued. -/
def arrayCmd (kind : Nat) (c : EngCmd) : MaCmd :=
  ⟨1, 0, 0, kind, c, 0x00FFFFFFFFF04000, 64, 0x00FFFFFFFFF05000, 0, 0, 0, 0, 0, 0, 0x10008, 0, false, 0, 0, 0, false, none, none, 0, 0⟩

/-- A command with no operand. -/
def bare : EngCmd := ⟨0, 0, 0, 0, 0⟩

/-- ArrayCommandsIssueAsR281Says: commands that pass their checks and that fail, with room and without, with and without a job. -/
theorem witness_ArrayCommandsIssueAsR281Says : stand.maTrap 1 bare = none ∧ stand.maTrap 2 bare = none ∧ stand.maTrap 5 bare = none ∧
    (stand.maTrap 4 { bare with z := 6 }).isSome = true ∧ (stand.rd 6).toNat % 16 ≠ 0 ∧ stand.cur.jobOpen = false ∧
    (standWith { coreNow with jobOpen := true, jobCmds := 64 }).cur.jobCmds = 64 ∧
    (standWith { coreNow with jobOpen := true, jobCycles := 65536 }).cur.jobCycles = 65536 ∧ stand.cur.mq = [] ∧
    (standWith { coreNow with mq := [arrayCmd 1 bare] }).cur.mq ≠ [] ∧
    ((stand.cur.mq.filter (fun m => !(m.kind == 4 && m.started && m.drained))).length < 16) ∧
    ¬((((List.replicate 16 (arrayCmd 1 bare)).filter (fun m => !(m.kind == 4 && m.started && m.drained))).length) < 16) ∧
    stand.maTrap 0 ⟨1, 8, 0, 0, 0x30000000⟩ = none ∧ (standWith { coreNow with jobOpen := true, activeTag := 4 }).maTrap 3 ⟨1, 8, 0, 0, 0x30000000⟩ = none ∧
    stand.maTrap 4 ⟨1, 8, 2, 0, 0x10000000⟩ = none := by decide +kernel

/-- A state whose sett 0 has granted its array to core 0, which has these commands. -/
def standArray (l : List MaCmd) : State :=
  { standWith { coreNow with mq := l } with cycle := 600, setts := [(0, { Sett.reset with granted := some 0, atag0 := 1 })] }

/-- A drain of one f32 value to W(1) with a clasp at 0x5000. -/
def drainOne : MaCmd := { arrayCmd 4 ⟨1, 8, 2, 0, 0x10000000⟩ with started := true }

/-- TheMatrixArrayRunsAsR282Says: a grant, commands of each kind that start and that end, and a job that closes itself. -/
theorem witness_TheMatrixArrayRunsAsR282Says : stand.maChoice 0 = none ∧
    ((standWith { coreNow with mq := [arrayCmd 1 bare] }).maChoice 0).isSome = true ∧ (stand.sett 0).granted = none ∧
    (stand.sett 0).freeAt ≤ stand.cycle ∧ stand.savedJob 0 = none ∧ stand.maStartable 0 0 = none ∧
    (standArray [arrayCmd 1 bare]).maStartable 0 0 = some (0, arrayCmd 1 bare) ∧
    (standArray [arrayCmd 2 bare]).maStartable 0 0 = some (0, arrayCmd 2 bare) ∧
    (standArray [arrayCmd 0 ⟨1, 8, 0, 0, 0x30000000⟩]).maStartable 0 0 = some (0, arrayCmd 0 ⟨1, 8, 0, 0, 0x30000000⟩) ∧
    (standArray [arrayCmd 3 ⟨1, 8, 0, 0, 0x80000000⟩]).maStartable 0 0 = some (0, arrayCmd 3 ⟨1, 8, 0, 0, 0x80000000⟩) ∧
    maType ⟨1, 8, 0, 0, 0x30000000⟩ = 3 ∧ ldT ⟨1, 8, 0, 0, 0x30000000⟩ = false ∧ maType ⟨1, 8, 0, 0, 0x80000000⟩ = 8 ∧
    stand.spadOf 0 (arrayCmd 0 bare).base = some (0, 0x4000) ∧ stand.maEndable 0 0 = none ∧
    (standArray [{ arrayCmd 1 bare with started := true }]).maEndable 0 0 = some (0, { arrayCmd 1 bare with started := true }) ∧
    ((standArray [{ drainOne with rows := 1, c := { drainOne.c with f := 2 } }]).maEndable 0 0).isSome = true ∧
    maCloses 4 { drainOne.c with f := 2 } = true ∧ maCloses 1 bare = false ∧ stand.maCloseable 0 = false ∧
    (standWith { Core.reset with jobOpen := true }).maCloseable 0 = true := by decide +kernel

/-- DrainsWriteTheirRowsAsR290Says: a drain whose row is ready, its clasp and its row in own scratchpad, and one that is bad. -/
theorem witness_DrainsWriteTheirRowsAsR290Says : stand.maRowReady 0 = none ∧ (standArray [drainOne]).maRowReady 0 = some (0, drainOne) ∧
    (standArray [drainOne]).engineCheck 0 0 0x10008 drainOne.clasp 16 true = .ok (.spad 0 0x5000) .invalid ∧ 0x5000 % 16 = 0 ∧
    drainOne.bad = false ∧ ({ drainOne with bad := true }).bad = true ∧ drainOne.owed = 0 ∧ drainOne.win = none ∧
    drCols drainOne.c * maSize drainOne.c = 4 ∧
    (standArray [drainOne]).engineCheck 0 0 0x10008 (drainOne.base + drainOne.rows * drainOne.pitch) 4 true = .ok (.spad 0 0x4000) .invalid ∧
    ((standArray [drainOne]).sett 0).atag0 = 1 ∧ maType drainOne.c = 1 := by decide +kernel

/-- A copy command of core 0. -/
def copyCmd (kind : Nat) : CopyCmd := ⟨1, 0, 0, 0, 0x10008, kind, 0x00FFFFFFFFF06000, 0x00FFFFFFFFF05000, 0, none⟩

/-- A dma.cp descriptor: 16 bytes from 0x4000 to 0x7000 of own scratchpad, one run (R295). -/
def cpDesc : List Byte := bytesOf 8 0x00FFFFFFFFF04000 ++ bytesOf 8 0x00FFFFFFFFF07000 ++ bytesOf 8 16 ++ List.replicate 40 0

/-- A command in a place of sett 0, its descriptor read. -/
def copyRun (d : List Byte) : CopyRun := { CopyRun.of (copyCmd 0) with bytes := some d }

/-- A state with that command in place 0. -/
def standCopy (r : CopyRun) : State := { standWith { coreNow with cq := [r.cmd] } with setts := [(0, { Sett.reset with places := [(0, r)] })] }

/-- CopyCommandsIssueAsR292AndR298Say: a clasp address that passes and one that does not, room and none, a gang and none. -/
theorem witness_CopyCommandsIssueAsR292AndR298Say : stand.claspIssue (stand.rd 2).toNat = none ∧
    (stand.claspIssue (stand.rd 6).toNat).isSome = true ∧ (stand.rd 6).toNat % 16 ≠ 0 ∧ stand.cur.cq.length < 8 ∧
    8 ≤ (List.replicate 8 (copyCmd 0)).length ∧ stand.curTask.gang = none ∧ (standGang gangNow).curTask.gang = some 1 := by decide +kernel

/-- CopiesRunPieceByPieceAsR294Says: a command that starts, one whose piece can be written, one that is malformed and one that is over. -/
theorem witness_CopiesFollow : stand.copyChoice 0 = none ∧
    (standWith { coreNow with cq := [copyCmd 0] }).copyChoice 0 = some (0, copyCmd 0) ∧ (copyCmd 0).coll = none ∧
    AMap.find (stand.sett 0).places 0 = none ∧ AMap.find ((standCopy (copyRun cpDesc)).sett 0).places 0 = some (copyRun cpDesc) ∧
    (standCopy (copyRun cpDesc)).copyCanStep (copyRun cpDesc) = true ∧ (copyRun cpDesc).over = false ∧
    ({ copyRun cpDesc with next := 1 }).over = true ∧ (standCopy (copyRun cpDesc)).copyCanStep { copyRun cpDesc with next := 1 } = false ∧
    (copyRun cpDesc).bad = false ∧ (copyRun cpDesc).owed = 0 ∧ (copyCmd 0).noClasp = false ∧
    copyPlan 0 (List.replicate 64 0) = none ∧ cpPlan cpDesc = some ⟨16, 1, 1, none⟩ ∧
    (standCopy (copyRun cpDesc)).engineCheck 0 0 0x10008 0x00FFFFFFFFF05000 16 true = .ok (.spad 0 0x5000) .invalid ∧
    (standCopy (copyRun cpDesc)).engineCheck 0 0 0x10008 0x00FFFFFFFFF04000 16 false = .ok (.spad 0 0x4000) .invalid ∧
    (standCopy (copyRun cpDesc)).engineCheck 0 0 0x10008 0x00FFFFFFFFF07000 16 true = .ok (.spad 0 0x7000) .invalid := by decide +kernel

/-- CopiesRunPieceByPieceAsR294Says: a source that no run of the command writes; one that its own run writes is open (R295). -/
theorem witness_CopySourceApart : (standCopy (copyRun cpDesc)).cpMet (copyRun cpDesc) cpDesc ⟨16, 1, 1, none⟩ 0x00FFFFFFFFF04000 16 = [] ∧
    ((standCopy (copyRun cpDesc)).cpMet (copyRun cpDesc) cpDesc ⟨16, 1, 1, none⟩ 0x00FFFFFFFFF06FF8 16).isEmpty = false := by decide +kernel

/-- A gang of one task that has issued a broadcast of 64 bytes from 0x4000 to 0x7000 (R297). -/
def collNow (running : Bool) : Coll := { m := 0, cmds := [(0, copyCmd 3)], running := running, fault := none, fab := [], fabWait := none, bad := false, lost := [], due := none }

/-- The standing state with that gang. -/
def standColl (running : Bool) : State := standGang { gangNow with w := 1, h := 1, n := 1, cores := [0], colls := [collNow running] }

/-- CollectivesFollowR297AndR298: a collective that can run, one that cannot, and none; what gathers, where the
members' descriptors do not agree on one, is the malformed case. -/
theorem witness_CollectivesFollow : ((stand.gang 1).coll? 0) = none ∧ (((standColl true).gang 1).coll? 0) = some (collNow true) ∧
    (collNow true).canRun = true ∧ (collNow false).canRun = false ∧ (collNow true).bad = false := by decide +kernel

/-- A tensor of 2 by 1 by 1 beads at 0x8000 whose skip map is at 0x9000, window 1. -/
def tensorNow : Tensor := { Tensor.reset with
  declared := true, base := 0x8000, skip := 0x9000, dims := (2, 1, 1), window := 1, plen := 1, prog := [0xA8000000] }

/-- A visit of bead 0: t0 is 7, t1 an offset of the scratchpad, t2 one that is not. -/
def visitNow : Visit := ⟨0, 0, 3, 0, [(4, 7), (5, 0x4000), (6, 2 ^ 20)], 0, 0, 0, 0, 0, none, false, 0, 0⟩

/-- A core with that tensor and visit. -/
def coreBead : Core := { coreNow with tensors := [(0, tensorNow)], visit := some visitNow }

/-- BeadArithmeticFollowsR307 and BeadFloatsAndAccessesFollowR307ToR324: a visit in hand; a destination that is written; a
rounding mode; neighbours inside and outside the grid and too far; addresses in place, misaligned, beyond and protected. -/
theorem witness_BeadFloatsAndAccessesFollowR307ToR324 : (standWith coreBead).cur.visit = some visitNow ∧ (4#3 ≠ 3#3) ∧
    rmodeOfCode 0 = some .rne ∧ (1#16).extractLsb' 0 6 = 1#6 ∧ ¬(tensorNow.window < (1 : Int).natAbs) ∧ tensorNow.window < (2 : Int).natAbs ∧
    (0 : Nat) + 1 < 2 ∧ ¬((0 : Int) ≤ -1) ∧ (standWith coreBead).cur.regHit 0x8010 8 = none ∧ poisonHit (standWith coreBead).cur.spoison 0x8010 8 = false ∧
    (standWith coreBead).cur.regHit 0 8 = some 0 ∧ poisonHit [0x1002] 0x8010 8 = true ∧ (visitNow.reg 5).toNat ≤ 2 ^ 20 - 8 ∧
    (visitNow.reg 5).toNat % 8 = 0 ∧ (visitNow.reg 4).toNat % 8 ≠ 0 ∧ 2 ^ 20 - 8 < (visitNow.reg 6).toNat ∧
    (standWith coreBead).cur.skipHit 0x9000 8 = true ∧ (standWith coreBead).cur.skipHit 0x4000 8 = false ∧
    (standWith coreBead).cur.recordHit 0x180 8 = true ∧ (standWith coreBead).cur.recordHit 0x4000 8 = false ∧
    (standWith coreBead).cur.spoison = [] ∧ (tensorNow.base + 16 * visitNow.k) % 16 = 0 := by decide +kernel

/-- BeadBranchesWaitsAndWakesFollowR304ToR314: a neighbour that is read and one too far, waits that hold and do not, and wakes
of beads absent, earlier, later and asleep. -/
theorem witness_BeadBranchesWaitsAndWakesFollowR304ToR314 : ((standWith coreBead).neighbour visitNow 1 1).toOption.isSome = true ∧
    ((standWith coreBead).neighbour visitNow 2 1).toOption.isSome = false ∧ 2 ^ 20 ≤ (visitNow.reg 6).toNat ∧ (visitNow.reg 5).toNat < 2 ^ 20 ∧
    (standWith coreBead).cur.regHit 0x4000 16 = none ∧ poisonHit (standWith coreBead).cur.spoison 0x4000 16 = false ∧
    tensorNow.beads ≤ 7 ∧ 1 < tensorNow.beads ∧ ¬(1 ≤ visitNow.k) ∧ 0 ≤ visitNow.k ∧
    ctxSt ((standWith coreBead).sNum 0 0x8018 8) ≠ 2 ∧
    ctxSt (((standWith coreBead).sPut 0 0x8018 8 0x200).sNum 0 0x8018 8) = 2 ∧ (standWith coreBead).cur.regHit 0x8018 8 = none ∧
    tensorNow.base + 16 * 1 + 16 ≤ tensorNow.skip + 1 / 8 := by decide +kernel

/-- A state whose own scratchpad holds a tensor's descriptor at 0x4000: 2 beads, and a program of one b.done at 0xA000. -/
def standDecl : State := ((((((stand.sPut 0 0x4000 8 0x8000).sPut 0 0x4008 8 1).sPut 0 0x4010 8 0).sPut 0 0x4018 8 0x9000).sPut 0
  0x4020 8 0x00FFFFFFFFF0A000).sPut 0 0xA000 4 0xA8000000)

/-- A pass of tensor 0. -/
def passOne (running : Bool) : PassCmd := ⟨1, 0, 0, 0, 1, false, true, false, 0x00FFFFFFFFF05000, 0, 0x10008, 0, running, none, 0, false⟩

/-- A core with that pass at the head of its sweep queue. -/
def standPass (q : PassCmd) (x : Tensor) : State := standWith { coreNow with tensors := [(0, x)], sq := [q] }

/-- TensorCommandsFollowR319ToR323: a declared and an undeclared slot, a descriptor that passes and an address that does not, a
count of 0 and not, room and none, a running pass and none, and beads beyond the tensor and asleep. -/
theorem witness_TensorCommandsFollowR319ToR323 : (stand.cur.tensor 0).declared = false ∧ ((standWith coreBead).cur.tensor 0).declared = true ∧
    (∃ o, standDecl.declCheck 0 (standDecl.rd 1).toNat = .ok o) ∧ stand.spadOf 0 (stand.rd 5).toNat = none ∧
    (stand.rd 8).toNat % 2 ^ 24 = 0 ∧ (stand.rd 5).toNat % 2 ^ 24 ≠ 0 ∧ stand.claspIssue (stand.rd 2).toNat = none ∧
    (stand.claspIssue (stand.rd 6).toNat).isSome = true ∧ stand.cur.sq.length < 4 ∧ 4 ≤ (List.replicate 4 (passOne false)).length ∧
    tensorNow.beads ≤ (stand.rd 5).toNat % 2 ^ 16 ∧ (stand.rd 8).toNat % 2 ^ 16 < tensorNow.beads ∧
    ctxSt (((standWith coreBead).sPut 0 0x8008 8 0x200).sNum 0 0x8008 8) = 2 ∧
    (∃ q ∈ (standPass (passOne true) tensorNow).cur.sq, q.t = 0) ∧ ∀ q ∈ stand.cur.sq, q.t ≠ 0 := by
  refine ⟨?_, ?_, ⟨0x4000, by rfl⟩, ?_, ?_, ?_, ?_, ?_, ?_, ?_, ?_, ?_, ?_, ⟨_, List.mem_singleton.mpr rfl, rfl⟩, ?_⟩ <;> decide +kernel

/-- A state in which slot 0 waits in `bd.decl` of tensor 0, its descriptor named by W(1). -/
def standDeclares : State := { standDecl with cores := [(0, { standDecl.cur with
  tasks := [(0, { taskNow with park := .bdDecl 0 0 none [] none, issue := { Task.reset.issue with iw0 := 0x00010000 } })] })] }

/-- PassesFollowR313AndR320: a declaration that is due and whose checks pass, heads of the queue that start, pass, stop and
end, and a tensor whose beads all sleep with no wake pending. -/
theorem witness_PassesFollowR313AndR320 : (standDeclares.actAs 0 0).curTask.park = .bdDecl 0 0 none [] none ∧
    (standDeclares.actAs 0 0).rd ((standDeclares.actAs 0 0).curTask.issue.iw0.extractLsb' 16 5) = standDecl.rd 1 ∧
    (standDeclares.descTensor 0x4000).plen = 1 ∧ poisonHit standDeclares.cur.spoison 0x4000 64 = false ∧
    (standPass (passOne false) tensorNow).stopping 0 = false ∧ (passOne false).running = false ∧
    (standPass (passOne true) tensorNow).cur.runningPass = some (passOne true) ∧ (passOne true).stop = none ∧ (passOne true).free = 0 ∧
    (((standPass (passOne true) { tensorNow with bits := 3 }).actAs 0 0).sweep 0).trap = none ∧ tensorNow.early = [] ∧ tensorNow.late = [] ∧
    ((((standPass (passOne true) { tensorNow with base := 0x200 }).sPut 0 0x208 8 0x7).actAs 0 0).sweep 0).trap.isSome = true ∧
    (standPass { passOne true with stop := some none, async := true } tensorNow).passWaits 0 { passOne true with stop := some none, async := true } = false := by
  decide +kernel

/-- PassesFollowR313AndR320: a bead program that can be read, and a due declaration whose body passes. -/
theorem witness_PassesReadTheProgram :
    (match standDeclares.declCheck 0 (standDecl.rd 1).toNat, engRead ⟨0, 0, 0x10008⟩ [] 0x00FFFFFFFFF0A000 4 ⟨standDeclares, 0⟩ with
      | .ok o, .ok (bs, e) => o == 0x4000 && bs == [0, 0, 0, 0xA8] &&
        (match e.s.declBody (standDeclares.descTensor o) 0x00FFFFFFFFF0A000 [0xA8000000] with | .ok _ => true | .error _ => false)
      | _, _ => false) = true := by decide +kernel

/-- A burrow whose text is 64 bytes at 0x100000000040, with 1 MiB of OUT. -/
def burrowZ : Burrow := { Burrow.reset with
  active := true, world := 0, gang := 1, z := [(1, 7), (2, 3), (3, 0x2000000000F0), (5, 0x1000000000F8)], pc := 0x100000000044
  inBytes := bytesOf 8 (64 * 2 ^ 32 + 64) ++ bytesOf 8 (64 * 2 ^ 32 + 128) ++ List.replicate 16 0 ++ bytesOf 8 (2 * 2 ^ 32) ++ List.replicate 216 0
  outSize := 2 ^ 20, budget := 1000, heapMax := 2 ^ 21 }

/-- A state with that burrow in slot 0 of core 0. -/
def standZ (b : Burrow) : State := { stand with turn := .burrow 0 0, burrows := [(0, b)], worlds := [(0, { World.reset with used := true })] }

/-- BootstrapArithmeticAndAccessesFollowR334AndR335: divisors, and addresses in each window, misaligned and outside. -/
theorem witness_BootstrapArithmeticAndAccessesFollowR334AndR335 : (standZ burrowZ).burrowNow.active = true ∧ burrowZ.reg 0#4 = 0 ∧
    burrowZ.reg 2#4 ≠ 0 ∧ (burrowZ.reg 3#4 + 8).toNat % 8 = 0 ∧ (burrowZ.reg 3#4 + 1).toNat % 8 ≠ 0 ∧ (burrowZ.reg 1#4).toNat % 1 = 0 ∧
    burrowZ.window (burrowZ.reg 1#4).toNat 1 = none ∧ burrowZ.window (burrowZ.reg 3#4).toNat 8 = some (1, 0xF0) ∧
    burrowZ.window (burrowZ.reg 5#4).toNat 8 = some (0, 0xF8) ∧ burrowZ.window (burrowZ.reg 5#4 + 8).toNat 8 = none ∧
    burrowZ.window 0x300000FFFFF8 8 = some (2, 0xFFFFF8) ∧ burrowZ.committed = false ∧
    burrowZ.place 0x100000000000 8 true = .error 2 ∧ ({ burrowZ with committed := true }).place 0x200000000000 8 true = .error 2 := by
  decide +kernel

/-- A burrow that has begun function 0 at 0 and written its one line, whose other function is over. -/
def burrowF : Burrow := { burrowZ with
  begun := [(1, 0), (0, 128)], ended := [(1, 0, 128)], openF := some (0, 128)
  out := Memory.writeN [] 128 (bytesOf 8 0x4000000140000001) }

/-- BootstrapTransfersAndServicesFollowR336AndR354: targets inside and outside the text; arguments each service takes and
refuses; a run with and without instructions left. -/
theorem witness_BootstrapTransfersAndServicesFollowR336AndR354 : burrowZ.inText 0x100000000044 = true ∧ burrowZ.inText 0x100000000080 = false ∧
    burrowZ.inText 0x100000000046 = false ∧ burrowZ.reg 0#4 = burrowZ.reg 0#4 ∧ burrowZ.reg 1#4 ≠ burrowZ.reg 2#4 ∧
    nstFind 0xFF 0 ≠ none ∧ nstFind 0xFE 0 = none ∧ burrowZ.dir 0x24 4 = 2 ∧ burrowF.headersOk 128 256 = true ∧
    burrowF.headersOk 128 384 = false ∧ burrowF.openF = some (0, 128) ∧ burrowZ.openF = none ∧ burrowZ.begun = [] ∧
    burrowF.inFunction 128 256 = true ∧ burrowF.inFunction 0 256 = false ∧ burrowZ.outSize + 65536 ≤ burrowZ.heapMax ∧
    burrowZ.heapMax < burrowZ.outSize + 2 ^ 21 ∧ burrowZ.window 0x200000000000 256 = some (1, 0) ∧ burrowZ.window 7 3 = none ∧
    burrowZ.meter < burrowZ.budget ∧ ¬(({ burrowZ with meter := 1000 }).meter < burrowZ.budget) := by decide +kernel

/-- BootstrapTransfersAndServicesFollowR336AndR354: a commit that can be published, one whose image is too large, and one that
the checks refuse. -/
theorem witness_CommitsFollowR359 : burrowZ.commitError = 0 ∧ burrowF.commitError = 2 ∧
    (burrowZ.image 0).bytes.length ≤ ({ World.reset with policy := 2 ^ 256 } : World).tccap * 2 ^ 20 ∧
    (World.reset.tccap * 2 ^ 20 < (burrowZ.image 0).bytes.length) := by decide +kernel

/-- A gang of one task placed on core 0 and not yet released. -/
def gangPlaced : Gang := { gangNow with phase := 0, w := 1, h := 1, n := 1, cores := [0], releaseAt := 4 }

/-- A pre-empted gang of that shape. -/
def gangOut : Gang := { gangPlaced with phase := 2, saved := [{ coreNow with gang := some 1 }], home := [0] }

/-- A device with that gang whose core 0 is free. -/
def standOut : State := { stand with gangs := [(1, gangOut)], cores := [] }

/-- GangsFollowR62R114R115R116AndR236: gangs to release, to fail, to stop, stopped, to resume, to retire. -/
theorem witness_GangsFollowR62R114R115R116AndR236 : ((standGang gangPlaced).gang 1).phase = 0 ∧ ¬(gangPlaced.releaseAt ≤ stand.cycle) ∧
    ({ standGang gangPlaced with cycle := 64 } : State).cycle ≥ gangPlaced.releaseAt ∧ gangPlaced.cores.Nodup ∧ gangPlaced.n ≤ 16 ∧
    (Gang.reset.phase = 3) ∧ gangNow.phase = 1 ∧ (standGang { gangNow with phase := 4 }).coreDrained 0 = true ∧
    (standWith { coreNow with vq := [addCmd] }).coreDrained 0 = false ∧
    standOut.rectCores 0 0 1 1 1 = some [0] ∧ standOut.rectCores 16 0 1 1 1 = none ∧ (standOut.core 0).gang = none ∧
    (standGang gangNow).canRetire 1 = false ∧ ({ standOut with gangs := [(1, { gangPlaced with phase := 1 })] } : State).canRetire 1 = true ∧
    (([0] : List Nat).Nodup ∧ ([0] : List Nat).length = gangOut.saved.length) := by decide +kernel

/-- A packet's common fields: it waits for token 0 and sets token 1. -/
def hdrNow : PktHdr := ⟨false, true, 1, 2⟩

/-- A made queue whose packet 0 is the given one, its tokens set. -/
def queueNow (i : Instr) (loops : List (Nat × Nat × Nat)) : Queue := { Queue.reset with
  made := true, qcb := 0x8000, ring := 0x8000, tokens := 1, window := [WEntry.of 0 i], readPos := 1, loops := loops }

/-- A device with that queue, whose control block and ring lie in memory the front end may write. -/
def standQueue (x : Queue) : State := { stand with
  queues := [(3, x)], worlds := [(0, { World.reset with used := true, root := 0x200000 })]
  mem := Memory.writeN (Memory.writeN (Memory.writeN [] 0x200000 (bytesOf 8 0x210001)) 0x210000 (bytesOf 8 0x220001))
    0x220000 (bytesOf 8 0x400017) }

/-- The tested word at 0x8040. -/
def condNow (cc : Nat) : CondBody := ⟨0x8040, 0, 0xFF, cc⟩

/-- PacketsDispatchAndCompleteAsR386ToR400Say: a ready entry, one whose tokens are missing, a taken entry whose control block
can be written, a tested word that can be read, conditions that hold and do not, loops full, open, on their last turn and none. -/
theorem witness_PacketsDispatchAndCompleteAsR386ToR400Say : (queueNow (.pktNop 3 0 hdrNow) []).ready (WEntry.of 0 (.pktNop 3 0 hdrNow)) = true ∧
    ({ queueNow (.pktNop 3 0 hdrNow) [] with tokens := 2 }).ready (WEntry.of 0 (.pktNop 3 0 hdrNow)) = false ∧
    (standQueue (queueNow (.pktNop 3 0 hdrNow) [])).queue 3 = queueNow (.pktNop 3 0 hdrNow) [] ∧
    ((standQueue (queueNow (.pktNop 3 0 hdrNow) [])).takeEntry 3 0 hdrNow).toOption.isSome = true ∧
    ((standQueue (queueNow (.pktNop 3 0 hdrNow) [])).fePut 0 0x8038 0).toOption.isSome = true ∧
    (match (standQueue (queueNow (.pktNop 3 0 hdrNow) [])).feNum 0 0x8040 with | .ok (a, _) => a == 0 | .error _ => false) = true ∧
    condTest (condNow 0) 0 = true ∧ condTest (condNow 1) 0 = false ∧
    (queueNow (.pktEndloop 3 0 hdrNow) [(0, 2, 0)]).loops = [(0, 2, 0)] ∧ 0 + 1 < 2 ∧ 2 ≤ 1 + 1 ∧
    4 ≤ ([(0, 2, 0), (0, 2, 0), (0, 2, 0), (0, 2, 0)] : List (Nat × Nat × Nat)).length ∧
    (queueNow (.pktNop 3 0 hdrNow) []).made = true ∧ (stand.queue 4).made = false ∧ (stand.queue 3).entry? 0 = none := by decide +kernel

/-- A launch of one task on core 0 of the first sett, of handle 1's entry 0, its arguments at 0x8080. -/
def launchNow : LaunchBody := ⟨1, 0, 0, 0, 0, 0, 1, 0, 0, 0, false, 0, 0xFFFF, 0xFFFF, 0x8080, false⟩

/-- A stage of at most one gang whose input queue is at 0x8100. -/
def stageNow : StageRun := ⟨⟨0x8100, 0, 0x80C0, 1, 0, false⟩, [], [], 0, (1, false), none⟩

/-- A queue whose packet 0 is the given one, of world 1, whose object 1 has an entry, with core 0 free. -/
def standWorld (i : Instr) : State := { standQueue { queueNow i [] with world := 1 } with
  cores := []
  worlds := [(1, { World.reset with
    used := true, root := 0x200000, policy := 2 ^ 192 + 2 ^ 201 + 2 ^ 235
    handles := [(1, { ObjEntry.reset with
      valid := true, owner := 1, lo := 0x10000, hi := 0x20000, textEnd := 0x20000, textLen := 128, entries := [0x10008] })] })] }

/-- The plan of that launch. -/
def planNow : Option LaunchPlan := match (standWorld (.pktLaunch 3 0 hdrNow launchNow)).planLaunch 1 launchNow none with
  | .ok (p, _) => p
  | .error _ => none

/-- A shootdown of world 0's page 0. -/
def shootNow : Shoot := ⟨7, 0, 0, 65536, false, none⟩

/-- LaunchesStagesCopiesAndShootdownsFollowR394ToR405: a launch that is planned and placed, one the checks reject, one with no
place; a stage not dispatched, one that can run, stages over, stopped and working; a shootdown that waits and one that does not. -/
theorem witness_LaunchesStagesCopiesAndShootdownsFollowR394ToR405 : planNow.isSome = true ∧
    (planNow.bind (fun p => (standWorld (.pktLaunch 3 0 hdrNow launchNow)).placeFor 1 p (fun _ => false))) = some (0, 0, [0]) ∧
    (planNow.bind (fun p => (standGang gangNow).placeFor 1 p (fun _ => false))) = none ∧
    ((standWorld (.pktLaunch 3 0 hdrNow launchNow)).takeEntry 3 0 hdrNow).toOption.isSome = true ∧
    (AMap.get ObjEntry.reset (stand.world 0).handles 1).valid = false ∧ (stand.queue 3).stage? 0 = none ∧
    ({ queueNow (.pktStage 3 0 hdrNow stageNow.body) [] with window :=
      [{ WEntry.of 0 (.pktStage 3 0 hdrNow stageNow.body) with stage := some stageNow }] }).stage? 0 = some stageNow ∧
    (match ((standWorld (.pktStage 3 0 hdrNow stageNow.body)).memPut 0x408108 (bytesOf 8 0)).stageRunnable 3 stageNow with
      | .ok (some i, _) => i.cons == 0 | _ => false) = true ∧
    stageNow.over ⟨0, 0, 0, 0, true, 4⟩ = some ⟨0, 0, 0, 0⟩ ∧ stageNow.over ⟨1, 0, 0, 0, true, 4⟩ = none ∧
    ({ stageNow with stopped := some ⟨5, 0, 0, 0⟩ }).over ⟨1, 0, 0, 0, true, 4⟩ = some ⟨5, 0, 0, 0⟩ ∧
    ([0] : List Nat).Nodup ∧ (planNow.map (fun p => p.wsb + p.n)) = some 1 ∧
    stand.shoots.find? (fun x => x.id == 7) = none ∧
    ({ stand with shoots := [shootNow] } : State).shoots.find? (fun x => x.id == 7) = some shootNow ∧ stand.inflight = [] ∧
    (reqOf (.load 8 false 5 none) (.mem 0x408000 0)).world = shootNow.world ∧ (reqOf (.load 8 false 5 none) (.mem 0x408000 0)).va < 65536 := by
  decide +kernel

/-- A queue that waits with a WAITMEM since cycle 0. -/
def queueWaits (st : Nat) : Queue := { queueNow (.pktWaitmem 3 0 hdrNow (condNow 0) 1) [] with
  state := st, window := [{ WEntry.of 0 (.pktWaitmem 3 0 hdrNow (condNow 0) 1) with
    state := .dispatched, isReady := true, readySince := some 0, poll := 512, expire := some 1024 }] }

/-- What the service asks for in a queue of world 1 whose control block is at 0x8000. -/
def specNow (remote : Bool) : QueueSpec := ⟨1, 0, 1, remote, 0x8000⟩

/-- QueuesFollowR380ToR391AndR408: queues that may and may not be created, control blocks that can be read and hold a ring
that is allowed and not, states, entries that wait and not, limits that are over and not, and a ring with room and full. -/
theorem witness_QueuesFollowR380ToR391AndR408 : (standWorld (.pktNop 3 0 hdrNow)).canCreate (specNow false) = true ∧
    stand.canCreate (specNow false) = false ∧ stand.freeQueue = some 0 ∧
    (match ((standWorld (.pktNop 3 0 hdrNow)).memPut 0x408000 (bytesOf 8 0x8006)).feNum 1 0x8000 with
      | .ok (v, _) => v / 32 % 128 == 0 && v % 32 == 6 | .error _ => false) = true ∧
    (match (standWorld (.pktNop 3 0 hdrNow)).feNum 1 0x8000 with | .ok (v, _) => v % 32 == 0 | .error _ => false) = true ∧
    (queueWaits 1).made = true ∧ (queueWaits 2).state = 2 ∧ (queueWaits 3).state = 3 ∧ (stand.queue 3).made = false ∧
    (queueWaits 1).waiting 0 = some (condNow 0) ∧ (queueNow (.pktNop 3 0 hdrNow) []).waiting 0 = none ∧
    ({ standQueue (queueWaits 1) with cycle := 1024 } : State).waitmemOver 3 0 = true ∧ (standQueue (queueWaits 1)).waitmemOver 3 0 = false ∧
    (queueWaits 1).oldest ≠ none ∧ ¬((queueWaits 1).since + 2000000 ≤ 1024) ∧ (queueWaits 1).since + 2000000 ≤ 2000000 ∧
    (queueNow (.pktNop 3 0 hdrNow) []).oldest = none ∧ (queueWaits 1).ridx + 2 ^ (queueWaits 1).log2n = 64 ∧
    (match (standQueue (queueWaits 1)).feNum 0 0x8008 with | .ok (v, _) => decide (v < 64) | .error _ => false) = true ∧
    ((standQueue (queueWaits 3)).qcbAll 3).toOption.isSome = true ∧ (standQueue (queueWaits 3)).world 0 = (standQueue (queueWaits 3)).world 0 ∧
    ((standQueue (queueWaits 3)).world 0).dying = false ∧ (∀ e ∈ (queueWaits 3).window, e.state ≠ .loaded) := by decide +kernel

/-- The smallest container: no function, and a translator of one word (R365, R368). -/
def containerNow : List Byte := bytesOf 8 (0x53474C31 * 2 ^ 32 + 2 ^ 16) ++ bytesOf 8 (64 * 2 ^ 32 + 64) ++ bytesOf 8 (20 * 2 ^ 32 + 64) ++
  bytesOf 8 64 ++ bytesOf 8 64 ++ bytesOf 8 64 ++ bytesOf 8 64 ++ bytesOf 8 0 ++ bytesOf 8 100 ++ bytesOf 8 (4 * 2 ^ 32) ++ List.replicate 4 0

/-- An image of one line of text with one entry. -/
def imageNow : List Byte := ({ pref := 0, text := List.replicate 128 0, const := [], data := [], dzero := 0, gotn := 0, entries := [8]
                               rels := [], provs := [], syms := [], names := [] } : Image).bytes

/-- A load of that image into world 1 with frames for two tables. -/
def loadNow : LoadSpec := ⟨1, 0x40000000000, 0x500000, [0x600000, 0x610000], imageNow⟩

/-- WorldsAndImagesFollowR374ToR379AndR410ToR417: a policy that is allowed and one that is not, worlds free, used and dying,
cores with and without a gang, indices in and out of range, an image and a base that pass, one that fails, a container that
passes and one that does not, and a run in flight. -/
theorem witness_WorldsAndImagesFollowR374ToR379AndR410ToR417 : policyOk (2 ^ 192 + 2 ^ 200) = true ∧ policyOk 0 = false ∧
    stand.freeWorld = some 1 ∧ stand.booted = true ∧ stand.waysHeld = 0 ∧ ((standWorld (.pktNop 3 0 hdrNow)).world 1).used = true ∧
    ((standWorld (.pktNop 3 0 hdrNow)).world 1).dying = false ∧ (stand.world 1).used = false ∧ (stand.core 0).gang = none ∧
    ((standGang gangNow).core 0).gang ≠ none ∧ imageField imageNow = 0 ∧ imageField [] ≠ 0 ∧ ((imageOf imageNow).entries = [8]) ∧
    (standWorld (.pktNop 3 0 hdrNow)).baseOk 1 ((imageOf imageNow).layout 0x40000000000) = true ∧
    (standWorld (.pktNop 3 0 hdrNow)).baseOk 1 ((imageOf imageNow).layout 0x10000) = false ∧
    (match (imageOf imageNow).relocate ((imageOf imageNow).layout 0x40000000000) with
      | .ok y => ((standWorld (.pktNop 3 0 hdrNow)).install loadNow (imageOf imageNow) ((imageOf imageNow).layout 0x40000000000) y).isSome &&
        ((standWorld (.pktNop 3 0 hdrNow)).install { loadNow with tabs := [] } (imageOf imageNow) ((imageOf imageNow).layout 0x40000000000) y).isNone
      | .error _ => false) = true ∧
    (match { imageOf imageNow with rels := [⟨0, 0, 9, 0, 0⟩] }.relocate ((imageOf imageNow).layout 0x10000) with
      | .ok _ => false | .error e => e == (0, 2)) = true ∧
    (handleAt standObjects 1).valid = true ∧ (handleAt standObjects 4).valid = false ∧ containerField containerNow = 0 ∧ containerField [] ≠ 0 ∧
    (standWorld (.pktNop 3 0 hdrNow)).runInFlight 1 5 = false ∧ (standWorld (.pktNop 3 0 hdrNow)).burrowCore 1 = some 0 ∧
    ({ standWorld (.pktNop 3 0 hdrNow) with burrows := [(0, { burrowZ with world := 1, key := 5 })] } : State).runInFlight 1 5 = true ∧
    (standWorld (.pktNop 3 0 hdrNow)).keys = [] := by decide +kernel

/-- An export of 4096 bytes of world 1's memory at 0x8000 for reads and writes, its key 9. -/
def exportNow : BitVec 256 := 2 ^ 63 + 2 ^ 62 + 2 ^ 61 + 2 ^ 36 + 4095 + 9 * 2 ^ 64 + 0x8000 * 2 ^ 128

/-- A live key slot of world 1. -/
def keyNow : KeySlot := { KeySlot.reset with state := 1, world := 1, key1 := 5 }

/-- PlatformServicesFollowR418ToR430: an export that is on, off, of another key, too short; bytes that can be read; a thread
that waits for an answer; key slots free, live and revoked; links in and out of range; engines that wait and not. -/
theorem witness_PlatformServicesFollowR418ToR430 : exportNow.getLsbD 63 = true ∧ (0 : BitVec 256).getLsbD 63 = false ∧
    exportNow.toNat / 2 ^ 64 % 2 ^ 64 = (9 : BitVec 64).toNat ∧ exportNow.toNat / 2 ^ 64 % 2 ^ 64 ≠ (8 : BitVec 64).toNat ∧
    exportNow.toNat % 2 ^ 36 + 1 ≥ 0 + 8 ∧ ¬(exportNow.toNat % 2 ^ 36 + 1 ≥ 4090 + 8) ∧ exportNow.getLsbD 62 = true ∧ exWorld exportNow = 1 ∧
    (match engRead (feCtx 1) [] 0x8000 8 ⟨standWorld (.pktNop 3 0 hdrNow), 0⟩ with | .ok (bs, _) => bs.length == 8 | .error _ => false) = true ∧
    ((standPark (.fabric 0 0x8000 (.load 8 false 5 none))).actAs 0 0).curTask.park = .fabric 0 0x8000 (.load 8 false 5 none) ∧
    ((stand.actAs 0 0).curTask.park = .run) ∧ (stand.actAs 0 0).curTask.vector 7 = (0x20000, 1) ∧
    ({ stand with keys := [(3, keyNow)] } : State).keySlot false 3 = keyNow ∧ (stand.keySlot false 3).state = 0 ∧
    ({ keyNow with state := 2 }).state = 2 ∧ (stand.portOut 0 = false) ∧ stand.journal.length < 4194303 ∧
    (standNests [addCmd]).cur.vq.length = 1 ∧ stand.maDraining 0 = none ∧ stand.spoils = [] ∧ stand.fabIn = [] ∧
    AMap.find ((standCopy { copyRun cpDesc with fault := some 0x8000 }).sett 0).places 0 = some { copyRun cpDesc with fault := some 0x8000 } := by
  decide +kernel

/-- A journal entry that is coalesced since time 0. -/
def entryNow : JEntry := ⟨0, 0, 5, 3, 1, 1, 0, 64, 0⟩

/-- UnitsPowerAndTimeFollowR17R22R23AndR424ToR431: units enabled, off and settling, an entry that is due and one that is not, an
alarm, and cycles that are and are not the rotation's. -/
theorem witness_UnitsPowerAndTimeFollowR17R22R23AndR424ToR431 : stand.enabled 3 7 = true ∧
    ({ stand with units := [(3 * 65536 + 7, ⟨2, 1⟩)] } : State).enabled 3 7 = false ∧ stand.settling.contains ⟨5, 3⟩ = false ∧
    ({ stand with settling := [⟨5, 3⟩] } : State).settling.contains ⟨5, 3⟩ = true ∧
    ({ stand with coalesce := [entryNow] } : State).coalesce.find? (fun e => e.kind == 5 && e.phys == 3 && e.addr == 64) = some entryNow ∧
    stand.coalesce.find? (fun e => e.kind == 5 && e.phys == 3 && e.addr == 64) = none ∧ stand.micros < entryNow.time + 1000000 ∧
    ({ stand with cycle := 1550000000000, time := 1550000000000 } : State).micros ≥ entryNow.time + 1000000 ∧ stand.alarm = false ∧
    stand.cycle % 16 = 0 ∧ ({ stand with cycle := 5 } : State).cycle % 16 ≠ 0 ∧ (∃ q ∈ ({ stand with units := [(3 * 65536 + 7, ⟨2, 1⟩)] } : State).bootSlices,
      ({ stand with units := [(3 * 65536 + 7, ⟨2, 1⟩)] } : State).enabled 3 q = true) := by
  refine ⟨?_, ?_, ?_, ?_, ?_, ?_, ?_, ?_, ?_, ?_, ?_, ⟨0, ?_, ?_⟩⟩ <;> decide +kernel

/-- NativeEncodingAndDecodingAgree and BootstrapAndBeadEncodingsAgree: a well-formed instruction of each set, and words that
decode. -/
theorem witness_EncodingsAgree : instrSet (.add 3 4 5) = .native ∧ wellFormed (.add 3 4 5) = true ∧
    lengthOf 0x04642800#32 = ([] : List IWord).length + 1 ∧ decodeNative 0x04642800#32 [] = .ok (.add 3 4 5) ∧
    instrSet .zhalt = .bootstrap ∧ decodeZbs 0x04C48000#32 = .ok (.zadd 3 1 2) ∧ instrSet .bDone = .bead ∧ wellFormed .bDone = true ∧
    decodeBead 0xA8000000#32 = .ok .bDone ∧ instrSet .idleRotation = .event := by decide

/-- The fetched text of a standing thread: a good word, a word that is no instruction, and a line of another version. -/
def standText (header : Word) (w : IWord) : State := standWith { coreNow with icache := [(0, [⟨0x10000, header, w :: List.replicate 29 0, []⟩])] }

/-- StepRunsWhatItDecodes: a thread's beat on a word that decodes, on one that does not and in a line that does not pass; a
burrow's beat, a bead's turn, an event and the passing of a cycle. -/
theorem witness_StepRunsWhatItDecodes : (standText 0x4000000140000001 0x04642800).turn = .thread 0 0 ∧
    ((((standText 0x4000000140000001 0x04642800).actAs 0 0).settleNests 0 0).curTask.fresh = false) ∧
    (((standText 0x4000000140000001 0x04642800).actAs 0 0).settleNests 0 0).issueAt 0x10008 = none ∧
    (standText 0x4000000140000001 0x04642800).cur.line? 0x10000 = some ⟨0x10000, 0x4000000140000001, 0x04642800 :: List.replicate 29 0, []⟩ ∧
    lineCheck 0x4000000140000001 0 1 = 0 ∧ lineCheck 0x4000000180000001 0 1 = 4 ∧ decodeNative 0x04642800 [] = .ok (.add 3 4 5) ∧
    decodeNative 0 [] = .bad 4 ∧ (standZ burrowZ).turn = .burrow 0 0 ∧ burrowZ.inText burrowZ.pc = true ∧
    decodeZbs 0xA8000000 = .ok .zhalt ∧ (({ standWith coreBead with turn := .bead 0 } : State).actAs 0 0).beadHere = some 0xA8000000 ∧
    State.reset.turn = .event (.boot true) ∧ ({ stand with turn := .cycle } : State).turn = .cycle := by decide +kernel

/-- EveryStepLeavesALegalTurn: a state with a legal turn, and a step from it that answers a next state. -/
theorem witness_EveryStepLeavesALegalTurn : turnOk { stand with turn := .cycle } = true ∧
    ∃ t, step { stand with turn := .cycle } = .next t := ⟨by decide +kernel, ⟨_, rfl⟩⟩

/-- InvalidFloatOperationsFollowR186: finite numbers that are not zero, and a NaN. -/
theorem witness_InvalidFloatOperationsFollowR186 : floatVal .f64 0x3FF0000000000000 = .fin false (2 ^ 52) (-52) ∧ 2 ^ 52 ≠ 0 ∧
    floatVal .f64 0x7FF0000000000000 = .inf false ∧ floatVal .f64 0 = .fin false 0 (-1074) := by decide +kernel

/-- The standing state's own scratchpad holds 7 at 0x4000, where a command that counts into the clasp at 0x4010 has written it
over 0xAA (R84). -/
def standOpen : State :=
  { (stand.sPut 0 0x4000 1 7).modCore 0 (fun k => { k with full := [0x400] }) with
    unsettled := [⟨1, 0, 0, 2 * 0x4000 + 1, [some (0xAA, 7)], some (2 * 0x4010 + 1, some 0)⟩] }

/-- EngineBytesStayOpenUntilTheyAreAcquired: an open byte in a place that a load, a store, a full granule's ld.fe and a cl.test
reach, outside the bank. -/
theorem witness_EngineBytesStayOpen : standOpen.opened 0 (.spad 0 0x4000) 8 = true ∧
    (standOpen.earlier 0 (.spad 0 0x4000) 1) = [some 0xAA] ∧ standOpen.drainReds = standOpen ∧ standOpen.cur.isFull (0x4000 / 16) = true ∧
    standOpen.check 0 0 0x00FFFFFFFFF04000 ⟨0, 1, 1, true, false, 0x10008⟩ = .ok (.spad 0 0x4000) .invalid ∧
    standOpen.check 0 0 0x00FFFFFFFFF04000 ⟨0, 1, 1, false, true, 0x10008⟩ = .ok (.spad 0 0x4000) .invalid ∧
    standOpen.check 0 0 0x00FFFFFFFFF04000 ⟨4, 1, 1, true, false, 0x10008⟩ = .ok (.spad 0 0x4000) .invalid ∧
    standOpen.check 0 0 0x00FFFFFFFFF04010 ⟨3, 16, 16, true, false, 0x10008⟩ = .ok (.spad 0 0x4010) .invalid ∧
    standOpen.footHit 0 0 0x4000 8 = false ∧ standOpen.footHit 0 0 0x4010 16 = false ∧ ¬(0x4000 / 1024 = standOpen.curWs) ∧
    ¬(0x200 ≤ (0x4000 + 0) % 1024 ∧ (0x4000 + 0) % 1024 < 0x240) ∧
    standOpen.unsettled.all (fun v => v.counted == some (2 * 0x4010 + 1, some 0)) = true := by decide +kernel

/-- The places of the witnesses above hold no byte that an engine has written and nobody has acquired. -/
theorem witness_NothingOpen : (standReq (.store 8 7 none) (.spad 1 0x4000)).unsettled = [] ∧
    (standLog [rec3 0x8000]).opened 0 (.mem 0x408000 0) 4 = false ∧ (standNests [addCmd]).opened 0 (.spad 0 0x4000) 4 = false ∧
    (standNests [addCmd]).opened 0 (.spad 0 0x4010) 4 = false ∧ (standArray [arrayCmd 0 bare]).unsettled = [] ∧
    (standCopy (copyRun cpDesc)).opened 0 (.spad 0 0x4000) 16 = false ∧ (standWith coreBead).opened 0 (.spad 0 0x4000) 16 = false ∧
    (standWith coreBead).opened 0 (.spad 0 0x8010) 8 = false := by decide +kernel

/-- InvalidFloatOperationsFollowR186: a product of 0 and infinity added to a NaN, and one that is neither. -/
theorem witness_InvalidFloatOperationsFollowR186_nan : floatVal .f64 0 = .fin false 0 (-1074) ∧ floatVal .f64 0x7FF0000000000000 = .inf false ∧
    floatVal .f64 0x7FF8000000000000 = .nan false := by decide +kernel

/-- ConversionsGive: an i32 from an f64 above, at and below its range, as a numerator over 2^21, and between two integers. -/
theorem witness_ConversionsGive_ranges : tyOfCode 10 = some .i32 ∧ floatVal .f64 0x41E0000000000000 = .fin false (2 ^ 52) (-21) ∧
    (intMax .i32 + 1) * 2 ^ 21 ≤ (2 ^ 52 : Int) ∧ -(2 ^ 52 : Int) ≥ intMin .i32 * 2 ^ 21 ∧ ((-21 : Int) = (0 : Nat) - (21 : Nat)) ∧
    -(2 ^ 53 : Int) ≤ (intMin .i32 - 1) * 2 ^ 21 ∧ (3 * 2 ^ 20 : Int) % 2 ^ 21 ≠ 0 := by decide +kernel

/-- StateRegistersWriteAsR237Says: values within and beyond a read-only register's width. -/
theorem witness_StateRegistersWriteAsR237Says : (stand.rd 5).toNat < 16 ∧ ¬((stand.rd 7).toNat < 2 ^ 60) ∧
    (1 ≤ (stand.rd 5).toNat ∧ (stand.rd 5).toNat ≤ 8) ∧ ¬(1 ≤ (stand.rd 8).toNat) := by decide +kernel

/-- LeavingASlotFollowsR227: a workspace that stands in a ready list, and one that does not. -/
theorem witness_LeavingASlotFollowsR227_swap : (∃ p, p < 4 ∧ (stand.rd 5).toNat % 1024 ∈ (standWith coreReady).cur.readyList p) ∧
    ∀ p < 4, 9 ∉ (standWith coreReady).cur.readyList p := ⟨⟨0, by decide +kernel⟩, by decide +kernel⟩

/-- A world whose object 1 has the page of W(3) beyond its text, and does not hold the pc. -/
def standForeign : State := { stand with worlds := [(0, { World.reset with
  handles := [(1, { ObjEntry.reset with valid := true, lo := 0, hi := 0x10000, textEnd := 0x4000 })] })] }

/-- AccessChecksFollowR195AndR213: a place of another object's data, an L1 copy that serves a load and one that serves no
store, and a fabric window within and past its limit. -/
theorem witness_AccessChecksFollowR195AndR213 : ((standForeign.world 0).handles.find? (fun e => e.2.holds 0x8000)).isSome = true ∧
    (∀ e, (standForeign.world 0).handles.find? (fun e => e.2.holds 0x8000) = some e → e.2.textEnd ≤ 0x8000 ∧ e.2.holds 0x10008 = false) ∧
    standForeign.check 0 0 0x8000 ⟨0, 8, 8, true, false, 0x10008⟩ = .trap (trapAt 7 3 0x8000) ∧
    standForeign.check 0 0 0x8000 ⟨0, 8, 8, false, true, 0x10008⟩ = .trap (trapAt 7 2 0x8000) ∧
    ((standWith { coreNow with l1 := [(0x400, l1Owned)] }).l1Hit 0 0x8000).isSome = true ∧
    ((standWith { coreNow with l1 := [(0x400, { l1Owned with owned := false, til := 9 })] }).l1Hit 0 0x8000).any (fun y => y.owned) = false ∧
    fabricOf 0x00F8001000000040 = some (1, 0x40) ∧ standWindows.fabricOpen 0 1 = true ∧ standWindows.fabricLimit 0 1 = 0xFFFFF ∧
    standWindows.fabricOpen 0 2 = false := by
  refine ⟨by decide +kernel, ?_, by decide +kernel⟩
  intro e h
  have := h.symm.trans (by decide +kernel : (standForeign.world 0).handles.find? (fun e => e.2.holds 0x8000) =
    some (1, { ObjEntry.reset with valid := true, lo := 0, hi := 0x10000, textEnd := 0x4000 }))
  cases Option.some.inj this
  decide +kernel

/-- MergesFollowR219: records whose second destination traps after a first that fits. -/
theorem witness_MergesFollowR219 : sortRecs [rec3 0x00FFFFFFFFF04000, rec3 0x8000] = [rec3 0x8000] ++ rec3 0x00FFFFFFFFF04000 :: [] ∧
    (standLog [rec3 0x00FFFFFFFFF04000, rec3 0x8000]).check 0 0 0x00FFFFFFFFF04000 ⟨8, ulogBytes 2, 1, true, true, 0x10008⟩ =
      .trap (trapAt 7 2 0x00FFFFFFFFF04000) ∧
    (standLog [rec3 0x18000]).check 0 0 0x18000 ⟨8, ulogBytes 2, 1, true, true, 0x10008⟩ = .service 6 0x18000 ∧
    ({ standLog [rec3 0x8000] with settling := [⟨5, stand.llcOf 0x408000⟩] }).check 0 0 0x8000 ⟨8, ulogBytes 2, 1, true, true, 0x10008⟩ = .settle := by
  decide +kernel

/-- AtomicsFollowR215ToR218 and ConditionsReleaseTheirThreads: a mesh that takes another red of core 0, and one that does not,
whatever it holds. -/
theorem witness_MeshFull : stand.meshFull 0 = false ∧
    ({ stand with inflight := List.replicate (Config.meshQueue + 1) (reqOf (.red 0 8 1) (.mem 0x408000 0)) }).meshFull 0 = true := by
  refine ⟨by decide +kernel, ?_⟩
  have h : (List.replicate (Config.meshQueue + 1) (reqOf (.red 0 8 1) (.mem 0x408000 0))).filter (fun r => r.core == 0 && r.isRed) =
      List.replicate (Config.meshQueue + 1) (reqOf (.red 0 8 1) (.mem 0x408000 0)) := by
    rw [List.filter_replicate]; rfl
  simp only [State.meshFull, h, List.length_replicate]
  simp

/-- RequestsActAtTheirHomes: no request of a number, one at a failed home, a deadline that has passed and one that has not, a
word with an error at home, two reds that are equal, a clasp outside return stacks; a mailbox, a task that waits for it, one
that sleeps and one that is leaving for SLEEP. -/
theorem witness_RequestsActAtTheirHomes_more : (standReq (.wake 0) (.spad 1 0)).inflight.find? (fun x => x.id == 2) = none ∧
    ({ stand with settling := [⟨5, stand.llcOf 0x408000⟩] }).homeSettling (reqOf (.clArm 3) (.mem 0x408000 0)) = true ∧
    stand.homeSettling (reqOf (.clArm 3) (.mem 0x408000 0)) = false ∧
    (4 : Nat) < ({ stand with cycle := 80 } : State).cycle / 16 ∧ stand.cycle / 16 ≤ 4 ∧
    ({ stand with poison := [0x81000] }).errsAtHome (reqOf (.store 8 7 none) (.mem 0x408000 0)) = false ∧
    ({ stand with poison := [0x81000] }).errsAtHome (reqOf (.load 8 false 5 none) (.mem 0x408000 0)) = true ∧
    stand.errsAtHome (reqOf (.clAdd 16) (.spad 1 0x4000)) = false ∧ poisonHit [0x81000] (0x408000 / 32 * 32) 32 = true ∧
    standWindows.windowOf 0 0x408000 = some (BitVec.ofNat 256 (0x900000 + 0xA00000 * 2 ^ 64 + 0x40 * 2 ^ 144 + 2 ^ 192 + 0x1000 * 2 ^ 200)) ∧
    ¬(0x200 ≤ 0x4000 % 1024 ∧ 0x4000 % 1024 < 0x240) ∧ ((List.replicate 48 (1 : Byte)).length = 48) ∧
    (stand.sNum 1 (1024 * 7 + 0x170) 8).testBit 0 = false ∧ ((stand.sPut 1 (1024 * 7 + 0x170) 8 1).sNum 1 (1024 * 7 + 0x170) 8).testBit 0 = true ∧
    ((standWith { coreReady with tasks := [(7, { Task.reset with tstate := 3 })] }).task 0 7).tstate = 3 ∧
    ((standRef 9).task 0 9).tstate = 2 ∧ standPair.cur.switchingOut 9 2 = some 1 ∧ (standRef 9).cur.switchingOut 9 2 = none := by
  decide +kernel

/-- A recall of request 1 that has arrived. -/
def standRecall : State := { standPark (.home 1) with inflight := [{ reqOf (.recall 1) (.spad 1 0) with id := 2 }] }

/-- ReturnsAndReleasesFollowR34AndR37: a recall that finds its form waiting and one that does not, and its acknowledgement due
and not, with a ready task and with none. -/
theorem witness_ReturnsAndReleases_recall : standRecall.inflight.find? (fun q => q.id == 2) = some { reqOf (.recall 1) (.spad 1 0) with id := 2 } ∧
    (∃ e ∈ (standWith { coreNow with feWait := [reqOf (.feLoad true 8 9) (.spad 0 0x4000)] }).cores, ∃ q ∈ e.2.feWait ++ e.2.sendWait, q.id = 1) ∧
    (∀ e ∈ stand.cores, ∀ q ∈ e.2.feWait ++ e.2.sendWait, q.id ≠ 1) ∧ (standPark (.recalled 9)).cycle < 9 ∧
    (standPark (.recalled 0)).curTask.park = .recalled 0 ∧ (stand.core 0).readyBy 0 = none ∧ ((standWith coreReady).core 0).readyBy 0 = some (0, 7) ∧
    stand.stopping 0 = false ∧ (standGang { gangNow with phase := 4 }).stopping 0 = true := by
  refine ⟨by decide +kernel, ⟨_, List.mem_singleton.mpr rfl, _, List.mem_singleton.mpr rfl, rfl⟩, by decide +kernel⟩

/-- ConditionsReleaseTheirThreads: FLAGS that waits, and a handle a thread's slot sees without its last 8 cycles' edits. -/
theorem witness_ConditionsRelease_more : (standPark (.flagsDrain true 5)).curTask.park = .flagsDrain true 5 ∧
    (standPark .meshFull).curTask.park = .meshFull ∧ stand.nestsOut = false ∧
    (standWith { coreNow with edits := [⟨3, 8, Handle.reset, Handle.reset⟩] }).cur.edits.all (fun e => decide (e.seen ≤ 8)) = true := by decide +kernel

/-- SwitchesFollowR46ToR50: a slot's beat at which a task has become ready and one at which none has, a switch that takes one
task out and another in, for each TSTATE it may leave, and the parks that wait and that hold. -/
theorem witness_SwitchesFollowR46ToR50 : ((standWith coreReady).core 0).readyBy 0 = some (0, 7) ∧
    ((standWith { coreReady with tasks := [(7, { Task.reset with tstate := 0, readyAt := 5 })] }).core 0).readyBy 0 = none ∧
    ({ standWith coreReady with cycle := 1 } : State).cycle % 16 = 1 ∧ ((standSwitch ⟨some (0, 3), some 7, 0, none⟩).task 0 7).tstate ≠ 6 ∧
    (∀ st ∈ [0, 2, 3, 4, 5, 6], ((standSwitch ⟨some (0, st), some 7, 0, none⟩).slot 0 0).switching = some ⟨some (0, st), some 7, 0, none⟩) ∧
    (7 : Nat) ≠ 0 ∧ (standSwitch ⟨some (0, 3), some 7, 0, none⟩).recordOk 0 7 = true ∧
    ((standSwitch ⟨some (0, 3), some 7, 0, none⟩).slot 0 0).ws = some 0 ∧
    ((standPut 0x170 8 1).sNum 0 (wsOff 0 0x170) 8).testBit 0 = true ∧ (stand.sNum 0 (wsOff 0 0x170) 8).testBit 0 = false ∧
    (standPark .settle).curTask.park = .settle ∧ (standPark (.line 0x8000)).curTask.park = .line 0x8000 := by decide +kernel

/-- ServiceAnswersFollowR111: a fetch fault, a task out of its slot, one that is leaving its slot and one that stays. -/
theorem witness_ServiceAnswersFollowR111 : (standPark (.service 2 0x18000 0x10008)).curTask.park = .service 2 0x18000 0x10008 ∧
    AMap.find stand.cores 0 ≠ none ∧ (stand.core 0).slotOf 7 = none ∧ stand.curTask.gang = none ∧
    ((standSwitch ⟨some (0, 5), some 7, 0, none⟩).core 0).slotOf 0 = some 0 ∧ ((standSwitch ⟨some (0, 5), some 7, 0, none⟩).slot 0 0).switching ≠ none ∧
    (stand.core 0).slotOf 0 = some 0 ∧ (stand.slot 0 0).switching = none := by decide +kernel

/-- NestsIssueAsR240Says and NestsRunAndCompleteAsR240Says: a nest that resumes in windows it holds, and a finished one whose
window has completed and one behind a producer that has not. -/
theorem witness_NestWindows : (standWith { coreNow with held := [{ addCmd with wins := [(0, 3, 1)] }], tasks := [(0, { taskNow with resume := some 1 })] }).heldWindows = some [(0, 3, 1)] ∧
    (∃ w ∈ [((0 : Nat), 3, 1)], w.1 = 0) ∧
    ((({ coreNow with handles := [(3, ⟨true, 0x4000, 16, 4, 0, 0, 2, 0, [(0, 1, false), (1, 1, false)], []⟩)] } : Core).endWindows [(0, 3, 1)]).handle 3).prods.any
      (fun e => e.1 == 1) = true ∧
    ((({ coreNow with handles := [(3, ⟨true, 0x4000, 16, 4, 0, 0, 1, 0, [(1, 1, false)], []⟩)] } : Core).endWindows [(0, 3, 1)]).handle 3).prods = [] := by
  decide +kernel

/-- CircularBuffersFollowR257: handles as they keep their counts, and edits that are all seen 8 cycles on. -/
theorem witness_CircularBuffersFollowR257_edits : (((standCb 0 0).cur.handle 3).v = true → ((standCb 0 0).cur.handle 3).drainp < ((standCb 0 0).cur.handle 3).nslot ∧
      ((standCb 0 0).cur.handle 3).prods = [] ∧ ((standCb 0 0).cur.handle 3).cons = []) ∧
    (∀ e ∈ (standWith { coreNow with edits := [⟨3, 8, Handle.reset, Handle.reset⟩] }).cur.edits, e.seen ≤ 0 + 8) := by decide +kernel

/-- CopyCommandsIssueAsR292AndR298Say: a clasp of own scratchpad that the engine may write, for a `dma.coll` of no member. -/
theorem witness_CollOfNoMember : stand.curTask.gang = none ∧ stand.claspIssue (stand.rd 2).toNat = none ∧
    stand.engineCheck 0 0 0x10008 (stand.rd 2).toNat 16 true = .ok (.spad 0 0x4010) .invalid ∧ ¬(0x200 ≤ 0x4010 % 1024) := by decide +kernel

/-- The collective with the cycle of its end known. -/
def collDue (n : Nat) : Coll := { collNow true with due := some n }

/-- CollectivesFollowR297AndR298: an end that is not known, one that is due and one that is not. -/
theorem witness_CollectivesFollow_due : (collNow true).due = none ∧ (collDue 0).due = some 0 ∧ (collDue 0).canRun = true ∧ (0 : Nat) ≤ stand.cycle ∧
    (collDue 9).due = some 9 ∧ stand.cycle < 9 := by decide +kernel

/-- BeadBranchesWaitsAndWakesFollowR304ToR314: clasps in register bytes, poisoned, and sound. -/
theorem witness_BeadClaspReads : (standWith coreBead).cur.regHit (16 * (0x80 / 16)) 16 ≠ none ∧
    (standWith { coreBead with spoison := [0x800] }).cur.regHit (16 * (0x4000 / 16)) 16 = none ∧
    poisonHit (standWith { coreBead with spoison := [0x800] }).cur.spoison (16 * (0x4000 / 16)) 16 = true ∧
    (standWith coreBead).opened 0 (.spad 0 0x4000) 16 = false := by decide +kernel

/-- TensorCommandsFollowR319ToR323 and PassesFollowR313AndR320: a descriptor in register bytes; programs behind an unmapped
page and a fabric window, and one that cannot be read; a dead pass and its clasp. -/
theorem witness_DeclarationsAndDeadPasses : stand.spadOf 0 (aliasAt 0x80).toNat = some (0, 0x80) ∧ stand.cur.regHit 0x80 64 ≠ none ∧
    (match progRead ⟨0, 0, 0x10008⟩ [] 0x18000 1 ⟨stand, 0⟩ with | .error (.wait a) => a == 0x18000 | _ => false) = true ∧
    (match progRead ⟨0, 0, 0x10008⟩ [] 0x00F8001000000040 1 ⟨standWindows, 0⟩ with | .error (.fabric w o _ _ _) => w == 1 && o == 0x40 | _ => false) = true ∧
    (match progRead ⟨0, 0, 0x10008⟩ [] 0x00F8002000000040 1 ⟨standWindows, 0⟩ with | .error (.bad none) => true | _ => false) = true ∧
    (match progRead ⟨0, 0, 0x10008⟩ [] 0x00FFFFFFFFF0A000 1 ⟨standDeclares, 0⟩ with | .ok (ws, _) => ws == [0xA8000000] | _ => false) = true ∧
    (standPass { passOne true with dead := true, async := true } tensorNow).cur.sq.any (fun q => q.dead) = true ∧
    (standPass { passOne true with dead := true, async := true } tensorNow).engineCheck 0 0 0x10008 0x00FFFFFFFFF05000 16 true = .ok (.spad 0 0x5000) .invalid ∧
    (∀ p ∈ (standPass (passOne true) tensorNow).cur.sq, p.dead = false) ∧ 0x5000 / 1024 ≠ (passOne true).ws := by decide +kernel

/-- PacketsDispatchAndCompleteAsR386ToR400Say: STATUS that is written to a packet in ordinary memory, and a span to skip that
meets a loop packet. -/
theorem witness_PacketStatusAndSkippedLoops :
    (match (standQueue (queueNow (.pktNop 3 0 hdrNow) [])).fePut 0 0x8038 0x0100000000000000 with
      | .ok w => w.mNum 0x408038 8 == 0x0100000000000000 | .error _ => false) = true ∧
    (standQueue (queueNow (.pktNop 3 0 hdrNow) [])).engineCheck 2048 0 (2 ^ 56) 0x8038 8 true = .ok (.mem 0x408038 0) (.leaf 0x400017 false) ∧
    (queueNow (.pktNop 3 0 hdrNow) []).packetAt 0 = 0x8000 ∧
    (([WEntry.of 0 (.pktIf 3 0 hdrNow (condNow 1) 2), WEntry.of 1 (.pktLoop 3 1 hdrNow 2)].filter
      (fun y => decide (0 < y.k) && decide (y.k ≤ 0 + 2))).find? (fun y => isLoopPacket y.instr)).isSome = true ∧
    ([WEntry.of 0 (.pktIf 3 0 hdrNow (condNow 1) 2), WEntry.of 1 (.pktNop 3 1 hdrNow)].all
      (fun y => isLoopPacket y.instr == false)) = true := by decide +kernel

/-- LaunchesStagesCopiesAndShootdownsFollowR394ToR405: a place whose core another world had, one whose scrub still runs and one
ready; a bridge's copy that goes on and one that is over; accesses that hold a shootdown, and a shootdown with none. -/
theorem witness_LaunchScrubsBridgesAndShootdowns :
    ((standWorld (.pktLaunch 3 0 hdrNow launchNow)).core 0).world ≠ 1 ∧
    (({ standWorld (.pktLaunch 3 0 hdrNow launchNow) with cores := [(0, { Core.reset with world := 1, scrubUntil := 9 })] }).core 0).world = 1 ∧
    stand.cycle < ({ Core.reset with world := 1, scrubUntil := 9 } : Core).scrubUntil ∧ Core.reset.scrubUntil ≤ stand.cycle ∧
    (CopyRun.of (bridgeCmd 7 1 3 0 0x8000 0 0)).over = false ∧ ({ CopyRun.of (bridgeCmd 7 1 3 0 0x8000 0 0) with bytes := some cpDesc, next := 1 }).over = true ∧
    stand.shootReady shootNow = true ∧
    ({ stand with inflight := [reqOf (.load 8 false 5 none) (.mem 0x408000 0)] }).shootReady shootNow = false ∧
    (standWith { coreNow with clWait := [reqOf (.clWait 5 0) (.mem 0x408000 0)] }).shootReady shootNow = false ∧
    (standPark (.fabric 0 0x8000 (.load 8 false 5 none))).shootReady shootNow = false := by decide +kernel

/-- QueuesFollowR380ToR391AndR408: a queue too far ahead of its RIDX, and a halted one that reads again the malformed packet
that halted it, by its number and by its address. -/
theorem witness_HaltedQueues : (queueWaits 1).ridx + 2 ^ (queueWaits 1).log2n < 65 ∧
    ({ queueNow (.pktNop 3 0 hdrNow) [] with state := 3, stuck := some 0 } : Queue).window.find?
      (fun e => ({ queueNow (.pktNop 3 0 hdrNow) [] with state := 3, stuck := some 0 } : Queue).mayReread e && (some 0 == some e.k || false)) =
        some (WEntry.of 0 (.pktNop 3 0 hdrNow)) ∧
    (queueWaits 3).window.all (fun e => (queueWaits 3).mayReread e && (queueWaits 3).stuck != some e.k && (queueWaits 3).packetAt e.k != (queueWaits 3).faddr) = true ∧
    ({ queueNow (.pktNop 3 0 hdrNow) [] with state := 3, faddr := 0x8000 } : Queue).window.find?
      (fun e => ({ queueNow (.pktNop 3 0 hdrNow) [] with state := 3, faddr := 0x8000 } : Queue).mayReread e && ((none : Option Nat) == some e.k || (queueNow (.pktNop 3 0 hdrNow) []).packetAt e.k == 0x8000)) =
        some (WEntry.of 0 (.pktNop 3 0 hdrNow)) ∧
    (match (standQueue { queueNow (.pktNop 3 0 hdrNow) [] with state := 1 }).feRead 0 0x8000 64 with
      | .ok (bs, _) => (packetOf 0 3 0 (bs.set 0 0xFF)).isNone && (packetOf 0 3 0 bs).isSome | .error _ => false) = true := by decide +kernel

/-- World 1 on its way out: its destruction begun, its scrubs over at a cycle or not begun. -/
def standDying (ends : Option Nat) : State := { stand with worlds := [(1, { World.reset with used := true, dying := true, ends := ends })] }

/-- WorldsAndImagesFollowR374ToR379AndR410ToR417: a destruction whose keys, scrubs or nothing it waits for; a preferred base that
is free and one that is not; an index that an unload still holds; a world that can reserve a run's memory and one that cannot. -/
theorem witness_DestructionsBasesAndReservations : ((standDying none).world 1).dying = true ∧ ((standDying none).world 1).ends = none ∧
    (∃ e ∈ ({ standDying none with keys := [(3, { keyNow with state := 2 })] } : State).keys, e.2.world = 1 ∧ e.2.state = 2) ∧
    ((standDying (some 9)).world 1).ends = some 9 ∧ stand.cycle < 9 ∧ ((standDying (some 0)).world 1).ends = some 0 ∧
    (∀ e ∈ (standDying none).keys, ¬(e.2.world = 1 ∧ e.2.state = 2)) ∧ World.reset.ends = none ∧
    (standWorld (.pktNop 3 0 hdrNow)).rangeFree 1 ((imageOf imageNow).layout 0x40000000000) = true ∧
    (standWorld (.pktNop 3 0 hdrNow)).rangeFree 1 ((imageOf imageNow).layout 0x10000) = false ∧
    ({ standObjects with shoots := [⟨7, 0, 0x10000, 65536, false, none⟩] }).unloading 0 (handleAt standObjects 1) = true ∧
    standObjects.unloading 0 (handleAt standObjects 1) = false ∧
    (standWorld (.pktNop 3 0 hdrNow)).canReserve 1 = true ∧
    ({ stand with worlds := [(1, { World.reset with policy := BitVec.ofNat 512 ((2 ^ 32 - 1) * 2 ^ 64) })] }).canReserve 1 = false := by
  exact ⟨by decide +kernel, by decide +kernel, ⟨_, List.mem_singleton.mpr rfl, by decide +kernel⟩, by decide +kernel⟩

/-- PlatformServicesFollowR418ToR430: an export whose page faults, one whose write lands, with and without a clasp, and a clasp
that can and cannot be reached; a REVOKING slot with and without accepted commands; a declaration that waits. -/
theorem witness_FabricExportsKeysAndDeclarations :
    (match engRead (feCtx 1) [] 0x18000 8 ⟨standWorld (.pktNop 3 0 hdrNow), 0⟩ with | .error (.wait a) => a == 0x18000 | _ => false) = true ∧
    (match engPut 5 (feCtx 1) [] 0x8000 [1, 2] ⟨standWorld (.pktNop 3 0 hdrNow), 0⟩ with
      | .ok (_, e) => (e.s.claspNow (feCtx 1) 0x8040 e.stamp (fun c => c.add 2)).isSome && (e.s.claspNow (feCtx 1) 0x18000 e.stamp (fun c => c.add 2)).isNone
      | .error _ => false) = true ∧
    exportNow.toNat / 2 ^ 192 = 0 ∧ (exportNow + 0x8040 * 2 ^ 192).toNat / 2 ^ 192 ≠ 0 ∧
    ({ keyNow with state := 2 } : KeySlot).accepted = [] ∧ ({ keyNow with accepted := [(false, 0, [])] } : KeySlot).accepted ≠ [] ∧
    stand.journal.length + stand.coalesce.length < 4194304 ∧
    (standTask { taskNow with park := .bdDecl 0 0 (some 0x8000) [] none }).curTask.park = .bdDecl 0 0 (some 0x8000) [] none := by decide +kernel

/-- UnitsPowerAndTimeFollowR17R22R23AndR424ToR431: a die-to-die link and its other end. -/
theorem witness_LinkPairs : stand.enabled 8 3 = true ∧ pairedUnits ⟨8, 3⟩ = [⟨8, 3⟩, ⟨8, 35⟩] ∧ pairedUnits ⟨8, 11⟩ = [⟨8, 11⟩, ⟨8, 27⟩] := by
  decide +kernel

/-- StepRunsWhatItDecodes: a line with an error in its header, one with an error in the words that issue, and one elsewhere. -/
theorem witness_LinesWithErrors : ({ lineAll 0x10000 with bad := [0] }).meets 5 = true ∧ ({ lineAll 0x10000 with bad := [1] }).meets 0 = true ∧
    ({ lineAll 0x10000 with bad := [9] }).meets 0 = false ∧ (lineAll 0x10000).meets 0 = false := by decide +kernel

/-- GangsFollowR62R114R115R116AndR236: a stopped gang whose switches are not dated, dated and due, and not yet over; cores that a
guarded launch holds and that none holds. -/
theorem witness_GangSwitches : (∀ c ∈ ({ gangNow with phase := 4 } : Gang).cores, (standGang { gangNow with phase := 4 }).coreDrained c = true) ∧
    gangNow.leaveAt = none ∧ ({ gangNow with phase := 4, leaveAt := some 0 } : Gang).leaveAt = some 0 ∧ (0 : Nat) ≤ stand.cycle ∧
    ({ gangNow with phase := 4, leaveAt := some 9 } : Gang).leaveAt = some 9 ∧ stand.cycle < 9 ∧
    (standWorld (.pktLaunch 3 0 hdrNow launchNow)).guardHolds 0 = false ∧
    ({ standWorld (.pktLaunch 3 0 hdrNow launchNow) with queues := [(3, { queueNow (.pktLaunch 3 0 hdrNow launchNow) [] with
      guard := true, window := [{ WEntry.of 0 (.pktLaunch 3 0 hdrNow launchNow) with isReady := true, readySince := some 0 }] })] }).guardHolds 0 = true := by
  decide +kernel

/-- A request to read export 0, with its flits. -/
def askNow (flits : List (List Byte)) : FabricReq := ⟨2, 0, 9, 0, 8, false, [], flits⟩

/-- PlatformServicesFollowR418ToR430: a request and an answer whose flits authenticate, and ones with a flit too many; links that
are up and down. -/
theorem witness_LinkMessages (msg : List Byte) : (∃ f, (askNow f).flits = stand.dueFlits 2 (Config.flits 8) msg) ∧
    (∃ f, (askNow f).flits ≠ stand.dueFlits 2 (Config.flits 8) msg) ∧ (∀ l, (stand.link l).down = false) ∧ stand.portOf 0 0 < 24 ∧
    ({ stand with links := [(2, { Link.reset with down := true })] } : State).link 2 = { Link.reset with down := true } ∧
    (askNow []).port < 24 := by
  refine ⟨⟨_, rfl⟩, ⟨stand.dueFlits 2 (Config.flits 8) msg ++ [[]], fun h => ?_⟩, fun _ => rfl, ?_, rfl, by decide⟩
  · simpa [askNow] using congrArg List.length h
  · simp only [State.portOf]
    split <;> omega

/-- WorldsAndImagesFollowR374ToR379AndR410ToR417: places where a record may be shown. -/
theorem witness_ShownRecords : 0x900000 % 64 = 0 ∧ 0x900000 + (bytesOf 64 5).length ≤ stand.physTop ∧ bytesOf 64 5 ≠ [] := by decide +kernel

/-- AccessesFollowR195AndR213: the thread's own register bytes, in a bank with an error and in one with none. -/
theorem witness_BankErrors : stand.cur.regHit 8 8 = some 0 ∧ stand.cur.bankErrors 0 = [] ∧
    (standWith { coreNow with slots := coreNow.slots.map (fun e => (e.1, { e.2 with bad := 2 })) }).cur.bankErrors 0 ≠ [] := by decide +kernel

/-! ## Ill-formed terms are refused -/

/-- Whether every instruction is ill-formed with its sub-cause, and its words are refused with it (R158, R312). -/
noncomputable def refusesAll (l : List (Instr × Nat)) : Bool :=
  l.all (fun e => undefSub e.1 == e.2 && wellFormed e.1 == false && (match encode e.1 with
    | w :: r => decide (decodeNative w r = .bad e.2)
    | [] => false))

/-- The same of bead words. -/
noncomputable def refusesBeads (l : List Instr) : Bool :=
  l.all (fun i => wellFormed i == false && (match encode i with
    | [w] => decide (decodeBead w = .bad 1)
    | _ => false))

/-- Reserved formats, rounding modes, sizes, numbers and selectors (R158, R161, R162, R166, R192, R216). -/
theorem test_ill_formed_scalars : refusesAll
    [(.fadd 1 2 3 4 0, 2), (.fadd 1 2 3 0 7, 5), (.fsqrt 1 2 5 0, 2), (.fmin 1 2 3 4, 2), (.fclass 1 2 7, 2), (.fma 1 2 3 0 7, 5),
     (.fcvt 1 2 7 0 0, 2), (.fcvt 1 2 0 6 0, 2), (.fcvt 1 2 0 1 7, 5), (.ldUp 4 4 3 0, 2), (.amoAdd 1 2 3 2, 2), (.cas 1 2 3 3, 2),
     (.redAdd 1 2 2, 2), (.msgSend 1 27, 2), (.gbar 4, 2), (.gets 1 0x00A, 3), (.puts 1 0x00A, 3), (.puts 1 0x03F, 3),
     (.cbDef 1 16 2, 2), (.cbFill 16 1, 2), (.cbStat 1 31, 2)] = true := by decide +kernel

/-- Engine commands with a field the spec reserves or forbids (R286 to R290, R293, R300, R318, R327). -/
theorem test_ill_formed_engine_commands : refusesAll
    [(.maLdst ⟨1, 2, 1, 0, 0x20000000⟩, 2), (.maLdst ⟨1, 2, 0, 0, 0x70000000⟩, 2), (.maLdst ⟨1, 2, 0, 0, 0x60070000⟩, 2),
     (.maLdst ⟨1, 2, 0, 0, 0x20FF0001⟩, 2), (.maSwap ⟨1, 0, 0, 0, 0⟩, 2), (.maZero ⟨0, 0, 0, 2, 0⟩, 2), (.maStream ⟨1, 2, 0, 2, 0x20000000⟩, 2),
     (.maStream ⟨1, 2, 0, 0, 0x40000000⟩, 2), (.maDrain ⟨16, 2, 0, 4, 0x10000000⟩, 2), (.maDrain ⟨1, 2, 0, 0, 0x1E000000⟩, 5),
     (.maDrain ⟨1, 2, 0, 0, 0x00000000⟩, 2), (.maEnd ⟨0, 0, 0, 1, 0⟩, 2), (.maWait ⟨0, 0, 0, 0, 1⟩, 2), (.dmaCp ⟨1, 1, 2, 0, 0⟩, 2),
     (.dmaColl ⟨1, 0, 2, 0, 1⟩, 2), (.bdDecl ⟨1, 0, 0, 4, 0⟩, 2), (.bdPass ⟨1, 0, 2, 0, 0⟩, 2), (.bdFree ⟨1, 0, 0, 0, 0⟩, 2)] = true := by
  decide +kernel

/-- The nest of nestOne with no mask: an f32 `add` of 2 by 3 by 3 elements that has no fault. -/
theorem test_nest_well_formed : (nestOne.undef .arith true) = 0 := by decide +kernel

/-- A nest of i32 with one field changed, for each case of R249, R259, R260 and R276. -/
theorem test_ill_formed_nests : refusesAll
    [(.vxAdd { nestOne with cbd := 1, bd := 16 }, 2), (.vxAdd { nestOne with x0 := 4095, x1 := 4095, x2 := 1 }, 2),
     (.vxAdd { nestOne with red := 1 }, 2), (.vxRsum { nestOne with red := 0 }, 2),
     (.vxRsum { nestOne with bb := 0, red := 1, sd0 := 1 }, 2), (.vxAdd { nestOne with mb := 3 }, 2),
     (.vxIota { nestOne with bb := 0 }, 2), (.vxCopy nestOne, 2), (.vxAdd { nestOne with ta := 1 }, 2), (.vxAdd { nestOne with td := 7 }, 2),
     (.vxMin { nestOne with sat := 1 }, 2), (.vxDequant { nestOne with td := 0, ta := 6, bb := 0, cba := 1 }, 2),
     (.vxCmpeq { nestOne with td := 12, cbd := 1 }, 2), (.vxCmpeq { nestOne with td := 12, sd0 := 1 }, 2),
     (.vxQuant { nestOne with td := 6, ta := 0, bb := 0, me := 1, sd0 := 1, x0 := 31 }, 2),
     (.vxQuant { nestOne with td := 6, ta := 0, bb := 0, sd0 := 1, x0 := 30 }, 2),
     (.vxAdd { nestOne with rm := 7 }, 5), (.vxSqrt { nestOne with td := 0, ta := 0, bb := 0, rm := 5 }, 5),
     (.vxXaExp2 { nestOne with td := 1, ta := 15, bb := 0 }, 2)] = true := by decide +kernel

/-- Bead words that name ix as a destination or a rounding mode of 5 to 7 (R306, R312). -/
theorem test_ill_formed_beads : refusesBeads
    [.bAdd 3 1 2 0, .bLi 3 7, .bSel 3 1 2, .bNbData 3 1, .bNbCtx 3 1, .bLd 3 1 0 0, .bFopFadd 1 2 4 5 0, .bFopFma 3 2 4 0 0] = true := by
  decide +kernel

/-- Words no row of the table gives: reserved opcodes, reserved bits, and services above 8 (R158, R331, R332, R354). -/
theorem test_reserved_words_are_refused : decodeNative 0x00000000 [] = .bad 4 ∧ decodeNative 0xFFFFFFFF [] = .bad 4 ∧ decodeNative 0x0464287F [] = .bad 1 ∧
    decodeNative 0xA0000010 [] = .bad 1 ∧ decodeNative 0xA001000A [] = .bad 2 ∧
    decodeZbs 0xFC000000 = .bad 5 ∧ decodeZbs 0x04C48001 = .bad 5 ∧ decodeZbs 0xA4000009 = .bad 6 ∧ decodeZbs 0xA8000001 = .bad 5 ∧
    decodeBead 0xF8000000 = .bad 1 := by decide +kernel


end Sys2Proof.Tests
end

section
/-! Byte memories read back what is written and keep their canonical form (R3, R77; the form is the model's, log 12). -/

namespace Sys2Proof.Machine

/-- The byte of each place of a little-endian number (R3). -/
theorem bytesOf_getElem {n v k : Nat} (h : k < (bytesOf n v).length) :
    (bytesOf n v)[k] = BitVec.ofNat 8 (v / 256 ^ k) := by
  induction n generalizing v k with
  | zero => simp [bytesOf] at h
  | succ n ih =>
    cases k with
    | zero => simp [bytesOf]
    | succ k => simp [bytesOf, ih, Nat.div_div_eq_div_mul, Nat.pow_succ']

/-- Inside the written range a byte reads back as the byte written at its place. -/
theorem Memory.read_writeN_in (m : List Host.Cell) (a : Nat) {k : Nat} {bs : List Byte} (h : k < bs.length) :
    Memory.read (Memory.writeN m a bs) (a + k) = bs[k] := by
  induction bs generalizing m a k with
  | nil => simp at h
  | cons b bs ih =>
    cases k with
    | zero => rw [Memory.writeN, Memory.read_writeN_out _ _ _ _ (by omega)]; simp
    | succ k =>
      have hk : k < bs.length := by simpa using h
      rw [Memory.writeN, ← Nat.add_assoc, Nat.add_right_comm, ih _ _ hk, List.getElem_cons_succ]

/-- R3: what each byte reads after a number is written, inside the range and outside it. -/
theorem Memory.read_putNum (m : List Host.Cell) (a n v x : Nat) :
    Memory.read (Memory.putNum m a n v) x =
      if a ≤ x ∧ x < a + n then BitVec.ofNat 8 (v / 256 ^ (x - a)) else Memory.read m x := by
  rw [Memory.putNum]
  split
  next hin =>
    obtain ⟨k, rfl⟩ := Nat.exists_eq_add_of_le hin.1
    have hk : k < (bytesOf n v).length := by rw [bytesOf_length]; omega
    rw [Memory.read_writeN_in m a hk, bytesOf_getElem, Nat.add_sub_cancel_left]
  next hout => exact Memory.read_writeN_out _ _ _ _ (by rw [bytesOf_length]; omega)

/-- R3: a number read is the sum of its bytes, each times 256 to its place. -/
theorem Memory.num_eq_sum (m : List Host.Cell) (a n : Nat) :
    Memory.num m a n = ((List.range n).map (fun k => (Memory.read m (a + k)).toNat * 256 ^ k)).sum := by
  induction n generalizing a with
  | zero => rfl
  | succ n ih =>
    have hterm : ∀ k, (Memory.read m (a + (k + 1))).toNat * 256 ^ (k + 1) =
        256 * ((Memory.read m (a + 1 + k)).toNat * 256 ^ k) := fun k => by
      rw [Nat.add_right_comm a 1 k, Nat.add_assoc, Nat.pow_succ']; ac_rfl
    calc Memory.num m a (n + 1)
        = (Memory.read m a).toNat + 256 * Memory.num m (a + 1) n := rfl
      _ = _ := by
        simp [ih, List.range_succ_eq_map, List.sum_map_mul_left, Function.comp_def, hterm]

/-- Settles O19: each clause is a law of byte memories, read back by place, summed by place, or about the form. -/
theorem byteMemoriesReadBackAndKeepTheirForm : Obligations.ByteMemoriesReadBackAndKeepTheirForm :=
  ⟨Memory.read_putNum, Memory.num_eq_sum, Memory.wf_putNum, Memory.wf_reset, Memory.ext⟩

end Sys2Proof.Machine
end

section
/-! SUPPORT. What the platform's shared operations read back as: maps that are mapped or filled key by key, the error
journal (R426, R427), units that are mapped out (R22), and the package's timestamps (R70, R74). -/

namespace Sys2Proof.Machine

variable {α β : Type}

/-! ## Maps -/

/-- Mapping the values of a map maps what is found. -/
theorem AMap.find_map (f : Nat → α → β) (m : AMap α) (k : Nat) :
    AMap.find (m.map (fun e => (e.1, f e.1 e.2))) k = (AMap.find m k).map (f k) := by
  induction m with
  | nil => rfl
  | cons e m ih =>
    by_cases h : e.1 = k
    · subst h; simp [AMap.find]
    · simpa [AMap.find, h] using ih

/-- Mapping the values of a map, and its default with them, maps what it holds. -/
theorem AMap.get_map (f : Nat → α → β) (d : α) (m : AMap α) (k : Nat) :
    AMap.get (f k d) (m.map (fun e => (e.1, f e.1 e.2))) k = f k (AMap.get d m k) := by
  cases h : AMap.find m k <;> simp [AMap.get, AMap.find_map, h]

/-- After a list of puts a key holds the value of one of them, or, where none names it, what it held. -/
theorem AMap.find_foldl_put (f : β → Nat) (g : β → α) (l : List β) (m : AMap α) (k : Nat) :
    (∃ x ∈ l, f x = k ∧ AMap.find (l.foldl (fun m x => AMap.put m (f x) (g x)) m) k = some (g x)) ∨
      ((∀ x ∈ l, f x ≠ k) ∧ AMap.find (l.foldl (fun m x => AMap.put m (f x) (g x)) m) k = AMap.find m k) := by
  induction l generalizing m with
  | nil => exact .inr ⟨by simp, rfl⟩
  | cons y l ih =>
    rcases ih (AMap.put m (f y) (g y)) with ⟨x, hx, hk, hf⟩ | ⟨hne, hf⟩
    · exact .inl ⟨x, List.mem_cons_of_mem y hx, hk, hf⟩
    · by_cases hy : f y = k
      · exact .inl ⟨y, by simp, hy, by rw [List.foldl_cons, hf, ← hy, AMap.find_put_same]⟩
      · refine .inr ⟨?_, by rw [List.foldl_cons, hf, AMap.find_put_ne _ _ (Ne.symm hy)]⟩
        simpa [hy] using hne

/-! ## The journal (R426, R427) -/

/-- Outside the journal, its count of lost entries, the coalesced entries and the free values used nothing has changed. -/
def JournalOnly (s t : State) : Prop :=
  t = { s with journal := t.journal, ovf := t.ovf, coalesce := t.coalesce, freeCount := t.freeCount }

theorem JournalOnly.refl (s : State) : JournalOnly s s := rfl

theorem JournalOnly.trans {s t u : State} (h : JournalOnly s t) (h' : JournalOnly t u) : JournalOnly s u := by
  rw [JournalOnly] at h h' ⊢
  rw [h', h]

theorem JournalOnly.mem {s t : State} (h : JournalOnly s t) : t.mem = s.mem := by rw [h]
theorem JournalOnly.cores {s t : State} (h : JournalOnly s t) : t.cores = s.cores := by rw [h]
theorem JournalOnly.core {s t : State} (h : JournalOnly s t) (c : Nat) : t.core c = s.core c := by
  rw [State.core, h.cores, State.core]
theorem JournalOnly.poison {s t : State} (h : JournalOnly s t) : t.poison = s.poison := by rw [h]
theorem JournalOnly.units {s t : State} (h : JournalOnly s t) : t.units = s.units := by rw [h]
theorem JournalOnly.homeTab {s t : State} (h : JournalOnly s t) : t.homeTab = s.homeTab := by rw [h]
theorem JournalOnly.links {s t : State} (h : JournalOnly s t) : t.links = s.links := by rw [h]

theorem SameBytes.of_eq {s t : State} (hm : t.mem = s.mem) (hc : t.cores = s.cores) : SameBytes s t :=
  ⟨fun a => by rw [State.memByte, hm, State.memByte], fun c a => by rw [State.spadByte, State.core, hc]; rfl⟩

theorem State.append_only (s : State) (e : JEntry) : JournalOnly s (s.append e).1 := by
  unfold State.append; split <;> rfl

theorem State.append_prefix (s : State) (e : JEntry) : s.journal <+: (s.append e).1.journal := by
  unfold State.append
  split
  · exact List.prefix_refl _
  · exact List.prefix_append _ _

theorem State.flushEntry_eq (s : State) (e : JEntry) (h : s.journal.length < 4194304) :
    s.flushEntry e = { s with coalesce := s.coalesce.erase e, journal := s.journal ++ [e] } := by
  rw [State.flushEntry, State.append, if_neg (Nat.not_le.mpr h)]

theorem State.flushEntry_only (s : State) (e : JEntry) : JournalOnly s (s.flushEntry e) :=
  .trans (t := { s with coalesce := s.coalesce.erase e }) rfl (State.append_only _ e)

theorem State.flushEntry_prefix (s : State) (e : JEntry) : s.journal <+: (s.flushEntry e).journal :=
  State.append_prefix { s with coalesce := s.coalesce.erase e } e

theorem State.flushEntry_length (s : State) (e : JEntry) : (s.flushEntry e).journal.length ≤ s.journal.length + 1 := by
  simp only [State.flushEntry, State.append]; split <;> simp

theorem State.flushFor_only (s : State) (e : JEntry) : JournalOnly s (s.flushFor e) :=
  List.foldlRecOn _ _ (JournalOnly.refl s) fun t ht x _ => ht.trans (t.flushEntry_only x)

theorem State.flushFor_prefix (s : State) (e : JEntry) : s.journal <+: (s.flushFor e).journal :=
  List.foldlRecOn (motive := fun t : State => s.journal <+: t.journal) _ _ (List.prefix_refl _)
    fun t ht x _ => ht.trans (t.flushEntry_prefix x)

/-- Writing coalesced entries appends at most one entry for each. -/
theorem State.flushFor_length (s : State) (e : JEntry) :
    (s.flushFor e).journal.length ≤ s.journal.length + s.coalesce.length := by
  have step : ∀ (l : List JEntry) (t : State),
      (l.foldl (fun s x => s.flushEntry x) t).journal.length ≤ t.journal.length + l.length := by
    intro l
    induction l with
    | nil => intro t; exact Nat.le_refl _
    | cons x l ih =>
      intro t
      have h1 := ih (t.flushEntry x)
      have h2 := t.flushEntry_length x
      simp only [List.foldl_cons, List.length_cons] at h1 ⊢
      omega
  exact Nat.le_trans (step _ s) (Nat.add_le_add_left (List.length_filter_le _ _) _)

theorem State.journalEvent_only (s : State) (kind phys cls addr world : Nat) :
    JournalOnly s (s.journalEvent kind phys cls addr world).1 :=
  (State.flushFor_only s _).trans (.trans (t := { (s.flushFor _) with freeCount := s.freeCount + 1 }) rfl (State.append_only _ _))

theorem State.journalEvent_prefix (s : State) (kind phys cls addr world : Nat) :
    s.journal <+: (s.journalEvent kind phys cls addr world).1.journal :=
  (State.flushFor_prefix s _).trans (State.append_prefix { (s.flushFor _) with freeCount := s.freeCount + 1 } _)

/-- R426: with room in the journal an event's entry is its last. -/
theorem State.journalEvent_last (s : State) (kind phys cls addr world : Nat)
    (h : s.journal.length + s.coalesce.length < 4194304) :
    (s.journalEvent kind phys cls addr world).1.journal.getLast? = some (s.entry kind phys cls addr world) := by
  have hl := Nat.lt_of_le_of_lt (s.flushFor_length (s.entry kind phys cls addr world)) h
  rw [State.journalEvent, State.append, if_neg (Nat.not_le.mpr hl)]
  simp

theorem State.journalEvent_mem (s : State) (kind phys cls addr world : Nat)
    (h : s.journal.length + s.coalesce.length < 4194304) :
    s.entry kind phys cls addr world ∈ (s.journalEvent kind phys cls addr world).1.journal :=
  List.mem_of_getLast? (s.journalEvent_last kind phys cls addr world h)

theorem State.journalCorrected_only (s : State) (kind phys addr world : Nat) :
    JournalOnly s (s.journalCorrected kind phys addr world) := by
  rw [State.journalCorrected]
  split
  · rfl
  · split
    · exact (State.flushEntry_only s _).trans rfl
    · rfl

theorem State.journalCorrected_prefix (s : State) (kind phys addr world : Nat) :
    s.journal <+: (s.journalCorrected kind phys addr world).journal := by
  rw [State.journalCorrected]
  split
  · exact List.prefix_refl _
  · split
    · exact State.flushEntry_prefix s _
    · exact List.prefix_refl _

/-! ## Units that are mapped out (R22, R25) -/

theorem State.enabled_eq (s : State) (u : UnitRef) : s.enabled u.kind u.phys = (AMap.find s.units (UnitRef.number u)).isNone := rfl

/-- Units have numbers of their own. -/
theorem UnitRef.number_inj {u v : UnitRef} (hu : u.phys < 65536) (hv : v.phys < 65536) (h : UnitRef.number u = UnitRef.number v) :
    (u.kind, u.phys) = (v.kind, v.phys) := by
  simp only [UnitRef.number] at h
  simp only [Prod.mk.injEq]
  omega

theorem State.find_mapOut_mem (s : State) (st j : Nat) {us : List UnitRef} {u : UnitRef} (h : u ∈ us) :
    AMap.find (s.mapOut st j us).units (UnitRef.number u) = some ⟨st, j⟩ := by
  rcases AMap.find_foldl_put UnitRef.number (fun _ => ⟨st, j⟩) us s.units (UnitRef.number u) with ⟨_, _, _, hf⟩ | ⟨hne, _⟩
  · exact hf
  · exact absurd rfl (hne u h)

theorem State.enabled_mapOut_mem (s : State) (st j : Nat) {us : List UnitRef} {u : UnitRef} (h : u ∈ us) :
    (s.mapOut st j us).enabled u.kind u.phys = false := by
  rw [State.enabled_eq, s.find_mapOut_mem st j h]; rfl

theorem State.enabled_mapOut_other (s : State) (st j : Nat) {us : List UnitRef} {u : UnitRef} (hu : u.phys < 65536)
    (h : ∀ v ∈ us, v.phys < 65536 ∧ (u.kind, u.phys) ≠ (v.kind, v.phys)) :
    (s.mapOut st j us).enabled u.kind u.phys = s.enabled u.kind u.phys := by
  rw [State.enabled_eq, State.enabled_eq]
  rcases AMap.find_foldl_put UnitRef.number (fun _ => ⟨st, j⟩) us s.units (UnitRef.number u) with ⟨v, hv, hn, _⟩ | ⟨_, hf⟩
  · exact absurd (UnitRef.number_inj hu (h v hv).1 hn.symm) (h v hv).2
  · exact congrArg Option.isNone hf

/-- A unit is mapped out with itself. -/
theorem mem_pairedUnits (u : UnitRef) : u ∈ pairedUnits u := by
  obtain ⟨kind, phys⟩ := u
  rw [pairedUnits]
  split
  next h => rcases h with h | h <;> (simp only at h; subst h; simp)
  next => split <;> simp

/-- What is mapped out with a unit has a number in a unit record's range. -/
theorem pairedUnits_phys_lt {u v : UnitRef} (hu : u.phys < 65536) (hv : v ∈ pairedUnits u) : v.phys < 65536 := by
  have hx : ∀ b, b < 4096 → (u.phys / 16) ^^^ b < 4096 := fun b hb =>
    Nat.xor_lt_two_pow (n := 12) (by omega) hb
  rw [pairedUnits] at hv
  split at hv
  next => rcases List.mem_pair.mp hv with rfl | rfl <;> exact hu
  next =>
    split at hv
    next =>
      rcases List.mem_pair.mp hv with rfl | rfl
      · exact hu
      · have := hx (if u.phys % 16 < 8 then 2 else 1) (by split <;> decide)
        have := Nat.mod_lt u.phys (show 0 < 16 by decide)
        dsimp only
        omega
    next => rw [List.mem_singleton.mp hv]; exact hu

end Sys2Proof.Machine
end

section
/-! Failing units, settlement, scrubs, power and the timestamps (R17, R22, R23, R70, R74, R424 to R427, R431). -/

namespace Sys2Proof.Machine

/-! ## A unit that fails (R22) -/

/-- The memory unit to be settled after a unit's failure (R22, R23). -/
def toSettle (u : UnitRef) : List UnitRef :=
  if u.kind = 3 then [u] else if u.kind = 4 ∨ u.kind = 5 then [⟨5, u.phys⟩] else []

/-- The port of a lane (R25). -/
def lanePort (u : UnitRef) : Nat := u.phys / 4 + (if u.kind = 7 then 16 else 0)

/-- The port that loses its last needed lane goes down (R21, R22). -/
def State.dropPort (s : State) (u : UnitRef) : State :=
  if (u.kind = 6 ∨ u.kind = 7) ∧ s.portOut (lanePort u) = true
  then { s with links := AMap.put s.links (lanePort u) { s.link (lanePort u) with down := true } } else s

/-- A failed unit is journalled and mapped out, and its gangs fail (R22, R114). -/
def State.loseUnit (s : State) (u : UnitRef) : State :=
  ((s.journalEvent u.kind u.phys 4 0 0).1.mapOut 2 (s.journalEvent u.kind u.phys 4 0 0).2 (pairedUnits u)).failOn u
    (s.journalEvent u.kind u.phys 4 0 0).2

theorem exec_unitFailure (s : State) (u : UnitRef) (h : s.enabled u.kind u.phys = true) :
    exec (.unitFailure u) s =
      .next (State.dropPort { s.loseUnit u with settling := (s.loseUnit u).settling ++ toSettle u } u) := by
  have hset : (if u.kind = 3 then { s.loseUnit u with settling := (s.loseUnit u).settling ++ [u] }
      else if u.kind = 4 ∨ u.kind = 5 then { s.loseUnit u with settling := (s.loseUnit u).settling ++ [⟨5, u.phys⟩] }
      else s.loseUnit u) = { s.loseUnit u with settling := (s.loseUnit u).settling ++ toSettle u } := by
    rw [toSettle]
    split
    · rfl
    · split
      · rfl
      · rw [List.append_nil]
  rw [← hset]
  exact if_pos h

theorem State.failOn_frame (s : State) (u : UnitRef) (j : Nat) : s.failOn u j = { s with gangs := (s.failOn u j).gangs } := by
  refine List.foldlRecOn (motive := fun t : State => t = { s with gangs := t.gangs }) _ _ rfl fun t ht e _ => ?_
  split
  · exact ht
  · split
    · rw [State.failGang, State.putGang, ht]
    · exact ht

theorem State.dropPort_frame (s : State) (u : UnitRef) : s.dropPort u = { s with links := (s.dropPort u).links } := by
  rw [State.dropPort]; split <;> rfl

/-- What a failing unit leaves of the device: its record, its journal entry and the settlement that is due; no byte. -/
structure UnitFailed (s : State) (u : UnitRef) (t : State) : Prop where
  units : t.units = (s.mapOut 2 (s.journalEvent u.kind u.phys 4 0 0).2 (pairedUnits u)).units
  settling : t.settling = s.settling ++ toSettle u
  journal : t.journal = (s.journalEvent u.kind u.phys 4 0 0).1.journal
  mem : t.mem = s.mem
  cores : t.cores = s.cores

theorem unitFailed_of_exec (s : State) (u : UnitRef) :
    UnitFailed s u (State.dropPort { s.loseUnit u with settling := (s.loseUnit u).settling ++ toSettle u } u) := by
  have hj := s.journalEvent_only u.kind u.phys 4 0 0
  have hs : (s.journalEvent u.kind u.phys 4 0 0).1.settling = s.settling := by rw [hj]
  rw [State.dropPort_frame, State.loseUnit, State.failOn_frame]
  exact ⟨by simp only [State.mapOut, hj.units], congrArg (· ++ toSettle u) hs, rfl, hj.mem, hj.cores⟩

section
variable {s t : State} {u : UnitRef} (h : UnitFailed s u t)
include h

theorem UnitFailed.enabled_paired {v : UnitRef} (hv : v ∈ pairedUnits u) : t.enabled v.kind v.phys = false := by
  have := s.enabled_mapOut_mem 2 (s.journalEvent u.kind u.phys 4 0 0).2 hv
  rwa [State.enabled, ← h.units] at this

theorem UnitFailed.enabled_other {k p : Nat} (hu : u.phys < 65536) (hp : p < 65536)
    (hne : ∀ v ∈ pairedUnits u, (k, p) ≠ (v.kind, v.phys)) : t.enabled k p = s.enabled k p := by
  rw [← s.enabled_mapOut_other (us := pairedUnits u) 2 (s.journalEvent u.kind u.phys 4 0 0).2 (u := ⟨k, p⟩) hp
    fun v hv => ⟨pairedUnits_phys_lt hu hv, hne v hv⟩, State.enabled, h.units, State.enabled]

end

/-- The frame's three provisos say that a unit is none of those mapped out. -/
theorem not_paired {u : UnitRef} {k p : Nat} (hne : (k, p) ≠ (u.kind, u.phys))
    (h45 : u.kind = 4 ∨ u.kind = 5 → (k ≠ 4 ∧ k ≠ 5) ∨ p ≠ u.phys)
    (h8 : u.kind = 8 → ∀ v ∈ pairedUnits u, (k, p) ≠ (v.kind, v.phys)) : ∀ v ∈ pairedUnits u, (k, p) ≠ (v.kind, v.phys) := by
  intro v hv
  by_cases hk : u.kind = 4 ∨ u.kind = 5
  · rw [pairedUnits, if_pos hk] at hv
    have := h45 hk
    rcases List.mem_pair.mp hv with rfl | rfl <;> (simp only [ne_eq, Prod.mk.injEq]; omega)
  · by_cases hk8 : u.kind = 8
    · exact h8 hk8 v hv
    · rw [pairedUnits, if_neg hk, if_neg hk8, List.mem_singleton] at hv
      rw [hv]; exact hne

/-! ## Settlement (R23) -/

/-- Every home-table entry is as it was. -/
structure SameHomes (s t : State) : Prop where
  units : t.units = s.units
  homeTab : t.homeTab = s.homeTab

theorem SameHomes.refl (s : State) : SameHomes s s := ⟨rfl, rfl⟩
theorem SameHomes.trans {s t u : State} (h : SameHomes s t) (h' : SameHomes t u) : SameHomes s u :=
  ⟨h'.units.trans h.units, h'.homeTab.trans h.homeTab⟩

theorem SameHomes.numbered {s t : State} (h : SameHomes s t) (k p : Nat) : t.numbered k p = s.numbered k p := by
  rw [State.numbered, h.units, State.numbered]
theorem SameHomes.enabled {s t : State} (h : SameHomes s t) (k p : Nat) : t.enabled k p = s.enabled k p := by
  rw [State.enabled, h.units, State.enabled]
theorem SameHomes.bootSlices {s t : State} (h : SameHomes s t) : t.bootSlices = s.bootSlices := by
  simp only [State.bootSlices, h.units, h.numbered]
theorem SameHomes.homeEntry {s t : State} (h : SameHomes s t) (i : Nat) : t.homeEntry i = s.homeEntry i := by
  simp only [State.homeEntry, h.units, h.homeTab, h.bootSlices]

theorem State.loseLines_sameHomes (s : State) (p : Nat) : SameHomes s (s.loseLines p) :=
  List.foldlRecOn (motive := SameHomes s) _ _ ⟨rfl, rfl⟩ fun t ht x _ => by
    have hj := t.journalEvent_only 3 (t.sliceOf (32 * x)) 2 (32 * x) 0
    exact ht.trans ⟨hj.units, hj.homeTab⟩

theorem State.fillLlc_sameHomes (s : State) (w pa : Nat) : SameHomes s (s.fillLlc w pa) := by
  rw [State.fillLlc]
  split
  · exact .refl s
  · dsimp only
    split <;> exact ⟨rfl, rfl⟩

theorem State.emptySlice_sameHomes (s : State) (p : Nat) : SameHomes s (s.emptySlice p) := by
  have hfold := List.foldlRecOn (motive := SameHomes s)
    ((s.l2.filter (fun e => e.1 / 8192 == p)).flatMap (fun e => e.2)) (fun s x => s.fillLlc x.world (32 * x.line))
    (.refl s) fun t ht x _ => ht.trans (t.fillLlc_sameHomes _ _)
  exact hfold.trans ⟨rfl, rfl⟩

/-- What a slice held has left it before its home-table entries are reassigned. -/
def State.vacated (s : State) (p : Nat) : State :=
  let s1 := ((s.loseLines p).dropCopies p).emptySlice p
  { s1 with worlds := s1.worlds.map (fun (e : Nat × World) => (e.1, e.2.loseRecords p)) }

theorem State.settleSlice_eq (s : State) (p : Nat) :
    s.settleSlice p = ((s.vacated p).rehome p s.topStamp).liftAll s.topStamp := rfl

theorem State.vacated_sameHomes (s : State) (p : Nat) : SameHomes s (s.vacated p) :=
  (s.loseLines_sameHomes p).trans (.trans (t := (s.loseLines p).dropCopies p) ⟨rfl, rfl⟩
    (.trans (State.emptySlice_sameHomes _ p) ⟨rfl, rfl⟩))

/-- Each entry that names a slice is reassigned, and to an enabled slice while there is one. -/
theorem State.rehomes_spec (s : State) {p i q : Nat} (h : (i, q) ∈ s.rehomes p)
    (hq : ∃ q ∈ s.bootSlices, s.enabled 3 q = true) : s.enabled 3 q = true := by
  obtain ⟨e, _, he⟩ := List.mem_map.mp h
  obtain ⟨q', hb, hen⟩ := hq
  have hpos : 0 < (s.bootSlices.filter (fun q => s.enabled 3 q)).length :=
    List.length_pos_of_mem (List.mem_filter.mpr ⟨hb, hen⟩)
  have hlt := Nat.mod_lt e.2 (show 0 < max 1 (s.bootSlices.filter (fun q => s.enabled 3 q)).length by omega)
  rw [show max 1 (s.bootSlices.filter (fun q => s.enabled 3 q)).length = (s.bootSlices.filter (fun q => s.enabled 3 q)).length by
    omega] at hlt he
  rw [Prod.mk.injEq, List.getElem?_eq_getElem hlt, Option.getD_some] at he
  rw [← he.2]
  exact (List.mem_filter.mp (List.getElem_mem hlt)).2

theorem State.mem_rehomes (s : State) {p i : Nat} (hi : i < 4096) (h : s.homeEntry i = p) :
    i ∈ (s.rehomes p).map (fun e => e.1) := by
  have hmem : i ∈ (List.range 4096).filter (fun i => s.homeEntry i == p) := by simp [hi, h]
  simp only [State.rehomes, List.map_map]
  rw [show ((fun e : Nat × Nat => e.1) ∘ fun e : Nat × Nat => (e.1, ((s.bootSlices.filter (fun q => s.enabled 3 q))[e.2 %
    max 1 (s.bootSlices.filter (fun q => s.enabled 3 q)).length]?).getD 0)) = Prod.fst from rfl, List.map_fst_zip (by simp)]
  exact hmem

/-- R23: after the reassignment no home-table entry names the failed slice. -/
theorem State.homeEntry_rehome_ne (s : State) {p i : Nat} (h : Nat) (hi : i < 4096) (hp : s.enabled 3 p = false)
    (hq : ∃ q ∈ s.bootSlices, s.enabled 3 q = true) : (s.rehome p h).homeEntry i ≠ p := by
  have hfind := AMap.find_foldl_put (fun e : Nat × Nat => e.1) (fun e => e.2) (s.rehomes p) s.homeTab i
  intro hc
  rcases hfind with ⟨x, hx, rfl, hf⟩ | ⟨hne, hf⟩
  · have hen := s.rehomes_spec hx hq
    have : (s.rehome p h).homeEntry x.1 = x.2 := by simp only [State.homeEntry, State.rehome, hf]
    rw [← this, hc, hp] at hen
    cases hen
  · have same : (s.rehome p h).homeEntry i = s.homeEntry i := by
      simp only [State.homeEntry, State.rehome, hf]; rfl
    obtain ⟨e, he, hei⟩ := List.mem_map.mp (s.mem_rehomes hi (same.symm.trans hc))
    exact hne e he hei

/-- A settlement ends: the unit is settled no longer, and what waited for it is tried again. -/
def State.endSettlement (s : State) (u : UnitRef) : State :=
  { s with settling := s.settling.filter (fun x => x != u) }.wakeSettled.retryEngines

theorem exec_settlementComplete (s : State) (u : UnitRef) (h : s.settling.contains u = true) :
    exec (.settlementComplete u) s =
      .next ((if u.kind = 3 then s.settleSlice u.phys else s.settleChannel u.phys).endSettlement u) := if_pos h

theorem State.not_mem_endSettlement (s : State) (u : UnitRef) : u ∉ (s.endSettlement u).settling := by
  show u ∉ s.settling.filter (fun x => x != u)
  simp

theorem State.endSettlement_sameHomes (s : State) (u : UnitRef) : SameHomes s (s.endSettlement u) := ⟨rfl, rfl⟩

/-- R23: after a slice's settlement every pts is at the highest stamp held or above. -/
theorem State.topStamp_le_endSettlement (s : State) (u : UnitRef) (c : Nat) :
    s.topStamp ≤ ((s.settleSlice u.phys).endSettlement u).pts c :=
  Nat.le_trans (Nat.le_max_right (s.vacated u.phys).ptsTicks s.topStamp) (Nat.le_add_right _ _)

theorem State.liftAll_sameHomes (s : State) (h : Nat) : SameHomes s (s.liftAll h) := ⟨rfl, rfl⟩

theorem State.homeEntry_settleSlice_ne (s : State) {p i : Nat} (hi : i < 4096) (hp : s.enabled 3 p = false)
    (hq : ∃ q ∈ s.bootSlices, s.enabled 3 q = true) : (s.settleSlice p).homeEntry i ≠ p := by
  have hv := s.vacated_sameHomes p
  rw [State.settleSlice_eq, (State.liftAll_sameHomes _ _).homeEntry]
  refine State.homeEntry_rehome_ne _ _ hi (by rw [hv.enabled, hp]) ?_
  obtain ⟨q, hb, he⟩ := hq
  exact ⟨q, by rwa [hv.bootSlices], by rwa [hv.enabled]⟩

/-! ## Scrubs (R424, R425) -/

theorem State.foldl_journal_only {α : Type} (f : State → α → State) (h : ∀ t x, JournalOnly t (f t x)) (l : List α) (s : State) :
    JournalOnly s (l.foldl f s) :=
  List.foldlRecOn _ _ (JournalOnly.refl s) fun t ht x _ => ht.trans (h t x)

theorem State.foldl_journal_prefix {α : Type} (f : State → α → State) (h : ∀ t x, t.journal <+: (f t x).journal) (l : List α)
    (s : State) : s.journal <+: (l.foldl f s).journal :=
  List.foldlRecOn (motive := fun t : State => s.journal <+: t.journal) _ _ (List.prefix_refl _) fun t ht x _ => ht.trans (h t x)

/-- A scan journals words that are corrected, and then words that stay poisoned. -/
structure Scanned (s t : State) : Prop where
  only : JournalOnly s t
  journal : s.journal <+: t.journal

theorem scanned_of_folds {α β : Type} (f : State → α → State) (g : State → β → State) (hf : ∀ t x, Scanned t (f t x))
    (hg : ∀ t x, Scanned t (g t x)) (l : List α) (m : List β) (s : State) : Scanned s (m.foldl g (l.foldl f s)) :=
  ⟨(State.foldl_journal_only f (fun t x => (hf t x).only) l s).trans (State.foldl_journal_only g (fun t x => (hg t x).only) m _),
    (State.foldl_journal_prefix f (fun t x => (hf t x).journal) l s).trans
      (State.foldl_journal_prefix g (fun t x => (hg t x).journal) m _)⟩

theorem State.journalEvent_scanned (s : State) (kind phys cls addr world : Nat) :
    Scanned s (s.journalEvent kind phys cls addr world).1 :=
  ⟨s.journalEvent_only _ _ _ _ _, s.journalEvent_prefix _ _ _ _ _⟩

theorem State.journalCorrected_scanned (s : State) (kind phys addr world : Nat) :
    Scanned s (s.journalCorrected kind phys addr world) :=
  ⟨s.journalCorrected_only _ _ _ _, s.journalCorrected_prefix _ _ _ _⟩

theorem exec_sramScrub (s : State) (c : Nat) (l : List Nat) : ∃ u, Scanned s u ∧
    exec (.sramScrub c l) s = .next (u.modCore c (fun k => { k with scanDue := s.micros + 10000 })) :=
  ⟨_, scanned_of_folds _ _ (fun t _ => t.journalCorrected_scanned _ _ _ _) (fun t _ => t.journalEvent_scanned _ _ _ _ _) _ _ s, rfl⟩

theorem exec_memoryScrub (s : State) (l : List Nat) : ∃ u, Scanned s u ∧
    exec (.memoryScrub l) s = .next { u with memScanDue := s.micros + 86400000000 } :=
  ⟨_, scanned_of_folds _ _ (fun t _ => t.journalCorrected_scanned _ _ _ _) (fun t _ => t.journalEvent_scanned _ _ _ _ _) _ _ s, rfl⟩

/-! ## The rebase of the timestamps (R74) -/

theorem State.core_lowerStamps (s : State) (d c : Nat) : (s.lowerStamps d).core c =
    { (s.core c).lower d (s.pts c) with ptsOff := (s.core c).ptsOff - (d - s.ptsTicks) } := by
  have hget := AMap.get_map (fun c (k : Core) => { k.lower d (s.pts c) with ptsOff := k.ptsOff - (d - s.ptsTicks) })
    Core.reset s.cores c
  have hreset : { Core.reset.lower d (s.pts c) with ptsOff := Core.reset.ptsOff - (d - s.ptsTicks) } = Core.reset := by
    simp [Core.lower, Core.reset]
  rw [hreset] at hget
  exact hget

theorem State.sameBytes_lowerStamps (s : State) (d : Nat) : SameBytes s (s.lowerStamps d) :=
  ⟨fun _ => rfl, fun c a => by rw [State.spadByte, State.core_lowerStamps]; rfl⟩

theorem State.pts_lowerStamps (s : State) (d c : Nat) : (s.lowerStamps d).pts c = s.pts c - d := by
  rw [State.pts, State.core_lowerStamps, State.pts]
  show s.ptsTicks - d + ((s.core c).ptsOff - (d - s.ptsTicks)) = _
  omega

theorem State.homeLine_lowerStamps (s : State) (d pa : Nat) : (s.lowerStamps d).homeLine pa =
    { s.homeLine pa with wts := (s.homeLine pa).wts - d, rts := (s.homeLine pa).rts - d } := by
  have hfloor := AMap.get_map (fun _ n => n - d) 0 s.homeFloor (homeIndex pa)
  rw [Nat.zero_sub] at hfloor
  have hline := AMap.get_map (fun _ (h : HomeLine) => { h with wts := h.wts - d, rts := h.rts - d })
    ⟨AMap.get 0 s.homeFloor (homeIndex pa), AMap.get 0 s.homeFloor (homeIndex pa), none, 0⟩ s.home (pa / 32)
  rw [State.homeLine]
  simp only [State.lowerStamps, hfloor]
  exact hline

/-! ## The obligation -/

/-- Settles O54: a failing unit and a settlement by what each leaves of the units and the home table, scrubs by what the journal's
operations leave alone, and the rebase by what it makes of each stamp. -/
theorem unitsPowerAndTimeFollowR17R22R23AndR424ToR431 : Obligations.UnitsPowerAndTimeFollowR17R22R23AndR424ToR431 := by
  refine ⟨fun s u hu => ⟨fun hoff => ?unitOff, fun hon => ?unitOn, fun hnot => ?notSettling, fun hin => ?settling⟩,
    fun s u a c l => ⟨fun hnone => ?noEntry, fun e he hearly => ?early, fun e he hdue hroom => ?due, ?sram, ?memory⟩,
    fun s watts => ⟨rfl, ?share, rfl, rfl, rfl, fun hne => ?midRotation, fun heq => ?rotation, ?tick, ?rebase, ⟨_, rfl⟩⟩⟩
  case unitOff => exact if_neg (by rw [hoff]; exact Bool.false_ne_true)
  case unitOn =>
    have hf := unitFailed_of_exec s u
    refine ⟨_, exec_unitFailure s u hon, hf.enabled_paired (mem_pairedUnits u), .of_eq hf.mem hf.cores, ?_, ?_, ?_, ?_, ?_, ?_⟩
    · exact ⟨_, by rw [hf.units]; exact s.find_mapOut_mem 2 _ (mem_pairedUnits u), rfl⟩
    · exact fun k p hp hne h45 h8 => hf.enabled_other hu hp (not_paired hne h45 h8)
    · intro h45
      have hpair : pairedUnits u = [⟨4, u.phys⟩, ⟨5, u.phys⟩] := if_pos h45
      refine ⟨hf.enabled_paired (v := ⟨4, u.phys⟩) (by simp [hpair]), hf.enabled_paired (v := ⟨5, u.phys⟩) (by simp [hpair]), ?_⟩
      rw [hf.settling, toSettle, if_neg (by omega), if_pos h45]
      simp
    · intro h3
      rw [hf.settling, toSettle, if_pos h3]
      simp
    · intro h8 _
      refine hf.enabled_paired (v := ⟨8, _⟩) ?_
      rw [pairedUnits, if_neg (by omega), if_pos h8]
      simp
    · intro hroom
      exact ⟨_, hf.journal ▸ s.journalEvent_mem _ _ _ _ _ hroom, rfl, rfl, rfl⟩
  case notSettling => exact if_neg (by rw [hnot]; exact Bool.false_ne_true)
  case settling =>
    refine ⟨_, exec_settlementComplete s u hin, State.not_mem_endSettlement _ u, fun h3 hoff hq => ?_⟩
    rw [if_pos h3]
    exact ⟨fun i hi => by rw [(State.endSettlement_sameHomes _ u).homeEntry]; exact s.homeEntry_settleSlice_ne hi hoff hq,
      s.topStamp_le_endSettlement u⟩
  case noEntry => rw [show exec (.journalCoalesceFlush u a) s = execJournalCoalesceFlush u a s from rfl, execJournalCoalesceFlush, hnone]
  case early => rw [show exec (.journalCoalesceFlush u a) s = execJournalCoalesceFlush u a s from rfl, execJournalCoalesceFlush, he]; simp [State.secondOver, hearly]
  case due =>
    rw [show exec (.journalCoalesceFlush u a) s = execJournalCoalesceFlush u a s from rfl, execJournalCoalesceFlush, he]
    exact ⟨_, if_pos (decide_eq_true hdue), by rw [s.flushEntry_eq e hroom], by rw [s.flushEntry_eq e hroom]⟩
  case sram =>
    obtain ⟨v, hv, hexec⟩ := exec_sramScrub s c l
    refine ⟨_, hexec, ?_, fun x hx => ?_, hv.only.mem, hv.only.poison, ?_⟩
    · rw [State.modCore_eq, State.core_putCore_same, hv.only.core]
    · rw [State.modCore_eq, State.core_putCore_ne _ _ hx, hv.only.core]
    · exact hv.journal.imp fun r hr => hr.symm
  case memory =>
    obtain ⟨v, hv, hexec⟩ := exec_memoryScrub s l
    exact ⟨_, hexec, rfl, hv.only.cores, hv.only.mem, hv.only.poison, hv.journal.imp fun r hr => hr.symm⟩
  case share => exact ⟨_, Nat.mod_lt _ (by decide), rfl⟩
  case midRotation => exact if_neg hne
  case rotation => exact if_pos heq
  case tick => exact ⟨_, rfl, rfl, fun c => Nat.add_right_comm _ _ _⟩
  case rebase =>
    refine ⟨_, rfl, s.sameBytes_lowerStamps _, s.pts_lowerStamps _, fun c => ?_, fun pa => ?_⟩
    · rw [State.core_lowerStamps]; rfl
    · rw [State.homeLine_lowerStamps]; exact ⟨rfl, rfl⟩

end Sys2Proof.Machine
end

section
/-! SUPPORT. What stays as it is outside the cores and the memory: links and key slots, which only their own events and what
is sent or has come on a link change, and the reports, which are only added to (R420 to R422). Engine accesses leave the
queues too. -/

namespace Sys2Proof.Machine

/-! ## The two frames -/

/-- Links and key slots are as they were, and every report that was made still stands. -/
structure Quiet (s t : State) : Prop where
  links : t.links = s.links
  keys : t.keys = s.keys
  reports : s.reports ⊆ t.reports

/-- The same, with every queue as it was. -/
structure EngineQuiet (s t : State) : Prop extends Quiet s t where
  queues : t.queues = s.queues

theorem Quiet.of_eq {s t : State} (hl : t.links = s.links) (hk : t.keys = s.keys) (hr : t.reports = s.reports) : Quiet s t :=
  ⟨hl, hk, by rw [hr]; exact List.Subset.refl _⟩

theorem Quiet.refl (s : State) : Quiet s s := .of_eq rfl rfl rfl

theorem Quiet.trans {s t u : State} (h : Quiet s t) (h' : Quiet t u) : Quiet s u :=
  ⟨h'.links.trans h.links, h'.keys.trans h.keys, List.Subset.trans h.reports h'.reports⟩

theorem EngineQuiet.of_eq {s t : State} (hl : t.links = s.links) (hk : t.keys = s.keys) (hr : t.reports = s.reports)
    (hq : t.queues = s.queues) : EngineQuiet s t := ⟨.of_eq hl hk hr, hq⟩

theorem EngineQuiet.refl (s : State) : EngineQuiet s s := .of_eq rfl rfl rfl rfl

theorem EngineQuiet.trans {s t u : State} (h : EngineQuiet s t) (h' : EngineQuiet t u) : EngineQuiet s u :=
  ⟨h.toQuiet.trans h'.toQuiet, h'.queues.trans h.queues⟩

theorem Quiet.ite {s t u : State} {p : Prop} [Decidable p] (h : Quiet s t) (h' : Quiet s u) : Quiet s (if p then t else u) := by
  split <;> assumption

theorem EngineQuiet.ite {s t u : State} {p : Prop} [Decidable p] (h : EngineQuiet s t) (h' : EngineQuiet s u) :
    EngineQuiet s (if p then t else u) := by
  split <;> assumption

theorem Quiet.foldl {α : Type} (f : State → α → State) (h : ∀ t x, Quiet t (f t x)) (l : List α) (s : State) :
    Quiet s (l.foldl f s) := List.foldlRecOn _ _ (Quiet.refl s) fun t ht x _ => ht.trans (h t x)

theorem EngineQuiet.foldl {α : Type} (f : State → α → State) (h : ∀ t x, EngineQuiet t (f t x)) (l : List α) (s : State) :
    EngineQuiet s (l.foldl f s) := List.foldlRecOn _ _ (EngineQuiet.refl s) fun t ht x _ => ht.trans (h t x)

theorem JournalOnly.engineQuiet {s t : State} (h : JournalOnly s t) : EngineQuiet s t := by
  rw [h]; exact .of_eq rfl rfl rfl rfl

theorem State.modCore_quiet (s : State) (c : Nat) (f : Core → Core) : EngineQuiet s (s.modCore c f) := .of_eq rfl rfl rfl rfl
theorem State.putCore_quiet (s : State) (c : Nat) (k : Core) : EngineQuiet s (s.putCore c k) := .of_eq rfl rfl rfl rfl
theorem State.putSett_quiet (s : State) (n : Nat) (t : Sett) : EngineQuiet s (s.putSett n t) := .of_eq rfl rfl rfl rfl
theorem State.putHome_quiet (s : State) (pa : Nat) (h : HomeLine) : EngineQuiet s (s.putHome pa h) := .of_eq rfl rfl rfl rfl
theorem State.putGang_quiet (s : State) (g : Nat) (x : Gang) : Quiet s (s.putGang g x) := .of_eq rfl rfl rfl
theorem State.putQueue_quiet (s : State) (q : Nat) (x : Queue) : Quiet s (s.putQueue q x) := .of_eq rfl rfl rfl
theorem State.report_quiet (s : State) (r : Report) : EngineQuiet s (s.report r) :=
  ⟨⟨rfl, rfl, List.subset_append_left _ _⟩, rfl⟩

/-! ## Bytes and the homes of lines -/

theorem State.guardStack_quiet (s : State) (c off n : Nat) : EngineQuiet s (s.guardStack c off n) := by
  rw [State.guardStack]
  split
  · refine EngineQuiet.foldl _ (fun t i => ?_) _ s
    dsimp only
    split
    · exact t.modCore_quiet _ _
    · exact .refl t
  · exact .refl s

theorem State.aliasWrite_quiet (s : State) (w pa : Nat) (bs : List Byte) : EngineQuiet s (s.aliasWrite w pa bs) := by
  rw [State.aliasWrite]
  split
  · exact .refl s
  · exact .of_eq rfl rfl rfl rfl

theorem State.poke_quiet (s : State) (w : Nat) (l : Loc) (bs : List Byte) : EngineQuiet s (s.poke w l bs) := by
  unfold State.poke
  split
  · exact (s.modCore_quiet _ _).trans (State.guardStack_quiet _ _ _ _)
  · split
    · exact s.aliasWrite_quiet _ _ _
    · exact .of_eq rfl rfl rfl rfl
  · exact .refl s

theorem State.settleAt_quiet (s : State) (l : Loc) (n : Nat) : EngineQuiet s (s.settleAt l n) := by
  rw [s.settleAt_frame]; exact .of_eq rfl rfl rfl rfl

theorem State.pokeBy_quiet (s : State) (w : Nat) (l : Loc) (bs : List Byte) : EngineQuiet s (s.pokeBy w l bs) := by
  have hd : EngineQuiet s (s.decided w l bs).1 := by
    rw [State.decided]
    split
    · exact .trans (t := { s with freeCount := s.freeCount + bs.length }) (.of_eq rfl rfl rfl rfl) (State.settleAt_quiet _ _ _)
    · exact s.settleAt_quiet _ _
  exact hd.trans (State.poke_quiet _ _ _ _)

theorem State.soil_quiet (s : State) (pa : Nat) : EngineQuiet s (s.soil pa) := by
  rw [State.soil]; split <;> exact .of_eq rfl rfl rfl rfl

theorem State.soilAt_quiet (s : State) (l : Loc) : EngineQuiet s (s.soilAt l) := by
  unfold State.soilAt
  split
  · exact s.soil_quiet _
  · exact .refl s

theorem State.recall_quiet (s : State) (pa : Nat) : EngineQuiet s (s.recall pa) := by
  rw [State.recall]
  dsimp only
  split
  · exact .refl s
  · exact (s.putHome_quiet _ _ |>.trans (State.soil_quiet _ _)).trans (State.modCore_quiet _ _ _)

theorem State.homeWrite_quiet (s : State) (pa stamp : Nat) : EngineQuiet s (s.homeWrite pa stamp) :=
  (s.recall_quiet pa).trans (State.putHome_quiet _ _ _)

theorem State.writeHome_quiet (s : State) (w : Nat) (l : Loc) (stamp : Nat) : EngineQuiet s (s.writeHome w l stamp) := by
  unfold State.writeHome
  split
  · exact .foldl _ (fun t a => t.homeWrite_quiet a stamp) _ s
  · exact .refl s

theorem State.fillLine_quiet (s : State) (w pa : Nat) : EngineQuiet s (s.fillLine w pa) := by
  rw [State.fillLine]; split <;> exact .of_eq rfl rfl rfl rfl

theorem State.fillL2_quiet (s : State) (w pa : Nat) : EngineQuiet s (s.fillL2 w pa) := by
  rw [State.fillL2]
  split
  · exact .refl s
  · exact .foldl _ (fun t i => t.fillLine_quiet _ _) _ s

theorem State.fillLlc_quiet (s : State) (w pa : Nat) : EngineQuiet s (s.fillLlc w pa) := by
  rw [State.fillLlc]
  split
  · exact .refl s
  · dsimp only
    split <;> exact .of_eq rfl rfl rfl rfl

theorem State.cached_quiet (s : State) (w : Nat) (l : Loc) : EngineQuiet s (s.cached w l) := by
  unfold State.cached
  split
  · split
    · exact s.fillLlc_quiet _ _
    · exact (s.fillL2_quiet _ _).trans (State.fillLlc_quiet _ _ _)
  · exact .refl s

theorem State.raiseHts_quiet (s : State) (l : Loc) (stamp : Nat) : EngineQuiet s (s.raiseHts l stamp) := by
  unfold State.raiseHts
  split
  · exact s.modCore_quiet _ _
  · split <;> exact .of_eq rfl rfl rfl rfl
  · exact .refl s

theorem State.homeChange_quiet (s : State) (w : Nat) (l : Loc) (bs : List Byte) (stamp : Nat) :
    EngineQuiet s (s.homeChange w l bs stamp).1 :=
  ((((s.writeHome_quiet w l stamp).trans (State.cached_quiet _ w l)).trans (State.soilAt_quiet _ l)).trans
    (State.pokeBy_quiet _ w l bs)).trans (State.raiseHts_quiet _ l stamp)

theorem State.noteWalk_quiet (s : State) (c w va : Nat) : EngineQuiet s (s.noteWalk c w va) := by
  unfold State.noteWalk
  split
  · refine .trans ?_ (.foldl _ (fun t a => t.cached_quiet _ _) _ _)
    exact .of_eq rfl rfl rfl rfl
  · exact .refl s

theorem State.noteTlb_quiet (s : State) (c va : Nat) (x : Walk) : EngineQuiet s (s.noteTlb c va x) := by
  unfold State.noteTlb
  split
  · exact .refl s
  · split
    · have hcore := fun f => (s.noteWalk_quiet c (s.core c).world va).trans (State.modCore_quiet _ c f)
      exact .ite (hcore _) ((hcore _).trans (State.putSett_quiet _ _ _))
    · exact s.modCore_quiet _ _

/-! ## Clasps -/

theorem State.claspChange_quiet (s : State) (x : EngCtx) (z stamp : Nat) (f : Clasp → Clasp) {t : State}
    (h : s.claspChange x z stamp f = .done t) : EngineQuiet s t := by
  rw [State.claspChange] at h
  split at h <;> try cases h
  exact (s.noteTlb_quiet _ _ _).trans (State.homeChange_quiet _ _ _ _ _)

theorem State.claspNow_quiet (s : State) (x : EngCtx) (z stamp : Nat) (f : Clasp → Clasp) {t : State}
    (h : s.claspNow x z stamp f = some t) : EngineQuiet s t := by
  rw [State.claspNow] at h
  split at h
  next hc => cases h; exact s.claspChange_quiet x z stamp f hc
  next => cases h
  next => cases h; exact s.report_quiet _

/-! ## Accesses of engines -/

/-- Accesses that leave the outside and the queues as they are, where they succeed. -/
def QuietAccess {α : Type} (m : EngM α) : Prop := ∀ e a e', m e = .ok (a, e') → EngineQuiet e.s e'.s

theorem QuietAccess.pure {α : Type} (a : α) : QuietAccess (pure a : EngM α) := by
  intro e b e' h
  cases h
  exact .refl _

theorem QuietAccess.bind {α β : Type} {m : EngM α} {f : α → EngM β} (hm : QuietAccess m) (hf : ∀ a, QuietAccess (f a)) :
    QuietAccess (m >>= f) := by
  intro e b e' h
  cases he : m e with
  | error x => simp [Bind.bind, StateT.bind, Except.bind, he] at h
  | ok p =>
    obtain ⟨a, e1⟩ := p
    have h2 : f a e1 = .ok (b, e') := by simpa [Bind.bind, StateT.bind, Except.bind, he] using h
    exact (hm e a e1 he).trans (hf a e1 b e' h2)

theorem QuietAccess.mapM {α β : Type} {f : α → EngM β} (hf : ∀ a, QuietAccess (f a)) (l : List α) : QuietAccess (l.mapM f) := by
  induction l with
  | nil => rw [List.mapM_nil]; exact .pure _
  | cons x l ih => rw [List.mapM_cons]; exact .bind (hf x) fun _ => .bind ih fun _ => .pure _

theorem QuietAccess.forM {α : Type} {f : α → EngM Unit} (hf : ∀ a, QuietAccess (f a)) (l : List α) : QuietAccess (l.forM f) := by
  induction l with
  | nil => exact .pure _
  | cons x l ih => exact .bind (hf x) fun _ => ih

theorem engPlace_quiet (x : EngCtx) (va n : Nat) (write : Bool) : QuietAccess (engPlace x va n write) := by
  intro e a e' h
  rw [engPlace] at h
  split at h <;> try cases h
  exact e.s.noteTlb_quiet _ _ _

theorem Eng.see_quiet (e : Eng) (x : EngCtx) (l : Loc) (n : Nat) : EngineQuiet e.s (e.see x l n).2.s := by
  rw [Eng.see]
  split
  · show EngineQuiet e.s (e.s.took x.world l n)
    rw [e.s.took_frame]
    exact .of_eq rfl rfl rfl rfl
  · exact .refl _

theorem engLease_quiet (e : Eng) (pa : Nat) : EngineQuiet e.s (engLease e pa).s :=
  (e.s.recall_quiet pa).trans (State.putHome_quiet _ _ _)

theorem foldl_engLease_quiet {α : Type} (f : α → Nat) (l : List α) (e : Eng) :
    EngineQuiet e.s (l.foldl (fun e p => engLease e (f p)) e).s :=
  List.foldlRecOn (motive := fun d : Eng => EngineQuiet e.s d.s) _ _ (.refl _) fun d hd _ _ => hd.trans (engLease_quiet d _)

theorem engPeek_quiet (x : EngCtx) (fab : FabData) (va n : Nat) (l : Loc) : QuietAccess (engPeek x fab va n l) := by
  intro e a e' h
  unfold engPeek at h
  split at h
  · cases h; exact e.see_quiet x _ n
  · cases h; exact (e.see_quiet x _ n).trans (foldl_engLease_quiet _ _ _)
  · cases h
    exact List.foldlRecOn (motive := fun d : Eng => EngineQuiet e.s d.s) _ _ (.refl _) fun d hd p _ =>
      hd.trans (foldl_engLease_quiet id _ d)
  · cases h; exact foldl_engLease_quiet _ _ _
  · split at h <;> cases h
    exact .refl _

theorem engRead_quiet (x : EngCtx) (fab : FabData) (va n : Nat) : QuietAccess (engRead x fab va n) :=
  .bind (.mapM (fun _ => .bind (engPlace_quiet _ _ _ _) fun _ => engPeek_quiet _ _ _ _ _) _) fun _ => .pure _

theorem State.engineWrite_spad_quiet (s : State) (w o off : Nat) (bs : List Byte) (stamp : Nat) :
    EngineQuiet s (s.engineWrite w (.spad o off) bs stamp) := by
  unfold State.engineWrite
  exact (s.poke_quiet w (.spad o off) bs).trans (State.modCore_quiet _ _ _)

theorem State.engineWrite_mem_quiet (s : State) (w pa mt : Nat) (bs : List Byte) (stamp : Nat) :
    EngineQuiet s (s.engineWrite w (.mem pa mt) bs stamp) :=
  ((((s.writeHome_quiet w _ stamp).trans (State.cached_quiet _ w _)).trans (State.soilAt_quiet _ _)).trans
    (State.poke_quiet _ w _ bs)).trans (State.raiseHts_quiet _ (.mem pa mt) stamp)

theorem engPoke_quiet (x : EngCtx) (fab : FabData) (va : Nat) (bs : List Byte) (l : Loc) : QuietAccess (engPoke x fab va bs l) := by
  intro e a e' h
  unfold engPoke at h
  split at h
  · cases h; exact e.s.engineWrite_spad_quiet _ _ _ _ _
  · cases h
    exact List.foldlRecOn (motive := fun d : Eng => EngineQuiet e.s d.s) _ _ (.refl _) fun d hd p _ =>
      hd.trans (d.s.engineWrite_mem_quiet x.world p.1 0 _ d.stamp)
  · cases h
    exact List.foldlRecOn (motive := fun d : Eng => EngineQuiet e.s d.s) _ _ (.refl _) fun d hd p _ =>
      hd.trans (d.s.engineWrite_mem_quiet _ p.1 _ _ _)
  · split at h <;> cases h
    exact .refl _

theorem engWrite_quiet (x : EngCtx) (fab : FabData) (va : Nat) (bs : List Byte) : QuietAccess (engWrite x fab va bs) :=
  .bind (.mapM (fun _ => .bind (engPlace_quiet _ _ _ _) fun _ => .pure _) _) fun _ => .forM (fun _ => engPoke_quiet _ _ _ _ _) _

end Sys2Proof.Machine
end

section
/-! SUPPORT. A lost link leaves the links and key slots as they are: what it gives to those who wait for an answer, threads,
nests, copies, bridges and collectives, and what their queues then do (R419, R422); and so do the scrubs of cores (R414). -/

namespace Sys2Proof.Machine

/-! ## Errors and scrubs -/

theorem State.noteUnread_quiet (s : State) (l : Loc) (w : Nat) : EngineQuiet s (s.noteUnread l w) := by
  unfold State.noteUnread
  split
  · exact (s.journalEvent_only _ _ _ _ _).engineQuiet
  · exact (s.journalEvent_only _ _ _ _ _).engineQuiet
  · exact .refl s

theorem State.unreadLines_quiet (s : State) (c : Nat) (ls : List ILine) : EngineQuiet s (s.unreadLines c ls) :=
  .foldl _ (fun t _ => (t.journalEvent_only _ _ _ _ _).engineQuiet) _ s

theorem State.disown_quiet (s : State) (c : Nat) : EngineQuiet s (s.disown c) := .of_eq rfl rfl rfl rfl

theorem State.scrub_quiet (s : State) (c w : Nat) : EngineQuiet s (s.scrub c w) :=
  ((((s.settleAt_quiet _ _).trans (State.unreadLines_quiet _ _ _)).trans (State.disown_quiet _ _)).trans
    (State.modCore_quiet _ _ _)).trans (State.putSett_quiet _ _ _)

/-! ## The front end -/

theorem State.modQueue_quiet (s : State) (q : Nat) (f : Queue → Queue) : Quiet s (s.modQueue q f) := s.putQueue_quiet _ _

theorem State.feRun_quiet {α : Type} (s : State) (w va : Nat) {m : EngM α} (hm : QuietAccess m) {a : α} {t : State}
    (h : s.feRun w va m = .ok (a, t)) : EngineQuiet s t := by
  rw [State.feRun] at h
  split at h
  next he => cases h; exact (hm _ _ _ he).trans (.of_eq rfl rfl rfl rfl)
  next => cases h

theorem State.fePut_quiet (s : State) (w va v : Nat) {t : State} (h : s.fePut w va v = .ok t) : EngineQuiet s t := by
  rw [State.fePut] at h
  split at h
  next he => cases h; exact s.feRun_quiet _ _ (engWrite_quiet _ _ _ _) he
  next => cases h

theorem State.qcbAll_quiet (s : State) (q : Nat) {t : State} (h : s.qcbAll q = .ok t) : EngineQuiet s t := by
  simp only [State.qcbAll, Bind.bind, Except.bind] at h
  split at h
  · cases h
  next s1 h1 =>
    split at h
    · cases h
    next s2 h2 =>
      split at h
      · cases h
      next s3 h3 =>
        exact (((s.fePut_quiet _ _ _ h1).trans (s1.fePut_quiet _ _ _ h2)).trans (s2.fePut_quiet _ _ _ h3)).trans
          (s3.fePut_quiet _ _ _ h)

theorem State.showQcb_quiet (s : State) (q : Nat) : Quiet s (s.showQcb q) := by
  rw [State.showQcb]
  split
  next h => exact (s.qcbAll_quiet q h).toQuiet.trans (State.modQueue_quiet _ _ _)
  next => exact s.modQueue_quiet _ _

theorem State.stopQueue_quiet (s : State) (q st reason a : Nat) : Quiet s (s.stopQueue q st reason a) := by
  unfold State.stopQueue State.pauseTimers
  exact ((s.modQueue_quiet _ _).trans (State.modQueue_quiet _ _ _)).trans (State.showQcb_quiet _ _)

theorem State.feStopped_quiet (s : State) (q : Nat) (x : FeStop) : Quiet s (s.feStopped q x) := by
  unfold State.feStopped
  split
  · exact .refl s
  · split
    · exact s.stopQueue_quiet _ _ _ _
    · split
      · exact (s.noteUnread_quiet _ _).toQuiet.trans (State.stopQueue_quiet _ _ _ _ _)
      · exact s.stopQueue_quiet _ _ _ _
    · exact s.stopQueue_quiet _ _ _ _
    · exact .refl s
    · exact .foldl _ (fun t c => (t.scrub_quiet c _).toQuiet) _ s

theorem State.feTry_quiet (s : State) (q : Nat) {r : Except FeStop State} (h : ∀ t, r = .ok t → Quiet s t) :
    Quiet s (s.feTry q r) := by
  unfold State.feTry
  split
  · exact h _ rfl
  · exact s.feStopped_quiet _ _

theorem State.qcbPut_quiet (s : State) (q off v : Nat) {t : State} (h : s.qcbPut q off v = .ok t) : EngineQuiet s t :=
  s.fePut_quiet _ _ _ h

theorem State.feTry_qcbPut_quiet (s : State) (q off v : Nat) : Quiet s (s.feTry q (s.qcbPut q off v)) :=
  s.feTry_quiet q fun _ h => (s.qcbPut_quiet q off v h).toQuiet

theorem State.setTokens_quiet (s : State) (q : Nat) (m : BitVec 64) : Quiet s (s.setTokens q m) := by
  unfold State.setTokens
  exact (s.modQueue_quiet q _).trans (State.feTry_qcbPut_quiet _ _ _ _)

theorem State.completeEntry_quiet (s : State) (q : Nat) (e : WEntry) (st : StatusInfo) : Quiet s (s.completeEntry q e st) := by
  unfold State.completeEntry
  split
  next => exact s.feStopped_quiet _ _
  next h =>
    have hput := (s.fePut_quiet _ _ _ h).toQuiet
    dsimp only
    split
    · exact (hput.trans (State.modQueue_quiet _ _ _)).trans (State.setTokens_quiet _ _ _)
    · exact hput.trans (State.modQueue_quiet _ _ _)

theorem State.completeAll_quiet (s : State) (q : Nat) : Quiet s (s.completeAll q) := by
  refine .foldl _ (fun t e => ?_) _ s
  split
  · exact .ite (.refl t) (t.completeEntry_quiet _ _ _)
  · exact .refl t

theorem State.retire_quiet (s : State) (q : Nat) : Quiet s (s.retire q) := by
  have hq := s.modQueue_quiet q (fun x => { x with window := x.window.dropWhile (fun e => e.state == .done) })
  unfold State.retire
  exact .ite hq ((hq.trans (State.modQueue_quiet _ q _)).trans (State.feTry_qcbPut_quiet _ _ _ _))

theorem State.loadEntry_quiet (s : State) (q : Nat) (i : Instr) : Quiet s (s.loadEntry q i) := by
  unfold State.loadEntry
  exact .ite (.ite (s.stopQueue_quiet _ _ _ _) (s.modQueue_quiet _ _)) (s.modQueue_quiet _ _)

theorem State.readPacket_quiet (s : State) (q : Nat) : Quiet s (s.readPacket q) := by
  simp only [State.readPacket]
  split
  · split
    next => exact s.feStopped_quiet _ _
    next h =>
      have hr := (s.feRun_quiet _ _ (engRead_quiet _ _ _ _) h).toQuiet
      split
      · exact hr.trans (State.stopQueue_quiet _ _ _ _ _)
      · exact hr.trans (State.loadEntry_quiet _ _ _)
  · exact .refl s

theorem State.readPackets_quiet (n q : Nat) (s : State) : Quiet s (State.readPackets n q s) := by
  induction n generalizing s with
  | zero => exact .refl s
  | succ n ih =>
    rw [State.readPackets]
    exact (s.readPacket_quiet q).trans (ih _)

theorem State.settleQueue_quiet (n q : Nat) (s : State) : Quiet s (State.settleQueue n q s) := by
  induction n generalizing s with
  | zero => exact .refl s
  | succ n ih =>
    have hr := ((s.completeAll_quiet q).trans (State.retire_quiet _ q)).trans (State.readPackets_quiet 32 q _)
    rw [State.settleQueue]
    exact .ite (hr.trans (ih _)) hr

theorem State.settled_quiet (s : State) (q : Nat) : Quiet s (s.settled q) := State.settleQueue_quiet 12 q s

/-! ## Copies and collectives that a refusal stops -/

/-- A copy that has ended or waits for its clasp's page makes no step. -/
def CopyRun.Stopped (r : CopyRun) : Prop := r.done = true ∨ r.fault.isSome = true

theorem State.copyFail_quiet (s : State) (r : CopyRun) : EngineQuiet s (s.copyFail r).1 := by
  rw [State.copyFail]
  split
  next h =>
    rw [State.copyClasp] at h
    split at h
    · cases h; exact .refl s
    · exact s.claspNow_quiet _ _ _ _ h
  next => exact .refl s

theorem State.copyFail_stopped (s : State) (r : CopyRun) : (s.copyFail r).2.Stopped := by
  rw [State.copyFail]
  split
  · exact .inl rfl
  · exact .inr rfl

theorem CopyRun.Stopped.bridged {r : CopyRun} (h : r.Stopped) : r.bridged.Stopped := by
  unfold CopyRun.bridged
  split
  · split <;> exact h
  · exact h

theorem CopyRun.Stopped.cannotStep {r : CopyRun} (h : r.Stopped) (s : State) : s.copyCanStep r = false := by
  rcases h with h | h
  · simp [State.copyCanStep, CopyRun.over, h]
  · obtain ⟨a, ha⟩ := Option.isSome_iff_exists.mp h
    simp [State.copyCanStep, ha]

theorem bridgeSteps_stopped (n : Nat) (s : State) {r : CopyRun} (h : r.Stopped) :
    (bridgeSteps n s r).1 = s ∧ (bridgeSteps n s r).2.Stopped := by
  cases n with
  | zero => exact ⟨rfl, h⟩
  | succ n => simp [bridgeSteps, h.bridged.cannotStep s, h.bridged]

theorem Queue.entry_modEntry (q : Queue) (k : Nat) (f : WEntry → WEntry) (hf : ∀ e, (f e).k = e.k) :
    (q.modEntry k f).entry? k = (q.entry? k).map f := by
  rw [Queue.entry?, Queue.modEntry, List.find?_map, Queue.entry?]
  have hp : ((fun e : WEntry => e.k == k) ∘ fun e => if e.k == k then f e else e) = fun e => e.k == k := by
    funext e
    by_cases h : e.k = k <;> simp [h, hf]
  rw [hp]
  cases hfind : q.window.find? (fun e => e.k == k) with
  | none => rfl
  | some e =>
    have hk : e.k = k := by simpa using List.find?_some hfind
    simp [hk]

theorem State.finishEntry_quiet (s : State) (q k : Nat) (st : StatusInfo) : Quiet s (s.finishEntry q k st) := s.modQueue_quiet _ _

theorem State.feStamp_quiet (s : State) (n : Nat) : Quiet s { s with feStamp := n } := .of_eq rfl rfl rfl

theorem State.settleCommand_quiet (s : State) (id : Nat) : Quiet s (s.settleCommand id) :=
  .ite (.refl s) (.of_eq rfl rfl rfl)

/-- The bridge of a packet whose copy is stopped only tells the queue (R401). -/
theorem State.runBridge_quiet (s : State) (q k : Nat)
    (h : ∀ r, ((s.queue q).entry? k).bind (fun e => e.copy) = some r → r.Stopped) : Quiet s (s.runBridge q k) := by
  rw [State.runBridge]
  split
  next => exact .refl s
  next r hr =>
    obtain ⟨h1, hstop⟩ := bridgeSteps_stopped 2 s (h r hr)
    obtain ⟨h2, -⟩ := bridgeSteps_stopped (bridgeSteps 2 s r).2.bridgeFuel (bridgeSteps 2 s r).1 hstop
    dsimp only
    rw [h2, h1]
    have hq := s.modQueue_quiet q (fun x => x.modEntry k (fun e => { e with copy := some (bridgeSteps (bridgeSteps 2 s r).2.bridgeFuel s (bridgeSteps 2 s r).2).2 }))
    exact .ite (((hq.trans (State.settleCommand_quiet _ _)).trans (State.feStamp_quiet _ _)).trans (State.finishEntry_quiet _ _ _ _)) hq

theorem State.collOver_quiet (s : State) (g : Nat) (x : Coll) : Quiet s (s.collOver g x) :=
  (((EngineQuiet.foldl _ (fun t _ => t.modCore_quiet _ _) _ s).trans
    (.foldl _ (fun t n => t.putSett_quiet n _) _ _)).toQuiet).trans (State.putGang_quiet _ _ _)

theorem State.collEnd_quiet (s : State) (g : Nat) (x : Coll) (bad : Bool) : Quiet s (s.collEnd g x bad) := by
  rw [State.collEnd]
  split
  · split
    · exact s.putGang_quiet _ _
    · refine (Quiet.foldl _ (fun t e => ?_) _ s).trans (State.collOver_quiet _ _ _)
      cases h : t.claspNow e.2.ctx e.2.clasp e.2.stamp Clasp.setE with
      | none => exact .refl t
      | some u => exact (t.claspNow_quiet _ _ _ _ h).toQuiet
  · exact s.collOver_quiet _ _

/-! ## Threads that a refusal traps -/

theorem State.modSlot_quiet (s : State) (c i : Nat) (f : Slot → Slot) : Quiet s (s.modSlot c i f) := (s.putCore_quiet _ _).toQuiet
theorem State.modTask_quiet (s : State) (c w : Nat) (f : Task → Task) : Quiet s (s.modTask c w f) := (s.putCore_quiet _ _).toQuiet
theorem State.modCurSlot_quiet (s : State) (f : Slot → Slot) : Quiet s (s.modCurSlot f) := s.modSlot_quiet _ _ _
theorem State.modCurTask_quiet (s : State) (f : Task → Task) : Quiet s (s.modCurTask f) := s.modTask_quiet _ _ _
theorem State.sPut_quiet (s : State) (c off n v : Nat) : Quiet s (s.sPut c off n v) := (s.modCore_quiet _ _).toQuiet

theorem State.setLink_quiet (s : State) (c ws link : Nat) : Quiet s (s.setLink c ws link) := s.sPut_quiet _ _ _ _

theorem State.relink_quiet (c : Nat) (l : List Nat) (s : State) : Quiet s (s.relink c l) := by
  induction l generalizing s with
  | nil => exact .refl s
  | cons a l ih =>
    cases l with
    | nil => exact s.setLink_quiet _ _ _
    | cons b l => exact (s.setLink_quiet _ _ _).trans (ih _)

theorem State.leaveReady_quiet (s : State) (c ws : Nat) : Quiet s (s.leaveReady c ws) := by
  refine .trans (.foldl _ (fun t p => ?_) (List.range 4) s) (State.setLink_quiet _ c ws 0xFFFF)
  dsimp only
  split
  · exact (t.modCore_quiet c _).toQuiet.trans (State.relink_quiet _ _ _)
  · exact .refl t

theorem State.switchOut_quiet (s : State) (c i st : Nat) (inc : Option Nat) (first : Nat) :
    Quiet s (s.switchOut c i st inc first) := by
  unfold State.switchOut
  exact s.modSlot_quiet _ _ _

theorem State.leaveSlot_quiet (s : State) (c i st first : Nat) : Quiet s (s.leaveSlot c i st first) := by
  unfold State.leaveSlot State.leaveWith
  split
  · exact (s.leaveReady_quiet _ _).trans (State.switchOut_quiet _ _ _ _ _ _)
  · exact s.switchOut_quiet _ _ _ _ _

theorem State.quitSlot_quiet (s : State) (c i ws first : Nat) : Quiet s (s.quitSlot c i ws first) := by
  rw [State.quitSlot]
  split
  · exact s.modSlot_quiet _ _ _
  · exact s.leaveSlot_quiet _ _ _ _

theorem State.reportEnd_quiet (s : State) (c ws cause sub jidx : Nat) : Quiet s (s.reportEnd c ws cause sub jidx) := by
  rw [State.reportEnd]
  split
  · exact s.putGang_quiet _ _
  · exact (s.report_quiet _).toQuiet

theorem State.endTask_quiet (s : State) (c i ws cause sub jidx : Nat) : Quiet s (s.endTask c i ws cause sub jidx) :=
  (((s.reportEnd_quiet _ _ _ _ _).trans (State.modTask_quiet _ _ _ _)).trans (State.modCore_quiet _ _ _).toQuiet).trans
    (State.quitSlot_quiet _ _ _ _ _)

theorem State.writeBack_quiet (s : State) (c i : Nat) : Quiet s (s.writeBack c i) := by
  rw [State.writeBack]
  dsimp only
  split
  · exact .refl s
  · exact (s.modCore_quiet _ _).toQuiet

theorem State.writeTrap_quiet (s : State) (t : Trap) (h : Nat) : Quiet s (s.writeTrap t h) :=
  ((((((((s.sPut_quiet _ _ _ _).trans (State.sPut_quiet _ _ _ _ _)).trans (State.sPut_quiet _ _ _ _ _)).trans
    (State.sPut_quiet _ _ _ _ _)).trans (State.sPut_quiet _ _ _ _ _)).trans (State.sPut_quiet _ _ _ _ _)).trans
    (State.sPut_quiet _ _ _ _ _)).trans (State.sPut_quiet _ _ _ _ _))

theorem State.takeTrap_quiet (s : State) (t : Trap) : Quiet s (s.takeTrap t) := by
  rw [State.takeTrap]
  exact .ite (s.endTask_quiet _ _ _ _ _ _) (.ite (s.endTask_quiet _ _ _ _ _ _)
    ((((s.writeTrap_quiet _ _).trans (State.writeBack_quiet _ _ _)).trans (State.modCurTask_quiet _ _)).trans
      (State.modCurSlot_quiet _ _)))

theorem State.takeLateTrap_quiet (s : State) (t : Trap) : Quiet s (s.takeLateTrap t) := by
  unfold State.takeLateTrap State.goAt
  exact (s.takeTrap_quiet t).trans (State.modCurSlot_quiet _ _)

theorem State.actAs_quiet (s : State) (c i : Nat) : Quiet s (s.actAs c i) := .of_eq rfl rfl rfl

theorem fabricAnswer_refused (ea : Nat) (op : ReqOp) (data : List Byte) :
    fabricAnswer ea op false data = answerTrap (trapAt 7 6 ea) 0 := if_pos rfl

/-- An answer that traps is taken as a late trap (R107). -/
theorem State.takeAnswer_trap (s : State) (t : Trap) (stamp at_ : Nat) :
    s.takeAnswer (answerTrap t stamp) at_ = ((s.raisePts s.actCore stamp).parkCur .run).takeLateTrap t := rfl

theorem State.threadFabric_refused_quiet (s : State) (c i : Nat) (data : List Byte) :
    Quiet s (s.threadFabric c i false data) := by
  simp only [State.threadFabric]
  split
  · rw [fabricAnswer_refused, State.takeAnswer_trap]
    exact (((s.actAs_quiet c i).trans (State.modCore_quiet _ _ _).toQuiet).trans (State.modCurTask_quiet _ _)).trans
      (State.takeLateTrap_quiet _ _)
  · exact (s.actAs_quiet c i).trans (State.takeLateTrap_quiet _ _)
  · exact .refl s

/-! ## Refusals, and links that are torn down (R419, R422) -/

theorem State.nestFabric_quiet (s : State) (c : Nat) (ok : Bool) (data : List Byte) : Quiet s (s.nestFabric c ok data) := by
  rw [State.nestFabric]
  split
  · exact .refl s
  · exact (s.modCore_quiet _ _).toQuiet

theorem State.runAnswer_refused_quiet (s : State) (r : CopyRun) (data : List Byte) : EngineQuiet s (s.runAnswer r false data).1 := by
  rw [State.runAnswer]
  split
  · exact .refl s
  · exact s.copyFail_quiet r

theorem State.runAnswer_refused_stopped (s : State) {r : CopyRun} (h : r.fabWait.isSome = true) (data : List Byte) :
    (s.runAnswer r false data).2.Stopped := by
  rw [State.runAnswer]
  split
  next hn => rw [hn] at h; cases h
  next => exact s.copyFail_stopped r

theorem State.placeFabric_refused_quiet (s : State) (n i : Nat) (data : List Byte) : Quiet s (s.placeFabric n i false data) := by
  rw [State.placeFabric]
  split
  · exact .refl s
  · exact ((s.runAnswer_refused_quiet _ _).trans (State.putSett_quiet _ _ _)).toQuiet

theorem State.collFabric_refused_quiet (s : State) (g : Nat) (data : List Byte) : Quiet s (s.collFabric g false data) := by
  rw [State.collFabric]
  split
  · exact .refl s
  · dsimp only
    rw [if_neg Bool.false_ne_true]
    exact s.collEnd_quiet _ _ _

/-- A bridge whose copy waits for an answer is refused: the copy stops, and its packet completes (R401, R419). -/
theorem State.bridgeFabric_refused_quiet (s : State) (q k : Nat) (data : List Byte)
    (hw : ∀ r, ((s.queue q).entry? k).bind (fun e => e.copy) = some r → r.fabWait.isSome = true) :
    Quiet s (s.bridgeFabric q k false data) := by
  rw [State.bridgeFabric]
  split
  next => exact .refl s
  next r hr =>
    have hq := s.runAnswer_refused_quiet r data
    have hstop := s.runAnswer_refused_stopped (hw r hr) data
    refine ((hq.toQuiet.trans (State.modQueue_quiet _ q _)).trans (State.runBridge_quiet _ q k fun x hx => ?_)).trans
      (State.settled_quiet _ q)
    rw [State.modQueue, State.queue_putQueue_same,
      Queue.entry_modEntry _ k (fun e => { e with copy := some (s.runAnswer r false data).2 }) (fun _ => rfl)] at hx
    obtain ⟨y, hy, hxy⟩ := Option.bind_eq_some_iff.mp hx
    obtain ⟨e, -, rfl⟩ := Option.map_eq_some_iff.mp hy
    cases hxy
    exact hstop

/-- Who waits on a link is refused: no link and no key slot changes. -/
theorem State.giveAnswer_refused_quiet (s : State) (k : Asker) {l : Nat} (h : s.askLink k = some l) (data : List Byte) :
    Quiet s (s.giveAnswer k false data) := by
  cases k with
  | bridge q e =>
    refine s.bridgeFabric_refused_quiet q e data fun r hr => ?_
    cases hf : r.fabWait with
    | some f => rfl
    | none => simp [State.askLink, State.askedOf, hr, hf] at h
  | thread c i => exact s.threadFabric_refused_quiet c i data
  | nest c => exact s.nestFabric_quiet c false data
  | place n i => exact s.placeFabric_refused_quiet n i data
  | coll g => exact s.collFabric_refused_quiet g data

theorem State.loseLink_quiet (s : State) (l : Nat) : Quiet s (s.loseLink l) := by
  refine .trans (t := { s with fabIn := s.fabIn.filter (fun e => e.1.port != l || e.2.isSome) }) (.of_eq rfl rfl rfl)
    (.foldl _ (fun t k => ?_) _ _)
  split
  next h => exact t.giveAnswer_refused_quiet k h []
  next => exact .refl t

/-- The state of a torn-down link before the requests in flight on it are lost: it is journalled, and down. -/
def State.linkDown (s : State) (l : Nat) : State :=
  let u := s.errorLane l
  let s1 := ({ s with freeCount := s.freeCount + 1 }.journalEvent u.kind u.phys 5 u.phys 0).1
  { s1 with links := AMap.put s1.links l { s1.link l with down := true } }

theorem State.tearDown_eq (s : State) (l : Nat) : s.tearDown l = (s.linkDown l).loseLink l := rfl

theorem State.link_linkDown (s : State) (l m : Nat) :
    (s.linkDown l).link m = if m = l then { s.link l with down := true } else s.link m := by
  have hj : JournalOnly { s with freeCount := s.freeCount + 1 } ({ s with freeCount := s.freeCount + 1 }.journalEvent
    (s.errorLane l).kind (s.errorLane l).phys 5 (s.errorLane l).phys 0).1 := State.journalEvent_only _ _ _ _ _ _
  rw [State.link, State.linkDown, AMap.get_put, State.link, hj.links]
  rfl

/-- A torn-down link is down. -/
theorem State.tearDown_down (s : State) (l : Nat) : ((s.tearDown l).link l).down = true := by
  rw [State.tearDown_eq, State.link, (State.loseLink_quiet _ _).links, ← State.link, State.link_linkDown, if_pos rfl]

/-! ## The destruction of a world goes on (R415) -/

theorem State.putWorld_quiet (s : State) (w : Nat) (x : World) : Quiet s (s.putWorld w x) := .of_eq rfl rfl rfl

theorem State.destroyOn_quiet (s : State) (w : Nat) : Quiet s (s.destroyOn w) := by
  have hscrub : Quiet s (s.scrubWorld w) :=
    (Quiet.foldl _ (fun t c => ((t.scrub_quiet c 0).trans (State.modCore_quiet _ _ _)).toQuiet) _ s).trans (State.putWorld_quiet _ _ _)
  rw [State.destroyOn]
  split
  · split
    · exact hscrub
    · exact .ite (.of_eq rfl rfl rfl) (.refl s)
  · exact .refl s

end Sys2Proof.Machine
end

section
/-! SUPPORT. What boot leaves (R430), what links, exports and key slots read as (R417, R418, R421, R422), and how a thread's
answer completes its load (R34, R419). -/

namespace Sys2Proof.Machine

/-! ## Boot (R430) -/

/-- A map that is laid out from a list of keys. -/
theorem AMap.find_tabulate {α : Type} (f : Nat → α) (l : List Nat) {k : Nat} (h : k ∈ l) :
    AMap.find (l.map (fun i => (i, f i))) k = some (f k) := by
  induction l with
  | nil => cases h
  | cons i l ih =>
    by_cases hi : i = k
    · simp [AMap.find, hi]
    · simpa [AMap.find, hi] using ih (by simpa [Ne.symm hi] using h)

/-- A link as boot trains it, by whether its port is mapped out. -/
theorem State.link_trainLinks (s : State) (n : Nat) {l : Nat} (h : l < 24) : (s.trainLinks n).link l =
    if s.portOut l then { Link.reset with down := true }
    else { Link.reset with keySent := Config.freshKey (n + 2 * l), keyReceived := Config.freshKey (n + 2 * l + 1) } := by
  rw [State.link, AMap.get, State.trainLinks, AMap.find_tabulate _ _ (List.mem_range.mpr h), Option.getD_some]

/-- The part as boot finds it, with its configuration mapped out. -/
def State.bootUnits (s : State) : State := s.fresh.mapOut 1 0 (s.fresh.config.flatMap pairedUnits)

theorem State.link_bootUp (s : State) (l : Nat) : s.bootUp.link l = (s.bootUnits.trainLinks s.freeCount).link l := rfl
theorem State.portOut_bootUp (s : State) (l : Nat) : s.bootUp.portOut l = s.bootUnits.portOut l := rfl
theorem State.enabled_bootUp (s : State) (k p : Nat) : s.bootUp.enabled k p = s.bootUnits.enabled k p := rfl

theorem State.bootUp_link_trained (s : State) {l : Nat} (h : l < 24) :
    (s.bootUp.link l).down = s.bootUp.portOut l ∧ (s.bootUp.link l).sent = 0 ∧ (s.bootUp.link l).received = 0 := by
  rw [s.link_bootUp, State.link_trainLinks _ _ h, s.portOut_bootUp]
  cases s.bootUnits.portOut l <;> exact ⟨rfl, rfl, rfl⟩

theorem State.bootUp_mappedOut (s : State) {u : UnitRef} (h : u ∈ s.pendingConfig.getD s.config) :
    s.bootUp.enabled u.kind u.phys = false := by
  rw [s.enabled_bootUp]
  exact State.enabled_mapOut_mem _ _ _ (List.mem_flatMap.mpr ⟨u, h, mem_pairedUnits u⟩)

theorem State.bootUp_world (s : State) {w : Nat} (h : w ≠ 0) : (s.bootUp.world w).used = false := by
  have hw : s.bootUp.world w = World.reset := by
    simp [State.world, State.bootUp, AMap.get, AMap.find, Ne.symm h]
  rw [hw]; rfl

/-! ## The journal's chain (R428) -/

theorem chained_length (l : List JEntry) (c : List Byte) : (chained l c).1.length = l.length := by
  induction l generalizing c with
  | nil => rfl
  | cons e l ih => exact congrArg (· + 1) (ih _)

/-! ## Flits on links (R422) -/

/-- Outside the links and the free values used nothing has changed. -/
def LinksOnly (s t : State) : Prop := t = { s with links := t.links, freeCount := t.freeCount }

theorem State.roomFor_linksOnly (s : State) (l c n : Nat) : LinksOnly s (s.roomFor l c n) := by
  rw [State.roomFor]; split <;> rfl

theorem State.takeFlits_linksOnly (s : State) (l n : Nat) : LinksOnly s (s.takeFlits l n) := by
  rw [State.takeFlits]
  split
  · rfl
  · have h := s.roomFor_linksOnly l (s.link l).received.toNat n
    rw [LinksOnly] at h ⊢
    dsimp only
    rw [h]

theorem State.sendFlits_linksOnly (s : State) (l n : Nat) : LinksOnly s (s.sendFlits l n) := by
  rw [State.sendFlits]
  split
  · rfl
  · have h := s.roomFor_linksOnly l (s.link l).sent.toNat n
    rw [LinksOnly] at h ⊢
    dsimp only
    rw [h]

section
variable {s t : State} (h : LinksOnly s t)
include h

theorem LinksOnly.mem : t.mem = s.mem := by rw [h]
theorem LinksOnly.cores : t.cores = s.cores := by rw [h]
theorem LinksOnly.exports : t.exports = s.exports := by rw [h]
theorem LinksOnly.journal : t.journal = s.journal := by rw [h]
theorem LinksOnly.coalesce : t.coalesce = s.coalesce := by rw [h]
theorem LinksOnly.cycle : t.cycle = s.cycle := by rw [h]
theorem LinksOnly.curSlot (c i : Nat) : (t.actAs c i).curSlot = (s.actAs c i).curSlot := by rw [h]; rfl
theorem LinksOnly.curTask (c i : Nat) : (t.actAs c i).curTask = (s.actAs c i).curTask := by rw [h]; rfl
theorem LinksOnly.npc (c i : Nat) : (t.actAs c i).npc = (s.actAs c i).npc := by rw [h]; rfl
theorem LinksOnly.nextPc? (c i : Nat) : (t.actAs c i).nextPc? = (s.actAs c i).nextPc? := by rw [h]; rfl
theorem LinksOnly.rd (c i : Nat) (r : BitVec 5) : (t.actAs c i).rd r = (s.actAs c i).rd r := by rw [h]; rfl

end

theorem State.link_putLink (s : State) (l m : Nat) (k : Link) :
    State.link { s with links := AMap.put s.links l k } m = if m = l then k else s.link m := by
  rw [State.link, AMap.get_put, State.link]

theorem State.link_rekey_same (s : State) (l : Nat) : (s.rekey l).link l =
    { s.link l with
      sent := 0, received := 0, keySent := Config.freshKey s.freeCount, keyReceived := Config.freshKey (s.freeCount + 1) } := by
  rw [State.link, State.rekey, AMap.get_put_same]

theorem State.link_rekey_ne (s : State) {l m : Nat} (h : m ≠ l) : (s.rekey l).link m = s.link m := by
  rw [State.link, State.rekey, AMap.get_put_ne _ _ _ h, State.link]

/-- Flits that come leave a link up or down as it is. -/
theorem State.takeFlits_down (s : State) (l n : Nat) : ((s.takeFlits l n).link l).down = (s.link l).down := by
  rw [State.takeFlits]
  split
  · rfl
  · rw [State.link_putLink, if_pos rfl]
    dsimp only
    rw [State.roomFor]
    split
    · rfl
    · rw [State.link_rekey_same]

/-! ## What comes on a link -/

theorem State.arriveOn_closed (s : State) (l n : Nat) (msg : List Byte) (flits : List (List Byte)) (serve : State → State)
    (h : 24 ≤ l ∨ (s.link l).down = true) : s.arriveOn l n msg flits serve = s := if_pos h

section
variable (s : State) {l : Nat} (n : Nat) (msg : List Byte) {flits : List (List Byte)} (serve : State → State)
  (hl : l < 24) (hd : (s.link l).down = false)
include hl hd

theorem State.arriveOn_forged (h : flits ≠ s.dueFlits l n msg) : s.arriveOn l n msg flits serve = s.tearDown l := by
  rw [State.arriveOn, if_neg (by simp [hd, hl]), if_neg h]

theorem State.arriveOn_due (h : flits = s.dueFlits l n msg) : s.arriveOn l n msg flits serve = serve (s.takeFlits l n) := by
  rw [State.arriveOn, if_neg (by simp [hd, hl]), if_pos h]

end

/-- An answer that leaves on a link that is up is reported, and no byte changes. -/
theorem State.answerOut_up (s : State) {l : Nat} (ok : Bool) (data : List Byte) (h : (s.link l).down = false) :
    (∃ r, .fabricAns l ok r ∈ (s.answerOut l ok data).reports) ∧ (s.answerOut l ok data).journal = s.journal ∧
      SameBytes s (s.answerOut l ok data) := by
  have hs := s.sendFlits_linksOnly l (Config.flits data.length)
  rw [State.answerOut, if_neg (by simp [h])]
  exact ⟨⟨_, List.mem_append_right _ (List.mem_singleton.mpr rfl)⟩, hs.journal, .of_eq hs.mem hs.cores⟩

/-! ## Exports (R417) -/

theorem bitOf_toNat {w : Nat} (d : BitVec w) (i : Nat) : bitOf d.toNat i = d.getLsbD i := by
  simp [bitOf, BitVec.getLsbD, Nat.testBit, Nat.and_comm, Nat.and_one_is_mod]

theorem bitsOf_eq (x lo n : Nat) : bitsOf x lo n = x / 2 ^ lo % 2 ^ n := by rw [bitsOf, Nat.shiftRight_eq_div_pow]

theorem exValid_eq (d : BitVec 256) : exValid d = d.getLsbD 63 := bitOf_toNat d 63

theorem exAllows_eq (d : BitVec 256) (write : Bool) : exAllows d write = d.getLsbD (if write then 61 else 62) := bitOf_toNat d _

theorem exLimit_eq (d : BitVec 256) : exLimit d = d.toNat % 2 ^ 36 := by rw [exLimit, bitsOf_eq, Nat.pow_zero, Nat.div_one]

theorem exKey_eq (d : BitVec 256) : exKey d = d.toNat / 2 ^ 64 % 2 ^ 64 := bitsOf_eq _ _ _

theorem exBase_eq (d : BitVec 256) : exBase d = d.toNat / 2 ^ 128 % 2 ^ 64 := bitsOf_eq _ _ _

theorem exClasp_eq (d : BitVec 256) : exClasp d = d.toNat / 2 ^ 192 := by
  have := d.isLt
  rw [exClasp, bitsOf_eq]
  omega

/-! ## Requests (R418) -/

section
variable (s : State) (b : FabricReq)

theorem State.serveRequest_off (h : exValid (AMap.get 0 s.exports b.expix) = false) : s.serveRequest b = .refuse s := by
  simp only [State.serveRequest, h, if_true]

variable (hv : exValid (AMap.get 0 s.exports b.expix) = true)
include hv

theorem State.serveRequest_key (hk : exKey (AMap.get 0 s.exports b.expix) ≠ b.key.toNat) : s.serveRequest b =
    .refuse (s.journalEvent 0x12 b.expix 6 0 (exWorld (AMap.get 0 s.exports b.expix))).1 := by
  simp only [State.serveRequest, hv, Bool.true_eq_false, if_false, ne_eq, hk, not_false_eq_true, if_true]

variable (hk : exKey (AMap.get 0 s.exports b.expix) = b.key.toNat)
include hk

theorem State.serveRequest_limit (hl : exLimit (AMap.get 0 s.exports b.expix) + 1 < b.off + b.len) :
    s.serveRequest b = .refuse s := by
  simp only [State.serveRequest, hv, Bool.true_eq_false, if_false, ne_eq, hk, not_true_eq_false, hl, if_true]

variable (hl : b.off + b.len ≤ exLimit (AMap.get 0 s.exports b.expix) + 1)
include hl

theorem State.serveRequest_forbidden (ha : exAllows (AMap.get 0 s.exports b.expix) b.write = false) :
    s.serveRequest b = .refuse s := by
  simp only [State.serveRequest, hv, Bool.true_eq_false, if_false, ne_eq, hk, not_true_eq_false, Nat.not_lt.mpr hl, ha, if_true]

theorem State.serveRequest_access (ha : exAllows (AMap.get 0 s.exports b.expix) b.write = true) :
    s.serveRequest b = s.serveAccess (AMap.get 0 s.exports b.expix) b := by
  simp only [State.serveRequest, hv, Bool.true_eq_false, if_false, ne_eq, hk, not_true_eq_false, Nat.not_lt.mpr hl, ha]

end

section
variable (s : State) (d : BitVec 256) (b : FabricReq)
  (hva : (exBase d + b.off) % 2 ^ 64 + b.len ≤ 0x00F0000000000000)
include hva

theorem State.serveAccess_read (hw : b.write = false) {bs : List Byte} {e : Eng}
    (h : engRead (feCtx (exWorld d)) [] ((exBase d + b.off) % 2 ^ 64) b.len ⟨s, 0⟩ = .ok (bs, e)) :
    s.serveAccess d b = .done e.s bs := by
  simp only [State.serveAccess, Nat.not_lt.mpr hva, if_false, hw, Bool.false_eq_true, h]

theorem State.serveAccess_faults (hw : b.write = false) {a : Nat}
    (h : engRead (feCtx (exWorld d)) [] ((exBase d + b.off) % 2 ^ 64) b.len ⟨s, 0⟩ = .error (.wait a)) :
    s.serveAccess d b = .hold := by
  simp only [State.serveAccess, Nat.not_lt.mpr hva, if_false, hw, Bool.false_eq_true, h]

theorem State.serveAccess_write (hw : b.write = true) {e : Eng}
    (h : engPut (exWriter b) (feCtx (exWorld d)) [] ((exBase d + b.off) % 2 ^ 64) (b.data.take b.len) ⟨s, 0⟩ = .ok ((), e)) :
    s.serveAccess d b = (e.s.exportClasp d (exWriter b) e.stamp b.len).elim (.owed e.s e.stamp) (fun t => .done t []) := by
  simp only [State.serveAccess, Nat.not_lt.mpr hva, if_false, hw, if_true, h]
  cases e.s.exportClasp d (exWriter b) e.stamp b.len <;> rfl

end

/-! ## A thread's answer (R34, R419) -/

theorem SameBytes.trans {s t u : State} (h : SameBytes s t) (h' : SameBytes t u) : SameBytes s u :=
  ⟨fun a => (h'.1 a).trans (h.1 a), fun c a => (h'.2 c a).trans (h.2 c a)⟩

theorem State.slot_raisePts (s : State) (c x d i : Nat) : (s.raisePts c x).slot d i = s.slot d i := by
  rw [State.raisePts, State.modCore_eq, State.slot, State.core_putCore]
  split
  · subst_vars; rfl
  · rfl

theorem State.task_raisePts (s : State) (c x d w : Nat) : (s.raisePts c x).task d w = s.task d w := by
  rw [State.raisePts, State.modCore_eq, State.task, State.core_putCore]
  split
  · subst_vars; rfl
  · rfl

@[simp] theorem State.curSlot_raisePts (s : State) (c x : Nat) : (s.raisePts c x).curSlot = s.curSlot := s.slot_raisePts _ _ _ _
@[simp] theorem State.curWs_raisePts (s : State) (c x : Nat) : (s.raisePts c x).curWs = s.curWs := by simp [State.curWs]
@[simp] theorem State.curTask_raisePts (s : State) (c x : Nat) : (s.raisePts c x).curTask = s.curTask := by
  rw [State.curTask, State.curWs_raisePts, State.task_raisePts]; rfl
@[simp] theorem State.rd_raisePts (s : State) (c x : Nat) (r : BitVec 5) : (s.raisePts c x).rd r = s.rd r := by simp [State.rd]

theorem State.sameBytes_raisePts (s : State) (c x : Nat) : SameBytes s (s.raisePts c x) := by
  refine ⟨fun _ => rfl, fun d a => ?_⟩
  rw [State.raisePts, State.modCore_eq, State.spadByte, State.core_putCore]
  split
  · subst_vars; rfl
  · rfl

/-- Where a parked load stands whose data has been answered (R34). -/
structure Loaded (s t : State) (d : BitVec 5) (v : Word) (at_ : Nat) : Prop where
  value : t.rd d = v
  regs : SameRegs s t [d]
  task : t.curTask = { s.curTask with park := .run, pc := s.npc, pastEnd := s.nextPc?.isNone, resume := none }
  nextAt : t.curSlot.nextAt = at_
  bytes : SameBytes s t

theorem State.takeAnswer_loaded (s : State) (d : BitVec 5) (v : Word) (at_ : Nat) :
    Loaded s (s.takeAnswer (answerOk (some (d, v)) 0) at_) d v at_ := by
  let p := ((((s.parkCur .run).raisePts s.actCore 0).wr d v).orFlags 0)
  have ht : p.curTask = { s.curTask with park := .run } := by simp [p, State.parkCur]
  have hn : p.npc = s.npc := State.npc_congr (by rw [ht]) (by rw [ht])
  have hp : p.nextPc? = s.nextPc? := State.nextPc?_congr (by rw [ht]) (by rw [ht])
  show Loaded s ((p.finish 1).goAt at_) d v at_
  refine ⟨?_, fun r hr => ?_, ?_, ?_, ?_⟩
  · show ((p.finish 1).goAt at_).rd d = v
    rw [State.goAt, State.rd_modCurSlot]
    exact (State.rd_finish p 1 d).trans (by simp [p])
  · rw [State.goAt, State.rd_modCurSlot]
    refine (State.rd_finish p 1 r).trans ?_
    simp [p, State.rd_wr_ne _ _ (List.ne_of_not_mem_cons hr), State.parkCur]
  · rw [State.goAt, State.curTask_modCurSlot _ _ rfl, State.curTask_finish, ht, hn, hp]
  · rw [State.goAt, State.curSlot_modCurSlot]
  · have hpark := (s.sameBytes_modCurTask (fun t => { t with park := .run })).trans (State.sameBytes_raisePts _ s.actCore 0)
    have hwr : SameBytes _ p := (SameElse.modCurSlot ((s.parkCur .run).raisePts s.actCore 0) _).sameBytes.trans
      (State.sameBytes_modCurTask _ _)
    exact (hpark.trans hwr).trans ((State.finish_sameElse p 1).sameBytes.trans (SameElse.modCurSlot _ _).sameBytes)

/-- What a load of n bytes gives, signed or not (R8, R194). -/
theorem loadWord_eq (n : Nat) (sg : Bool) (v : Nat) : loadWord n sg v =
    if sg then (BitVec.ofNat (8 * n) v).signExtend 64 else BitVec.ofNat 64 v := by
  cases sg with
  | false => rfl
  | true =>
    show ((BitVec.ofNat 64 v).setWidth (8 * n)).signExtend 64 = (BitVec.ofNat (8 * n) v).signExtend 64
    rcases Nat.le_total (8 * n) 64 with h | h
    · rw [BitVec.setWidth_ofNat_of_le h]
    · rw [BitVec.signExtend_eq_setWidth_of_le _ h, BitVec.signExtend_eq_setWidth_of_le _ h, BitVec.setWidth_ofNat_of_le h,
        BitVec.setWidth_setWidth_of_le _ h, BitVec.setWidth_eq]

section
variable (s : State) {c j win ea : Nat} {op : ReqOp}

theorem State.askedOf_thread (hws : (s.actAs c j).curSlot.ws ≠ none) (hp : (s.actAs c j).curTask.park = .fabric win ea op) :
    s.askedOf (.thread c j) = some ((s.core c).world, win) := by
  obtain ⟨w, hw⟩ := Option.ne_none_iff_exists'.mp hws
  have hs : (s.slot c j).ws = some w := hw
  have ht : (s.task c w).park = .fabric win ea op := by
    rw [← hp, State.curTask, State.curWs, hw]; rfl
  simp only [State.askedOf, hs, Option.map_some, ht]

/-- A thread that waits for no fabric window asks nobody. -/
theorem State.askedOf_idle (hf : ∀ w e o, (s.actAs c j).curTask.park ≠ .fabric w e o)
    (hb : ∀ t x f y a, (s.actAs c j).curTask.park ≠ .bdDecl t x f y (some a)) : s.askedOf (.thread c j) = none := by
  cases hw : (s.slot c j).ws with
  | none => simp only [State.askedOf, hw, Option.map_none]
  | some w =>
    have ht : (s.actAs c j).curTask.park = (s.task c w).park := by
      rw [State.curTask, State.curWs, show (s.actAs c j).curSlot.ws = some w from hw]; rfl
    simp only [ht] at hf hb
    simp only [State.askedOf, hw, Option.map_some]
    split
    next hp => exact absurd (Option.some.inj hp) (hf _ _ _)
    next hp => exact absurd (Option.some.inj hp) (hb _ _ _ _ _)
    next => rfl

theorem State.askerOf_thread (hc : c < 2048) (hj : j < 16) : s.askerOf c j = some (.thread c j) := by
  rw [State.askerOf, if_neg (Nat.not_le.mpr hc), if_pos hj]

theorem exec_fabricAnswer_idle (ok : Bool) (data : FabricReply) (hc : c < 2048) (hj : j < 16)
    (h : s.askedOf (.thread c j) = none) : exec (.fabricAnswer c j ok data) s = .next s := by
  show execFabricAnswer c j ok data s = .next s
  rw [execFabricAnswer, State.askerOf_thread s hc hj]
  simp only [State.askLink, h, Option.map_none]

theorem exec_fabricAnswer_thread (ok : Bool) (bs : List Byte) (flits : List (List Byte)) (hc : c < 2048) (hj : j < 16)
    (h : s.askedOf (.thread c j) = some ((s.core c).world, win)) : exec (.fabricAnswer c j ok ⟨bs, flits⟩) s =
      .next (s.arriveOn (s.portOf (s.core c).world win) (Config.flits bs.length) (answerText ok bs) flits
        (fun t => t.threadFabric c j ok bs)) := by
  show execFabricAnswer c j ok ⟨bs, flits⟩ s = _
  rw [execFabricAnswer, State.askerOf_thread s hc hj]
  simp only [State.askLink, h, Option.map_some, State.giveAnswer]

theorem State.threadFabric_eq (hws : (s.actAs c j).curSlot.ws ≠ none) (hp : (s.actAs c j).curTask.park = .fabric win ea op)
    (ok : Bool) (data : List Byte) :
    s.threadFabric c j ok data = (s.actAs c j).takeAnswer (fabricAnswer ea op ok data) (s.cycle + 8) := by
  obtain ⟨w, hw⟩ := Option.ne_none_iff_exists'.mp hws
  simp only [State.threadFabric, hw, hp]
end

/-- A late trap with a handler and none running, as claims state it (R107). -/
theorem lateTraps_of_exec {s w : State} {i : Instr} {x : Trap} (h : exec i s = .next (w.takeLateTrap x)) : LateTraps s i w x :=
  fun vec hv h0 hvec hne => ⟨_, w.takeTrap_handlerEntered x vec hv h0 hvec hne, h⟩

end Sys2Proof.Machine
end

section
/-! Boot, quotes, fabric requests and answers, keys, links and engine faults (R22, R27, R28, R119, R417 to R423, R430). -/

namespace Sys2Proof.Machine

/-! ## Requests that are served, refused or held (R418) -/

section
variable {s t : State} {b : FabricReq}

theorem State.runRequest_refuse (h : s.serveRequest b = .refuse t) : s.runRequest b = t.answerOut b.port false [] := by
  rw [State.runRequest, h]

theorem State.runRequest_hold (h : s.serveRequest b = .hold) : s.runRequest b = { s with fabIn := s.fabIn ++ [(b, none)] } := by
  rw [State.runRequest, h]

theorem State.runRequest_owed {stamp : Nat} (h : s.serveRequest b = .owed t stamp) :
    s.runRequest b = { t with fabIn := t.fabIn ++ [(b, some stamp)] } := by
  rw [State.runRequest, h]

theorem State.runRequest_done {data : List Byte} (h : s.serveRequest b = .done t data) :
    s.runRequest b = t.answerOut b.port true data := by
  rw [State.runRequest, h]

end

/-- The exports are the same once a request's flits have come. -/
theorem State.export_takeFlits (s : State) (l n i : Nat) :
    AMap.get 0 (s.takeFlits l n).exports i = AMap.get 0 s.exports i := by rw [(s.takeFlits_linksOnly l n).exports]

/-- A request with a wrong key is refused and journalled, and no byte changes (R418). -/
theorem State.wrongKey_answered (s : State) (b : FabricReq) (w : Nat) (hd : (s.link b.port).down = false) :
    (∃ r, .fabricAns b.port false r ∈ ((s.journalEvent 0x12 b.expix 6 0 w).1.answerOut b.port false []).reports) ∧
      SameBytes s ((s.journalEvent 0x12 b.expix 6 0 w).1.answerOut b.port false []) ∧
      (s.journal.length + s.coalesce.length < 4194304 →
        ∃ e, ((s.journalEvent 0x12 b.expix 6 0 w).1.answerOut b.port false []).journal.getLast? = some e ∧
          e.cls = 6 ∧ e.kind = 0x12 ∧ e.phys = b.expix) := by
  have hj := s.journalEvent_only 0x12 b.expix 6 0 w
  obtain ⟨hr, hjournal, hbytes⟩ := (s.journalEvent 0x12 b.expix 6 0 w).1.answerOut_up (l := b.port) false []
    (by rw [State.link, hj.links]; exact hd)
  exact ⟨hr, (SameBytes.of_eq hj.mem hj.cores).trans hbytes,
    fun hroom => ⟨_, hjournal ▸ s.journalEvent_last 0x12 b.expix 6 0 w hroom, rfl, rfl, rfl⟩⟩

/-- A write to an export with no clasp is owed to none. -/
theorem State.exportClasp_none (s : State) {d : BitVec 256} (id stamp n : Nat) (h : exClasp d = 0) :
    s.exportClasp d id stamp n = some s := if_pos h

/-- A write to an export with a clasp is counted by it at once, or owed. -/
theorem State.exportClasp_some (s : State) {d : BitVec 256} (id stamp n : Nat) (h : exClasp d ≠ 0) :
    s.exportClasp d id stamp n = (s.claspNow (feCtx (exWorld d)) (exClasp d) stamp (fun c => c.add n)).map (fun t =>
      t.noteCounted (feCtx (exWorld d)) (exClasp d) id) := if_neg h

/-! ## Key slots (R420, R421) -/

@[simp] theorem State.keySlot_putKey_same (s : State) (net : Bool) (slot : Nat) (k : KeySlot) :
    (s.putKey net slot k).keySlot net slot = k := by
  simp [State.keySlot, State.putKey]

theorem Quiet.keySlot {s t : State} (h : Quiet s t) (net : Bool) (slot : Nat) : t.keySlot net slot = s.keySlot net slot := by
  rw [State.keySlot, h.keys, State.keySlot]

/-- A slot's accepted commands and its counter after one more (R420, R421). -/
def KeySlot.accept (k : KeySlot) (b : CipherCmd) : KeySlot :=
  { k with
    accepted := k.accepted ++ [(b.decrypt, if b.net = true ∧ b.decrypt = false then k.counter else b.first, b.data.take b.len)]
    counter := if b.net = true ∧ b.decrypt = false then k.counter + 1 else k.counter }

/-- A command for a live slot of its world is accepted if it is a packet or whole data units. -/
theorem State.cipherCommand_whole (s : State) (b : CipherCmd) (hslot : b.slot < 1024) (hlive : (s.keySlot b.net b.slot).state = 1)
    (hworld : (s.keySlot b.net b.slot).world = b.world) : exec (.cipherCommand b) s =
      if b.net = true ∨ (b.first % 4096 = 0 ∧ b.len % 4096 = 0) then
        .next ((s.putKey b.net b.slot ((s.keySlot b.net b.slot).accept b)).report (.cipher b.slot 0))
      else .next (s.report (.cipher b.slot 2)) := by
  have hgood : ¬(1024 ≤ b.slot ∨ (s.keySlot b.net b.slot).state ≠ 1 ∨ (s.keySlot b.net b.slot).world ≠ b.world) := by
    simp [hlive, hworld, hslot]
  refine (if_neg hgood).trans ?_
  by_cases hwhole : b.net = true ∨ (b.first % 4096 = 0 ∧ b.len % 4096 = 0)
  · rw [if_pos hwhole, if_neg (by rintro ⟨hnet, hpart⟩; simp [hnet] at hwhole; omega)]
    simp only [KeySlot.accept, Bool.and_eq_true, Bool.not_eq_true']
  · obtain ⟨hnet, hpart⟩ := not_or.mp hwhole
    rw [if_neg hwhole, if_pos ⟨Bool.not_eq_true _ ▸ hnet, by omega⟩]

/-! ## Links (R422, R425) -/

/-- The lane an error is journalled with is one of its port's (R25, R426). -/
theorem State.errorLane_port (s : State) (l : Nat) : (s.errorLane l).phys / 4 = l % 16 := by
  have hlane : ∀ (p : Nat → Bool) (i : Nat), ((List.range 4).filter p)[i]?.getD 0 < 4 := by
    intro p i
    cases h : ((List.range 4).filter p)[i]? with
    | none => decide
    | some x => exact List.mem_range.mp (List.mem_filter.mp (List.mem_of_getElem? h)).1
  have := hlane (fun i => s.enabled (if l < 16 then 6 else 7) (4 * (l % 16) + i))
    ((Config.freeValue s.freeCount).toNat % max 1 ((List.range 4).filter (fun i =>
      s.enabled (if l < 16 then 6 else 7) (4 * (l % 16) + i))).length)
  simp only [State.errorLane]
  omega

/-- What a torn-down link leaves before its requests in flight are lost: the link down, its entry journalled, no byte changed. -/
structure TornDown (s : State) (l : Nat) (t : State) : Prop where
  down : (t.link l).down = true
  others : ∀ m, m ≠ l → t.link m = s.link m
  bytes : SameBytes s t
  entry : s.journal.length + s.coalesce.length < 4194304 → ∃ e ∈ t.journal, e.kind = (if l < 16 then 6 else 7) ∧
    e.phys / 4 = l % 16 ∧ e.addr = e.phys ∧ e.cls = 5 ∧ e.boot = s.bootCount

theorem State.linkDown_tornDown (s : State) (l : Nat) : TornDown s l (s.linkDown l) := by
  have hj := State.journalEvent_only { s with freeCount := s.freeCount + 1 } (s.errorLane l).kind (s.errorLane l).phys 5
    (s.errorLane l).phys 0
  refine ⟨?_, fun m hm => ?_, .of_eq hj.mem hj.cores, fun hroom => ?_⟩
  · rw [State.link_linkDown, if_pos rfl]
  · rw [State.link_linkDown, if_neg hm]
  · exact ⟨_, State.journalEvent_mem { s with freeCount := s.freeCount + 1 } _ _ _ _ _ hroom, rfl, s.errorLane_port l, rfl, rfl, rfl⟩

/-- A link's failure, for each event that tears it down. -/
theorem linkFailed {s : State} {l : Nat} {i : Instr} (h : exec i s = if l < 24 then .next (s.tearDown l) else .next s) :
    (24 ≤ l → exec i s = .next s) ∧ (l < 24 → ∃ t, exec i s = .next (t.loseLink l) ∧
      (t.link l).down = true ∧ (∀ m, m ≠ l → t.link m = s.link m) ∧ SameBytes s t ∧
      (s.journal.length + s.coalesce.length < 4194304 → ∃ e ∈ t.journal, e.kind = (if l < 16 then 6 else 7) ∧
        e.phys / 4 = l % 16 ∧ e.addr = e.phys ∧ e.cls = 5 ∧ e.boot = s.bootCount)) := by
  refine ⟨fun hl => by rw [h, if_neg (Nat.not_lt.mpr hl)], fun hl => ?_⟩
  obtain ⟨hdown, hothers, hbytes, hentry⟩ := s.linkDown_tornDown l
  exact ⟨s.linkDown l, by rw [h, if_pos hl, State.tearDown_eq], hdown, hothers, hbytes, hentry⟩

/-! ## The obligation -/

/-- Settles O53: boot by what it lays out anew, requests and answers by the checks in their order, a link that is torn down by
what a refusal leaves of the links, keys and engine faults by cases. -/
theorem platformServicesFollowR418ToR430 : Obligations.PlatformServicesFollowR418ToR430 := by
  refine ⟨?boot, ?reports, ?requests, ?answers, ?keys, ?links, ?engines⟩
  case boot =>
    refine fun s v us => ⟨⟨s.bootUp, rfl, rfl, rfl, rfl, rfl, rfl, fun _ => rfl, rfl, fun _ => s.bootUp_world, rfl, rfl, fun _ => rfl,
      fun _ => s.bootUp_mappedOut, fun _ => s.bootUp_link_trained⟩, ⟨_, rfl, rfl, rfl, rfl, rfl⟩, rfl⟩
  case reports =>
    exact fun s w first n x e r c => ⟨⟨_, rfl⟩, ⟨_, rfl⟩, rfl, chained_length (e :: r) c⟩
  case requests =>
    intro s b d i u comes good no fits va on
    have hdue : comes → good → exec i s = .next (u.runRequest b) := fun hc hg =>
      congrArg Host.Outcome.next (s.arriveOn_due _ _ _ hc.1 hc.2 hg)
    have hd : AMap.get 0 u.exports b.expix = d := s.export_takeFlits _ _ _
    have hvalid : d.getLsbD 63 = true → exValid (AMap.get 0 u.exports b.expix) = true := fun h => by rw [hd, exValid_eq, h]
    have hkey : d.toNat / 2 ^ 64 % 2 ^ 64 = b.key.toNat → exKey (AMap.get 0 u.exports b.expix) = b.key.toNat := fun h => by
      rw [hd, exKey_eq, h]
    have hlimit : fits → b.off + b.len ≤ exLimit (AMap.get 0 u.exports b.expix) + 1 := fun h => by rw [hd, exLimit_eq]; exact h
    have hva : (exBase d + b.off) % 2 ^ 64 = va := by rw [exBase_eq]
    have haccess : on → fits → d.getLsbD (if b.write then 61 else 62) = true → u.serveRequest b = u.serveAccess d b := by
      intro hon hf ha
      rw [u.serveRequest_access b (hvalid hon.1) (hkey hon.2) (hlimit hf) (by rw [hd, exAllows_eq, ha]), hd]
    refine ⟨fun hnot => ?_, fun hc hg => ?_, fun hc hg => ⟨fun hoff => ?_, fun hv hk => ?_, fun hon hf => ?_, fun hon hf ha => ?_,
      fun bs e hon hf ha hw hle hread => ?_, fun a hon hf ha hw hle hread => ?_, fun e hon hf ha hw hle hput => ?_⟩⟩
    · refine congrArg Host.Outcome.next (s.arriveOn_closed _ _ _ _ _ ?_)
      by_contra hno
      simp only [not_or, Nat.not_le, Bool.not_eq_true] at hno
      exact hnot hno
    · exact ⟨_, congrArg Host.Outcome.next (s.arriveOn_forged _ _ _ hc.1 hc.2 hg), s.tearDown_down _⟩
    · show exec i s = _
      rw [hdue hc hg, State.runRequest_refuse (u.serveRequest_off b (by rw [hd, exValid_eq, hoff]))]
    · have hrefuse := u.serveRequest_key b (hvalid hv) (by rw [hd, exKey_eq]; exact hk)
      obtain ⟨⟨r, hr⟩, hbytes, hentry⟩ := u.wrongKey_answered b _ ((s.takeFlits_down _ _).trans hc.2)
      have hu := s.takeFlits_linksOnly b.port (Config.flits b.len)
      exact ⟨_, r, by rw [hdue hc hg, State.runRequest_refuse hrefuse], hr, (SameBytes.of_eq hu.mem hu.cores).trans hbytes,
        fun hroom => hentry (by rw [hu.journal, hu.coalesce]; exact hroom)⟩
    · show exec i s = _
      rw [hdue hc hg, State.runRequest_refuse (u.serveRequest_limit b (hvalid hon.1) (hkey hon.2) (by
        rw [hd, exLimit_eq]; exact Nat.not_le.mp hf))]
    · show exec i s = _
      rw [hdue hc hg, State.runRequest_refuse (u.serveRequest_forbidden b (hvalid hon.1) (hkey hon.2) (hlimit hf) (by
        rw [hd, exAllows_eq, ha]))]
    · rw [hdue hc hg, State.runRequest_done ((haccess hon hf (by rw [hw]; exact ha)).trans
        (u.serveAccess_read d b (hva ▸ hle) hw (hva ▸ hread)))]
    · rw [hdue hc hg, State.runRequest_hold ((haccess hon hf (by rw [hw]; exact ha)).trans
        (u.serveAccess_faults d b (hva ▸ hle) hw (hva ▸ hread)))]
    · have hserve := (haccess hon hf (by rw [hw]; exact ha)).trans (u.serveAccess_write d b (hva ▸ hle) hw (hva ▸ hput))
      rw [hdue hc hg]
      refine ⟨fun h0 => ?_, fun h0 => ⟨fun y hy => ?_, fun hy => ?_⟩⟩
      · rw [e.s.exportClasp_none _ _ _ ((exClasp_eq d).trans h0)] at hserve
        rw [State.runRequest_done hserve]
      · rw [e.s.exportClasp_some _ _ _ (by rwa [exClasp_eq]), exClasp_eq, hy] at hserve
        rw [State.runRequest_done hserve]
      · rw [e.s.exportClasp_some _ _ _ (by rwa [exClasp_eq]), exClasp_eq, hy] at hserve
        rw [State.runRequest_owed hserve]
  case answers =>
    intro s c j win ea n sg d bs flits u l due hcore hj
    have hu : LinksOnly s (s.takeFlits l (Config.flits bs.length)) := s.takeFlits_linksOnly _ _
    have hcomes : ∀ ok, s.askedOf (.thread c j) = some ((s.core c).world, win) → (s.link l).down = false → l < 24 →
        exec (.fabricAnswer c j ok ⟨bs, due ok⟩) s = .next ((s.takeFlits l (Config.flits bs.length)).threadFabric c j ok bs) :=
      fun ok hasks hup hl => (exec_fabricAnswer_thread s ok bs _ hcore hj hasks).trans
        (congrArg Host.Outcome.next (s.arriveOn_due _ _ _ hl hup rfl))
    refine ⟨fun hf hb ok => exec_fabricAnswer_idle s ok _ hcore hj (s.askedOf_idle hf hb),
      fun hws hp ok => ⟨fun hdown => ?_, fun hup hl hforged => ?_⟩, fun hws hp hup hl => ⟨?_, ?_⟩⟩
    · rw [exec_fabricAnswer_thread s ok bs flits hcore hj (s.askedOf_thread hws hp)]
      exact congrArg Host.Outcome.next (s.arriveOn_closed _ _ _ _ _ (.inr hdown))
    · rw [exec_fabricAnswer_thread s ok bs flits hcore hj (s.askedOf_thread hws hp)]
      exact ⟨_, congrArg Host.Outcome.next (s.arriveOn_forged _ _ _ hl hup hforged), s.tearDown_down l⟩
    · have hasks := s.askedOf_thread hws hp
      rw [← hu.curSlot c j] at hws
      rw [← hu.curTask c j] at hp
      obtain ⟨hvalue, hregs, htask, hnext, hbytes⟩ := State.takeAnswer_loaded
        ((s.takeFlits l (Config.flits bs.length)).actAs c j) d (loadWord n sg (natOfBytes (bs.take n)))
        ((s.takeFlits l (Config.flits bs.length)).cycle + 8)
      refine ⟨((s.takeFlits l (Config.flits bs.length)).actAs c j).takeAnswer
        (answerOk (some (d, loadWord n sg (natOfBytes (bs.take n)))) 0) ((s.takeFlits l (Config.flits bs.length)).cycle + 8),
        ?_, fun r hr => ?_, ?_, ?_, ?_, ?_⟩
      · rw [hcomes true hasks hup hl, State.threadFabric_eq _ hws hp]
        rfl
      · exact (hregs r hr).trans (hu.rd c j r)
      · rw [hnext, hu.cycle]
      · exact (SameBytes.of_eq hu.mem hu.cores).trans hbytes
      · rw [hvalue, loadWord_eq]
      · rw [htask, hu.curTask, hu.npc, hu.nextPc?]
    · have hasks := s.askedOf_thread hws hp
      rw [← hu.curSlot c j] at hws
      rw [← hu.curTask c j] at hp
      refine lateTraps_of_exec ?_
      rw [hcomes false hasks hup hl, State.threadFabric_eq _ hws hp, fabricAnswer_refused, State.takeAnswer_trap]
      rfl
  case keys =>
    intro s b k net slot K S good whole room
    refine ⟨fun hbad => if_pos ?_, fun hg hw => ?_, fun hg hw => ?_, fun hno => if_neg hno, fun hr => ⟨_, if_pos hr, ?_⟩,
      fun hno => if_neg hno, fun hs h1 => ⟨_, if_pos ⟨hs, h1⟩, ?_, rfl⟩, fun hno => if_neg hno,
      fun hs h2 ha => ⟨_, if_pos ⟨hs, h2, ha⟩, ?_⟩⟩
    · show 1024 ≤ b.slot ∨ K.state ≠ 1 ∨ K.world ≠ b.world
      by_contra hc
      simp only [not_or, Nat.not_le, ne_eq, not_not] at hc
      exact hbad hc
    · rw [s.cipherCommand_whole b hg.1 hg.2.1 hg.2.2, if_neg hw]
    · refine ⟨_, (s.cipherCommand_whole b hg.1 hg.2.1 hg.2.2).trans (if_pos hw), ?_, ?_⟩
      · exact List.mem_append_right _ (List.mem_singleton.mpr rfl)
      · exact s.keySlot_putKey_same b.net b.slot _
    · rw [State.keySlot_putKey_same]
      exact ⟨rfl, rfl, rfl, rfl⟩
    · rw [State.keySlot_putKey_same, KeySlot.revoke, if_pos h1]
    · have hq := State.destroyOn_quiet ((s.putKey net slot KeySlot.reset).report (.revoked net slot)) S.world
      have hslot : ((((s.putKey net slot KeySlot.reset).report (.revoked net slot)).destroyOn S.world).keySlot net slot) = KeySlot.reset :=
        (hq.keySlot net slot).trans (s.keySlot_putKey_same net slot KeySlot.reset)
      exact ⟨congrArg KeySlot.state hslot, congrArg KeySlot.key1 hslot, congrArg KeySlot.key2 hslot,
        hq.reports (List.mem_append_right _ (List.mem_singleton.mpr rfl))⟩
  case links =>
    refine fun s l => ⟨linkFailed rfl, linkFailed rfl, fun hno => if_neg ?_, fun hl hon => ⟨_, if_pos ⟨hl, hon⟩, ?_⟩,
      fun hl => if_neg (Nat.not_lt.mpr hl), fun hl => ⟨_, if_pos hl, ?_⟩⟩
    · rintro ⟨hl, hon⟩
      rcases hno with h | h
      · omega
      · rw [h] at hon; cases hon
    · have hlink : ∀ m, State.link _ m = if m = l then { (s.rekey l).link l with down := false } else (s.rekey l).link m :=
        fun m => (s.rekey l).link_putLink l m { (s.rekey l).link l with down := false }
      refine ⟨?_, ?_, ?_, fun m hm => ?_⟩
      · rw [hlink, if_pos rfl, State.link_rekey_same]
      · rw [hlink, if_pos rfl, State.link_rekey_same]
      · rw [hlink, if_pos rfl]
      · rw [hlink, if_neg hm, State.link_rekey_ne _ hm]
    · rw [State.link_rekey_same]
      exact ⟨rfl, rfl, rfl, fun m hm => s.link_rekey_ne hm⟩
  case engines =>
    intro s c i n p
    refine ⟨fun ok hq => ?_, fun ok hm => ?_, fun m a hm hf => ?_, fun r a hr hf => ?_, fun ws t due a f b hws hp => ?_, rfl,
      fun ok hs => ?_, fun ok hfab => ?_⟩
    · have hnone : (s.core c).vq.find? (fun q => q.started && q.fault.isSome) = none := by
        refine List.find?_eq_none.mpr fun q hmem => ?_
        rcases hq q hmem with h | h <;> simp [h]
      show execEngineFaultResolved (.vector c) ok s = _
      simp only [execEngineFaultResolved, hnone]
    · show Host.Outcome.next (s.drainAnswer n ok) = _
      rw [State.drainAnswer, hm]
    · show Host.Outcome.next (s.drainAnswer n true) = _
      simp only [State.drainAnswer, hm, hf, if_true]
    · refine ⟨s.putSett n { s.sett n with places := AMap.put (s.sett n).places p { r with fault := none } }, ?_, ?_, rfl⟩
      · show Host.Outcome.next (s.placeAnswer n p true) = _
        simp only [State.placeAnswer, State.copyAnswer, hr, hf, if_true]
      · rw [State.sett_putSett_same, AMap.find_put_same]
    · show Host.Outcome.next (s.declAnswer c i true) = _
      simp only [State.declAnswer, hws, hp, if_true]
    · show Host.Outcome.next (s.spoilAnswer ok) = _
      rw [State.spoilAnswer, hs]
    · show Host.Outcome.next (s.inboundAnswer ok) = _
      rw [State.inboundAnswer, hfab]

end Sys2Proof.Machine
end

section
/-! Which turn a step leaves in hand (R30, R34, R46, R107, R340, R414), and what it runs (R147 to R158, R306, R330). -/

namespace Sys2Proof.Machine

/-! ## The next turn (R30) -/

theorem turnOk_event {s : State} {i : Instr} (h : s.turn = .event i) : turnOk s = true := by rw [turnOk, h]

theorem turnOk_cycle {s : State} (h : s.turn = .cycle) : turnOk s = true := by rw [turnOk, h]

theorem turnOk_thread {s : State} {c i : Nat} (h : s.turn = .thread c i) (hdue : s.threadDue c i = true) : turnOk s = true := by
  rw [turnOk, h]; exact hdue

theorem turnOk_burrow {s : State} {c i : Nat} (h : s.turn = .burrow c i) (hdue : s.burrowDue c i = true) : turnOk s = true := by
  rw [turnOk, h]; exact hdue

/-- What is turned are the same elements. -/
theorem mem_of_mem_turned {α : Type} {k : Nat} {l : List α} {x : α} (h : x ∈ turned k l) : x ∈ l := by
  rcases List.mem_append.mp h with h | h
  · exact List.mem_of_mem_drop h
  · exact List.mem_of_mem_take h

theorem State.mem_beatsDue {s : State} {c : Nat} (h : c ∈ s.beatsDue) :
    s.threadDue c (s.cycle % 16) = true ∨ s.burrowDue c (s.cycle % 16) = true := by
  obtain ⟨e, he, rfl⟩ := List.mem_map.mp h
  simpa using (List.mem_filter.mp he).2

theorem State.chose_frame (s : State) : s.chose = { s with freeCount := s.chose.freeCount } := by
  unfold State.chose; split <;> rfl

/-- A beat is chosen among those that are due (R30). -/
theorem State.beatTurn_cases (s : State) : (∃ e, s.beatTurn = .event e) ∨ s.beatTurn = .cycle ∨
    (∃ c i, s.beatTurn = .thread c i ∧ s.threadDue c i = true) ∨ ∃ c i, s.beatTurn = .burrow c i ∧ s.burrowDue c i = true := by
  unfold State.beatTurn
  cases hb : turned (Config.freeValue s.freeCount).toNat s.beatsDue with
  | nil =>
    dsimp only
    split
    · exact .inl ⟨_, rfl⟩
    · exact .inr (.inl rfl)
  | cons c r =>
    have hc : c ∈ s.beatsDue := mem_of_mem_turned (hb ▸ List.mem_cons_self)
    by_cases ht : s.threadDue c (s.cycle % 16) = true
    · exact .inr (.inr (.inl ⟨c, _, if_pos ht, ht⟩))
    · exact .inr (.inr (.inr ⟨c, _, if_neg ht, (State.mem_beatsDue hc).resolve_left ht⟩))

theorem State.beatTurn_legal (s : State) : turnOk { s.chose with turn := s.beatTurn } = true := by
  rw [s.chose_frame]
  rcases s.beatTurn_cases with ⟨e, h⟩ | h | ⟨c, i, h, hdue⟩ | ⟨c, i, h, hdue⟩
  · exact turnOk_event h
  · exact turnOk_cycle h
  · exact turnOk_thread h hdue
  · exact turnOk_burrow h hdue

/-- What comes from outside is an event, or waits for boot. -/
theorem turnOk_inbox {s : State} {b : Bool} {i : Instr} (h : s.turn = if b then .event i else .cycle) : turnOk s = true := by
  cases b
  · exact turnOk_cycle h
  · exact turnOk_event h

theorem State.arm_legal (s : State) : turnOk s.arm = true := by
  unfold State.arm
  split
  · exact turnOk_event rfl
  · split
    · exact turnOk_inbox rfl
    · split
      · exact turnOk_cycle rfl
      · split
        · exact turnOk_event rfl
        · split
          · exact turnOk_event rfl
          · exact s.beatTurn_legal

theorem State.settleStep_legal (s t : State) : turnOk (s.settleStep t) = true := by
  unfold State.settleStep
  split
  · exact turnOk_event rfl
  · exact State.arm_legal _

theorem step_next {s t : State} (h : step s = .next t) : ∃ u, s.runTurn = .next u ∧ t = s.settleStep u := by
  unfold step at h
  split at h
  · next u hu => exact ⟨u, hu, by cases h; rfl⟩
  · cases h
  · cases h

/-- Settles O59: whatever a step has run, the turn in hand afterwards is one that its end chose, and it chooses a beat only
among those that are due. -/
theorem everyStepLeavesALegalTurn : Obligations.EveryStepLeavesALegalTurn := by
  intro s t _ h
  obtain ⟨u, -, rfl⟩ := step_next h
  exact s.settleStep_legal u

/-! ## What a step runs -/

theorem step_eq (s : State) : step s = settledOutcome s s.runTurn := by
  unfold step settledOutcome
  cases s.runTurn <;> rfl

theorem State.issueHere_line (s : State) {l : ILine} (ha : s.issueAt s.curTask.pc.toNat = none)
    (hl : s.cur.line? (lineOf s.curTask.pc.toNat) = some l) :
    s.issueHere = s.issueWord l (wordIndex s.curTask.pc.toNat) := by
  simp only [State.issueHere, ha, hl]

theorem State.issueWord_meets (s : State) (l : ILine) (n : Nat) (h : l.meets n = true) :
    s.issueWord l n = ((s.latch noIssue).refetch l).demandLine s.curTask.pc.toNat := if_pos h

theorem State.issueWord_passes (s : State) (l : ILine) (n : Nat) (h : l.meets n = false)
    (hc : lineCheck l.header n (lengthOf (l.word n)) = 0) :
    s.issueWord l n = (s.issued l n).runDecoded (decodeNative (l.word n) (l.rest n)) := by
  simp only [State.issueWord, h, hc, Bool.false_eq_true, if_false]

theorem State.issueWord_fails (s : State) (l : ILine) (n sub : Nat) (h : l.meets n = false)
    (hc : lineCheck l.header n (lengthOf (l.word n)) = sub + 1) :
    s.issueWord l n = .next ((s.latch (l.issue n)).takeTrap (trapOf 3 (sub + 1))) := by
  simp only [State.issueWord, h, hc, Bool.false_eq_true, if_false]

/-- A beat whose task is past its landing check and whose pc names a word of a present line issues that word. -/
theorem step_thread_issues {s : State} {c k : Nat} {l : ILine} (ht : s.turn = .thread c k)
    (hf : (s.actAs c k).settleBefore.curTask.fresh = false)
    (ha : (s.actAs c k).settleBefore.issueAt (s.actAs c k).settleBefore.curTask.pc.toNat = none)
    (hl : (s.actAs c k).settleBefore.cur.line? (lineOf (s.actAs c k).settleBefore.curTask.pc.toNat) = some l) :
    step s = settledOutcome s ((s.actAs c k).settleBefore.issueWord l (wordIndex (s.actAs c k).settleBefore.curTask.pc.toNat)) := by
  rw [step_eq, ← State.issueHere_line _ ha hl]
  simp only [State.runTurn, ht, State.threadBeat, hf, Bool.false_eq_true, if_false]

/-- Settles O58, turn by turn: a thread's by what its word comes to, and the other turns by what they run. -/
theorem stepRunsWhatItDecodes : Obligations.StepRunsWhatItDecodes := by
  refine ⟨fun s c k l ht => ?_, fun s c k i ht hin hmeter hdec => ?_, fun s c w i ht hw hdec => ?_, fun s i ht => ?_, fun s ht => ?_⟩
  · intro v u a n hf ha hl
    have hstep : step s = settledOutcome s (u.issueWord l n) := step_thread_issues ht hf ha hl
    refine ⟨fun hm => ?_, fun i hm hc hd => ?_, fun sub hm hc hd => ?_, fun sub hm hc => ?_⟩
    · rw [hstep, u.issueWord_meets l n hm]
    · rw [hstep, u.issueWord_passes l n hm hc, hd]; rfl
    · rw [hstep, u.issueWord_passes l n hm hc, hd]; rfl
    · rw [hstep, u.issueWord_fails l n sub hm hc]; rfl
  · rw [step_eq]
    simp only [State.runTurn, ht, State.burrowBeat, hin, Bool.true_eq_false, if_false, Nat.not_le.mpr hmeter, hdec]
  · rw [step_eq]
    simp only [State.runTurn, ht, State.beadBeat, hw, hdec]
  · rw [step_eq]
    simp only [State.runTurn, ht]
  · rw [step_eq]
    simp only [State.runTurn, ht]
    rfl

end Sys2Proof.Machine
end

section
/-! SUPPORT. What leaves every thread as it is, and how the acting thread completes its instruction from such a state
(R34, R37, R148, R150). -/

namespace Sys2Proof.Machine

/-- The same thread acts, and every slot and every task's record is as before. -/
structure SameThreads (s t : State) : Prop where
  actCore : t.actCore = s.actCore
  actSlot : t.actSlot = s.actSlot
  slots : ∀ c, (t.core c).slots = (s.core c).slots
  tasks : ∀ c, (t.core c).tasks = (s.core c).tasks

theorem SameThreads.refl (s : State) : SameThreads s s := ⟨rfl, rfl, fun _ => rfl, fun _ => rfl⟩

theorem SameThreads.trans {s t u : State} (h : SameThreads s t) (h' : SameThreads t u) : SameThreads s u :=
  ⟨h'.actCore.trans h.actCore, h'.actSlot.trans h.actSlot, fun c => (h'.slots c).trans (h.slots c),
    fun c => (h'.tasks c).trans (h.tasks c)⟩

theorem SameThreads.of_cores {s t : State} (hc : t.actCore = s.actCore) (hi : t.actSlot = s.actSlot) (h : t.cores = s.cores) :
    SameThreads s t :=
  ⟨hc, hi, fun c => by rw [State.core, h]; rfl, fun c => by rw [State.core, h]; rfl⟩

theorem SameThreads.modCore (s : State) (c : Nat) (f : Core → Core) (hs : (f (s.core c)).slots = (s.core c).slots)
    (ht : (f (s.core c)).tasks = (s.core c).tasks) : SameThreads s (s.modCore c f) := by
  refine ⟨rfl, rfl, fun x => ?_, fun x => ?_⟩ <;> rw [State.modCore_eq, State.core_putCore] <;> split <;> simp [*]

theorem SameThreads.raisePts (s : State) (c x : Nat) : SameThreads s (s.raisePts c x) := .modCore s c _ rfl rfl

theorem SameThreads.sPut (s : State) (c off n v : Nat) : SameThreads s (s.sPut c off n v) := .modCore s c _ rfl rfl

section
variable {s t : State} (h : SameThreads s t)
include h

theorem SameThreads.slot (c i : Nat) : t.slot c i = s.slot c i := by
  rw [State.slot, Core.slot, h.slots]; rfl

theorem SameThreads.task (c w : Nat) : t.task c w = s.task c w := by
  rw [State.task, Core.task, h.tasks]; rfl

theorem SameThreads.curSlot : t.curSlot = s.curSlot := by rw [State.curSlot, h.actCore, h.actSlot, h.slot]; rfl
theorem SameThreads.curWs : t.curWs = s.curWs := by rw [State.curWs, h.curSlot]; rfl
theorem SameThreads.curTask : t.curTask = s.curTask := by rw [State.curTask, h.actCore, h.curWs, h.task]; rfl
theorem SameThreads.rd (r : BitVec 5) : t.rd r = s.rd r := by rw [State.rd, h.curSlot]; rfl
theorem SameThreads.nextPc? : t.nextPc? = s.nextPc? := State.nextPc?_congr (by rw [h.curTask]) (by rw [h.curTask])
theorem SameThreads.npc : t.npc = s.npc := State.npc_congr (by rw [h.curTask]) (by rw [h.curTask])

/-- What only the acting thread changes after it changes no other thread. -/
theorem SameThreads.otherThreads {u : State} (hu : SameElseSpad t u) : OtherThreads s u := by
  refine ⟨fun i hi => ?_, fun w hw => ?_⟩
  · have := hu.slots i (by rwa [h.actSlot])
    rwa [h.actCore, h.slot] at this
  · have := hu.tasks w (by rwa [h.curWs])
    rwa [h.actCore, h.task] at this

/-- Completing from a state whose threads are the same is completing. -/
theorem SameThreads.goesOn (hc : t.cycle = s.cycle) (n : Nat) : GoesOn s (t.finish n) n where
  pc := by rw [State.curTask_finish, h.npc]
  pastEnd := by rw [State.curTask_finish, h.nextPc?]
  task := by rw [State.curTask_finish, h.curTask]
  slot := by rw [State.curSlot_finish, h.curSlot, hc]

theorem SameThreads.sameRegs_finish (n : Nat) : SameRegs s (t.finish n) [] := fun r _ => by rw [State.rd_finish, h.rd]

end

/-! ## Bytes -/

theorem SameBytes.refl (s : State) : SameBytes s s := ⟨fun _ => rfl, fun _ _ => rfl⟩

/-- What changes neither a core's scratchpad nor world memory changes no byte. -/
theorem SameBytes.modCore (s : State) (c : Nat) (f : Core → Core) (h : (f (s.core c)).scratch = (s.core c).scratch) :
    SameBytes s (s.modCore c f) := by
  refine ⟨fun _ => rfl, fun d a => ?_⟩
  rw [State.spadByte, State.modCore_eq, State.core_putCore, State.spadByte]
  split
  · subst_vars; rw [h]
  · rfl

/-! ## A wait that completes, and one that is over (R34, R37) -/

@[simp] theorem State.curTask_parkCur (s : State) (p : Park) : (s.parkCur p).curTask = { s.curTask with park := p } :=
  s.curTask_modCurTask _

theorem SameElse.refl (s : State) : SameElse s s := ⟨⟨.refl _ _, rfl, fun _ _ => rfl, fun _ _ => rfl⟩, rfl, rfl⟩

theorem SameElse.parkCur (s : State) (p : Park) : SameElse s (s.parkCur p) := .modCurTask s _

theorem SameElse.goAt (s : State) (n : Nat) : SameElse s (s.goAt n) := .modCurSlot s _

@[simp] theorem State.curTask_goAt (s : State) (n : Nat) : (s.goAt n).curTask = s.curTask := State.curTask_modCurSlot s _ rfl
@[simp] theorem State.curWs_goAt (s : State) (n : Nat) : (s.goAt n).curWs = s.curWs := State.curWs_modCurSlot s _ rfl
@[simp] theorem State.curSlot_goAt (s : State) (n : Nat) : (s.goAt n).curSlot = { s.curSlot with nextAt := n } :=
  s.curSlot_modCurSlot _
@[simp] theorem State.rd_goAt (s : State) (n : Nat) (r : BitVec 5) : (s.goAt n).rd r = s.rd r := by
  rw [State.rd, State.curSlot_goAt]; rfl

@[simp] theorem State.nextPc?_modCurTask_park (s : State) (p : Park) : (s.parkCur p).nextPc? = s.nextPc? :=
  State.nextPc?_congr (by simp) (by simp)

@[simp] theorem State.npc_modCurTask_park (s : State) (p : Park) : (s.parkCur p).npc = s.npc :=
  State.npc_congr (by simp) (by simp)

/-- What the acting thread is after its parked instruction has completed (R37). -/
def Task.completed (k : Task) (pc : Word) (pastEnd : Bool) : Task :=
  { k with park := .run, pc := pc, pastEnd := pastEnd, resume := none }

theorem State.curTask_resumeDone (s : State) (n : Nat) :
    (s.resumeDone n).curTask = s.curTask.completed s.npc s.nextPc?.isNone := by
  simp [State.resumeDone, Task.completed]

theorem State.nextAt_resumeDone (s : State) (n : Nat) : (s.resumeDone n).curSlot.nextAt = s.cycle + n := by
  simp [State.resumeDone]

theorem State.rd_resumeDone (s : State) (n : Nat) (r : BitVec 5) : (s.resumeDone n).rd r = s.rd r := by
  simp [State.resumeDone, State.parkCur]

theorem State.curWs_finish (s : State) (n : Nat) : (s.finish n).curWs = s.curWs := by
  rw [State.curWs, State.curSlot_finish]; rfl

theorem State.resumeDone_sameElse (s : State) (n : Nat) : SameElse s (s.resumeDone n) := by
  have hfin : SameElse s ((s.parkCur .run).finish 1) := (SameElse.parkCur s .run).trans (State.finish_sameElse _ 1) (s.curWs_modCurTask _)
  exact hfin.trans (.goAt _ _) ((State.curWs_finish _ 1).trans (s.curWs_modCurTask _))

end Sys2Proof.Machine
end

section
/-! Common registers (R38). -/

namespace Sys2Proof.Machine

/-- A write of a common register: its number, the cycle from which it is seen, its value. -/
abbrev CommonWrite := Nat × Nat × Word

/-- The last of some writes to a register that a cycle sees, or else a value. -/
def lastSeen (now r : Nat) (l : List CommonWrite) (v : Word) : Word :=
  ((l.filter (fun e => e.1 == r && decide (e.2.1 ≤ now))).getLast?.map (fun e => e.2.2)).getD v

theorem lastSeen_append (now r : Nat) (l m : List CommonWrite) (v : Word) :
    lastSeen now r (l ++ m) v = lastSeen now r m (lastSeen now r l v) := by
  simp only [lastSeen, List.filter_append, List.getLast?_append]
  cases (m.filter (fun e => e.1 == r && decide (e.2.1 ≤ now))).getLast? <;> simp

theorem lastSeen_singleton (now : Nat) (e : CommonWrite) (h : e.2.1 ≤ now) (v : Word) : lastSeen now e.1 [e] v = e.2.2 := by
  simp [lastSeen, h]

/-- A write that a cycle does not see yet, or of another register, is not read. -/
theorem lastSeen_unseen (now r : Nat) (e : CommonWrite) (h : now < e.2.1 ∨ r ≠ e.1) (v : Word) : lastSeen now r [e] v = v := by
  have : (e.1 == r && decide (e.2.1 ≤ now)) = false := by
    rcases h with h | h
    · simp [Nat.not_le.mpr h]
    · simp [Ne.symm h]
  simp [lastSeen, this]

/-- Writes that are folded into the registers read as if they still stood in the list. -/
theorem get_foldCommons (now r : Nat) (l : List CommonWrite) (m : AMap Word) :
    AMap.get 0 (foldCommons now m l) r = lastSeen now r l (AMap.get 0 m r) := by
  induction l generalizing m with
  | nil => rfl
  | cons e l ih =>
    rw [show e :: l = [e] ++ l from rfl, lastSeen_append]
    refine (ih _).trans (congrArg (lastSeen now r l) ?_)
    show AMap.get 0 (if e.2.1 ≤ now then AMap.put m e.1 e.2.2 else m) r = _
    by_cases hr : r = e.1
    · subst hr
      by_cases he : e.2.1 ≤ now
      · rw [if_pos he, AMap.get_put_same, lastSeen_singleton now e he]
      · rw [if_neg he, lastSeen_unseen now e.1 e (.inl (Nat.not_le.mp he))]
    · rw [lastSeen_unseen now r e (.inr hr)]
      split
      · exact AMap.get_put_ne _ _ _ hr
      · rfl

/-- Writes in the order of their cycles: what a cycle sees already comes before what it does not see yet. -/
theorem filter_seen_append {l : List CommonWrite} (now : Nat) (h : l.Pairwise (fun e f => e.2.1 ≤ f.2.1)) :
    l.filter (fun e => decide (e.2.1 ≤ now)) ++ l.filter (fun e => decide (now < e.2.1)) = l := by
  induction l with
  | nil => rfl
  | cons e l ih =>
    obtain ⟨hle, hl⟩ := List.pairwise_cons.mp h
    by_cases he : e.2.1 ≤ now
    · simp [he, Nat.not_lt.mpr he, ih hl]
    · have hlt := Nat.not_le.mp he
      have hnone : l.filter (fun x => decide (x.2.1 ≤ now)) = [] :=
        List.filter_eq_nil_iff.mpr fun x hx => by simpa using Nat.lt_of_lt_of_le hlt (hle x hx)
      have hall : l.filter (fun x => decide (now < x.2.1)) = l :=
        List.filter_eq_self.mpr fun x hx => by simpa using Nat.lt_of_lt_of_le hlt (hle x hx)
      simp [he, hlt, hnone, hall]

/-- A later cycle sees of the writes that a cycle sees the same last one. -/
theorem lastSeen_filter_seen {now later : Nat} (r : Nat) (l : List CommonWrite) (v : Word) (h : now ≤ later) :
    lastSeen later r (l.filter (fun e => decide (e.2.1 ≤ now))) v = lastSeen now r l v := by
  have : (fun e : CommonWrite => (e.1 == r && decide (e.2.1 ≤ later)) && decide (e.2.1 ≤ now)) =
      fun e => e.1 == r && decide (e.2.1 ≤ now) := by
    funext e
    by_cases he : e.2.1 ≤ now
    · simp [he, Nat.le_trans he h]
    · simp [he]
  rw [lastSeen, List.filter_filter, this, lastSeen]

/-- Folding the writes that are seen changes nothing that a later cycle reads (R38). -/
theorem lastSeen_fold {now later : Nat} (r : Nat) {l : List CommonWrite} (m : AMap Word) (h : now ≤ later)
    (hl : l.Pairwise (fun e f => e.2.1 ≤ f.2.1)) :
    lastSeen later r (l.filter (fun e => decide (now < e.2.1))) (AMap.get 0 (foldCommons now m l) r) =
      lastSeen later r l (AMap.get 0 m r) := by
  rw [get_foldCommons, ← lastSeen_filter_seen r l _ h, ← lastSeen_append, filter_seen_append now hl]

/-! ## `putc` -/

/-- The writes that `putc` leaves to be seen. -/
def State.commonsAfter (u : State) (r : Nat) (v : Word) : List CommonWrite :=
  u.cur.commonsNew.filter (fun e => decide (u.cycle < e.2.1)) ++ [(r, u.cycle + 8, v)]

theorem State.cur_putCommon (u : State) (r : Nat) (v : Word) : (u.putCommon r v).cur =
    { u.cur with commons := foldCommons u.cycle u.cur.commons u.cur.commonsNew, commonsNew := u.commonsAfter r v } :=
  State.core_putCore_same u u.actCore _

/-- Completing leaves a core but for its slots and tasks. -/
theorem State.cur_finish (s : State) (n : Nat) :
    (s.finish n).cur = { s.cur with slots := (s.finish n).cur.slots, tasks := (s.finish n).cur.tasks } := by
  have h := (State.finish_sameElse s n)
  rw [h.1.core, h.2.1, h.2.2]

theorem State.sameThreads_putCommon (u : State) (r : Nat) (v : Word) : SameThreads u (u.putCommon r v) := .modCore u _ _ rfl rfl

/-- Settles O14: the writes that `putc` folds read as before, and its own is the last. -/
theorem commonRegistersFollowR38 : Obligations.CommonRegistersFollowR38 := by
  intro s d c u ordered
  refine ⟨gives_of_exec rfl, fun _ _ => rfl, ?_⟩
  let p := u.putCommon c.toNat (s.rd d)
  have hp : SameThreads u p := u.sameThreads_putCommon _ _
  have hfin := State.finish_sameElse p 1
  have hcur : (p.finish 1).cur = { u.cur with
      slots := (p.finish 1).cur.slots, tasks := (p.finish 1).cur.tasks
      commons := foldCommons u.cycle u.cur.commons u.cur.commonsNew, commonsNew := u.commonsAfter c.toNat (s.rd d) } := by
    rw [State.cur_finish p 1, u.cur_putCommon]
  have hread : ∀ now r, ({ p.finish 1 with cycle := now }).getCommon r = lastSeen now r (u.commonsAfter c.toNat (s.rd d))
      (AMap.get 0 (foldCommons u.cycle u.cur.commons u.cur.commonsNew) r) := by
    intro now r
    show lastSeen now r (p.finish 1).cur.commonsNew (AMap.get 0 (p.finish 1).cur.commons r) = _
    rw [hcur]
  refine ⟨p.finish 1, rfl, hp.sameRegs_finish 1, hp.goesOn rfl 1, (OneCore.modCore u _ _).trans hfin.1.device,
    hp.otherThreads hfin.1, (SameBytes.modCore u _ _ rfl).trans hfin.sameBytes, ?_, fun n hn => ?_, fun hord => ⟨⟨?_, ?_⟩, fun r n hrn => ?_⟩⟩
  · rw [hcur]
  · rw [hread, State.commonsAfter, lastSeen_append, lastSeen_singleton _ (c.toNat, u.cycle + 8, s.rd d) (by simpa using hn)]
  · rw [hcur]
    refine List.pairwise_append.mpr ⟨hord.1.filter _, List.pairwise_singleton _ _, fun e he f hf => ?_⟩
    rw [List.mem_singleton.mp hf]
    exact hord.2 e (List.mem_of_mem_filter he)
  · intro e he
    rw [hcur] at he
    rcases List.mem_append.mp he with he | he
    · exact hord.2 e (List.mem_of_mem_filter he)
    · rw [List.mem_singleton.mp he]; exact Nat.le_refl _
  · rw [hread, State.commonsAfter, lastSeen_append, lastSeen_unseen _ _ (c.toNat, u.cycle + 8, s.rd d) (by simpa using hrn),
      lastSeen_fold r _ (Nat.le_add_right _ _) hord.1]
    rfl

end Sys2Proof.Machine
end

section
/-! The conditions a thread parks on, and what it does when they hold (R36, R37, R243). -/

namespace Sys2Proof.Machine

/-- A park that `PARK_RELEASE` answers by its condition, rather than by a cycle. -/
def Park.conditional (p : Park) : Prop := (∀ due a, p ≠ .released due a) ∧ ∀ due, p ≠ .recalled due

section
variable {s : State} {c j : Nat}

theorem exec_parkRelease_conditional (h : (s.actAs c j).curTask.park.conditional) : exec (.parkRelease c j) s =
    if (s.actAs c j).curSlot.ws.isSome ∧ (s.actAs c j).parkHolds = true then .next (s.actAs c j).unpark else .next s := by
  show execParkRelease c j s = _
  unfold execParkRelease
  dsimp only
  split
  next due a hp => exact absurd hp (h.1 due a)
  next due hp => exact absurd hp (h.2 due)
  next => rfl

/-- A resident thread goes on when its condition holds, and while it does not nothing changes. -/
theorem exec_parkRelease_iff {cond : Prop} (h : (s.actAs c j).curTask.park.conditional) (hws : ∃ w, (s.slot c j).ws = some w)
    (hholds : (s.actAs c j).parkHolds = true ↔ cond) :
    (cond → exec (.parkRelease c j) s = .next (s.actAs c j).unpark) ∧ (¬cond → exec (.parkRelease c j) s = .next s) := by
  obtain ⟨w, hw⟩ := hws
  have hsome : (s.actAs c j).curSlot.ws.isSome := by rw [show (s.actAs c j).curSlot.ws = some w from hw]; rfl
  rw [exec_parkRelease_conditional h, ← hholds]
  exact ⟨fun hyes => if_pos ⟨hsome, hyes⟩, fun hno => if_neg fun hboth => hno hboth.2⟩

end

/-! ## Waits that complete -/

/-- A parked instruction has completed after n cycles: of the threads only the acting one has gone on, and no byte has
changed (R37). -/
structure WaitDone (u t : State) (n : Nat) : Prop where
  task : t.curTask = { u.curTask with park := .run, pc := u.npc, pastEnd := u.nextPc?.isNone, resume := none }
  nextAt : t.curSlot.nextAt = u.cycle + n
  regs : SameRegs u t []
  bytes : SameBytes u t
  threads : OtherThreads u t
  device : OneCore u.actCore u t

theorem SameThreads.waitDone {u v : State} (h : SameThreads u v) (hb : SameBytes u v) (hd : OneCore u.actCore u v) (n : Nat) :
    WaitDone u (v.resumeDone n) n where
  task := by rw [State.curTask_resumeDone, h.curTask, h.npc, h.nextPc?]; rfl
  nextAt := by rw [State.nextAt_resumeDone, hd.cycle]
  regs := fun r _ => by rw [State.rd_resumeDone, h.rd]
  bytes := hb.trans (v.resumeDone_sameElse n).sameBytes
  threads := h.otherThreads (v.resumeDone_sameElse n).1
  device := hd.trans (h.actCore ▸ (v.resumeDone_sameElse n).1.device)

theorem State.resumeDone_waitDone (u : State) (n : Nat) : WaitDone u (u.resumeDone n) n :=
  (SameThreads.refl u).waitDone (.refl u) (.refl _ u) n

theorem SameElse.tensors {s t : State} (h : SameElse s t) : t.cur.tensors = s.cur.tensors := by rw [h.1.core]

/-- The state from which `bd.free` completes: the tensor is free (R323). -/
def State.tensorFreed (u : State) (x : Nat) : State := u.modCore u.actCore (fun k => k.freeTensor x)

theorem State.sameThreads_tensorFreed (u : State) (x : Nat) : SameThreads u (u.tensorFreed x) := .modCore u _ _ rfl rfl

theorem State.tensors_tensorFreed (u : State) (x : Nat) : (u.tensorFreed x).cur.tensors = AMap.del u.cur.tensors x := by
  rw [State.tensorFreed, State.modCore_eq, State.cur, State.putCore_actCore, State.core_putCore_same]; rfl

/-! ## What unparks how -/

section
variable {u : State}

theorem State.unpark_cbFill {h n : Nat} (hp : u.curTask.park = .cbFill h n) : u.unpark = u.resumeDone 16 := by
  simp only [State.unpark, hp]
theorem State.unpark_cbFree {h n : Nat} (hp : u.curTask.park = .cbFree h n) : u.unpark = u.resumeDone 16 := by
  simp only [State.unpark, hp]
theorem State.unpark_maWait {n : Nat} (hp : u.curTask.park = .maWait n) : u.unpark = u.resumeDone 16 := by
  simp only [State.unpark, hp]
theorem State.unpark_bdFree {x : Nat} (hp : u.curTask.park = .bdFree x) : u.unpark = (u.tensorFreed x).resumeDone 16 := by
  simp only [State.unpark, hp, State.tensorFreed]

/-- The parks of instructions that are held back until there is room. -/
def Park.held (p : Park) : Prop :=
  p = .vqFull ∨ p = .mqFull ∨ p = .cqFull ∨ p = .sqFull ∨ p = .meshFull ∨ ∃ off n, p = .footprint off n

theorem Park.held.conditional {p : Park} (h : p.held) : p.conditional := by
  rcases h with rfl | rfl | rfl | rfl | rfl | ⟨off, n, rfl⟩ <;> exact ⟨nofun, nofun⟩

/-- An instruction that was held back reissues (R37). -/
theorem State.unpark_held (h : u.curTask.park.held) : u.unpark = (u.parkCur .run).goAt (u.cycle + 16) := by
  rcases h with hp | hp | hp | hp | hp | ⟨off, n, hp⟩ <;> simp only [State.unpark, hp]

theorem State.unpark_flagsPut {r : BitVec 5} (hp : u.curTask.park = .flagsDrain true r) :
    u.unpark = (u.modCurTask (fun k => { k with flags := (u.rd r).setWidth 5 })).resumeDone 8 := by
  simp only [State.unpark, hp, if_true, State.putSel]

theorem State.unpark_flagsGet {r : BitVec 5} (hp : u.curTask.park = .flagsDrain false r) :
    u.unpark = (u.wr r (u.curTask.flags.setWidth 64)).resumeDone 8 := by
  have hv : wordOf (u.getSel 0x010) = u.curTask.flags.setWidth 64 := BitVec.ofNat_toNat 64 _
  simp only [State.unpark, hp, Bool.false_eq_true, if_false, hv]

end

/-- Settles O31: each park's condition is what `State.parkHolds` decides, and each then goes on as `State.unpark` says. -/
theorem conditionsReleaseTheirThreads : Obligations.ConditionsReleaseTheirThreads := by
  intro s c j i u k resident completes reissues
  have plain : ∀ (p : Park) (cond : Prop), (∀ x, p ≠ .bdFree x) → p.conditional →
      (u.curTask.park = p → ((u.parkHolds = true ↔ cond) ∧ u.unpark = u.resumeDone 16)) → completes p cond := by
    intro p cond hfree hc hp hpark hws
    obtain ⟨hgo, hstay⟩ := exec_parkRelease_iff (s := s) (hpark ▸ hc) hws (hp hpark).1
    have hd := u.resumeDone_waitDone 16
    refine ⟨fun hyes => ⟨_, (hgo hyes).trans (congrArg _ (hp hpark).2), hd.task, hd.nextAt, hd.regs, hd.bytes, hd.threads, hd.device,
      fun x hx => absurd hx (hfree x), fun _ => (u.resumeDone_sameElse 16).tensors⟩, hstay⟩
  have held : ∀ (p : Park) (cond : Prop), p.held → (u.curTask.park = p → (u.parkHolds = true ↔ cond)) → reissues p cond := by
    intro p cond hheld hp hpark hws
    obtain ⟨hgo, hstay⟩ := exec_parkRelease_iff (s := s) (hpark ▸ hheld.conditional) hws (hp hpark)
    exact ⟨fun hyes => (hgo hyes).trans (congrArg _ (State.unpark_held (hpark ▸ hheld))), hstay⟩
  refine ⟨fun h n => ?_, fun h n => ?_, fun last => ?_, fun x => ?_, ?_, ?_, ?_, ?_, ?_, fun off n => ?_, fun put r hpark hws => ?_⟩
  · refine plain _ _ nofun ⟨nofun, nofun⟩ fun hp => ⟨?_, State.unpark_cbFill hp⟩
    simp only [State.parkHolds, hp]; exact decide_eq_true_iff
  · refine plain _ _ nofun ⟨nofun, nofun⟩ fun hp => ⟨?_, State.unpark_cbFree hp⟩
    simp only [State.parkHolds, hp]; exact decide_eq_true_iff
  · refine plain _ _ nofun ⟨nofun, nofun⟩ fun hp => ⟨?_, State.unpark_maWait hp⟩
    simp only [State.parkHolds, hp, List.all_eq_true, decide_eq_true_eq]; rfl
  · intro hpark hws
    have hholds : u.parkHolds = true ↔ k.passQueued x = false := by simp only [State.parkHolds, hpark, Bool.not_eq_true']; rfl
    obtain ⟨hgo, hstay⟩ := exec_parkRelease_iff (s := s) (hpark ▸ ⟨nofun, nofun⟩) hws hholds
    have hd : WaitDone u ((u.tensorFreed x).resumeDone 16) 16 :=
      (u.sameThreads_tensorFreed x).waitDone (.modCore u _ _ rfl) (.modCore u _ _) 16
    have ht : ((u.tensorFreed x).resumeDone 16).cur.tensors = AMap.del u.cur.tensors x :=
      ((u.tensorFreed x).resumeDone_sameElse 16).tensors.trans (u.tensors_tensorFreed x)
    refine ⟨fun hyes => ⟨_, (hgo hyes).trans (congrArg _ (State.unpark_bdFree hpark)), hd.task, hd.nextAt, hd.regs, hd.bytes, hd.threads,
      hd.device, fun y hy => ?_, fun hno => absurd rfl (hno x)⟩, hstay⟩
    cases hy
    exact ht
  · exact held _ _ (.inl rfl) fun hp => by simp only [State.parkHolds, hp]; exact decide_eq_true_iff
  · exact held _ _ (.inr (.inl rfl)) fun hp => by simp only [State.parkHolds, hp]; exact decide_eq_true_iff
  · exact held _ _ (.inr (.inr (.inl rfl))) fun hp => by simp only [State.parkHolds, hp]; exact decide_eq_true_iff
  · exact held _ _ (.inr (.inr (.inr (.inl rfl)))) fun hp => by simp only [State.parkHolds, hp]; exact decide_eq_true_iff
  · exact held _ _ (.inr (.inr (.inr (.inr (.inl rfl))))) fun hp => by simp only [State.parkHolds, hp, Bool.not_eq_true']; rfl
  · exact held _ _ (.inr (.inr (.inr (.inr (.inr ⟨off, n, rfl⟩))))) fun hp => by
      simp only [State.parkHolds, hp, Bool.not_eq_true']; rfl
  · have hholds : u.parkHolds = true ↔ u.nestsOut = false := by simp only [State.parkHolds, hpark, Bool.not_eq_true']
    obtain ⟨hgo, hstay⟩ := exec_parkRelease_iff (s := s) (hpark ▸ ⟨nofun, nofun⟩) hws hholds
    refine ⟨fun hout => hstay (by simp [hout]), fun hin => ?_⟩
    cases put with
    | true =>
      let v := u.modCurTask (fun k => { k with flags := (u.rd r).setWidth 5 })
      have hv : SameElse u v := .modCurTask u _
      have ht : v.curTask = { u.curTask with flags := (u.rd r).setWidth 5 } := u.curTask_modCurTask _
      have hd := v.resumeDone_waitDone 8
      refine ⟨v.resumeDone 8, (hgo hin).trans (congrArg _ (State.unpark_flagsPut hpark)), hd.nextAt, ?_, ?_,
        hv.sameBytes.trans hd.bytes, hv.1.device.trans hd.device, fun _ => ⟨fun q _ => ?_, ?_⟩, nofun⟩
      · rw [hd.task]; exact State.npc_congr (by rw [ht]) (by rw [ht])
      · rw [hd.task]
      · rw [hd.regs q (List.not_mem_nil), State.rd_modCurTask]
      · rw [hd.task, ht]
    | false =>
      let v := u.wr r (u.curTask.flags.setWidth 64)
      have hv : SameElse u v := .modCurSlot u _
      have hd := v.resumeDone_waitDone 8
      refine ⟨v.resumeDone 8, (hgo hin).trans (congrArg _ (State.unpark_flagsGet hpark)), hd.nextAt, ?_, ?_,
        hv.sameBytes.trans hd.bytes, hv.1.device.trans hd.device, nofun, fun _ => ⟨fun q hq => ?_, ?_, ?_⟩⟩
      · rw [hd.task]; exact State.npc_wr u _ _
      · rw [hd.task]
      · rw [hd.regs q (List.not_mem_nil), State.rd_wr_ne _ _ (List.ne_of_not_mem_cons hq)]
      · rw [hd.regs r (List.not_mem_nil), State.rd_wr_same]
      · rw [hd.task, State.curTask_wr]

end Sys2Proof.Machine
end

section
/-! A state in which a circular buffer's handle does not read as R257 has it (R38, R252, R257). -/

namespace Sys2Proof.Machine

/-- A handle that is not defined, with a drain pointer past its slots. -/
def handleUndefined : Handle := { Handle.reset with drainp := 5 }

/-- The handle as the slot still sees it: defined, with four free slots. -/
def handleSeen : Handle := { Handle.reset with v := true, ssz := 16, nslot := 4 }

/-- Handle 3 of core 0 has been left undefined by an edit that is seen from cycle 1 on; the cycle is 0. -/
def standUndefined : State := { State.reset with
  cores := [(0, { Core.reset with handles := [(3, handleUndefined)], edits := [⟨3, 1, handleSeen, handleUndefined⟩] })] }

theorem standUndefined_seen : standUndefined.cur.handleAt 0 3 = handleSeen ∧ standUndefined.cur.handleAt 1 3 = handleUndefined := by
  decide

/-- `cb.fill` of no slots at that handle, which the slot sees as defined. -/
def standRefilled : State :=
  standUndefined.modCore 0 (fun c => c.editHandle 0 3 (fun x => { x with filled := x.filled + 0 }))

theorem exec_cbFill_standUndefined : exec (.cbFill 3 0) standUndefined = .next (standRefilled.finish 1) := by
  show execCbFill 3 0 standUndefined = _
  have hk : standUndefined.cbCount 0 = 0 := by decide
  have hx : standUndefined.cur.handleAt standUndefined.cycle (3 : BitVec 5).toNat = handleSeen := standUndefined_seen.1
  simp only [execCbFill, hx, hk]
  rfl

/-- One cycle later the new edit still hides the fill, and takes the drain pointer modulo the slots of an undefined handle. -/
theorem standRefilled_drainp : ((standRefilled.finish 1).cur.handleAt 1 3).drainp = 0 := by
  rw [State.cur_finish]; decide

/-- Refutes O35: the handle is undefined, so that nothing is asked of its drain pointer, but the slot still sees it as defined,
so that `cb.fill` is carried out; in the next cycle an instruction reads the drain pointer 0 and not, as before, 5. -/
theorem not_circularBuffersFollowR257 : ¬ Obligations.CircularBuffersFollowR257 := by
  intro h
  obtain ⟨-, -, -, -, -, hdefined⟩ := h standUndefined 0 3 0
  obtain ⟨-, -, hfill, -⟩ := hdefined (by decide)
  obtain ⟨t, hexec, -, -, hbefore, -⟩ := hfill (by decide) (by decide)
  have ht : t = standRefilled.finish 1 := by
    have := hexec.symm.trans exec_cbFill_standUndefined
    injection this
  have hread : t.cur.handleAt 1 3 = standUndefined.cur.handleAt 1 3 := hbefore (by decide) 1 (by decide) (by decide)
  have h0 := standRefilled_drainp
  rw [← ht, hread, standUndefined_seen.2] at h0
  exact absurd h0 (by decide)

end Sys2Proof.Machine
end

section
/-! Gang barriers: arrival and release (R61, R235). -/

namespace Sys2Proof.Machine

/-! ## What only the acting thread changes -/

section
variable {s t : State} (h : SameElseSpad s t)
include h

theorem SameElseSpad.slot_ne {c i : Nat} (hne : ¬(c = s.actCore ∧ i = s.actSlot)) : t.slot c i = s.slot c i := by
  by_cases hc : c = s.actCore
  · subst hc
    exact h.slots i fun hi => hne ⟨rfl, hi⟩
  · rw [State.slot, h.device.2 c hc]; rfl

theorem SameElseSpad.task_ne {c w : Nat} (hne : ¬(c = s.actCore ∧ w = s.curWs)) : t.task c w = s.task c w := by
  by_cases hc : c = s.actCore
  · subst hc
    exact h.tasks w fun hw => hne ⟨rfl, hw⟩
  · rw [State.task, h.device.2 c hc]; rfl

theorem SameElseSpad.pts (c : Nat) : t.pts c = s.pts c := by
  have hticks : t.ptsTicks = s.ptsTicks := by rw [h.device.1]
  have hoff : (t.core c).ptsOff = (s.core c).ptsOff := by
    by_cases hc : c = s.actCore
    · have := h.core
      rw [State.cur, h.device.actCore] at this
      rw [hc, this]; rfl
    · rw [h.device.2 c hc]
  rw [State.pts, hticks, hoff, State.pts]

theorem SameElseSpad.gangs : t.gangs = s.gangs := by rw [h.device.1]

end

/-! ## One member goes on -/

/-- The thread of a core and slot has completed its parked instruction (R37). -/
def State.goOn (s : State) (e : Nat × Nat) : State := (s.actAs e.1 e.2).resumeDone 16

/-- The workspace of a core and slot. -/
def State.wsAt (s : State) (e : Nat × Nat) : Nat := (s.slot e.1 e.2).ws.getD 0

theorem State.goOn_sameElse (s : State) (e : Nat × Nat) : SameElse (s.actAs e.1 e.2) (s.goOn e) := State.resumeDone_sameElse _ _

theorem State.curSlot_resumeDone (s : State) (n : Nat) :
    (s.resumeDone n).curSlot = { s.curSlot with nextAt := s.cycle + n } := by
  simp [State.resumeDone, State.parkCur]

theorem State.slot_goOn_same (s : State) (c i : Nat) :
    (s.goOn (c, i)).slot c i = { s.slot c i with nextAt := s.cycle + 16 } := by
  have hframe := (s.goOn_sameElse (c, i)).1.device
  have hcur := (s.actAs c i).curSlot_resumeDone 16
  rw [State.curSlot, show ((s.actAs c i).resumeDone 16).actCore = c from hframe.actCore,
    show ((s.actAs c i).resumeDone 16).actSlot = i from hframe.actSlot] at hcur
  exact hcur

theorem State.slot_goOn_ne (s : State) {e : Nat × Nat} {c i : Nat} (h : (c, i) ≠ e) : (s.goOn e).slot c i = s.slot c i :=
  (s.goOn_sameElse e).1.slot_ne fun hh => h (Prod.ext hh.1 hh.2)

theorem State.ws_goOn (s : State) (e : Nat × Nat) (c i : Nat) : ((s.goOn e).slot c i).ws = (s.slot c i).ws := by
  by_cases h : (c, i) = e
  · subst h; rw [s.slot_goOn_same]
  · rw [s.slot_goOn_ne h]

theorem State.task_goOn_same (s : State) (e : Nat × Nat) : (s.goOn e).task e.1 (s.wsAt e) =
    (s.task e.1 (s.wsAt e)).completed (s.actAs e.1 e.2).npc (s.actAs e.1 e.2).nextPc?.isNone := by
  have hframe := (s.goOn_sameElse e).1.device
  have hcur := (s.actAs e.1 e.2).curTask_resumeDone 16
  have hws : ((s.actAs e.1 e.2).resumeDone 16).curWs = s.wsAt e := by
    rw [State.curWs, State.curSlot_resumeDone]; rfl
  rw [State.curTask, hws, show ((s.actAs e.1 e.2).resumeDone 16).actCore = e.1 from hframe.actCore] at hcur
  exact hcur

theorem State.task_goOn_ne (s : State) {e : Nat × Nat} {c w : Nat} (h : ¬(c = e.1 ∧ w = s.wsAt e)) :
    (s.goOn e).task c w = s.task c w := (s.goOn_sameElse e).1.task_ne h

/-- A thread that goes on is parked no more, and no other is parked anew. -/
theorem State.run_goOn (s : State) (e : Nat × Nat) {c w : Nat} (h : (s.task c w).park = .run ∨ c = e.1 ∧ w = s.wsAt e) :
    ((s.goOn e).task c w).park = .run := by
  by_cases he : c = e.1 ∧ w = s.wsAt e
  · rw [he.1, he.2, State.task_goOn_same]; rfl
  · rw [s.task_goOn_ne he]; exact h.resolve_right he

theorem State.goOn_cycle (s : State) (e : Nat × Nat) : (s.goOn e).cycle = s.cycle := (s.goOn_sameElse e).1.device.cycle

/-! ## The members go on, one after another -/

/-- The threads of some cores and slots have gone on. -/
def State.goOnAll (s : State) (l : List (Nat × Nat)) : State := l.foldl State.goOn s

theorem State.goOnAll_cons (s : State) (e : Nat × Nat) (l : List (Nat × Nat)) : s.goOnAll (e :: l) = (s.goOn e).goOnAll l := rfl

theorem State.goOnAll_append (s : State) (l m : List (Nat × Nat)) : s.goOnAll (l ++ m) = (s.goOnAll l).goOnAll m :=
  List.foldl_append

section
variable (l : List (Nat × Nat))

theorem State.ws_goOnAll (s : State) (c i : Nat) : ((s.goOnAll l).slot c i).ws = (s.slot c i).ws := by
  induction l generalizing s with
  | nil => rfl
  | cons e l ih => rw [s.goOnAll_cons, ih, s.ws_goOn]

theorem State.wsAt_goOnAll (s : State) (e : Nat × Nat) : (s.goOnAll l).wsAt e = s.wsAt e := by
  rw [State.wsAt, s.ws_goOnAll, State.wsAt]

theorem State.goOnAll_cycle (s : State) : (s.goOnAll l).cycle = s.cycle := by
  induction l generalizing s with
  | nil => rfl
  | cons e l ih => rw [s.goOnAll_cons, ih, s.goOn_cycle]

theorem State.pts_goOnAll (s : State) (c : Nat) : (s.goOnAll l).pts c = s.pts c := by
  induction l generalizing s with
  | nil => rfl
  | cons e l ih => rw [s.goOnAll_cons, ih]; exact (s.goOn_sameElse e).1.pts c

theorem State.sameBytes_goOnAll (s : State) : SameBytes s (s.goOnAll l) := by
  induction l generalizing s with
  | nil => exact .refl s
  | cons e l ih => exact (show SameBytes s (s.goOn e) from (s.goOn_sameElse e).sameBytes).trans (ih _)

theorem State.run_goOnAll (s : State) {c w : Nat} (h : (s.task c w).park = .run) : ((s.goOnAll l).task c w).park = .run := by
  induction l generalizing s with
  | nil => exact h
  | cons e l ih => exact ih _ (s.run_goOn e (.inl h))

theorem State.nextAt_goOnAll (s : State) {c i : Nat} (h : s.cycle + 16 ≤ (s.slot c i).nextAt) :
    s.cycle + 16 ≤ ((s.goOnAll l).slot c i).nextAt := by
  induction l generalizing s with
  | nil => exact h
  | cons e l ih =>
    have := ih (s.goOn e)
    rw [s.goOn_cycle] at this
    refine this ?_
    by_cases he : (c, i) = e
    · subst he; rw [s.slot_goOn_same]
    · rwa [s.slot_goOn_ne he]

theorem State.task_goOnAll_ne (s : State) {c w : Nat} (h : ∀ e ∈ l, ¬(c = e.1 ∧ w = s.wsAt e)) :
    (s.goOnAll l).task c w = s.task c w := by
  induction l generalizing s with
  | nil => rfl
  | cons e l ih =>
    rw [s.goOnAll_cons, ih, s.task_goOn_ne (h e List.mem_cons_self)]
    intro f hf
    have : (s.goOn e).wsAt f = s.wsAt f := s.wsAt_goOnAll [e] f
    rw [this]
    exact h f (List.mem_cons_of_mem _ hf)

end

/-- Where a thread stands after all have gone on, itself among them. -/
theorem State.goOnAll_mem (s : State) {l : List (Nat × Nat)} {c n w : Nat} (hmem : (c, n) ∈ l) (hw : (s.slot c n).ws = some w) :
    ((s.goOnAll l).task c w).park = .run ∧ s.cycle + 16 ≤ ((s.goOnAll l).slot c n).nextAt := by
  obtain ⟨pre, post, rfl⟩ := List.append_of_mem hmem
  have hwsAt : (s.goOnAll pre).wsAt (c, n) = w := by rw [s.wsAt_goOnAll, State.wsAt, hw]; rfl
  rw [s.goOnAll_append, State.goOnAll_cons]
  refine ⟨State.run_goOnAll post _ (State.run_goOn _ _ (.inr ⟨rfl, hwsAt.symm⟩)), ?_⟩
  have hcycle : ((s.goOnAll pre).goOn (c, n)).cycle = s.cycle := by rw [State.goOn_cycle, s.goOnAll_cycle]
  rw [← hcycle]
  refine State.nextAt_goOnAll post _ ?_
  rw [State.slot_goOn_same, State.goOn_cycle]

theorem State.npc_actAs_congr {s t : State} {c n w : Nat} (hs : (s.slot c n).ws = some w) (ht : (t.slot c n).ws = some w)
    (h : t.task c w = s.task c w) : (t.actAs c n).npc = (s.actAs c n).npc := by
  have hcur : ∀ {u : State}, (u.slot c n).ws = some w → (u.actAs c n).curTask = u.task c w := by
    intro u hu
    show u.task c ((u.slot c n).ws.getD 0) = _
    rw [hu]; rfl
  exact State.npc_congr (by rw [hcur hs, hcur ht, h]) (by rw [hcur hs, hcur ht, h])

/-- A thread that goes on once stands past its instruction. -/
theorem State.pc_goOnAll (s : State) {l : List (Nat × Nat)} {c n w : Nat} (hl : l.Nodup) (hmem : (c, n) ∈ l)
    (hw : (s.slot c n).ws = some w) (honly : ∀ m, (c, m) ∈ l → s.wsAt (c, m) = w → m = n) :
    ((s.goOnAll l).task c w).pc = (s.actAs c n).npc := by
  obtain ⟨pre, post, rfl⟩ := List.append_of_mem hmem
  have hother : ∀ e, e ∈ pre ++ post → ¬(c = e.1 ∧ w = s.wsAt e) := by
    rintro ⟨d, m⟩ he ⟨rfl, hm⟩
    have hmn := honly m (by simp only [List.mem_append, List.mem_cons] at he ⊢; tauto) hm.symm
    subst hmn
    exact List.nodup_middle.mp hl |>.notMem he
  have hpre : (s.goOnAll pre).task c w = s.task c w :=
    s.task_goOnAll_ne pre fun e he => hother e (List.mem_append_left _ he)
  have hwsAt : (s.goOnAll pre).wsAt (c, n) = w := by rw [s.wsAt_goOnAll, State.wsAt, hw]; rfl
  have hws : ((s.goOnAll pre).slot c n).ws = some w := (s.ws_goOnAll pre c n).trans hw
  have hpost : (((s.goOnAll pre).goOn (c, n)).goOnAll post).task c w = ((s.goOnAll pre).goOn (c, n)).task c w := by
    refine State.task_goOnAll_ne post _ fun e he => ?_
    have : ((s.goOnAll pre).goOn (c, n)).wsAt e = s.wsAt e :=
      ((s.goOnAll pre).wsAt_goOnAll [(c, n)] e).trans (s.wsAt_goOnAll pre e)
    rw [this]
    exact hother e (List.mem_append_right _ he)
  have hstep := (s.goOnAll pre).task_goOn_same (c, n)
  rw [hwsAt] at hstep
  rw [s.goOnAll_append, State.goOnAll_cons, hpost, hstep]
  exact State.npc_actAs_congr hw hws hpre

/-! ## The release of an episode (R61, R235) -/

/-- The cores of a list have taken a timestamp. -/
def State.raiseAll (s : State) (l : List Nat) (p : Nat) : State := l.foldl (fun s c => s.raisePts c p) s

theorem State.raiseAll_cons (s : State) (c : Nat) (l : List Nat) (p : Nat) : s.raiseAll (c :: l) p = (s.raisePts c p).raiseAll l p := rfl

theorem State.sameThreads_raiseAll (s : State) (l : List Nat) (p : Nat) : SameThreads s (s.raiseAll l p) := by
  induction l generalizing s with
  | nil => exact .refl s
  | cons c l ih => exact (SameThreads.raisePts s c p).trans (ih _)

theorem State.sameBytes_raiseAll (s : State) (l : List Nat) (p : Nat) : SameBytes s (s.raiseAll l p) := by
  induction l generalizing s with
  | nil => exact .refl s
  | cons c l ih => exact (s.sameBytes_raisePts c p).trans (ih _)

theorem State.raiseAll_frame (s : State) (l : List Nat) (p : Nat) : s.raiseAll l p = { s with cores := (s.raiseAll l p).cores } := by
  induction l generalizing s with
  | nil => rfl
  | cons c l ih => rw [s.raiseAll_cons, ih]; rfl

theorem State.raiseAll_cycle (s : State) (l : List Nat) (p : Nat) : (s.raiseAll l p).cycle = s.cycle := by rw [s.raiseAll_frame]

theorem State.pts_raisePts (s : State) (c p x : Nat) : (s.raisePts c p).pts x = if x = c then max (s.pts c) p else s.pts x := by
  rw [State.pts, State.raisePts, State.modCore_eq, State.core_putCore]
  split
  · show s.ptsTicks + max (s.core c).ptsOff (p - s.ptsTicks) = max (s.ptsTicks + (s.core c).ptsOff) p
    omega
  · rfl

theorem State.le_pts_raiseAll (s : State) {l : List Nat} {p c : Nat} (h : c ∈ l ∨ p ≤ s.pts c) : p ≤ (s.raiseAll l p).pts c := by
  induction l generalizing s with
  | nil => exact h.resolve_left (List.not_mem_nil)
  | cons d l ih =>
    refine ih _ ?_
    rw [s.pts_raisePts]
    rcases h with h | h
    · rcases List.mem_cons.mp h with rfl | h
      · right; rw [if_pos rfl]; exact Nat.le_max_right _ _
      · exact .inl h
    · right
      split
      · exact Nat.le_max_right _ _
      · exact h

theorem State.openBarrier_eq (s : State) (g id : Nat) : s.openBarrier g id =
    (((s.raiseAll (s.gang g).cores (AMap.get 0 (s.gang g).arrPts id)).goOnAll (s.atBarrier g id)).putGang g
      { ((s.raiseAll (s.gang g).cores (AMap.get 0 (s.gang g).arrPts id)).goOnAll (s.atBarrier g id)).gang g with
        arrivals := AMap.del (s.gang g).arrivals id, arrPts := AMap.del (s.gang g).arrPts id
        arrDue := AMap.del (s.gang g).arrDue id }) := rfl

/-- The thread of a core and slot, if it waits at a barrier of its gang. -/
def State.waiterAt (s : State) (g id c i : Nat) : Option (Nat × Nat) :=
  match (s.slot c i).ws with
  | some w => if (s.task c w).gang = some g ∧ (s.task c w).park = .gbar id then some (c, i) else none
  | none => none

theorem State.atBarrier_eq (s : State) (g id : Nat) :
    s.atBarrier g id = (s.gang g).cores.flatMap (fun c => (List.range 16).filterMap (s.waiterAt g id c)) := rfl

theorem State.waiterAt_eq_some (s : State) {g id c i : Nat} {e : Nat × Nat} : s.waiterAt g id c i = some e ↔
    e = (c, i) ∧ ∃ w, (s.slot c i).ws = some w ∧ (s.task c w).gang = some g ∧ (s.task c w).park = .gbar id := by
  unfold State.waiterAt
  split
  · next w hw =>
    rw [Option.ite_none_right_eq_some, Option.some.injEq]
    constructor
    · rintro ⟨hwait, rfl⟩; exact ⟨rfl, w, hw, hwait⟩
    · rintro ⟨rfl, v, hv, hwait⟩
      cases hw.symm.trans hv
      exact ⟨hwait, rfl⟩
  · next hw => exact ⟨nofun, fun ⟨_, v, hv, _⟩ => by simp [hw] at hv⟩

theorem State.mem_atBarrier (s : State) {g id c n : Nat} : (c, n) ∈ s.atBarrier g id ↔
    c ∈ (s.gang g).cores ∧ n < 16 ∧ ∃ w, (s.slot c n).ws = some w ∧ (s.task c w).gang = some g ∧ (s.task c w).park = .gbar id := by
  simp only [State.atBarrier_eq, List.mem_flatMap, List.mem_filterMap, List.mem_range, State.waiterAt_eq_some]
  constructor
  · rintro ⟨d, hd, i, hi, he, hw⟩
    cases he
    exact ⟨hd, hi, hw⟩
  · rintro ⟨hc, hn, hw⟩
    exact ⟨c, hc, n, hn, rfl, hw⟩

theorem State.nodup_atBarrier (s : State) {g : Nat} (id : Nat) (h : (s.gang g).cores.Nodup) : (s.atBarrier g id).Nodup := by
  rw [State.atBarrier_eq]
  refine List.nodup_flatMap.mpr ⟨fun c _ => ?_, h.imp fun hne => ?_⟩
  · refine List.nodup_range.filterMap fun i j e hi hj => ?_
    have hi := (s.waiterAt_eq_some.mp hi).1
    have hj := (s.waiterAt_eq_some.mp hj).1
    exact congrArg Prod.snd (hi.symm.trans hj)
  · intro e hi hj
    obtain ⟨i, -, hi⟩ := List.mem_filterMap.mp hi
    obtain ⟨j, -, hj⟩ := List.mem_filterMap.mp hj
    have hi := (s.waiterAt_eq_some.mp hi).1
    have hj := (s.waiterAt_eq_some.mp hj).1
    exact hne (congrArg Prod.fst (hi.symm.trans hj))

/-- Settles O18: the arrival is recorded as R235 says, and a release lets each waiting member go on once. -/
theorem gangBarriersFollowR61AndR235 : Obligations.GangBarriersFollowR61AndR235 := by
  intro s i g id u G j before
  refine ⟨fun hg vec hv h0 hvec hne => ?_, fun hg => ?_, fun due hdue hphase hle => ?_, fun hno => ?_⟩
  · refine ⟨_, ?_, s.takeTrap_handlerEntered ⟨7, 0x0A, none, none⟩ vec hv h0 hvec hne⟩
    show execGbar i s = _
    simp only [execGbar, hg]
    rfl
  · let v := u.putGang g (G.arrive j (u.rankOf u.actCore u.curWs) (u.pts u.actCore) u.cycle)
    have hexec : exec (.gbar i) s = .next (v.parkCur (.gbar j)) := by
      show execGbar i s = _
      simp only [execGbar, hg]
      rfl
    have hv : SameThreads u v := .of_cores rfl rfl rfl
    have hpark := SameElse.parkCur v (.gbar j)
    have hgangs : ∀ x, (v.parkCur (.gbar j)).gang x = v.gang x := fun x => by rw [State.gang, hpark.1.gangs]; rfl
    have hgang : (v.parkCur (.gbar j)).gang g = G.arrive j (u.rankOf u.actCore u.curWs) (u.pts u.actCore) u.cycle := by
      rw [hgangs, State.gang_putGang_same]
    refine ⟨_, hexec, ?_, fun r _ => ?_, ⟨hpark.sameBytes.1, hpark.sameBytes.2⟩, hv.otherThreads hpark.1, fun x hx => ?_, ?_, ?_,
      fun hlast => ?_, fun hlast => ?_⟩
    · rw [State.curTask_parkCur, hv.curTask]
    · exact (State.rd_modCurTask v _ r).trans (hv.rd r)
    · rw [hgangs, State.gang_putGang, if_neg hx]
    · rw [hgang]; exact AMap.get_put_same _ _ _ _
    · rw [hgang]; exact AMap.get_put_same _ _ _ _
    · rw [hgang]
      show AMap.find (if (before ++ [_]).length = G.size then _ else _) j = _
      rw [if_pos (by simpa using hlast), AMap.find_put_same]
    · rw [hgang]
      exact if_neg (by simpa using hlast)
  · let p := AMap.get 0 (s.gang g).arrPts id
    let s1 := s.raiseAll (s.gang g).cores p
    let s2 := s1.goOnAll (s.atBarrier g id)
    have h1 : SameThreads s s1 := s.sameThreads_raiseAll _ _
    have hc1 : s1.cycle = s.cycle := s.raiseAll_cycle _ p
    have hexec : exec (.gbarRelease g id) s = .next (s.openBarrier g id) := by
      show execGbarRelease g id s = _
      simp only [execGbarRelease, hdue, hphase, hle, and_self, if_true]
    refine ⟨_, hexec, (s.sameBytes_raiseAll _ _).trans (s1.sameBytes_goOnAll _), ?_, ?_, fun c hc => ?_,
      fun c n w hc hn hw hwg hwait => ?_⟩
    · rw [s.openBarrier_eq, State.gang_putGang_same, AMap.find_del_same]
    · rw [s.openBarrier_eq, State.gang_putGang_same]
      exact congrArg (Option.getD · []) (AMap.find_del_same _ _)
    · show p ≤ s2.pts c
      rw [s1.pts_goOnAll]
      exact s.le_pts_raiseAll (.inl hc)
    · have hmem : (c, n) ∈ s.atBarrier g id := s.mem_atBarrier.mpr ⟨hc, hn, w, hw, hwg, hwait⟩
      have hw1 : (s1.slot c n).ws = some w := by rw [h1.slot]; exact hw
      obtain ⟨hrun, hnext⟩ := s1.goOnAll_mem hmem hw1
      refine ⟨hrun, hc1 ▸ hnext, fun hnodup honly => ?_⟩
      have hpc := s1.pc_goOnAll (s.nodup_atBarrier id hnodup) hmem hw1 fun m hm hmw => ?_
      · exact hpc.trans (State.npc_actAs_congr hw hw1 (h1.task c w))
      · obtain ⟨-, hm16, v, hv, -⟩ := s.mem_atBarrier.mp hm
        refine honly m hm16 (hv.trans ?_)
        rw [State.wsAt, h1.slot, hv] at hmw
        exact congrArg some hmw
  · show execGbarRelease g id s = _
    unfold execGbarRelease
    rcases hno with hnone | hphase | ⟨due, hdue, hlt⟩
    · simp only [hnone]
    · split
      · rfl
      · rw [if_neg fun h => hphase h.1]
    · simp only [hdue]
      rw [if_neg fun h => Nat.not_le.mpr hlt h.2]

end Sys2Proof.Machine
end

section
/-! SUPPORT. What the memory system keeps for itself: timestamps, homes and copies of lines, translations, the lines that L2 and
LLC hold, and the journal (R69 to R71, R120, R426, R432). What changes these alone changes no thread and no byte. -/

namespace Sys2Proof.Machine

/-- Nothing has changed but the memory system's own records and the journal. -/
structure Records (s t : State) : Prop where
  device : t = { s with
    cores := t.cores, setts := t.setts, home := t.home, l2hts := t.l2hts, llchts := t.llchts, l2 := t.l2, llc := t.llc
    walks := t.walks, journal := t.journal, ovf := t.ovf, coalesce := t.coalesce, freeCount := t.freeCount }
  core : ∀ c, t.core c = { s.core c with
    hts := (t.core c).hts, ptsOff := (t.core c).ptsOff, l1 := (t.core c).l1, tlb := (t.core c).tlb, late := (t.core c).late }

theorem Records.refl (s : State) : Records s s := ⟨rfl, fun _ => rfl⟩

theorem Records.trans {s t u : State} (h : Records s t) (h' : Records t u) : Records s u := by
  refine ⟨?_, fun c => ?_⟩
  · have h1 := h.device
    have h2 := h'.device
    rw [h2, h1]
  · rw [h'.core, h.core]

/-- What leaves the cores alone. -/
theorem Records.of_device {s t : State} (hd : t = { s with
    setts := t.setts, home := t.home, l2hts := t.l2hts, llchts := t.llchts, l2 := t.l2, llc := t.llc
    walks := t.walks, journal := t.journal, ovf := t.ovf, coalesce := t.coalesce, freeCount := t.freeCount }) : Records s t := by
  have hc : t.cores = s.cores := by rw [hd]
  refine ⟨?_, fun c => ?_⟩
  · rw [hc]; exact hd
  · have : t.core c = s.core c := by rw [State.core, hc, State.core]
    rw [this]

theorem Records.modCore (s : State) (c : Nat) (f : Core → Core) (hf : f (s.core c) = { s.core c with
    hts := (f (s.core c)).hts, ptsOff := (f (s.core c)).ptsOff, l1 := (f (s.core c)).l1, tlb := (f (s.core c)).tlb
    late := (f (s.core c)).late }) : Records s (s.modCore c f) := by
  refine ⟨rfl, fun d => ?_⟩
  rw [State.modCore_eq, State.core_putCore]
  split
  · subst_vars; exact hf
  · rfl

theorem Records.ite {s t u : State} {p : Prop} [Decidable p] (h : Records s t) (h' : Records s u) :
    Records s (if p then t else u) := by
  split <;> assumption

theorem Records.foldl {α : Type} (f : State → α → State) (h : ∀ t x, Records t (f t x)) (l : List α) (s : State) :
    Records s (l.foldl f s) := List.foldlRecOn _ _ (Records.refl s) fun t ht x _ => ht.trans (h t x)

theorem JournalOnly.records {s t : State} (h : JournalOnly s t) : Records s t := .of_device (by rw [h])

/-! ## What such a change leaves -/

section
variable {s t : State} (h : Records s t)
include h

theorem Records.mem : t.mem = s.mem := by rw [h.device]
theorem Records.cycle : t.cycle = s.cycle := by rw [h.device]
theorem Records.turn : t.turn = s.turn := by rw [h.device]
theorem Records.inflight : t.inflight = s.inflight := by rw [h.device]
theorem Records.gangs : t.gangs = s.gangs := by rw [h.device]
theorem Records.worlds : t.worlds = s.worlds := by rw [h.device]
theorem Records.queues : t.queues = s.queues := by rw [h.device]
theorem Records.actCore : t.actCore = s.actCore := by rw [h.device]
theorem Records.actSlot : t.actSlot = s.actSlot := by rw [h.device]

theorem Records.sameThreads : SameThreads s t :=
  ⟨h.actCore, h.actSlot, fun c => by rw [h.core c], fun c => by rw [h.core c]⟩

theorem Records.sameBytes : SameBytes s t :=
  ⟨fun _ => by rw [State.memByte, h.mem]; rfl, fun c _ => by rw [State.spadByte, h.core c]; rfl⟩

theorem Records.slot (c i : Nat) : t.slot c i = s.slot c i := h.sameThreads.slot c i
theorem Records.task (c w : Nat) : t.task c w = s.task c w := h.sameThreads.task c w
theorem Records.world (w : Nat) : t.world w = s.world w := by rw [State.world, h.worlds]; rfl
theorem Records.gang (g : Nat) : t.gang g = s.gang g := by rw [State.gang, h.gangs]; rfl

theorem Records.sNum (c off n : Nat) : t.sNum c off n = s.sNum c off n := by rw [State.sNum, h.core c]; rfl

theorem Records.windowOf (w pa : Nat) : t.windowOf w pa = s.windowOf w pa := by
  rw [h.device]; rfl

/-- The bytes of a place are those that stood there. -/
theorem Records.peek (w : Nat) (l : Loc) (n : Nat) : t.peek w l n = s.peek w l n := by
  cases l with
  | spad o off => rw [State.peek, h.core o]; rfl
  | mem pa mt =>
    have halias : t.aliasRead w pa n = s.aliasRead w pa n := by
      rw [State.aliasRead, State.aliasRead, h.windowOf]
      simp only [State.windowBlock, h.mem]
    rw [State.peek, State.peek, halias, h.mem]
  | fabric win off => rfl

end

/-! ## What makes such changes -/

theorem State.putSett_tlb_records (s : State) (n : Nat) (t : Sett) : Records s (s.putSett n t) := .of_device rfl

theorem State.putHome_records (s : State) (pa : Nat) (h : HomeLine) : Records s (s.putHome pa h) := .of_device rfl

theorem State.raisePts_records (s : State) (c x : Nat) : Records s (s.raisePts c x) := .modCore s c _ rfl

theorem State.soil_records (s : State) (pa : Nat) : Records s (s.soil pa) := by
  rw [State.soil]
  exact .ite (.of_device rfl) (.refl s)

theorem State.soilAt_records (s : State) (l : Loc) : Records s (s.soilAt l) := by
  unfold State.soilAt
  split
  · exact s.soil_records _
  · exact .refl s

theorem State.recall_records (s : State) (pa : Nat) : Records s (s.recall pa) := by
  rw [State.recall]
  dsimp only
  split
  · exact .refl s
  · exact ((s.putHome_records _ _).trans (State.soil_records _ _)).trans (.modCore _ _ _ rfl)

theorem State.homeWrite_records (s : State) (pa stamp : Nat) : Records s (s.homeWrite pa stamp) :=
  (s.recall_records pa).trans (State.putHome_records _ _ _)

theorem State.writeHome_records (s : State) (w : Nat) (l : Loc) (stamp : Nat) : Records s (s.writeHome w l stamp) := by
  unfold State.writeHome
  split
  · exact .foldl _ (fun t a => t.homeWrite_records a stamp) _ s
  · exact .refl s

theorem State.fillLine_records (s : State) (w pa : Nat) : Records s (s.fillLine w pa) := by
  rw [State.fillLine]
  exact .ite (.refl s) (.of_device rfl)

theorem State.fillL2_records (s : State) (w pa : Nat) : Records s (s.fillL2 w pa) := by
  rw [State.fillL2]
  exact .ite (.refl s) (.foldl _ (fun t i => t.fillLine_records _ _) _ s)

theorem State.fillLlc_records (s : State) (w pa : Nat) : Records s (s.fillLlc w pa) := by
  rw [State.fillLlc]
  exact .ite (.refl s) (.ite (.of_device rfl) (.of_device rfl))

theorem State.cached_records (s : State) (w : Nat) (l : Loc) : Records s (s.cached w l) := by
  unfold State.cached
  split
  · exact .ite (s.fillLlc_records _ _) ((s.fillL2_records _ _).trans (State.fillLlc_records _ _ _))
  · exact .refl s

theorem State.raiseHts_records (s : State) (l : Loc) (stamp : Nat) : Records s (s.raiseHts l stamp) := by
  unfold State.raiseHts
  split
  · exact .modCore s _ _ rfl
  · exact .ite (.of_device rfl) (.of_device rfl)
  · exact .refl s

theorem State.noteWalk_records (s : State) (c w va : Nat) : Records s (s.noteWalk c w va) := by
  unfold State.noteWalk
  refine .ite (.trans (.of_device ?_) (.foldl _ (fun t a => t.cached_records _ _) _ _)) (.refl s)
  rfl

theorem State.noteTlb_records (s : State) (c va : Nat) (x : Walk) : Records s (s.noteTlb c va x) := by
  unfold State.noteTlb
  refine .ite (.refl s) ?_
  split
  · have hcore : ∀ f : Core → Core, (∀ k, f k = { k with tlb := (f k).tlb, late := (f k).late }) →
        Records s ((s.noteWalk c (s.core c).world va).modCore c f) := fun f hf =>
      (s.noteWalk_records c _ va).trans (.modCore _ c f (by rw [hf]))
    exact .ite (hcore _ fun _ => rfl) ((hcore _ fun _ => rfl).trans (State.putSett_tlb_records _ _ _))
  · exact .modCore s c _ rfl

theorem State.unreadLines_records (s : State) (c : Nat) (ls : List ILine) : Records s (s.unreadLines c ls) :=
  .foldl _ (fun t _ => (t.journalEvent_only _ _ _ _ _).records) _ s

theorem State.noteUnread_records (s : State) (l : Loc) (w : Nat) : Records s (s.noteUnread l w) := by
  unfold State.noteUnread
  split
  · exact (s.journalEvent_only _ _ _ _ _).records
  · exact (s.journalEvent_only _ _ _ _ _).records
  · exact .refl s

theorem State.watch_records (s : State) (l : Loc) (add : Bool) : Records s (s.watch l add) := by
  unfold State.watch
  split
  · exact (s.recall_records _).trans (State.putHome_records _ _ _)
  · exact .refl s

theorem State.dropStale_records (s : State) (c : Nat) (l : Loc) : Records s (s.dropStale c l) := by
  unfold State.dropStale
  split
  · exact .modCore s c _ rfl
  · exact .refl s

end Sys2Proof.Machine
end

section
/-! What a thread's answer does when it returns (R34, R37, R103). -/

namespace Sys2Proof.Machine

/-- Write a register, if one is given. -/
def State.wrOption (s : State) : Option (BitVec 5 × Word) → State
  | some (d, v) => s.wr d v
  | none => s

/-- The state in which an answer without a trap completes its instruction. -/
def State.answered (s : State) (a : Answer) : State :=
  ((((s.parkCur .run).raisePts s.actCore a.stamp).wrOption a.reg).wrOption a.upd).orFlags a.flags

theorem State.takeAnswer_ok (s : State) (a : Answer) (at_ : Nat) (h : a.trap = none) :
    s.takeAnswer a at_ = ((s.answered a).finish 1).goAt at_ := by
  obtain ⟨reg, upd, flags, trap, stamp, last⟩ := a
  cases (h : trap = none)
  rcases reg with _ | ⟨d, v⟩ <;> rcases upd with _ | ⟨e, w⟩ <;> rfl

theorem State.takeAnswer_late (s : State) (a : Answer) (at_ : Nat) {t : Trap} (h : a.trap = some t) :
    s.takeAnswer a at_ = ((s.raisePts s.actCore a.stamp).modCurTask (fun k => { k with park := .run })).takeLateTrap t := by
  simp only [State.takeAnswer, h]; rfl

@[simp] theorem State.curWs_parkCur (s : State) (p : Park) : (s.parkCur p).curWs = s.curWs := s.curWs_modCurTask _

section
variable (s : State) (r : Option (BitVec 5 × Word))

theorem SameElse.wrOption : SameElse s (s.wrOption r) := by
  rcases r with _ | ⟨d, v⟩
  · exact .refl s
  · exact SameElse.modCurSlot s (fun sl => sl.setReg d.toNat v)

@[simp] theorem State.curWs_wrOption : (s.wrOption r).curWs = s.curWs := by
  cases r with
  | none => rfl
  | some e => exact s.curWs_wr _ _

@[simp] theorem State.curTask_wrOption : (s.wrOption r).curTask = s.curTask := by
  cases r with
  | none => rfl
  | some e => exact s.curTask_wr _ _

@[simp] theorem State.wrOption_cycle : (s.wrOption r).cycle = s.cycle := by cases r <;> rfl

/-- A register that is not the one written reads as before. -/
theorem State.rd_wrOption_ne {q : BitVec 5} (h : q ∉ r.toList.map (fun e => e.1)) : (s.wrOption r).rd q = s.rd q := by
  cases r with
  | none => rfl
  | some e => exact s.rd_wr_ne e.2 (by simpa using h)

theorem State.rd_wrOption_same (d : BitVec 5) (v : Word) : (s.wrOption (some (d, v))).rd d = v := s.rd_wr_same d v

end

section
variable (s : State) (a : Answer)

theorem State.curTask_answered : (s.answered a).curTask = { s.curTask with park := .run, flags := s.curTask.flags ||| a.flags } := by
  simp [State.answered]

theorem State.cycle_answered : (s.answered a).cycle = s.cycle := by
  simp [State.answered]; rfl

theorem State.npc_answered : (s.answered a).npc = s.npc :=
  State.npc_congr (by rw [s.curTask_answered]) (by rw [s.curTask_answered])

theorem State.nextPc?_answered : (s.answered a).nextPc? = s.nextPc? :=
  State.nextPc?_congr (by rw [s.curTask_answered]) (by rw [s.curTask_answered])

/-- Completing with an answer changes the acting thread alone, and its core's timestamp. -/
theorem State.answered_sameElse (at_ : Nat) : SameElse ((s.parkCur .run).raisePts s.actCore a.stamp) (((s.answered a).finish 1).goAt at_) := by
  let u := (s.parkCur .run).raisePts s.actCore a.stamp
  have hwrites : SameElse u ((u.wrOption a.reg).wrOption a.upd) := (SameElse.wrOption u a.reg).trans (.wrOption _ _) (u.curWs_wrOption _)
  have hans : SameElse u (s.answered a) := hwrites.trans (SameElse.modCurTask _ (fun t => { t with flags := t.flags ||| a.flags })) (by simp)
  have hfin : SameElse u ((s.answered a).finish 1) := hans.trans (State.finish_sameElse _ 1) (by simp [State.answered, u])
  exact hfin.trans (.goAt _ _) (by rw [State.curWs_finish]; simp [State.answered, u])

theorem State.rd_answered_upd {d : BitVec 5} {v : Word} (h : a.upd = some (d, v)) : (s.answered a).rd d = v := by
  rw [State.answered, State.rd_orFlags, h, State.rd_wrOption_same]

theorem State.rd_answered_reg {d : BitVec 5} {v : Word} (h : a.reg = some (d, v)) (hne : ∀ w, a.upd ≠ some (d, w)) :
    (s.answered a).rd d = v := by
  rw [State.answered, State.rd_orFlags, State.rd_wrOption_ne, h, State.rd_wrOption_same]
  rw [List.mem_map]
  rintro ⟨⟨e, w⟩, he, rfl⟩
  exact hne w (Option.mem_toList.mp he)

theorem State.rd_answered_ne {r : BitVec 5} (h : r ∉ (a.reg.toList ++ a.upd.toList).map (fun e => e.1)) : (s.answered a).rd r = s.rd r := by
  rw [List.map_append, List.mem_append, not_or] at h
  rw [State.answered, State.rd_orFlags, State.rd_wrOption_ne _ _ h.2, State.rd_wrOption_ne _ _ h.1]
  simp [State.parkCur]

end

/-- An answer has been taken: the instruction is complete with the registers and flags it gives (R34, R37). -/
structure AnswerTaken (u t : State) (a : Answer) (at_ : Nat) : Prop where
  task : t.curTask = { u.curTask with
    park := .run, flags := u.curTask.flags ||| a.flags, pc := u.npc, pastEnd := u.nextPc?.isNone, resume := none }
  nextAt : t.curSlot.nextAt = at_
  bytes : SameBytes u t
  threads : OtherThreads u t
  device : OneCore u.actCore u t
  regs : SameRegs u t ((a.reg.toList ++ a.upd.toList).map (fun e => e.1))
  upd : ∀ d v, a.upd = some (d, v) → t.rd d = v
  reg : ∀ d v, a.reg = some (d, v) → (∀ w, a.upd ≠ some (d, w)) → t.rd d = v
  stamp : a.stamp ≤ t.pts u.actCore

theorem State.takeAnswer_taken (u : State) (a : Answer) (at_ : Nat) (h : a.trap = none) : AnswerTaken u (u.takeAnswer a at_) a at_ := by
  rw [u.takeAnswer_ok a at_ h]
  have hpark := SameElse.parkCur u .run
  have hpts := State.raisePts_records (u.parkCur .run) u.actCore a.stamp
  have helse := u.answered_sameElse a at_
  have hrd : ∀ r, (((u.answered a).finish 1).goAt at_).rd r = (u.answered a).rd r := fun r => by rw [State.rd_goAt, State.rd_finish]
  refine ⟨?_, by rw [State.curSlot_goAt], (hpark.sameBytes.trans hpts.sameBytes).trans helse.sameBytes, ⟨fun i hi => ?_, fun w hw => ?_⟩,
    (hpark.1.device.trans (.modCore _ _ _)).trans helse.1.device,
    fun r hr => (hrd r).trans (u.rd_answered_ne a hr), fun d v hd => (hrd d).trans (u.rd_answered_upd a hd),
    fun d v hd hne => (hrd d).trans (u.rd_answered_reg a hd hne), ?_⟩
  · rw [State.curTask_goAt, State.curTask_finish, u.npc_answered, u.nextPc?_answered, u.curTask_answered]
  · exact (helse.1.slots i hi).trans ((hpts.slot _ _).trans (hpark.1.slots i hi))
  · exact (helse.1.tasks w (by simpa using hw)).trans ((hpts.task _ _).trans (hpark.1.tasks w hw))
  · rw [helse.1.pts, State.pts_raisePts, if_pos rfl]
    exact Nat.le_max_right _ _

end Sys2Proof.Machine
end

section
/-! SUPPORT. Changes of one core's slot, task or bytes as seen from every core, what leaving a ready list changes, and what the
withdrawal of a task's requests leaves (R47, R222). -/

namespace Sys2Proof.Machine

/-! ## One slot, one task -/

section
variable (s : State) (c : Nat)

theorem State.core_modCore (f : Core → Core) (d : Nat) : (s.modCore c f).core d = if d = c then f (s.core c) else s.core d := by
  rw [State.modCore_eq, State.core_putCore]

theorem State.core_modCore_same (f : Core → Core) : (s.modCore c f).core c = f (s.core c) := by
  rw [s.core_modCore, if_pos rfl]

theorem State.core_modTask (w : Nat) (f : Task → Task) (d : Nat) :
    (s.modTask c w f).core d = if d = c then (s.core c).putTask w (f (s.task c w)) else s.core d := by
  rw [State.modTask_eq, State.core_putCore]

theorem State.core_modSlot (i : Nat) (f : Slot → Slot) (d : Nat) :
    (s.modSlot c i f).core d = if d = c then (s.core c).putSlot i (f (s.slot c i)) else s.core d := by
  rw [State.modSlot_eq, State.core_putCore]

theorem State.task_modTask (w : Nat) (f : Task → Task) (d v : Nat) :
    (s.modTask c w f).task d v = if d = c ∧ v = w then f (s.task c w) else s.task d v := by
  rw [State.task, s.core_modTask]
  by_cases hd : d = c
  · subst hd; simp [Core.task_putTask, State.task]
  · simp [hd]; rfl

theorem State.slot_modSlot (i : Nat) (f : Slot → Slot) (d j : Nat) :
    (s.modSlot c i f).slot d j = if d = c ∧ j = i then f (s.slot c i) else s.slot d j := by
  rw [State.slot, s.core_modSlot]
  by_cases hd : d = c
  · subst hd; simp [Core.slot_putSlot, State.slot]
  · simp [hd]; rfl

@[simp] theorem State.task_modTask_same (w : Nat) (f : Task → Task) : (s.modTask c w f).task c w = f (s.task c w) := by
  rw [s.task_modTask, if_pos ⟨rfl, rfl⟩]

@[simp] theorem State.slot_modSlot_same (i : Nat) (f : Slot → Slot) : (s.modSlot c i f).slot c i = f (s.slot c i) := by
  rw [s.slot_modSlot, if_pos ⟨rfl, rfl⟩]

@[simp] theorem State.slot_modTask (w : Nat) (f : Task → Task) (d j : Nat) : (s.modTask c w f).slot d j = s.slot d j := by
  rw [State.slot, s.core_modTask]
  split
  · subst_vars; rfl
  · rfl

@[simp] theorem State.task_modSlot (i : Nat) (f : Slot → Slot) (d v : Nat) : (s.modSlot c i f).task d v = s.task d v := by
  rw [State.task, s.core_modSlot]
  split
  · subst_vars; rfl
  · rfl

theorem State.ready_modTask (w : Nat) (f : Task → Task) (d : Nat) : ((s.modTask c w f).core d).ready = (s.core d).ready := by
  rw [s.core_modTask]
  split
  · subst_vars; rfl
  · rfl

theorem State.sameBytes_modTask (w : Nat) (f : Task → Task) : SameBytes s (s.modTask c w f) :=
  .modCore s c (fun k => k.putTask w (f (s.task c w))) rfl

theorem State.sameBytes_modSlot (i : Nat) (f : Slot → Slot) : SameBytes s (s.modSlot c i f) :=
  .modCore s c (fun k => k.putSlot i (f (s.slot c i))) rfl

theorem OneCore.modTask (w : Nat) (f : Task → Task) : OneCore c s (s.modTask c w f) := .of_put _ _ _
theorem OneCore.modSlot (i : Nat) (f : Slot → Slot) : OneCore c s (s.modSlot c i f) := .of_put _ _ _

end

/-- Two cores with the same tasks have the same head ready by a cycle in the same lists (R47). -/
theorem Core.readyBy_congr {k k' : Core} (hr : k'.ready = k.ready) (ht : ∀ w, (k'.task w).readyAt = (k.task w).readyAt) (now : Nat) :
    k'.readyBy now = k.readyBy now := by
  simp only [Core.readyBy, Core.readyList, hr, ht]

/-- What a core's workspace has been put into is one of its 16 slots (R41). -/
theorem Core.slotOf_spec {k : Core} {ws i : Nat} (h : k.slotOf ws = some i) :
    i < 16 ∧ (k.slot i).ws = some ws ∧ ∀ j, j < i → (k.slot j).ws ≠ some ws := by
  have hfound := List.find?_eq_some_iff_getElem.mp h
  obtain ⟨hws, n, hn, hget, hbefore⟩ := hfound
  rw [List.getElem_range] at hget
  subst hget
  rw [List.length_range] at hn
  refine ⟨hn, by simpa using hws, fun j hj => ?_⟩
  have := hbefore j hj
  simpa using this

/-! ## Leaving a ready list (R47) -/

/-- Of one core only bytes of its scratchpad and its ready lists have changed. -/
structure ReadyOnly (c : Nat) (s t : State) : Prop where
  device : OneCore c s t
  core : t.core c = { s.core c with scratch := (t.core c).scratch, ready := (t.core c).ready }

theorem ReadyOnly.refl (c : Nat) (s : State) : ReadyOnly c s s := ⟨.refl _ _, rfl⟩

theorem ReadyOnly.trans {c : Nat} {s t u : State} (h : ReadyOnly c s t) (h' : ReadyOnly c t u) : ReadyOnly c s u :=
  ⟨h.device.trans h'.device, by rw [h'.core, h.core]⟩

theorem ReadyOnly.modCore (s : State) (c : Nat) (f : Core → Core)
    (hf : f (s.core c) = { s.core c with scratch := (f (s.core c)).scratch, ready := (f (s.core c)).ready }) :
    ReadyOnly c s (s.modCore c f) :=
  ⟨.modCore s c f, by rw [s.core_modCore_same]; exact hf⟩

theorem ReadyOnly.sPut (s : State) (c off n v : Nat) : ReadyOnly c s (s.sPut c off n v) := .modCore s c _ rfl

theorem ReadyOnly.setLink (s : State) (c ws link : Nat) : ReadyOnly c s (s.setLink c ws link) := .sPut s c _ _ _

theorem ReadyOnly.relink (c : Nat) (l : List Nat) (s : State) : ReadyOnly c s (s.relink c l) := by
  induction l generalizing s with
  | nil => exact .refl c s
  | cons a l ih =>
    cases l with
    | nil => exact .setLink s c a _
    | cons b l => exact (ReadyOnly.setLink s c a b).trans (ih _)

theorem ReadyOnly.slot {c : Nat} {s t : State} (h : ReadyOnly c s t) (d i : Nat) : t.slot d i = s.slot d i := by
  by_cases hd : d = c
  · subst hd; rw [State.slot, h.core]; rfl
  · rw [State.slot, h.device.2 d hd]; rfl

theorem ReadyOnly.task {c : Nat} {s t : State} (h : ReadyOnly c s t) (d w : Nat) : t.task d w = s.task d w := by
  by_cases hd : d = c
  · subst hd; rw [State.task, h.core]; rfl
  · rw [State.task, h.device.2 d hd]; rfl

/-- Taking a task out of one list, if it is in it. -/
def State.unlist (s : State) (c ws p : Nat) : State :=
  if ((s.core c).readyList p).contains ws then
    (s.modCore c (fun k => { k with ready := AMap.put k.ready p (((s.core c).readyList p).filter (fun x => x != ws)) })).relink c
      (((s.core c).readyList p).filter (fun x => x != ws))
  else s

theorem State.leaveReady_eq (s : State) (c ws : Nat) :
    s.leaveReady c ws = ((List.range 4).foldl (fun s p => s.unlist c ws p) s).setLink c ws 0xFFFF := rfl

theorem ReadyOnly.unlist (s : State) (c ws p : Nat) : ReadyOnly c s (s.unlist c ws p) := by
  unfold State.unlist
  split
  · exact (ReadyOnly.modCore s c _ rfl).trans (.relink c _ _)
  · exact .refl c s

theorem ReadyOnly.leaveReady (s : State) (c ws : Nat) : ReadyOnly c s (s.leaveReady c ws) := by
  rw [s.leaveReady_eq]
  refine .trans ?_ (.setLink _ c ws _)
  exact List.foldlRecOn _ _ (ReadyOnly.refl c s) fun t ht p _ => ht.trans (.unlist t c ws p)

/-! ## Withdrawing what a task waits for (R115, R222, R242) -/

/-- Requests have been withdrawn: no thread has moved, no byte has changed, and of a task only the element at which its nest
resumes. -/
structure Withdrawn (s t : State) : Prop where
  cycle : t.cycle = s.cycle
  gangs : t.gangs = s.gangs
  mem : t.mem = s.mem
  scratch : ∀ c, (t.core c).scratch = (s.core c).scratch
  slots : ∀ c, (t.core c).slots = (s.core c).slots
  ready : ∀ c, (t.core c).ready = (s.core c).ready
  task : ∀ c w, t.task c w = { s.task c w with resume := (t.task c w).resume }

theorem Withdrawn.refl (s : State) : Withdrawn s s := ⟨rfl, rfl, rfl, fun _ => rfl, fun _ => rfl, fun _ => rfl, fun _ _ => rfl⟩

theorem Withdrawn.trans {s t u : State} (h : Withdrawn s t) (h' : Withdrawn t u) : Withdrawn s u :=
  ⟨h'.cycle.trans h.cycle, h'.gangs.trans h.gangs, h'.mem.trans h.mem, fun c => (h'.scratch c).trans (h.scratch c),
    fun c => (h'.slots c).trans (h.slots c), fun c => (h'.ready c).trans (h.ready c), fun c w => by rw [h'.task, h.task]⟩

theorem Withdrawn.slot {s t : State} (h : Withdrawn s t) (c i : Nat) : t.slot c i = s.slot c i := by
  rw [State.slot, Core.slot, h.slots]; rfl

theorem Withdrawn.sameBytes {s t : State} (h : Withdrawn s t) : SameBytes s t :=
  ⟨fun _ => by rw [State.memByte, h.mem]; rfl, fun c _ => by rw [State.spadByte, h.scratch]; rfl⟩

theorem Withdrawn.readyBy {s t : State} (h : Withdrawn s t) (c now : Nat) : (t.core c).readyBy now = (s.core c).readyBy now :=
  Core.readyBy_congr (h.ready c) (fun w => show (t.task c w).readyAt = (s.task c w).readyAt by rw [h.task]) now

theorem Records.withdrawn {s t : State} (h : Records s t) : Withdrawn s t :=
  ⟨h.cycle, h.gangs, h.mem, fun c => by rw [h.core c], fun c => by rw [h.core c], fun c => by rw [h.core c], fun c w => by rw [h.task]⟩

/-- A core without the waiting requests that a test names. -/
def Core.unwait (p : Request → Bool) (k : Core) : Core :=
  { k with feWait := k.feWait.filter (fun r => !(p r)), clWait := k.clWait.filter (fun r => !(p r))
           sendWait := k.sendWait.filter (fun r => !(p r)) }

theorem State.core_map {s t : State} (f : Core → Core) (hf : f Core.reset = Core.reset)
    (h : t.cores = s.cores.map (fun e => (e.1, f e.2))) (c : Nat) : t.core c = f (s.core c) := by
  have := AMap.get_map (fun _ k => f k) Core.reset s.cores c
  rw [hf] at this
  rw [State.core, h, this, State.core]

theorem State.withdraw_withdrawn (s : State) (c ws : Nat) : Withdrawn s (s.withdraw c ws) := by
  let mine : Request → Bool := fun r => r.core == c && r.ws == ws
  let u := ((s.core c).clWait.filter mine).foldl (fun (s : State) (r : Request) => s.watch r.loc false) s
  have hu : Records s u := .foldl _ (fun t (r : Request) => t.watch_records r.loc false) _ s
  have hcore : ∀ d, (s.withdraw c ws).core d = (u.core d).unwait mine := State.core_map (Core.unwait mine) rfl rfl
  refine hu.withdrawn.trans ⟨rfl, rfl, rfl, fun d => by rw [hcore]; rfl, fun d => by rw [hcore]; rfl, fun d => by rw [hcore]; rfl,
    fun d w => by rw [State.task, hcore]; rfl⟩

theorem State.withdrawNest_withdrawn (s : State) (c ws : Nat) : Withdrawn s (s.withdrawNest c ws) := by
  unfold State.withdrawNest
  split
  · exact .refl s
  next q _ =>
    have hfree : ∀ f : Core → Core, (∀ k, f k = { k with vq := (f k).vq, held := (f k).held }) → Withdrawn s (s.modCore c f) := by
      intro f hf
      have hcore : ∀ d, (s.modCore c f).core d = { s.core d with vq := ((s.modCore c f).core d).vq, held := ((s.modCore c f).core d).held } := by
        intro d
        rw [s.core_modCore]
        split
        · subst_vars; exact hf _
        · rfl
      exact ⟨rfl, rfl, rfl, fun d => by rw [hcore d], fun d => by rw [hcore d], fun d => by rw [hcore d],
        fun d w => by rw [State.task, hcore d]; rfl⟩
    have hcore := hfree (fun k => { (k.freeNest q.id) with held := if q.wins.isEmpty then k.held else k.held ++ [q] }) fun _ => rfl
    dsimp only
    split
    · exact hcore
    · refine hcore.trans ⟨rfl, rfl, rfl, fun d => ?_, fun d => ?_, fun d => State.ready_modTask _ _ _ _ d, fun d w => ?_⟩
      · rw [State.core_modTask]
        split
        · subst_vars; rfl
        · rfl
      · rw [State.core_modTask]
        split
        · subst_vars; rfl
        · rfl
      · rw [State.task_modTask]
        split
        next h => rw [h.1, h.2]
        · rfl

theorem State.withdrawAll_withdrawn (s : State) (c ws : Nat) : Withdrawn s (s.withdrawAll c ws) :=
  (s.withdraw_withdrawn c ws).trans (State.withdrawNest_withdrawn _ c ws)

end Sys2Proof.Machine
end

section
/-! Returns, deadlines, withdrawals and line fills (R34, R37, R113, R202, R222). -/

namespace Sys2Proof.Machine

theorem SameThreads.slotOf {s t : State} (h : SameThreads s t) (c w : Nat) : (t.core c).slotOf w = (s.core c).slotOf w := by
  simp only [Core.slotOf, Core.slot, h.slots]

/-! ## Line fills (R202) -/

/-- The line that is put into a set stands in it (R201). -/
theorem Core.line?_addLine (k : Core) (l : ILine) : (k.addLine l).line? l.base = some l := by
  rw [Core.line?, Core.addLine, AMap.get_put_same, List.take_succ_cons, List.find?_cons_of_pos (by simp)]

/-- One slot's thread goes on if it waits for the line (R34, R113). -/
def State.lineGo (s : State) (c base at_ i : Nat) : State :=
  match (s.slot c i).ws with
  | some w => if (s.task c w).park = .line base
      then (s.modTask c w (fun t => { t with park := .run })).modSlot c i (fun sl => { sl with nextAt := at_ }) else s
  | none => s

theorem State.lineReady_eq (s : State) (c base at_ : Nat) :
    s.lineReady c base at_ = (List.range 16).foldl (fun s i => s.lineGo c base at_ i) s := rfl

section
variable (s : State) (c base at_ i : Nat)

/-- A slot's thread that does not wait for the line is left alone, one that does goes on. -/
theorem State.lineGo_cases : s.lineGo c base at_ i = s ∨ ∃ w, (s.slot c i).ws = some w ∧ (s.task c w).park = .line base ∧
    s.lineGo c base at_ i = (s.modTask c w (fun t => { t with park := .run })).modSlot c i (fun sl => { sl with nextAt := at_ }) := by
  unfold State.lineGo
  split
  next w hw =>
    split
    next hp => exact .inr ⟨w, hw, hp, rfl⟩
    next => exact .inl rfl
  next => exact .inl rfl

theorem State.lineGo_sameBytes : SameBytes s (s.lineGo c base at_ i) := by
  rcases s.lineGo_cases c base at_ i with h | ⟨w, -, -, h⟩ <;> rw [h]
  · exact .refl s
  · exact (s.sameBytes_modTask _ _ _).trans (State.sameBytes_modSlot _ _ _ _)

theorem State.lineGo_core : (s.lineGo c base at_ i).core c = { s.core c with
    slots := ((s.lineGo c base at_ i).core c).slots, tasks := ((s.lineGo c base at_ i).core c).tasks } := by
  rcases s.lineGo_cases c base at_ i with h | ⟨w, -, -, h⟩ <;> rw [h]
  rw [State.core_modSlot, if_pos rfl, State.core_modTask, if_pos rfl]
  rfl

theorem State.lineGo_ws (j : Nat) : ((s.lineGo c base at_ i).slot c j).ws = (s.slot c j).ws := by
  rcases s.lineGo_cases c base at_ i with h | ⟨w, -, -, h⟩ <;> rw [h]
  rw [State.slot_modSlot]
  split
  next hj => rw [hj.2, State.slot_modTask]
  next => rw [State.slot_modTask]

theorem State.lineGo_task_ne {w : Nat} (hw : (s.slot c i).ws ≠ some w) : (s.lineGo c base at_ i).task c w = s.task c w := by
  rcases s.lineGo_cases c base at_ i with h | ⟨v, hv, -, h⟩ <;> rw [h]
  rw [State.task_modSlot, State.task_modTask, if_neg (fun hvw : c = c ∧ w = v => hw (hvw.2 ▸ hv))]

theorem State.lineGo_run {w : Nat} (hw : (s.task c w).park = .run) : ((s.lineGo c base at_ i).task c w).park = .run := by
  rcases s.lineGo_cases c base at_ i with h | ⟨v, -, -, h⟩ <;> rw [h]
  · exact hw
  · rw [State.task_modSlot, State.task_modTask]
    split
    · rfl
    · exact hw

theorem State.lineGo_nextAt {n : Nat} (hn : (s.slot c n).nextAt = at_) : ((s.lineGo c base at_ i).slot c n).nextAt = at_ := by
  rcases s.lineGo_cases c base at_ i with h | ⟨v, -, -, h⟩ <;> rw [h]
  · exact hn
  · rw [State.slot_modSlot]
    split
    · rfl
    · rw [State.slot_modTask]; exact hn

theorem State.lineGo_wakes {w : Nat} (hw : (s.slot c i).ws = some w) (hp : (s.task c w).park = .line base) :
    ((s.lineGo c base at_ i).task c w).park = .run ∧ ((s.lineGo c base at_ i).slot c i).nextAt = at_ := by
  simp [State.lineGo, hw, hp]

end

section
variable (c base at_ : Nat) (l : List Nat)

theorem State.foldl_lineGo_sameBytes (s : State) : SameBytes s (l.foldl (fun s i => s.lineGo c base at_ i) s) :=
  List.foldlRecOn _ _ (SameBytes.refl s) fun t ht i _ => ht.trans (t.lineGo_sameBytes c base at_ i)

theorem State.foldl_lineGo_core (s : State) : (l.foldl (fun s i => s.lineGo c base at_ i) s).core c = { s.core c with
    slots := ((l.foldl (fun s i => s.lineGo c base at_ i) s).core c).slots
    tasks := ((l.foldl (fun s i => s.lineGo c base at_ i) s).core c).tasks } := by
  refine List.foldlRecOn (motive := fun t : State => t.core c = { s.core c with slots := (t.core c).slots, tasks := (t.core c).tasks })
    _ _ rfl fun t ht i _ => ?_
  rw [State.lineGo_core, ht]

theorem State.foldl_lineGo_before (s : State) {w : Nat} (hl : ∀ j ∈ l, (s.slot c j).ws ≠ some w) (n : Nat) :
    (l.foldl (fun s i => s.lineGo c base at_ i) s).task c w = s.task c w ∧
      ((l.foldl (fun s i => s.lineGo c base at_ i) s).slot c n).ws = (s.slot c n).ws := by
  induction l generalizing s with
  | nil => exact ⟨rfl, rfl⟩
  | cons i l ih =>
    obtain ⟨htask, hws⟩ := ih (s.lineGo c base at_ i) fun j hj => by rw [State.lineGo_ws]; exact hl j (List.mem_cons_of_mem i hj)
    exact ⟨htask.trans (s.lineGo_task_ne c base at_ i (hl i (List.mem_cons_self ..))), hws.trans (s.lineGo_ws c base at_ i n)⟩

theorem State.foldl_lineGo_after (s : State) {w n : Nat} (hrun : (s.task c w).park = .run) (hnext : (s.slot c n).nextAt = at_) :
    ((l.foldl (fun s i => s.lineGo c base at_ i) s).task c w).park = .run ∧
      ((l.foldl (fun s i => s.lineGo c base at_ i) s).slot c n).nextAt = at_ := by
  refine List.foldlRecOn (motive := fun t : State => (t.task c w).park = .run ∧ (t.slot c n).nextAt = at_)
    _ _ ⟨hrun, hnext⟩ fun t ht i _ => ⟨t.lineGo_run c base at_ i ht.1, t.lineGo_nextAt c base at_ i ht.2⟩

end

theorem State.ireq_lineReady (s : State) (c base at_ : Nat) : ((s.lineReady c base at_).core c).ireq = (s.core c).ireq := by
  rw [s.lineReady_eq, State.foldl_lineGo_core]

theorem State.icache_lineReady (s : State) (c base at_ : Nat) : ((s.lineReady c base at_).core c).icache = (s.core c).icache := by
  rw [s.lineReady_eq, State.foldl_lineGo_core]

theorem State.line?_lineReady (s : State) (c base at_ line : Nat) :
    ((s.lineReady c base at_).core c).line? line = (s.core c).line? line := by
  rw [Core.line?, s.icache_lineReady, Core.line?]

theorem State.sameBytes_lineReady (s : State) (c base at_ : Nat) : SameBytes s (s.lineReady c base at_) :=
  State.foldl_lineGo_sameBytes c base at_ (List.range 16) s

/-- Every thread that waits for the line goes on at the cycle given (R34, R113). -/
theorem State.lineReady_wakes (s : State) (c base at_ : Nat) {n w : Nat} (hslot : (s.core c).slotOf w = some n)
    (hpark : (s.task c w).park = .line base) :
    ((s.lineReady c base at_).task c w).park = .run ∧ ((s.lineReady c base at_).slot c n).nextAt = at_ := by
  obtain ⟨hn, hws, hfirst⟩ := Core.slotOf_spec hslot
  obtain ⟨pre, post, hsplit⟩ := List.append_of_mem (List.mem_range.mpr hn)
  have hpre : ∀ j ∈ pre, j < n := by
    have hlt := List.pairwise_lt_range (n := 16)
    rw [hsplit, List.pairwise_append] at hlt
    exact fun j hj => hlt.2.2 j hj n (List.mem_cons_self ..)
  rw [s.lineReady_eq, hsplit, List.foldl_append, List.foldl_cons]
  obtain ⟨htask, hwsn⟩ := State.foldl_lineGo_before c base at_ pre s (fun j hj => hfirst j (hpre j hj)) n
  obtain ⟨hrun, hnext⟩ := State.lineGo_wakes _ c base at_ n (hwsn.trans hws) (htask ▸ hpark)
  exact State.foldl_lineGo_after c base at_ post _ hrun hnext

/-- The core no longer asks for a line. -/
def State.unasked (s : State) (c line : Nat) : State := s.modCore c (fun k => { k with ireq := k.ireq.filter (fun r => r.1 != line) })

/-- The line has come: it stands in the cache if its fetch is still permitted (R112, R202). -/
def State.lineCome (s : State) (c line : Nat) : State :=
  match s.fetchCheck c line with
  | .ok l x => ((s.unreadLines c ((s.core c).evicted line)).noteTlb c line x).modCore c (fun k => k.addLine (lineOfBytes line (s.lineBytes c l)))
  | _ => s

theorem exec_lineFill_due {s : State} {c line x due : Nat} (h : (s.core c).ireq.find? (fun r => r.1 == line) = some (x, due))
    (hdue : due ≤ s.cycle) : exec (.lineFill c line) s = .next (((s.unasked c line).lineCome c line).lineReady c line (due + 8)) := by
  show execLineFill c line s = _
  simp only [execLineFill, h, if_neg (Nat.not_lt.mpr hdue)]
  rfl

section
variable (s : State) (c line : Nat)

theorem State.core_unasked : (s.unasked c line).core c = { s.core c with ireq := (s.core c).ireq.filter (fun r => r.1 != line) } :=
  s.core_modCore_same c _

theorem State.fetchCheck_unasked : (s.unasked c line).fetchCheck c line = s.fetchCheck c line := by
  simp only [State.fetchCheck, State.translate, s.core_unasked]
  rfl

theorem State.sameThreads_unasked : SameThreads s (s.unasked c line) := .modCore s c _ rfl rfl

theorem State.sameBytes_unasked : SameBytes s (s.unasked c line) := .modCore s c _ rfl

/-- What the arrival of a line changes besides the memory system's records: the core's instruction cache. -/
theorem State.lineCome_cases : s.lineCome c line = s ∨ ∃ l x u, s.fetchCheck c line = .ok l x ∧ Records s u ∧
    s.lineCome c line = u.modCore c (fun k => k.addLine (lineOfBytes line (s.lineBytes c l))) := by
  unfold State.lineCome
  split
  next l x h => exact .inr ⟨l, x, _, h, (s.unreadLines_records _ _).trans (State.noteTlb_records _ _ _ _), rfl⟩
  next => exact .inl rfl

theorem State.sameThreads_lineCome : SameThreads s (s.lineCome c line) := by
  rcases s.lineCome_cases c line with h | ⟨l, x, u, -, hu, h⟩ <;> rw [h]
  · exact .refl s
  · exact hu.sameThreads.trans (.modCore _ _ _ rfl rfl)

theorem State.sameBytes_lineCome : SameBytes s (s.lineCome c line) := by
  rcases s.lineCome_cases c line with h | ⟨l, x, u, -, hu, h⟩ <;> rw [h]
  · exact .refl s
  · exact hu.sameBytes.trans (.modCore _ _ _ rfl)

theorem State.ireq_lineCome : ((s.lineCome c line).core c).ireq = (s.core c).ireq := by
  rcases s.lineCome_cases c line with h | ⟨l, x, u, -, hu, h⟩ <;> rw [h]
  rw [State.core_modCore_same]
  show (u.core c).ireq = _
  rw [hu.core]

theorem State.line?_lineCome {l : Loc} {x : Walk} (h : s.fetchCheck c line = .ok l x) :
    ((s.lineCome c line).core c).line? line = some (lineOfBytes line (s.lineBytes c l)) := by
  simp only [State.lineCome, h]
  rw [State.core_modCore_same]
  exact Core.line?_addLine _ _

end

/-! ## Withdrawals (R222) -/

/-- Of the map only the value given is new. -/
theorem AMap.mem_put {α : Type} {m : AMap α} {k : Nat} {v : α} {e : Nat × α} (h : e ∈ AMap.put m k v) : e ∈ m ∨ e = (k, v) := by
  induction m with
  | nil => exact .inr (List.mem_singleton.mp h)
  | cons d m ih =>
    rw [AMap.put] at h
    split at h
    · exact (List.mem_cons.mp h).symm
    · split at h
      · exact (List.mem_cons.mp h).elim .inr fun hm => .inl (List.mem_cons_of_mem d hm)
      · rcases List.mem_cons.mp h with rfl | hm
        · exact .inl (List.mem_cons_self ..)
        · exact (ih hm).imp_left (List.mem_cons_of_mem d)

/-- A core at which no request of a number waits for a form or a send. -/
def Core.unsent (id : Nat) (k : Core) : Core :=
  { k with feWait := k.feWait.filter (fun x => x.id != id), sendWait := k.sendWait.filter (fun x => x.id != id) }

theorem Core.not_waits_unsent (id : Nat) (k : Core) : ∀ q ∈ (k.unsent id).feWait ++ (k.unsent id).sendWait, q.id ≠ id := by
  intro q hq
  rcases List.mem_append.mp hq with h | h <;> exact bne_iff_ne.mp (List.mem_filter.mp h).2

/-- Nobody waits under a number at any core any more. -/
def State.unsent (s : State) (id : Nat) : State := { s with cores := s.cores.map (fun e => (e.1, e.2.unsent id)) }

theorem State.core_unsent (s : State) (id c : Nat) : (s.unsent id).core c = (s.core c).unsent id :=
  State.core_map (Core.unsent id) rfl rfl c

theorem State.sameBytes_unsent (s : State) (id : Nat) : SameBytes s (s.unsent id) :=
  ⟨fun _ => rfl, fun c _ => by rw [State.spadByte, s.core_unsent]; rfl⟩

/-- After the withdrawal nobody waits under the number, whatever a task is made to wait for. -/
theorem State.not_waits_modTask_unsent (s : State) (id c w : Nat) (f : Task → Task) {e : Nat × Core}
    (he : e ∈ ((s.unsent id).modTask c w f).cores) : ∀ q ∈ e.2.feWait ++ e.2.sendWait, q.id ≠ id := by
  rcases AMap.mem_put he with h | rfl
  · obtain ⟨d, -, rfl⟩ := List.mem_map.mp h
    exact d.2.not_waits_unsent id
  · rw [s.core_unsent]
    exact (s.core c).not_waits_unsent id

theorem State.recalled_eq (s : State) (r : Request) (id : Nat) : s.recalled r id =
    if ∃ e ∈ s.cores, ∃ q ∈ e.2.feWait ++ e.2.sendWait, q.id = id then
      (s.unsent id).modTask r.core r.ws (fun t => { t with park := .recalled (s.returnBy r) })
    else s := by
  have hwaits : s.cores.any (fun e => e.2.feWait.any (fun x => x.id == id) || e.2.sendWait.any (fun x => x.id == id)) = true ↔
      ∃ e ∈ s.cores, ∃ q ∈ e.2.feWait ++ e.2.sendWait, q.id = id := by
    simp only [List.any_eq_true, Bool.or_eq_true, List.mem_append, beq_iff_eq, or_and_right, exists_or]
  simp only [State.recalled, hwaits]
  rfl

/-! ## Leaving a slot (R46, R49, R115) -/

theorem State.tstate_setTstate (s : State) (c ws st : Nat) : (s.setTstate c ws st).task c ws = { s.task c ws with tstate := st } := by
  rw [State.setTstate, (SameThreads.sPut _ c _ 8 _).task, s.task_modTask_same]

theorem State.slot_setTstate (s : State) (c ws st d i : Nat) : (s.setTstate c ws st).slot d i = s.slot d i := by
  rw [State.setTstate, (SameThreads.sPut _ c _ 8 _).slot, State.slot_modTask]

/-- A parked thread that stops keeps its slot, and its instruction is no longer waited for (R115). -/
theorem State.keepParked_stops (s : State) (c i ws : Nat) : ((s.keepParked c ws).task c ws).park = .run ∧
    ((s.keepParked c ws).task c ws).tstate = 5 ∧ (s.keepParked c ws).slot c i = s.slot c i := by
  rw [State.keepParked, State.tstate_setTstate, State.slot_setTstate, State.slot_modTask, State.task_modTask_same]
  exact ⟨rfl, rfl, (s.withdrawAll_withdrawn c ws).slot c i⟩

theorem State.switching_switchOut (s : State) (c i st : Nat) (inc : Option Nat) (first : Nat) : ∃ y,
    ((s.switchOut c i st inc first).slot c i).switching = some y ∧ y.outgoing = (s.slot c i).ws.map (fun w => (w, st)) ∧ y.incoming = inc := by
  rw [State.switchOut, State.slot_modSlot_same]
  exact ⟨_, rfl, rfl, rfl⟩

theorem State.switching_leaveWith (s : State) (c i st first p w : Nat) : ∃ y,
    ((s.leaveWith c i st first (some (p, w))).slot c i).switching = some y ∧
      y.outgoing = (s.slot c i).ws.map (fun w => (w, st)) ∧ y.incoming = some w := by
  rw [← (ReadyOnly.leaveReady s c w).slot c i]
  exact State.switching_switchOut _ c i st _ first

/-- The state in which a task begins to leave at the end of its quantum: what it waits for is withdrawn (R49). -/
def State.yielded (s : State) (c ws : Nat) : State :=
  (if (s.task c ws).park = .run then s else s.withdrawAll c ws).modTask c ws (fun t => { t with park := t.park.kept })

theorem State.yielded_slot (s : State) (c ws d i : Nat) : (s.yielded c ws).slot d i = s.slot d i := by
  rw [State.yielded, State.slot_modTask]
  split
  · rfl
  · exact (s.withdrawAll_withdrawn c ws).slot d i

theorem State.yielded_readyBy (s : State) (c ws now : Nat) : ((s.yielded c ws).core c).readyBy now = (s.core c).readyBy now := by
  have hbase : ∀ u : State, ((u.modTask c ws (fun t => { t with park := t.park.kept })).core c).readyBy now = (u.core c).readyBy now := by
    refine fun u => Core.readyBy_congr (u.ready_modTask c ws _ c) (fun w => ?_) now
    show ((u.modTask c ws _).task c w).readyAt = (u.task c w).readyAt
    rw [State.task_modTask]
    split
    next h => rw [h.2]
    · rfl
  rw [State.yielded, hbase]
  split
  · rfl
  · exact (s.withdrawAll_withdrawn c ws).readyBy c now

theorem State.yieldSlot_eq (s : State) (c i ws : Nat) : s.yieldSlot c i ws = (s.yielded c ws).leaveWith c i
    (if (s.task c ws).park = .run then 0 else 5) (beatAt i (max s.cycle (s.slot c i).nextAt)) (((s.yielded c ws).core c).readyBy s.cycle) := by
  unfold State.yieldSlot State.yielded
  by_cases h : (s.task c ws).park = .run <;> simp [h]

/-- A task that leaves at the end of its quantum makes room for the highest task that is ready (R47 to R49). -/
theorem State.yieldSlot_switching (s : State) (c i ws : Nat) {p w : Nat} (h : (s.core c).readyBy s.cycle = some (p, w)) : ∃ y,
    ((s.yieldSlot c i ws).slot c i).switching = some y ∧
      y.outgoing = (s.slot c i).ws.map (fun v => (v, if (s.task c ws).park = .run then 0 else 5)) ∧ y.incoming = some w := by
  rw [s.yieldSlot_eq, s.yielded_readyBy, h, ← s.yielded_slot c ws c i]
  exact State.switching_leaveWith _ c i _ _ p w

/-- Settles O30: an answer as `State.takeAnswer` gives it, a withdrawal by the lists it empties, and a line by the slots it wakes. -/
theorem returnsAndReleasesFollowR34AndR37 : Obligations.ReturnsAndReleasesFollowR34AndR37 := by
  intro s c j due a u takes idle
  have htakes : ∀ (i : Instr) (at_ : Nat), exec i s = .next (u.takeAnswer a at_) → takes i at_ := by
    intro i at_ hexec
    refine ⟨fun hnone => ?_, fun x hx => lateTraps_of_exec ?_⟩
    · have h := u.takeAnswer_taken a at_ hnone
      exact ⟨_, hexec, h.task, h.nextAt, h.bytes, h.threads, h.device, h.regs, h.upd, h.reg, h.stamp⟩
    · rw [hexec, u.takeAnswer_late a at_ hx]
  have hreturn : exec (.memoryReturn c j) s = execMemoryReturn c j s := rfl
  have hrelease : exec (.parkRelease c j) s = execParkRelease c j s := rfl
  have hafter : u.curTask.park = .recalled due → due ≤ s.cycle → exec (.parkRelease c j) s = .next (s.afterRecall c j u.curWs) := by
    intro hp hd
    rw [hrelease, execParkRelease]
    simp only [show (s.actAs c j).curTask.park = .recalled due from hp, if_pos hd]
    rfl
  refine ⟨fun hp => ⟨fun hd => ?_, fun hd => ?_⟩, fun hp => ⟨fun hd => htakes _ _ ?_, fun hd => ?_⟩,
    fun hp => ⟨fun hd => htakes _ _ ?_, fun hd => ?_⟩, fun w => ⟨fun hnone => ?_, fun q r hover => ?_⟩,
    fun id r x hr hop harr hset => ?_, fun hp => ⟨fun hd => ?_, fun hd hstop => ?_, fun hd hready hstop => ?_, fun hd p w hready hstop => ?_⟩,
    fun line hnone => ?_, fun line x hreq hline => ⟨fun hd => ?_, fun hd => ?_⟩⟩
  · rw [hreturn, execMemoryReturn]; simp only [show (s.actAs c j).curTask.park = .memory due from hp, if_pos hd]; rfl
  · show exec (.memoryReturn c j) s = .next s
    rw [hreturn, execMemoryReturn]
    simp only [show (s.actAs c j).curTask.park = .memory due from hp, if_neg (Nat.not_le.mpr hd)]
  · rw [hreturn, execMemoryReturn]; simp only [show (s.actAs c j).curTask.park = .answered due a from hp, if_pos hd]; rfl
  · show exec (.memoryReturn c j) s = .next s
    rw [hreturn, execMemoryReturn]
    simp only [show (s.actAs c j).curTask.park = .answered due a from hp, if_neg (Nat.not_le.mpr hd)]
  · rw [hrelease, execParkRelease]; simp only [show (s.actAs c j).curTask.park = .released due a from hp, if_pos hd]; rfl
  · show exec (.parkRelease c j) s = .next s
    rw [hrelease, execParkRelease]
    simp only [show (s.actAs c j).curTask.park = .released due a from hp, if_neg (Nat.not_le.mpr hd)]
  · show execFeDeadline c w s = .next s
    simp only [execFeDeadline, hnone]
  · let v := s.modCore q (fun k => { k with feWait := k.feWait.filter (fun x => x.id != r.id) })
    have hexec : exec (.feDeadline c w) s = .next (v.modTask c w (fun t => { t with
        park := .answered (s.cycle + r.back) (answerTrap (trapAt 9 0 r.va) (s.htsOf r.loc)) })) := by
      show execFeDeadline c w s = _
      simp only [execFeDeadline, hover]
      rfl
    refine ⟨_, hexec, (SameBytes.modCore s q _ rfl).trans (v.sameBytes_modTask _ _ _), ?_, ?_⟩
    · have hv : (v.core q).feWait = (s.core q).feWait.filter (fun x => x.id != r.id) := by rw [s.core_modCore_same]
      rw [State.core_modTask]
      split
      next hq => subst hq; exact hv
      next => exact hv
    · rw [State.task_modTask_same]; rfl
  · have hexec : exec (.homeRequestArrival id) s = .next ((s.landed r.id).recalled r x) := by
      show execHomeRequestArrival id s = _
      simp only [execHomeRequestArrival, show s.travelling id = some r from hr, if_pos (And.intro harr hset), State.arriveHome, hop]
    have hid : r.id = id := by simpa using List.find?_some hr
    rw [hid] at hexec
    rw [hexec, State.recalled_eq]
    by_cases hwaits : ∃ e ∈ (s.landed id).cores, ∃ q ∈ e.2.feWait ++ e.2.sendWait, q.id = x
    · rw [if_pos hwaits]
      refine ⟨_, rfl, ?_, rfl, fun _ => ⟨?_, fun e he => State.not_waits_modTask_unsent (s.landed id) x _ _ _ he⟩,
        fun hno => absurd hwaits hno⟩
      · exact ((SameBytes.of_eq rfl rfl).trans ((s.landed id).sameBytes_unsent x)).trans (State.sameBytes_modTask _ _ _ _)
      · rw [State.task_modTask_same]; rfl
    · rw [if_neg hwaits]
      exact ⟨_, rfl, .of_eq rfl rfl, rfl, fun h => absurd h hwaits, fun _ => rfl⟩
  · show exec (.parkRelease c j) s = .next s
    rw [hrelease, execParkRelease]
    simp only [show (s.actAs c j).curTask.park = .recalled due from hp, if_neg (Nat.not_le.mpr hd)]
  · obtain ⟨hrun, hst, hslot⟩ := s.keepParked_stops c j u.curWs
    refine ⟨_, hafter hp hd, ?_⟩
    rw [State.afterRecall, if_pos hstop]
    exact ⟨hrun, hst, hslot⟩
  · rw [hafter hp hd, State.afterRecall, hstop, hready]
    rfl
  · obtain ⟨y, hy, hout, hin⟩ := s.yieldSlot_switching c j u.curWs hready
    have hnot : (s.task c u.curWs).park ≠ .run := by
      rw [show (s.task c u.curWs).park = .recalled due from hp]; exact Park.noConfusion
    refine ⟨_, y, hafter hp hd, ?_, ?_, hin⟩
    · rw [State.afterRecall, hstop, hready]; exact hy
    · rw [hout, if_neg hnot]
  · show execLineFill c line s = .next s
    simp only [execLineFill, hnone]
  · show execLineFill c line s = .next s
    simp only [execLineFill, hreq, if_pos hd]
  · let v := s.unasked c line
    refine ⟨_, exec_lineFill_due hreq hd, ((s.sameBytes_unasked c line).trans (v.sameBytes_lineCome c line)).trans
      (State.sameBytes_lineReady _ c line _), ?_, fun pa mt y hfetch => ?_, fun n w hslot hpark => ?_⟩
    · rw [State.ireq_lineReady, v.ireq_lineCome c line, s.core_unasked]
    · rw [State.line?_lineReady, v.line?_lineCome c line ((s.fetchCheck_unasked c line).trans hfetch)]
      rw [State.lineBytes, s.core_unasked]
      rfl
    · have hsame : SameThreads s (v.lineCome c line) := (s.sameThreads_unasked c line).trans (v.sameThreads_lineCome c line)
      exact State.lineReady_wakes _ c line (due + 8) ((hsame.slotOf c w).trans hslot) (by rw [hsame.task]; exact hpark)

end Sys2Proof.Machine
end

section
/-! SUPPORT. The task record's fields and the ready lists (R41, R42, R47): what setting TSTATE, setting LINK and joining a list
change, byte by byte. -/

namespace Sys2Proof.Machine

/-! ## Fields of a number -/

/-- A number with one field replaced: what lies above it, the field, and what lies below. -/
theorem insertBits_eq (x lo n v : Nat) : insertBits x lo n v = 2 ^ lo * (2 ^ n * (x / 2 ^ lo / 2 ^ n) + v % 2 ^ n) + x % 2 ^ lo := by
  have h1 := Nat.div_add_mod x (2 ^ lo)
  have h2 := Nat.div_add_mod (x / 2 ^ lo) (2 ^ n)
  rw [insertBits, bitsOf_eq]
  generalize x / 2 ^ lo / 2 ^ n = hi at *
  generalize x / 2 ^ lo % 2 ^ n = mid at *
  generalize x % 2 ^ lo = low at *
  generalize v % 2 ^ n = new
  rw [← h1, ← h2]
  generalize 2 ^ lo = p
  generalize 2 ^ n = q
  rw [Nat.mul_add p, Nat.mul_add p, Nat.mul_comm mid p, Nat.mul_comm new p]
  omega

/-- A byte that lies below or above the field replaced is as it was. -/
theorem byte_insertBits (x v : Nat) {lo n j : Nat} (h : 8 * j + 8 ≤ lo ∨ lo + n ≤ 8 * j) :
    BitVec.ofNat 8 (insertBits x lo n v / 256 ^ j) = BitVec.ofNat 8 (x / 256 ^ j) := by
  apply BitVec.eq_of_toNat_eq
  rw [BitVec.toNat_ofNat, BitVec.toNat_ofNat, show 256 ^ j = 2 ^ (8 * j) by rw [Nat.pow_mul]]
  rw [insertBits_eq]
  rcases h with h | h
  · have hlow : ∀ y, (2 ^ lo * y + x % 2 ^ lo) / 2 ^ (8 * j) % 2 ^ 8 = x / 2 ^ (8 * j) % 2 ^ 8 := by
      intro y
      obtain ⟨d, rfl⟩ := Nat.exists_eq_add_of_le h
      have hcut : ∀ z, z / 2 ^ (8 * j) % 2 ^ 8 = z % 2 ^ (8 * j + 8 + d) / 2 ^ (8 * j) % 2 ^ 8 := by
        intro z
        rw [show 8 * j + 8 + d = 8 * j + (8 + d) by omega, Nat.pow_add 2 (8 * j), Nat.mod_mul_right_div_self,
          Nat.pow_add 2 8, Nat.mod_mul_right_mod]
      rw [hcut, Nat.mul_add_mod, Nat.mod_mod, ← hcut]
    exact hlow _
  · obtain ⟨d, hd⟩ := Nat.exists_eq_add_of_le h
    have hpow : 2 ^ (8 * j) = 2 ^ lo * 2 ^ n * 2 ^ d := by rw [hd, Nat.pow_add, Nat.pow_add]
    rw [hpow, ← Nat.div_div_eq_div_mul, ← Nat.div_div_eq_div_mul, ← Nat.div_div_eq_div_mul, ← Nat.div_div_eq_div_mul,
      Nat.mul_add_div (Nat.two_pow_pos lo), Nat.div_eq_of_lt (Nat.mod_lt _ (Nat.two_pow_pos lo)), Nat.add_zero,
      Nat.mul_add_div (Nat.two_pow_pos n), Nat.div_eq_of_lt (Nat.mod_lt _ (Nat.two_pow_pos n)), Nat.add_zero]

/-- A byte of a little-endian number. -/
theorem Memory.num_byte (m : List Host.Cell) (a n : Nat) {j : Nat} (hj : j < n) :
    BitVec.ofNat 8 (Memory.num m a n / 256 ^ j) = Memory.read m (a + j) := by
  obtain ⟨d, rfl⟩ := Nat.exists_eq_add_of_le (show j + 1 ≤ n from hj)
  apply BitVec.eq_of_toNat_eq
  rw [BitVec.toNat_ofNat, show 256 ^ j = 2 ^ (8 * j) by rw [Nat.pow_mul], show j + 1 + d = j + (1 + d) by omega, Memory.num_split,
    Nat.add_comm, Nat.mul_add_div (Nat.two_pow_pos _), Nat.div_eq_of_lt (Memory.num_lt m a j), Nat.add_zero, Memory.num_split]
  have hone : Memory.num m (a + j) 1 = (Memory.read m (a + j)).toNat := by simp [Memory.num, Memory.readN, natOfBytes]
  rw [hone]
  have := (Memory.read m (a + j)).isLt
  omega

theorem State.sNum_of_bytes {s t : State} {c off n : Nat} (h : ∀ a, off ≤ a → a < off + n → t.spadByte c a = s.spadByte c a) :
    t.sNum c off n = s.sNum c off n := by
  rw [State.sNum, State.sNum, Memory.num, Memory.num]
  exact congrArg natOfBytes (Memory.readN_congr off n h)

theorem SameBytes.sNum {s t : State} (h : SameBytes s t) (c off n : Nat) : t.sNum c off n = s.sNum c off n :=
  State.sNum_of_bytes fun a _ _ => h.2 c a

/-- Replacing a field of an 8-byte word changes only the bytes that the field meets. -/
theorem State.spadByte_sPut_insertBits (s : State) (c off lo n v x a : Nat)
    (h : ¬(x = c ∧ off ≤ a ∧ 8 * off + lo < 8 * a + 8 ∧ 8 * a < 8 * off + lo + n)) :
    (s.sPut c off 8 (insertBits (s.sNum c off 8) lo n v)).spadByte x a = s.spadByte x a := by
  by_cases hin : x = c ∧ off ≤ a ∧ a < off + 8
  · obtain ⟨rfl, hle, hlt⟩ := hin
    obtain ⟨j, rfl⟩ := Nat.exists_eq_add_of_le hle
    have hj : j < 8 := by omega
    rw [State.spadByte, State.sPut_eq, State.core_putCore_same, Memory.read_putNum, if_pos ⟨hle, hlt⟩, Nat.add_sub_cancel_left,
      byte_insertBits _ _ (by omega), State.sNum, Memory.num_byte _ _ _ hj, State.spadByte]
  · exact s.spadByte_sPut c off 8 _ x a hin

/-! ## TSTATE and LINK -/

section
variable (s : State) (c ws : Nat)

theorem State.spadByte_setTstate (st x a : Nat) (h : ¬(x = c ∧ a = wsOff ws 0x188)) :
    (s.setTstate c ws st).spadByte x a = s.spadByte x a := by
  have htask := s.sameBytes_modTask c ws (fun t => { t with tstate := st })
  rw [← htask.2 x a, State.setTstate, ← htask.sNum c (wsOff ws 0x188) 8]
  refine State.spadByte_sPut_insertBits _ c _ 4 4 st x a ?_
  intro hx
  exact h ⟨hx.1, by omega⟩

theorem State.spadByte_setLink (link x a : Nat) (h : ¬(x = c ∧ (a = wsOff ws 0x18A ∨ a = wsOff ws 0x18B))) :
    (s.setLink c ws link).spadByte x a = s.spadByte x a := by
  refine s.spadByte_sPut_insertBits c _ 16 16 link x a fun hx => h ⟨hx.1, ?_⟩
  rw [wsOff_eq ws 0x18A, wsOff_eq ws 0x18B]
  rw [wsOff_eq ws 0x188] at hx
  omega

theorem wsOff_mod (ws off : Nat) (h : off < 1024) : wsOff ws off % 1024 = off := by rw [wsOff]; omega

/-- The first byte of the word that holds TSTATE and PRIO (R41). -/
theorem State.sNum_setTstate (st : Nat) (hst : st < 16) :
    (s.setTstate c ws st).sNum c (wsOff ws 0x188) 1 = s.sNum c (wsOff ws 0x188) 1 % 16 + 16 * st := by
  have hfirst : ∀ m a, Memory.num m a 1 = Memory.num m a 8 % 256 := by
    intro m a
    have hlt := Memory.num_lt m a 1
    rw [show 8 = 1 + 7 from rfl, Memory.num_split]
    omega
  have hword : Memory.num ((s.setTstate c ws st).core c).scratch (wsOff ws 0x188) 8 =
      insertBits (s.sNum c (wsOff ws 0x188) 8) 4 4 st % 2 ^ 64 := State.sNum_sPut_same _ _ _ _ _
  rw [State.sNum, hfirst, hword, insertBits_eq, State.sNum, State.sNum, hfirst _ (wsOff ws 0x188)]
  omega

/-- Only the task's TSTATE and its byte change. -/
theorem State.setTstate_core (st : Nat) : (s.setTstate c ws st).core c = { s.core c with
    scratch := ((s.setTstate c ws st).core c).scratch, tasks := ((s.setTstate c ws st).core c).tasks } := by
  rw [State.setTstate, State.sPut, State.core_modCore_same, State.core_modTask, if_pos rfl]; rfl

theorem OneCore.setTstate (st : Nat) : OneCore c s (s.setTstate c ws st) := (OneCore.modTask s c ws _).trans (.sPut _ _ _ _ _)

end

/-! ## A task that has come to rest outside a slot, or is about to (R42, R47) -/

/-- Of a core a task has another TSTATE, in its record and in its bytes, and LINK fields and ready lists may have changed. -/
structure Placed (c ws st : Nat) (s t : State) : Prop where
  device : OneCore c s t
  core : t.core c = { s.core c with scratch := (t.core c).scratch, tasks := (t.core c).tasks, ready := (t.core c).ready }
  task : t.task c ws = { s.task c ws with tstate := st, readyAt := (t.task c ws).readyAt }
  others : ∀ v, v ≠ ws → t.task c v = s.task c v
  bytes : ∀ x a, ¬(x = c ∧ (a = wsOff ws 0x188 ∨ a % 1024 = 0x18A ∨ a % 1024 = 0x18B)) → t.spadByte x a = s.spadByte x a
  word : t.sNum c (wsOff ws 0x188) 1 = s.sNum c (wsOff ws 0x188) 1 % 16 + 16 * st

theorem Placed.slot {c ws st : Nat} {s t : State} (h : Placed c ws st s t) (d i : Nat) : t.slot d i = s.slot d i := by
  by_cases hd : d = c
  · subst hd; rw [State.slot, h.core]; rfl
  · rw [State.slot, h.device.2 d hd]; rfl

theorem Placed.sNum {c ws st : Nat} {s t : State} (h : Placed c ws st s t) (d : Nat) {off n : Nat}
    (hout : ∀ a, off ≤ a → a < off + n → a ≠ wsOff ws 0x188 ∧ a % 1024 ≠ 0x18A ∧ a % 1024 ≠ 0x18B) : t.sNum d off n = s.sNum d off n := by
  refine State.sNum_of_bytes fun a hle hlt => h.bytes d a fun hx => ?_
  have := hout a hle hlt
  omega

theorem Placed.setTstate (s : State) (c ws st : Nat) (hst : st < 16) : Placed c ws st s (s.setTstate c ws st) where
  device := .setTstate s c ws st
  core := by rw [s.setTstate_core c ws st]
  task := by rw [s.tstate_setTstate]
  others := fun v hv => by
    rw [State.setTstate, State.task_sPut, State.task_modTask, if_neg fun h : c = c ∧ v = ws => hv h.2]
  bytes := fun x a h => s.spadByte_setTstate c ws st x a fun hx => h ⟨hx.1, .inl hx.2⟩
  word := s.sNum_setTstate c ws st hst

/-- What touches only the core's ready lists and LINK fields after a task is placed. -/
theorem Placed.trans_ready {c ws st : Nat} {s t u : State} (h : Placed c ws st s t) (hr : ReadyOnly c t u)
    (hb : ∀ x a, ¬(x = c ∧ (a % 1024 = 0x18A ∨ a % 1024 = 0x18B)) → u.spadByte x a = t.spadByte x a) : Placed c ws st s u where
  device := h.device.trans hr.device
  core := by rw [hr.core, h.core]
  task := by rw [hr.task, h.task]
  others := fun v hv => (hr.task c v).trans (h.others v hv)
  bytes := fun x a hx => (hb x a (by tauto)).trans (h.bytes x a hx)
  word := by
    rw [← h.word]
    refine State.sNum_of_bytes fun a hle hlt => hb c a ?_
    have : a = wsOff ws 0x188 := by omega
    have := wsOff_mod ws 0x188 (by decide)
    omega

theorem State.spadByte_setLink_mod (s : State) (c ws link x a : Nat) (h : ¬(x = c ∧ (a % 1024 = 0x18A ∨ a % 1024 = 0x18B))) :
    (s.setLink c ws link).spadByte x a = s.spadByte x a := by
  refine s.spadByte_setLink c ws link x a fun hx => h ⟨hx.1, ?_⟩
  have h1 := wsOff_mod ws 0x18A (by decide)
  have h2 := wsOff_mod ws 0x18B (by decide)
  rcases hx.2 with rfl | rfl <;> omega

/-- The LINK of a list's last task names the task that joins it, if there is one (R47). -/
def State.linkTail (s : State) (c : Nat) (l : List Nat) (ws : Nat) : State :=
  match l.getLast? with
  | some tail => s.setLink c tail ws
  | none => s

theorem State.joinReady_eq (s : State) (c ws st : Nat) : s.joinReady c ws st =
    ((((((s.setTstate c ws st).modTask c ws (fun t => { t with readyAt := s.effectAt })).setLink c ws 0xFFFF).linkTail c
      ((s.core c).readyList (s.task c ws).prio.toNat) ws)).modCore c (fun k => { k with
        ready := AMap.put k.ready (s.task c ws).prio.toNat ((s.core c).readyList (s.task c ws).prio.toNat ++ [ws]) })) := rfl

theorem ReadyOnly.linkTail (s : State) (c : Nat) (l : List Nat) (ws : Nat) : ReadyOnly c s (s.linkTail c l ws) := by
  unfold State.linkTail
  split
  · exact .setLink s c _ ws
  · exact .refl c s

theorem State.spadByte_linkTail (s : State) (c : Nat) (l : List Nat) (ws x a : Nat)
    (h : ¬(x = c ∧ (a % 1024 = 0x18A ∨ a % 1024 = 0x18B))) : (s.linkTail c l ws).spadByte x a = s.spadByte x a := by
  unfold State.linkTail
  split
  · exact s.spadByte_setLink_mod c _ ws x a h
  · rfl

theorem Placed.readyAt {c ws st : Nat} {s t : State} (h : Placed c ws st s t) (n : Nat) :
    Placed c ws st s (t.modTask c ws (fun k => { k with readyAt := n })) where
  device := h.device.trans (.modTask t c ws _)
  core := by rw [State.core_modTask, if_pos rfl, h.core]; rfl
  task := by rw [State.task_modTask_same, h.task]
  others := fun v hv => by rw [State.task_modTask, if_neg fun hc : c = c ∧ v = ws => hv hc.2, h.others v hv]
  bytes := fun x a hx => ((t.sameBytes_modTask c ws _).2 x a).trans (h.bytes x a hx)
  word := ((t.sameBytes_modTask c ws _).sNum c _ 1).trans h.word

/-- A task joins the tail of its list (R47). -/
theorem Placed.joinReady (s : State) (c ws st : Nat) (hst : st < 16) : Placed c ws st s (s.joinReady c ws st) := by
  rw [s.joinReady_eq]
  have htask := (Placed.setTstate s c ws st hst).readyAt s.effectAt
  have hown := htask.trans_ready (.setLink _ c ws 0xFFFF) fun x a hx => State.spadByte_setLink_mod _ c ws _ x a hx
  have htail := hown.trans_ready (.linkTail _ c ((s.core c).readyList (s.task c ws).prio.toNat) ws)
    fun x a hx => State.spadByte_linkTail _ c _ ws x a hx
  exact htail.trans_ready (.modCore _ c _ rfl) fun x a _ => (SameBytes.modCore _ c _ rfl).2 x a

theorem State.readyList_joinReady (s : State) (c ws st p : Nat) : ((s.joinReady c ws st).core c).readyList p =
    if p = (s.task c ws).prio.toNat then (s.core c).readyList p ++ [ws] else (s.core c).readyList p := by
  let q := (s.task c ws).prio.toNat
  let u := (((s.setTstate c ws st).modTask c ws (fun t => { t with readyAt := s.effectAt })).setLink c ws 0xFFFF).linkTail c
    ((s.core c).readyList q) ws
  have hlist : (u.core c).ready = (s.core c).ready := by
    have hset : ((s.setTstate c ws st).core c).ready = (s.core c).ready := by rw [s.setTstate_core c ws st]
    have hlink : ∀ (v : State) (w link : Nat), ((v.setLink c w link).core c).ready = (v.core c).ready := fun v w link => by
      rw [State.setLink, State.sPut, State.core_modCore_same]
    have htail : ∀ (v : State) (l : List Nat), ((v.linkTail c l ws).core c).ready = (v.core c).ready := fun v l => by
      unfold State.linkTail
      split
      · exact hlink _ _ _
      · rfl
    rw [htail, hlink, State.ready_modTask, hset]
  have hcore : ((s.joinReady c ws st).core c).ready = AMap.put (s.core c).ready q ((s.core c).readyList q ++ [ws]) := by
    rw [s.joinReady_eq, State.core_modCore_same]
    exact congrArg (AMap.put · q _) hlist
  rw [Core.readyList, hcore, AMap.get_put]
  split
  next h => subst h; rfl
  next => rfl

theorem State.readyList_setTstate (s : State) (c ws st p : Nat) : ((s.setTstate c ws st).core c).readyList p = (s.core c).readyList p := by
  rw [Core.readyList, s.setTstate_core c ws st, Core.readyList]

end Sys2Proof.Machine
end

section
/-! SUPPORT. A workspace leaves its slot and another enters it (R41, R44, R46): what is written, and what is loaded. -/

namespace Sys2Proof.Machine

/-- Of one core only bytes of its scratchpad, and their errors, have changed. -/
structure BytesOnly (c : Nat) (s t : State) : Prop where
  device : OneCore c s t
  core : t.core c = { s.core c with scratch := (t.core c).scratch, spoison := (t.core c).spoison }

theorem BytesOnly.trans {c : Nat} {s t u : State} (h : BytesOnly c s t) (h' : BytesOnly c t u) : BytesOnly c s u :=
  ⟨h.device.trans h'.device, by rw [h'.core, h.core]⟩

theorem BytesOnly.sPut (s : State) (c off n v : Nat) : BytesOnly c s (s.sPut c off n v) :=
  ⟨.sPut s c off n v, by rw [State.sPut, State.core_modCore_same]⟩

theorem BytesOnly.writeBack (s : State) (c i : Nat) : BytesOnly c s (s.writeBack c i) := by
  cases hw : (s.slot c i).ws with
  | none => rw [s.writeBack_none c i hw]; exact ⟨.refl c s, rfl⟩
  | some w => rw [s.writeBack_eq c i w hw]; exact ⟨.of_put c s _, by rw [State.core_putCore_same]⟩

theorem BytesOnly.slot {c : Nat} {s t : State} (h : BytesOnly c s t) (d i : Nat) : t.slot d i = s.slot d i := by
  by_cases hd : d = c
  · subst hd; rw [State.slot, h.core]; rfl
  · rw [State.slot, h.device.2 d hd]; rfl

theorem BytesOnly.task {c : Nat} {s t : State} (h : BytesOnly c s t) (d w : Nat) : t.task d w = s.task d w := by
  by_cases hd : d = c
  · subst hd; rw [State.task, h.core]; rfl
  · rw [State.task, h.device.2 d hd]; rfl

/-- l bytes inside a number, from byte k on. -/
theorem Memory.num_inside (m : List Host.Cell) (a : Nat) {n k l : Nat} (h : k + l ≤ n) :
    Memory.num m (a + k) l = Memory.num m a n / 2 ^ (8 * k) % 2 ^ (8 * l) := by
  obtain ⟨d, rfl⟩ := Nat.exists_eq_add_of_le h
  rw [Nat.add_assoc, Memory.num_split m a, Nat.add_comm (Memory.num m a k), Nat.mul_add_div (Nat.two_pow_pos _),
    Nat.div_eq_of_lt (Memory.num_lt m a k), Nat.add_zero, Memory.num_split m (a + k), Nat.add_mul_mod_self_left,
    Nat.mod_eq_of_lt (Memory.num_lt m (a + k) l)]

theorem State.sNum_inside (s : State) (c a : Nat) {n k l : Nat} (h : k + l ≤ n) :
    s.sNum c (a + k) l = s.sNum c a n / 2 ^ (8 * k) % 2 ^ (8 * l) := Memory.num_inside _ a h

/-! ## The registers that a write-back writes (R46) -/

theorem bankStep_num (sl : Slot) (w : Nat) (m : List Host.Cell) {n k : Nat} (hn : n ≠ k) :
    Memory.num (bankStep sl w m n) (wsOff w (8 * k)) 8 = Memory.num m (wsOff w (8 * k)) 8 := by
  rw [bankStep]
  split
  · exact Memory.num_putNum_out _ _ _ _ _ _ (by simp only [wsOff]; omega)
  · rfl

theorem bankBytes_num_out (sl : Slot) (w : Nat) (l : List Nat) (m : List Host.Cell) {k : Nat} (hk : k ∉ l) :
    Memory.num (bankBytes sl w m l) (wsOff w (8 * k)) 8 = Memory.num m (wsOff w (8 * k)) 8 := by
  induction l generalizing m with
  | nil => rfl
  | cons n l ih =>
    rw [bankBytes, List.foldl_cons, ← bankBytes, ih _ fun h => hk (List.mem_cons_of_mem n h),
      bankStep_num sl w m fun h : n = k => hk (by rw [h]; exact List.mem_cons_self)]

theorem bankBytes_num (sl : Slot) (w : Nat) (l : List Nat) (m : List Host.Cell) {k : Nat} (hl : l.Nodup) (hk : k ∈ l)
    (hlive : sl.live.getLsbD k = true) (hdirty : sl.dirty.getLsbD k = true) :
    Memory.num (bankBytes sl w m l) (wsOff w (8 * k)) 8 = (sl.reg k).toNat := by
  induction l generalizing m with
  | nil => cases hk
  | cons n l ih =>
    obtain ⟨hn, hl⟩ := List.nodup_cons.mp hl
    rw [bankBytes, List.foldl_cons, ← bankBytes]
    rcases List.mem_cons.mp hk with rfl | hk
    · rw [bankBytes_num_out sl w l _ hn, bankStep, hlive, hdirty, Bool.and_self, if_pos rfl, Memory.num_putNum]
      exact Nat.mod_eq_of_lt (sl.reg k).isLt
    · exact ih _ hl hk

section
variable (s : State) (c i w : Nat) (h : (s.slot c i).ws = some w)
include h

theorem State.sNum_writeBack_reg {n : Nat} (hn : n < 32) (hlive : (s.slot c i).live.getLsbD n = true)
    (hdirty : (s.slot c i).dirty.getLsbD n = true) : (s.writeBack c i).sNum c (wsOff w (8 * n)) 8 = ((s.slot c i).reg n).toNat := by
  rw [s.writeBack_eq c i w h, State.sNum, State.core_putCore_same]
  exact bankBytes_num _ _ _ _ List.nodup_range (List.mem_range.mpr hn) hlive hdirty

theorem State.spadByte_writeBack (x a : Nat) (ha : ¬(x = c ∧ wsOff w 0 ≤ a ∧ a < wsOff w 256)) :
    (s.writeBack c i).spadByte x a = s.spadByte x a := by
  rw [s.writeBack_eq c i w h, State.spadByte, State.core_putCore]
  by_cases hx : x = c
  · have hout : a < wsOff w 0 ∨ wsOff w 256 ≤ a := by
      by_contra hin
      exact ha ⟨hx, by omega, by omega⟩
    rw [if_pos hx, hx]
    exact bankBytes_out (s.slot c i) w (List.range 32) (fun n hn => List.mem_range.mp hn) (s.core c).scratch a hout
  · rw [if_neg hx]; rfl

end

/-! ## The task record (R41) -/

section
variable (s : State) (c i ws st : Nat)

theorem State.writeRecord_eq : s.writeRecord c i ws st =
    (((s.sPut c (wsOff ws 0x180) 8 (s.task c ws).pc.toNat).sPut c (wsOff ws 0x188) 8
      (recWord (s.slot c i).live 0xFFFF st (s.task c ws).prio)).sPut c (wsOff ws 0x190) 8 ((s.task c ws).qrem * 2 ^ 32)).sPut c
      (wsOff ws 0x198) 8 ((s.task c ws).ften.toNat * 65536 + (s.task c ws).rmode.toNat * 256 + (s.task c ws).flags.toNat) := rfl

theorem BytesOnly.writeRecord : BytesOnly c s (s.writeRecord c i ws st) := by
  rw [s.writeRecord_eq]
  exact (((BytesOnly.sPut _ _ _ _ _).trans (.sPut _ _ _ _ _)).trans (.sPut _ _ _ _ _)).trans (.sPut _ _ _ _ _)

theorem State.spadByte_writeRecord (x a : Nat) (h : ¬(x = c ∧ wsOff ws 0x180 ≤ a ∧ a < wsOff ws 0x1A0)) :
    (s.writeRecord c i ws st).spadByte x a = s.spadByte x a := by
  simp only [wsOff] at h
  rw [s.writeRecord_eq, State.spadByte_sPut, State.spadByte_sPut, State.spadByte_sPut, State.spadByte_sPut]
  all_goals simp only [wsOff]; omega

theorem State.sNum_writeRecord_pc : (s.writeRecord c i ws st).sNum c (wsOff ws 0x180) 8 = (s.task c ws).pc.toNat := by
  rw [s.writeRecord_eq, State.sNum_sPut_out, State.sNum_sPut_out, State.sNum_sPut_out, State.sNum_sPut_same]
  · exact Nat.mod_eq_of_lt (s.task c ws).pc.isLt
  all_goals simp only [wsOff]; omega

theorem State.sNum_writeRecord_word : (s.writeRecord c i ws st).sNum c (wsOff ws 0x188) 8 =
    recWord (s.slot c i).live 0xFFFF st (s.task c ws).prio % 2 ^ 64 := by
  rw [s.writeRecord_eq, State.sNum_sPut_out, State.sNum_sPut_out, State.sNum_sPut_same]
  all_goals simp only [wsOff]; omega

theorem State.sNum_writeRecord_modes : (s.writeRecord c i ws st).sNum c (wsOff ws 0x198) 8 =
    ((s.task c ws).ften.toNat * 65536 + (s.task c ws).rmode.toNat * 256 + (s.task c ws).flags.toNat) % 2 ^ 64 := by
  rw [s.writeRecord_eq, State.sNum_sPut_same]

theorem State.sNum_writeRecord_live : (s.writeRecord c i ws st).sNum c (wsOff ws 0x18C) 4 = (s.slot c i).live.toNat := by
  have h := State.sNum_inside (s.writeRecord c i ws st) c (wsOff ws 0x188) (n := 8) (k := 4) (l := 4) (by decide)
  rw [State.sNum_writeRecord_word, recWord] at h
  have hlive := (s.slot c i).live.isLt
  have hprio := (s.task c ws).prio.isLt
  refine h.trans ?_
  omega

theorem State.sNum_writeRecord_state (hst : st < 16) : (s.writeRecord c i ws st).sNum c (wsOff ws 0x188) 1 =
    st * 16 + (s.task c ws).prio.toNat := by
  have h := State.sNum_inside (s.writeRecord c i ws st) c (wsOff ws 0x188) (n := 8) (k := 0) (l := 1) (by decide)
  rw [State.sNum_writeRecord_word, recWord] at h
  have hprio := (s.task c ws).prio.isLt
  refine h.trans ?_
  omega

/-- FLAGS, RMODE and FTEN, each in a byte of its own. -/
theorem State.sNum_writeRecord_mode_bytes : (s.writeRecord c i ws st).sNum c (wsOff ws 0x198) 1 = (s.task c ws).flags.toNat ∧
    (s.writeRecord c i ws st).sNum c (wsOff ws 0x199) 1 = (s.task c ws).rmode.toNat ∧
    (s.writeRecord c i ws st).sNum c (wsOff ws 0x19A) 1 = (s.task c ws).ften.toNat := by
  have hflags := (s.task c ws).flags.isLt
  have hrmode := (s.task c ws).rmode.isLt
  have hften := (s.task c ws).ften.isLt
  have h0 := State.sNum_inside (s.writeRecord c i ws st) c (wsOff ws 0x198) (n := 8) (k := 0) (l := 1) (by decide)
  have h1 := State.sNum_inside (s.writeRecord c i ws st) c (wsOff ws 0x198) (n := 8) (k := 1) (l := 1) (by decide)
  have h2 := State.sNum_inside (s.writeRecord c i ws st) c (wsOff ws 0x198) (n := 8) (k := 2) (l := 1) (by decide)
  rw [State.sNum_writeRecord_modes] at h0 h1 h2
  refine ⟨h0.trans ?_, h1.trans ?_, h2.trans ?_⟩ <;> omega

end

/-! ## The outgoing half of a switch (R46, R50) -/

/-- Where a task that leaves its slot comes to rest: one that waits for a message and finds one is ready (R55). -/
def State.finalState (s : State) (c w st : Nat) : Nat :=
  if st = 3 ∧ (s.sNum c (wsOff w 0x170) 8).testBit 0 = true then 0 else st

theorem bitOf_eq_testBit (x i : Nat) : bitOf x i = x.testBit i := by
  rw [bitOf, Nat.testBit_eq_decide_div_mod_eq, Nat.shiftRight_eq_div_pow]
  exact Bool.eq_iff_iff.mpr (by simp)

theorem Placed.settleOut (s : State) (c w st : Nat) (hst : st < 16) : Placed c w (s.finalState c w st) s (s.settleOut c w st) := by
  unfold State.settleOut State.finalState
  rw [bitOf_eq_testBit]
  by_cases h0 : st = 0 ∨ st = 5
  · have h3 : ¬st = 3 := by omega
    simp only [h0, if_true, h3, false_and, if_false]
    exact .joinReady s c w st hst
  · by_cases h3 : st = 3 ∧ (s.sNum c (wsOff w 0x170) 8).testBit 0 = true
    · simp only [h3, and_self, if_true]
      exact .joinReady s c w 0 (by decide)
    · simp only [h0, if_false, h3]
      exact .setTstate s c w st hst

theorem State.readyList_settleOut (s : State) (c w st p : Nat) : ((s.settleOut c w st).core c).readyList p =
    if (s.finalState c w st = 0 ∨ s.finalState c w st = 5) ∧ p = (s.task c w).prio.toNat then (s.core c).readyList p ++ [w]
    else (s.core c).readyList p := by
  unfold State.settleOut State.finalState
  rw [bitOf_eq_testBit]
  by_cases h0 : st = 0 ∨ st = 5
  · have h3 : ¬st = 3 := by omega
    simp only [h0, if_true, h3, false_and, if_false, true_and]
    exact s.readyList_joinReady c w st p
  · by_cases h3 : st = 3 ∧ (s.sNum c (wsOff w 0x170) 8).testBit 0 = true
    · simp only [h3, and_self, if_true, true_or, true_and]
      exact s.readyList_joinReady c w 0 p
    · simp only [h0, if_false, h3, false_and]
      exact s.readyList_setTstate c w st p

/-- The slot after its workspace has left it. -/
def Slot.vacant (sl : Slot) : Slot := { sl with ws := none, bank := [], live := 0, dirty := 0, bad := 0 }

/-- The state in which a slot's workspace has been written, registers and record, and has left the slot. -/
def State.written (s : State) (c i w st : Nat) : State := ((s.writeBack c i).writeRecord c i w st).modSlot c i Slot.vacant

theorem State.leave1_eq (s : State) (c i w st : Nat) : s.leave1 c i w st = (s.written c i w st).settleOut c w st := rfl

/-- Of one core only bytes, their errors, slots, tasks and ready lists have changed. -/
structure ThreadsOnly (c : Nat) (s t : State) : Prop where
  device : OneCore c s t
  core : t.core c = { s.core c with
    scratch := (t.core c).scratch, spoison := (t.core c).spoison, slots := (t.core c).slots, tasks := (t.core c).tasks
    ready := (t.core c).ready }

theorem ThreadsOnly.refl (c : Nat) (s : State) : ThreadsOnly c s s := ⟨.refl c s, rfl⟩

theorem ThreadsOnly.trans {c : Nat} {s t u : State} (h : ThreadsOnly c s t) (h' : ThreadsOnly c t u) : ThreadsOnly c s u :=
  ⟨h.device.trans h'.device, by rw [h'.core, h.core]⟩

theorem BytesOnly.threadsOnly {c : Nat} {s t : State} (h : BytesOnly c s t) : ThreadsOnly c s t := ⟨h.device, by rw [h.core]⟩

theorem Placed.threadsOnly {c w st : Nat} {s t : State} (h : Placed c w st s t) : ThreadsOnly c s t := ⟨h.device, by rw [h.core]⟩

theorem ThreadsOnly.modSlot (s : State) (c i : Nat) (f : Slot → Slot) : ThreadsOnly c s (s.modSlot c i f) :=
  ⟨.modSlot s c i f, by rw [State.core_modSlot, if_pos rfl]; rfl⟩

theorem ThreadsOnly.modTask (s : State) (c w : Nat) (f : Task → Task) : ThreadsOnly c s (s.modTask c w f) :=
  ⟨.modTask s c w f, by rw [State.core_modTask, if_pos rfl]; rfl⟩

theorem ThreadsOnly.tqNow {c : Nat} {s t : State} (h : ThreadsOnly c s t) : t.tqNow c = s.tqNow c := by
  rw [State.tqNow, h.core, h.device.cycle]; rfl

/-- A workspace has left a slot: its registers and its record are written, and it stands where its TSTATE says (R41, R46). -/
structure Left (c i w st fin : Nat) (s t : State) : Prop where
  threads : ThreadsOnly c s t
  slot : t.slot c i = (s.slot c i).vacant
  task : (t.task c w).tstate = fin
  others : ∀ v, v ≠ w → t.task c v = s.task c v
  regs : ∀ n, n < 32 → (s.slot c i).live.getLsbD n = true → (s.slot c i).dirty.getLsbD n = true →
    t.sNum c (wsOff w (8 * n)) 8 = ((s.slot c i).reg n).toNat
  pc : t.sNum c (wsOff w 0x180) 8 = (s.task c w).pc.toNat
  live : t.sNum c (wsOff w 0x18C) 4 = (s.slot c i).live.toNat
  word : t.sNum c (wsOff w 0x188) 1 = fin * 16 + (s.task c w).prio.toNat
  flags : t.sNum c (wsOff w 0x198) 1 = (s.task c w).flags.toNat
  rmode : t.sNum c (wsOff w 0x199) 1 = (s.task c w).rmode.toNat
  ften : t.sNum c (wsOff w 0x19A) 1 = (s.task c w).ften.toNat
  bytes : ∀ x a, ¬(x = c ∧ (a / 1024 = w ∨ a % 1024 = 0x18A ∨ a % 1024 = 0x18B)) → t.spadByte x a = s.spadByte x a
  ready : ∀ p, (t.core c).readyList p = if (fin = 0 ∨ fin = 5) ∧ p = (s.task c w).prio.toNat then (s.core c).readyList p ++ [w]
    else (s.core c).readyList p

theorem State.leave1_left (s : State) (c i w st : Nat) (h : (s.slot c i).ws = some w) (hst : st < 16) :
    Left c i w st (s.finalState c w st) s (s.leave1 c i w st) := by
  let r := (s.writeBack c i).writeRecord c i w st
  let u := r.modSlot c i Slot.vacant
  have hback : BytesOnly c s (s.writeBack c i) := .writeBack s c i
  have hrec : BytesOnly c s r := hback.trans (.writeRecord _ c i w st)
  have hbytes : SameBytes r u := r.sameBytes_modSlot c i Slot.vacant
  have hslot : u.slot c i = (s.slot c i).vacant := by rw [State.slot_modSlot_same, hrec.slot]
  have htask : ∀ v, u.task c v = s.task c v := fun v => (State.task_modSlot _ _ _ _ _ _).trans (hrec.task c v)
  have hmailbox : u.sNum c (wsOff w 0x170) 8 = s.sNum c (wsOff w 0x170) 8 := by
    rw [hbytes.sNum]
    refine State.sNum_of_bytes fun a hle hlt => ?_
    simp only [wsOff] at hle hlt
    rw [State.spadByte_writeRecord, s.spadByte_writeBack c i w h]
    all_goals simp only [wsOff]; omega
  have hfin : u.finalState c w st = s.finalState c w st := by rw [State.finalState, hmailbox, State.finalState]
  have hplaced : Placed c w (s.finalState c w st) u (s.leave1 c i w st) := by
    rw [← hfin]; exact .settleOut u c w st hst
  have hkept : ∀ {off n : Nat}, off + n ≤ 1024 → (off + n ≤ 0x188 ∨ 0x18C ≤ off) →
      (s.leave1 c i w st).sNum c (wsOff w off) n = r.sNum c (wsOff w off) n := by
    intro off n hoff hout
    rw [hplaced.sNum c fun a hle hlt => by simp only [wsOff] at *; omega, hbytes.sNum]
  obtain ⟨hflags, hrmode, hften⟩ := State.sNum_writeRecord_mode_bytes (s.writeBack c i) c i w st
  rw [hback.task] at hflags hrmode hften
  refine ⟨(hrec.threadsOnly.trans (.modSlot r c i _)).trans hplaced.threadsOnly, (hplaced.slot c i).trans hslot, by rw [hplaced.task],
    fun v hv => (hplaced.others v hv).trans (htask v), fun n hn hlive hdirty => ?_, ?_, ?_, ?_, ?_, ?_, ?_, fun x a hx => ?_, fun p => ?_⟩
  · rw [hkept (by omega) (by omega), ← s.sNum_writeBack_reg c i w h hn hlive hdirty]
    refine State.sNum_of_bytes fun a hle hlt => State.spadByte_writeRecord _ c i w st c a ?_
    simp only [wsOff] at *; omega
  · rw [hkept (by decide) (by decide), State.sNum_writeRecord_pc, hback.task]
  · rw [hkept (by decide) (by decide), State.sNum_writeRecord_live, hback.slot]
  · rw [hplaced.word, hbytes.sNum, State.sNum_writeRecord_state _ _ _ _ _ hst, hback.task]
    have := (s.task c w).prio.isLt
    omega
  · rw [hkept (by decide) (by decide), hflags]
  · rw [hkept (by decide) (by decide), hrmode]
  · rw [hkept (by decide) (by decide), hften]
  · rw [hplaced.bytes x a (by simp only [wsOff]; omega), hbytes.2, State.spadByte_writeRecord, s.spadByte_writeBack c i w h]
    all_goals simp only [wsOff]; omega
  · have hlist : ∀ q, (u.core c).readyList q = (s.core c).readyList q := fun q => by
      have hcore := (hrec.threadsOnly.trans (.modSlot r c i Slot.vacant)).core
      have hready : (u.core c).ready = (s.core c).ready := by
        rw [State.core_modSlot, if_pos rfl]
        show (r.core c).ready = _
        rw [hrec.core]
      rw [Core.readyList, hready, Core.readyList]
    rw [s.leave1_eq, State.readyList_settleOut]
    show (if (u.finalState c w st = 0 ∨ u.finalState c w st = 5) ∧ p = (u.task c w).prio.toNat then (u.core c).readyList p ++ [w]
      else (u.core c).readyList p) = _
    rw [hfin, hlist, htask]

end Sys2Proof.Machine
end

section
/-! O32, first part: what a workspace that enters its slot brings (R46, R49), how a slot fills and how a switch ends. -/

namespace Sys2Proof.Machine

/-! ## A bank that is loaded (R46) -/

theorem AMap.find_filterMap {α : Type} (p : Nat → Bool) (f : Nat → α) (l : List Nat) {k : Nat} (h : k ∈ l) (hp : p k = true) :
    AMap.find (l.filterMap fun n => if p n then some (n, f n) else none) k = some (f k) := by
  induction l with
  | nil => cases h
  | cons n l ih =>
    rw [List.filterMap_cons]
    by_cases hn : n = k
    · subst hn
      rw [if_pos hp]
      exact if_pos rfl
    · have hk := ih ((List.mem_cons.mp h).resolve_left fun hk => hn hk.symm)
      cases p n with
      | true => exact (if_neg hn).trans hk
      | false => exact hk

/-- The registers that the bytes of a workspace hold, of those its record calls live (R41). -/
def State.bankOf (s : State) (c ws : Nat) : AMap Word :=
  (List.range 32).filterMap (fun n => if (BitVec.ofNat 32 (s.sNum c (wsOff ws 0x188) 8 / 2 ^ 32)).getLsbD n
    then some (n, BitVec.ofNat 64 (s.sNum c (wsOff ws (8 * n)) 8)) else none)

theorem State.sNum_live (s : State) (c ws : Nat) :
    s.sNum c (wsOff ws 0x188) 8 / 2 ^ 32 % 2 ^ 32 = s.sNum c (wsOff ws 0x18C) 4 :=
  (s.sNum_inside c (wsOff ws 0x188) (n := 8) (k := 4) (l := 4) (by decide)).symm

theorem State.live_getLsbD (s : State) (c ws : Nat) (n : Nat) :
    (BitVec.ofNat 32 (s.sNum c (wsOff ws 0x188) 8 / 2 ^ 32)).getLsbD n = (s.sNum c (wsOff ws 0x18C) 4).testBit n := by
  rw [← s.sNum_live, BitVec.getLsbD_ofNat, Nat.testBit_mod_two_pow]

/-- A slot into which a workspace is loaded. -/
def Slot.loaded (sl : Slot) (ws : Nat) (bank : AMap Word) (live bad : BitVec 32) : Slot :=
  { sl with ws := some ws, bank := bank, live := live, dirty := 0, bad := bad }

/-- What a workspace's bytes say about its task (R41), with its quantum (R49). -/
def Task.ofRecord (k : Task) (pc word modes tq : Nat) : Task :=
  { k with pc := BitVec.ofNat 64 pc, prio := BitVec.ofNat 2 word, flags := BitVec.ofNat 5 modes, rmode := BitVec.ofNat 3 (modes / 256), ften := BitVec.ofNat 6 (modes / 65536), qrem := tq }

theorem State.loadWs_eq (s : State) (c i ws : Nat) : ∃ bad, s.loadWs c i ws =
    (((s.modSlot c i (fun sl => sl.loaded ws (s.bankOf c ws) (BitVec.ofNat 32 (s.sNum c (wsOff ws 0x188) 8 / 2 ^ 32)) bad)).modTask c ws
      (fun k => k.ofRecord ((s.modSlot c i (fun sl => sl.loaded ws (s.bankOf c ws) (BitVec.ofNat 32 (s.sNum c (wsOff ws 0x188) 8 / 2 ^ 32)) bad)).sNum c (wsOff ws 0x180) 8)
        (s.sNum c (wsOff ws 0x188) 8) (s.sNum c (wsOff ws 0x198) 8) (s.tqNow c).toNat)).setTstate c ws 1) := ⟨_, rfl⟩

/-- A workspace is in a slot, as its bytes and its record had it (R46). -/
structure Entered (c i ws : Nat) (s t : State) : Prop where
  threads : ThreadsOnly c s t
  resident : (t.slot c i).ws = some ws
  switching : (t.slot c i).switching = (s.slot c i).switching
  regs : ∀ n, n < 32 → (t.slot c i).reg n =
    if (s.sNum c (wsOff ws 0x18C) 4).testBit n then BitVec.ofNat 64 (s.sNum c (wsOff ws (8 * n)) 8) else 0
  tstate : (t.task c ws).tstate = 1
  qrem : (t.task c ws).qrem = (s.tqNow c).toNat
  pc : (t.task c ws).pc = BitVec.ofNat 64 (s.sNum c (wsOff ws 0x180) 8)
  otherSlots : ∀ j, j ≠ i → t.slot c j = s.slot c j
  others : ∀ v, v ≠ ws → t.task c v = s.task c v
  bytes : ∀ x a, ¬(x = c ∧ a = wsOff ws 0x188) → t.spadByte x a = s.spadByte x a
  ready : ∀ p, (t.core c).readyList p = (s.core c).readyList p

theorem State.bankOf_reg (s : State) (c ws : Nat) (sl : Slot) (bad : BitVec 32) {n : Nat} (hn : n < 32) :
    (sl.loaded ws (s.bankOf c ws) (BitVec.ofNat 32 (s.sNum c (wsOff ws 0x188) 8 / 2 ^ 32)) bad).reg n =
      if (s.sNum c (wsOff ws 0x18C) 4).testBit n then BitVec.ofNat 64 (s.sNum c (wsOff ws (8 * n)) 8) else 0 := by
  rw [← s.live_getLsbD c ws n, Slot.reg, Slot.loaded]
  by_cases hlive : (BitVec.ofNat 32 (s.sNum c (wsOff ws 0x188) 8 / 2 ^ 32)).getLsbD n = true
  · rw [if_pos hlive, if_pos hlive, AMap.get, State.bankOf,
      AMap.find_filterMap (fun n => (BitVec.ofNat 32 (s.sNum c (wsOff ws 0x188) 8 / 2 ^ 32)).getLsbD n) _ _ (List.mem_range.mpr hn) hlive]
    rfl
  · rw [if_neg hlive, if_neg hlive]

theorem ThreadsOnly.setTstate (s : State) (c ws st : Nat) : ThreadsOnly c s (s.setTstate c ws st) :=
  ⟨.setTstate s c ws st, by rw [s.setTstate_core c ws st]⟩

theorem State.loadWs_entered (s : State) (c i ws : Nat) : Entered c i ws s (s.loadWs c i ws) := by
  obtain ⟨bad, hload⟩ := s.loadWs_eq c i ws
  rw [hload]
  generalize hu : s.modSlot c i (fun sl => sl.loaded ws (s.bankOf c ws) (BitVec.ofNat 32 (s.sNum c (wsOff ws 0x188) 8 / 2 ^ 32)) bad) = u
  have hslot : u.slot c i = (s.slot c i).loaded ws (s.bankOf c ws) (BitVec.ofNat 32 (s.sNum c (wsOff ws 0x188) 8 / 2 ^ 32)) bad := by
    rw [← hu, State.slot_modSlot_same]
  have hbytes : SameBytes s u := by rw [← hu]; exact s.sameBytes_modSlot c i _
  have hthreads : ThreadsOnly c s u := by rw [← hu]; exact .modSlot s c i _
  have htask : ∀ v, u.task c v = s.task c v := fun v => by rw [← hu, State.task_modSlot]
  have hready : (u.core c).ready = (s.core c).ready := by rw [← hu, State.core_modSlot, if_pos rfl]; rfl
  generalize hk : Task.ofRecord = f
  generalize hv : u.modTask c ws _ = v
  have hfinal : ((v.setTstate c ws 1).slot c i) = u.slot c i := by rw [State.slot_setTstate, ← hv, State.slot_modTask]
  have hbytesv : SameBytes u v := by rw [← hv]; exact u.sameBytes_modTask c ws _
  have htaskv : (v.setTstate c ws 1).task c ws = { (f (s.task c ws) (u.sNum c (wsOff ws 0x180) 8) (s.sNum c (wsOff ws 0x188) 8)
      (s.sNum c (wsOff ws 0x198) 8) (s.tqNow c).toNat) with tstate := 1 } := by
    rw [State.tstate_setTstate, ← hv, State.task_modTask_same, htask]
  refine ⟨(hthreads.trans (by rw [← hv]; exact .modTask u c ws _)).trans (.setTstate v c ws 1), ?_, ?_, fun n hn => ?_, ?_, ?_, ?_,
    fun j hj => ?_, fun w hw => ?_, fun x a hx => ?_, fun p => ?_⟩
  · rw [hfinal, hslot]; rfl
  · rw [hfinal, hslot]; rfl
  · rw [hfinal, hslot, s.bankOf_reg c ws _ bad hn]
  · rw [htaskv]
  · rw [htaskv, ← hk]; rfl
  · rw [htaskv, ← hk, hbytes.sNum]; rfl
  · rw [State.slot_setTstate, ← hv, State.slot_modTask, ← hu, State.slot_modSlot, if_neg fun h : c = c ∧ j = i => hj h.2]
  · rw [State.setTstate, State.task_sPut, State.task_modTask, if_neg fun h : c = c ∧ w = ws => hw h.2, ← hv, State.task_modTask,
      if_neg fun h : c = c ∧ w = ws => hw h.2, htask]
  · rw [v.spadByte_setTstate c ws 1 x a hx, hbytesv.2, hbytes.2]
  · rw [State.readyList_setTstate, Core.readyList, ← hv, State.ready_modTask, hready, Core.readyList]

/-- What a task that enters its slot still has to be given: it no longer waits, and its first beat (R46). -/
theorem Entered.begins {c i ws : Nat} {s t : State} (h : Entered c i ws s t) (f : Slot → Slot) (g : Task → Task)
    (hf : ∀ sl, (f sl).ws = sl.ws ∧ (f sl).switching = sl.switching ∧ ∀ n, (f sl).reg n = sl.reg n)
    (hg : ∀ k, (g k).tstate = k.tstate ∧ (g k).qrem = k.qrem ∧ (g k).pc = k.pc) :
    Entered c i ws s ((t.modTask c ws g).modSlot c i f) := by
  have hslot : ((t.modTask c ws g).modSlot c i f).slot c i = f (t.slot c i) := by rw [State.slot_modSlot_same, State.slot_modTask]
  have htask : ((t.modTask c ws g).modSlot c i f).task c ws = g (t.task c ws) := by rw [State.task_modSlot, State.task_modTask_same]
  obtain ⟨hws, hsw, hreg⟩ := hf (t.slot c i)
  obtain ⟨htst, hqrem, hpc⟩ := hg (t.task c ws)
  refine ⟨(h.threads.trans (.modTask t c ws g)).trans (.modSlot _ c i f), ?_, ?_, fun n hn => ?_, ?_, ?_, ?_, fun j hj => ?_, fun w hw => ?_,
    fun x a hx => ?_, fun p => ?_⟩
  · rw [hslot, hws, h.resident]
  · rw [hslot, hsw, h.switching]
  · rw [hslot, hreg, h.regs n hn]
  · rw [htask, htst, h.tstate]
  · rw [htask, hqrem, h.qrem]
  · rw [htask, hpc, h.pc]
  · rw [State.slot_modSlot, if_neg fun hc : c = c ∧ j = i => hj hc.2, State.slot_modTask, h.otherSlots j hj]
  · rw [State.task_modSlot, State.task_modTask, if_neg fun hc : c = c ∧ w = ws => hw hc.2, h.others w hw]
  · rw [(State.sameBytes_modSlot _ c i f).2, (State.sameBytes_modTask _ c ws g).2, h.bytes x a hx]
  · have hready : (((t.modTask c ws g).modSlot c i f).core c).ready = (t.core c).ready := by
      rw [State.core_modSlot, if_pos rfl]
      exact State.ready_modTask t c ws g c
    rw [Core.readyList, hready]
    exact h.ready p

theorem State.enter1_entered (s : State) (c i ws : Nat) (hend : (s.task c ws).tstate ≠ 6) (hok : s.recordOk c ws = true) :
    Entered c i ws s (s.enter1 c i ws) ∧ ((s.enter1 c i ws).slot c i).nextAt = beatAt i s.cycle := by
  rw [State.enter1, if_neg hend, if_pos hok]
  refine ⟨(s.loadWs_entered c i ws).begins _ _ (fun _ => ⟨rfl, rfl, fun _ => rfl⟩) (fun _ => ⟨rfl, rfl, rfl⟩), ?_⟩
  rw [State.slot_modSlot_same]

/-! ## What a workspace's record says stays when another leaves (R41) -/

theorem State.recordOk_congr {s t : State} {c w : Nat}
    (h : ∀ a, a / 1024 = w → a % 1024 ≠ 0x18A → a % 1024 ≠ 0x18B → t.spadByte c a = s.spadByte c a) : t.recordOk c w = s.recordOk c w := by
  have hnum : ∀ off n, off + n ≤ 1024 → (off + n ≤ 0x18A ∨ 0x18C ≤ off) → t.sNum c (wsOff w off) n = s.sNum c (wsOff w off) n := by
    intro off n hoff hout
    refine State.sNum_of_bytes fun a hle hlt => ?_
    simp only [wsOff] at hle hlt
    exact h a (by omega) (by omega) (by omega)
  have hbits : ∀ lo n, lo + n ≤ 16 → bitsOf (t.sNum c (wsOff w 0x188) 8) lo n = bitsOf (s.sNum c (wsOff w 0x188) 8) lo n := by
    intro lo n hlo
    have hcut : ∀ u : State, bitsOf (u.sNum c (wsOff w 0x188) 8) lo n = bitsOf (u.sNum c (wsOff w 0x188) 2) lo n := by
      intro u
      have hin := u.sNum_inside c (wsOff w 0x188) (n := 8) (k := 0) (l := 2) (by decide)
      rw [Nat.mul_zero, Nat.pow_zero, Nat.div_one, Nat.add_zero] at hin
      obtain ⟨d, hd⟩ := Nat.exists_eq_add_of_le hlo
      rw [hin, bitsOf_eq, bitsOf_eq, show 8 * 2 = lo + n + d from hd, Nat.add_assoc, Nat.pow_add 2 lo, Nat.mod_mul_right_div_self, Nat.pow_add 2 n,
        Nat.mod_mul_right_mod]
    rw [hcut, hcut, hnum 0x188 2 (by decide) (by decide)]
  have hzero : ((List.range 4).all fun j => t.sNum c (wsOff w (0x1A0 + 8 * j)) 8 == 0) =
      (List.range 4).all fun j => s.sNum c (wsOff w (0x1A0 + 8 * j)) 8 == 0 := by
    rw [Bool.eq_iff_iff, List.all_eq_true, List.all_eq_true]
    refine forall_congr' fun j => imp_congr_right fun hj => ?_
    have := List.mem_range.mp hj
    rw [hnum _ _ (by omega) (by omega)]
  rw [State.recordOk, State.recordOk, hbits 8 8 (by decide), hbits 2 2 (by decide), hbits 4 4 (by decide), hnum 0x190 8 (by decide) (by decide),
    hnum 0x198 8 (by decide) (by decide), hzero]

/-! ## The ready lists that a task leaves (R47) -/

theorem State.ready_setLink (s : State) (c w link : Nat) : ((s.setLink c w link).core c).ready = (s.core c).ready := by
  rw [State.setLink, State.sPut, State.core_modCore_same]

theorem State.ready_relink (c : Nat) (l : List Nat) (s : State) : ((s.relink c l).core c).ready = (s.core c).ready := by
  induction l generalizing s with
  | nil => rfl
  | cons a l ih =>
    cases l with
    | nil => exact s.ready_setLink c a 0xFFFF
    | cons b r => exact (ih (s.setLink c a b)).trans (s.ready_setLink c a b)

theorem State.readyList_unlist (s : State) (c ws p q : Nat) : ((s.unlist c ws p).core c).readyList q =
    if q = p then ((s.core c).readyList q).filter (fun x => x != ws) else (s.core c).readyList q := by
  unfold State.unlist
  split
  next h =>
    rw [Core.readyList, State.ready_relink, State.core_modCore_same]
    show AMap.get [] (AMap.put _ p _) q = _
    rw [AMap.get_put]
    split
    next hq => rw [hq]
    next => rfl
  next h =>
    split
    next hq =>
      refine (List.filter_eq_self.mpr fun x hx => ?_).symm
      rw [bne_iff_ne]
      rintro rfl
      exact h (List.contains_iff_mem.mpr (hq ▸ hx))
    next => rfl

theorem State.readyList_unlistAll (c ws q : Nat) (l : List Nat) (s : State) :
    ((l.foldl (fun s p => s.unlist c ws p) s).core c).readyList q =
      if q ∈ l then ((s.core c).readyList q).filter (fun x => x != ws) else (s.core c).readyList q := by
  induction l generalizing s with
  | nil => rfl
  | cons p l ih =>
    rw [List.foldl_cons, ih, State.readyList_unlist]
    by_cases hp : q = p <;> by_cases hl : q ∈ l <;> simp [hp, hl]

theorem State.readyList_leaveReady (s : State) (c ws : Nat) {q : Nat} (hq : q < 4) :
    ((s.leaveReady c ws).core c).readyList q = ((s.core c).readyList q).filter (fun x => x != ws) := by
  rw [s.leaveReady_eq, Core.readyList, State.ready_setLink]
  exact (State.readyList_unlistAll c ws q (List.range 4) s).trans (if_pos (List.mem_range.mpr hq))

end Sys2Proof.Machine
end

section
/-! O32, second part: an empty slot's fill, the end of a quantum and the end of a switch (R46 to R50). -/

namespace Sys2Proof.Machine

/-! ## An empty slot (R48) -/

theorem exec_emptySlotFill_fills {s : State} {c j p w : Nat} (h : s.slotEmpty c j = true) (hbeat : s.cycle % 16 = j)
    (hdue : (s.core c).readyBy s.cycle = some (p, w)) : exec (.emptySlotFill c j) s =
      .next ((s.leaveReady c w).modSlot c j (fun sl => { sl with switching := some ⟨none, some w, s.cycle + 32, none⟩ })) := by
  show execEmptySlotFill c j s = _
  rw [execEmptySlotFill, if_pos ⟨h, hbeat⟩, hdue]

theorem exec_emptySlotFill_stays {s : State} {c j : Nat}
    (h : s.slotEmpty c j = false ∨ s.cycle % 16 ≠ j ∨ (s.core c).readyBy s.cycle = none) : exec (.emptySlotFill c j) s = .next s := by
  show execEmptySlotFill c j s = _
  unfold execEmptySlotFill
  by_cases hfit : s.slotEmpty c j = true ∧ s.cycle % 16 = j
  · have hdue : (s.core c).readyBy s.cycle = none := by
      rcases h with h | h | h
      · rw [h] at hfit; exact absurd hfit.1 Bool.false_ne_true
      · exact absurd hfit.2 h
      · exact h
    rw [if_pos hfit, hdue]
  · rw [if_neg hfit]

/-! ## The end of a quantum (R49) -/

/-- The state in which a task has its quantum again. -/
def State.requantum (s : State) (c w : Nat) : State := s.modTask c w (fun t => { t with qrem := (s.tqNow c).toNat })

/-- Whether a task's quantum ends in a switch, by the task that is ready. -/
def State.quantumSwitch (s : State) (c w : Nat) : Prop := ∃ p x, (s.core c).readyBy s.cycle = some (p, x) ∧ (s.tqNow c).toNat ≠ 0 ∧
  p ≤ (s.task c w).prio.toNat ∧ s.parkYields c (s.task c w).park = true ∧ s.stopping c = false

section
variable {s : State} {c j w : Nat} (hws : (s.slot c j).ws = some w) (hsw : (s.slot c j).switching = none) (hq : (s.task c w).qrem = 0)
include hws hsw hq

theorem exec_quantumExpiry_switch (h : s.quantumSwitch c w) :
    exec (.quantumExpiry c j) s = .next ((s.requantum c w).preempt c j w) := by
  obtain ⟨p, x, hdue, hcond⟩ := h
  show execQuantumExpiry c j s = _
  simp only [execQuantumExpiry, hws, hsw, hq, hdue, ne_eq, not_true_eq_false, if_false]
  exact if_pos hcond

theorem exec_quantumExpiry_stays (h : ¬s.quantumSwitch c w) : exec (.quantumExpiry c j) s = .next (s.requantum c w) := by
  show execQuantumExpiry c j s = _
  simp only [execQuantumExpiry, hws, hsw, hq, ne_eq, not_true_eq_false, if_false]
  cases hdue : (s.core c).readyBy s.cycle with
  | none => rfl
  | some px =>
    obtain ⟨p, x⟩ := px
    exact if_neg fun hcond => h ⟨p, x, hdue, hcond⟩

end

theorem State.task_leaveWith (s : State) (c i st first : Nat) (inc : Option (Nat × Nat)) (d v : Nat) :
    (s.leaveWith c i st first inc).task d v = s.task d v := by
  cases inc with
  | none => rw [State.leaveWith, State.switchOut, State.task_modSlot]
  | some pw => rw [State.leaveWith, State.switchOut, State.task_modSlot, (ReadyOnly.leaveReady s c pw.2).task]

theorem State.qrem_yieldSlot (s : State) (c i w : Nat) : ((s.yieldSlot c i w).task c w).qrem = (s.task c w).qrem := by
  rw [s.yieldSlot_eq, State.task_leaveWith, State.yielded, State.task_modTask_same]
  split
  · rfl
  · rw [(s.withdrawAll_withdrawn c w).task]

theorem State.qrem_preempt (s : State) (c i w : Nat) : ((s.preempt c i w).task c w).qrem = (s.task c w).qrem := by
  unfold State.preempt
  split
  · split
    · rfl
    · exact s.qrem_yieldSlot c i w
  · exact s.qrem_yieldSlot c i w

theorem State.qrem_requantum (s : State) (c w : Nat) : ((s.requantum c w).task c w).qrem = (s.tqNow c).toNat := by
  rw [State.requantum, State.task_modTask_same]

theorem State.readyBy_requantum (s : State) (c w now : Nat) : ((s.requantum c w).core c).readyBy now = (s.core c).readyBy now := by
  refine Core.readyBy_congr (s.ready_modTask c w _ c) (fun v => ?_) now
  show ((s.modTask c w _).task c v).readyAt = (s.task c v).readyAt
  rw [State.task_modTask]
  split
  next h => rw [h.2]
  next => rfl

/-- A task whose wait its quantum ends, other than at another core, makes room for the task that is ready (R49). -/
theorem State.preempt_switching (s : State) (c i w : Nat) {p x : Nat} (hhome : ∀ id, (s.task c w).park ≠ .home id)
    (hdue : (s.core c).readyBy s.cycle = some (p, x)) : ∃ y, ((s.preempt c i w).slot c i).switching = some y ∧
      y.outgoing = (s.slot c i).ws.map (fun v => (v, if (s.task c w).park = .run then 0 else 5)) ∧ y.incoming = some x := by
  have hyield : s.preempt c i w = s.yieldSlot c i w := by
    unfold State.preempt
    split
    next id h => exact absurd h (hhome id)
    next => rfl
  rw [hyield]
  exact s.yieldSlot_switching c i w hdue

/-! ## The end of a switch (R46) -/

/-- The state in which a slot's switch is over. -/
def State.unswitched (s : State) (c j : Nat) : State := s.modSlot c j (fun sl => { sl with switching := none })

theorem exec_switchComplete_none {s : State} {c j : Nat} (h : (s.slot c j).switching = none) : exec (.switchComplete c j) s = .next s := by
  show execSwitchComplete c j s = _
  simp only [execSwitchComplete, h]

theorem exec_switchComplete_early {s : State} {c j : Nat} {y : Switch} (h : (s.slot c j).switching = some y)
    (hearly : s.cycle < y.done ∨ y.blocked ≠ none) : exec (.switchComplete c j) s = .next s := by
  show execSwitchComplete c j s = _
  simp only [execSwitchComplete, h]
  exact if_pos (hearly.imp_right fun hb => Option.isSome_iff_ne_none.mpr hb)

section
variable {s : State} {c j : Nat} {y : Switch} (h : (s.slot c j).switching = some y) (hdue : y.done ≤ s.cycle) (hfree : y.blocked = none)
include h hdue hfree

theorem exec_switchComplete_out {w st : Nat} (hout : y.outgoing = some (w, st)) (hin : y.incoming = none) :
    exec (.switchComplete c j) s = .next ((s.leave1 c j w st).unswitched c j) := by
  show execSwitchComplete c j s = _
  simp only [execSwitchComplete, h, hout, hin, hfree]
  exact if_neg fun hearly => hearly.elim (by omega) (by simp)

theorem exec_switchComplete_both {w st v : Nat} (hout : y.outgoing = some (w, st)) (hin : y.incoming = some v) :
    exec (.switchComplete c j) s = .next (((s.leave1 c j w st).unswitched c j).enter1 c j v) := by
  show execSwitchComplete c j s = _
  simp only [execSwitchComplete, h, hout, hin, hfree]
  exact if_neg fun hearly => hearly.elim (by omega) (by simp)

theorem exec_switchComplete_in {v : Nat} (hout : y.outgoing = none) (hin : y.incoming = some v) :
    exec (.switchComplete c j) s = .next ((s.unswitched c j).enter1 c j v) := by
  show execSwitchComplete c j s = _
  simp only [execSwitchComplete, h, hout, hin, hfree]
  exact if_neg fun hearly => hearly.elim (by omega) (by simp)

end

theorem ThreadsOnly.unswitched (s : State) (c j : Nat) : ThreadsOnly c s (s.unswitched c j) := .modSlot s c j _

theorem State.readyList_modSlot (s : State) (c j : Nat) (f : Slot → Slot) (p : Nat) :
    ((s.modSlot c j f).core c).readyList p = (s.core c).readyList p := by
  rw [State.core_modSlot, if_pos rfl]; rfl

theorem State.readyList_unswitched (s : State) (c j p : Nat) : ((s.unswitched c j).core c).readyList p = (s.core c).readyList p :=
  s.readyList_modSlot c j _ p

/-- What a task that has left its slot left behind stays, whatever happens to other tasks and workspaces (R41, R46). -/
theorem Left.stays {c j w st fin : Nat} {s t u : State} (h : Left c j w st fin s t) (htask : (u.task c w).tstate = (t.task c w).tstate)
    (hbytes : ∀ a, a / 1024 = w → u.spadByte c a = t.spadByte c a)
    (hready : ∀ p, (u.core c).readyList p = (t.core c).readyList p) : (u.task c w).tstate = fin ∧
      (∀ n, n < 32 → (s.slot c j).live.getLsbD n = true → (s.slot c j).dirty.getLsbD n = true →
        u.sNum c (wsOff w (8 * n)) 8 = ((s.slot c j).reg n).toNat) ∧
      u.sNum c (wsOff w 0x180) 8 = (s.task c w).pc.toNat ∧ u.sNum c (wsOff w 0x18C) 4 = (s.slot c j).live.toNat ∧
      u.sNum c (wsOff w 0x188) 1 = fin * 16 + (s.task c w).prio.toNat ∧
      u.sNum c (wsOff w 0x198) 1 = (s.task c w).flags.toNat ∧ u.sNum c (wsOff w 0x199) 1 = (s.task c w).rmode.toNat ∧
      u.sNum c (wsOff w 0x19A) 1 = (s.task c w).ften.toNat ∧
      ∀ p, p < 4 → (u.core c).readyList p =
        if (fin = 0 ∨ fin = 5) ∧ p = (s.task c w).prio.toNat then (s.core c).readyList p ++ [w] else (s.core c).readyList p := by
  have hnum : ∀ {off n}, off + n ≤ 1024 → u.sNum c (wsOff w off) n = t.sNum c (wsOff w off) n := fun {off n} hoff =>
    State.sNum_of_bytes fun a hle hlt => hbytes a (by simp only [wsOff] at *; omega)
  refine ⟨htask.trans h.task, fun n hn hlive hdirty => ?_, ?_, ?_, ?_, ?_, ?_, ?_, fun p _ => (hready p).trans (h.ready p)⟩
  · rw [hnum (by omega), h.regs n hn hlive hdirty]
  · rw [hnum (by decide), h.pc]
  · rw [hnum (by decide), h.live]
  · rw [hnum (by decide), h.word]
  · rw [hnum (by decide), h.flags]
  · rw [hnum (by decide), h.rmode]
  · rw [hnum (by decide), h.ften]

/-- What a workspace brings into its slot, by its bytes in an earlier state in which they were the same (R46). -/
theorem Entered.from {c j v : Nat} {s u t : State} (h : Entered c j v u t) (hthreads : ThreadsOnly c s u)
    (hbytes : ∀ a, a / 1024 = v → a % 1024 ≠ 0x18A → a % 1024 ≠ 0x18B → u.spadByte c a = s.spadByte c a) :
    (t.task c v).qrem = (s.tqNow c).toNat ∧ (t.task c v).pc = BitVec.ofNat 64 (s.sNum c (wsOff v 0x180) 8) ∧
      ∀ n, n < 32 → (t.slot c j).reg n =
        if (s.sNum c (wsOff v 0x18C) 4).testBit n then BitVec.ofNat 64 (s.sNum c (wsOff v (8 * n)) 8) else 0 := by
  have hnum : ∀ {off n}, off + n ≤ 1024 → (off + n ≤ 0x18A ∨ 0x18C ≤ off) → u.sNum c (wsOff v off) n = s.sNum c (wsOff v off) n :=
    fun {off n} hoff hout => State.sNum_of_bytes fun a hle hlt => by
      simp only [wsOff] at hle hlt
      exact hbytes a (by omega) (by omega) (by omega)
  refine ⟨by rw [h.qrem, hthreads.tqNow], by rw [h.pc, hnum (by decide) (by decide)], fun n hn => ?_⟩
  rw [h.regs n hn, hnum (by decide) (by decide), hnum (by omega) (by omega)]

end Sys2Proof.Machine
end

section
/-! O32, third part: the answers of the resident service (R107, R110, R111), and the statement. -/

namespace Sys2Proof.Machine

/-! ## The service resumes a task (R111) -/

/-- What a FETCHFAULT's answer changes: the text is paged in, and the cores of the world drop their lines (R86, R113). -/
def State.textServed (s : State) (w a cause : Nat) : State := if cause = 2 then (s.textIn w a).dropText w else s

theorem exec_serviceResume {s : State} {c w cause a : Nat} {e : Word} (h : (s.task c w).park = .service cause a e) :
    exec (.serviceResume c w) s = .next (match (s.core c).slotOf w with
      | some i => ((s.textServed (s.core c).world a cause).modTask c w (fun t => { t with park := .run })).modSlot c i
        (fun sl => { sl with nextAt := s.cycle + 16 })
      | none => (s.textServed (s.core c).world a cause).modTask c w (fun t => { t with park := .run })) := by
  show execServiceResume c w s = _
  unfold execServiceResume
  rw [h]
  cases (s.core c).slotOf w <;> rfl

/-- Lines of a core's instruction cache, no more, have left it (R201). -/
structure TextOnly (s t : State) : Prop where
  slot : ∀ c i, t.slot c i = s.slot c i
  task : ∀ c w, t.task c w = s.task c w
  scratch : ∀ c, (t.core c).scratch = (s.core c).scratch
  world : ∀ c, (t.core c).world = (s.core c).world

theorem TextOnly.trans {s t u : State} (h : TextOnly s t) (h' : TextOnly t u) : TextOnly s u :=
  ⟨fun c i => (h'.slot c i).trans (h.slot c i), fun c w => (h'.task c w).trans (h.task c w), fun c => (h'.scratch c).trans (h.scratch c),
    fun c => (h'.world c).trans (h.world c)⟩

theorem Records.textOnly {s t : State} (h : Records s t) : TextOnly s t :=
  ⟨h.slot, h.task, fun c => by rw [h.core], fun c => by rw [h.core]⟩

theorem State.textIn_textOnly (s : State) (w a : Nat) : TextOnly s (s.textIn w a) := by
  unfold State.textIn
  split
  · exact ⟨fun _ _ => rfl, fun _ _ => rfl, fun _ => rfl, fun _ => rfl⟩
  · dsimp only
    split
    · exact ⟨fun _ _ => rfl, fun _ _ => rfl, fun _ => rfl, fun _ => rfl⟩
    · exact ⟨fun _ _ => rfl, fun _ _ => rfl, fun _ => rfl, fun _ => rfl⟩

/-- The core of a world whose text is committed drops its lines. -/
def Core.dropText (w : Nat) (k : Core) : Core := if k.world = w then k.dropLines else k

theorem State.core_dropText (s : State) (w : Nat) : ∃ u, Records s u ∧ ∀ c, (s.dropText w).core c = Core.dropText w (u.core c) := by
  refine ⟨(s.cores.filter (fun e => e.2.world == w)).foldl (fun s e => s.unreadLines e.1 (e.2.icache.flatMap (fun x => x.2))) s,
    .foldl _ (fun t e => t.unreadLines_records _ _) _ s, fun c => State.core_map (Core.dropText w) ?_ rfl c⟩
  unfold Core.dropText
  split <;> rfl

theorem Core.dropText_same (w : Nat) (k : Core) : (k.dropText w).slots = k.slots ∧ (k.dropText w).tasks = k.tasks ∧
    (k.dropText w).scratch = k.scratch ∧ (k.dropText w).world = k.world := by
  unfold Core.dropText
  split <;> exact ⟨rfl, rfl, rfl, rfl⟩

theorem State.dropText_textOnly (s : State) (w : Nat) : TextOnly s (s.dropText w) := by
  obtain ⟨u, hu, hcore⟩ := s.core_dropText w
  refine hu.textOnly.trans ⟨fun c i => ?_, fun c v => ?_, fun c => ?_, fun c => ?_⟩
  all_goals obtain ⟨hslots, htasks, hscratch, hworld⟩ := Core.dropText_same w (u.core c)
  · rw [State.slot, hcore, Core.slot, hslots]; rfl
  · rw [State.task, hcore, Core.task, htasks]; rfl
  · rw [hcore, hscratch]
  · rw [hcore, hworld]

theorem State.dropText_line (s : State) (w c base : Nat) (h : (s.core c).world = w) : ((s.dropText w).core c).line? base = none := by
  obtain ⟨u, hu, hcore⟩ := s.core_dropText w
  rw [hcore, Core.dropText, if_pos ((hu.textOnly.world c).trans h)]
  rfl

theorem State.textServed_textOnly (s : State) (w a cause : Nat) : TextOnly s (s.textServed w a cause) := by
  unfold State.textServed
  split
  · exact (s.textIn_textOnly w a).trans (State.dropText_textOnly _ w)
  · exact ⟨fun _ _ => rfl, fun _ _ => rfl, fun _ => rfl, fun _ => rfl⟩

/-- The state in which a task that waited for the service goes on: it is no longer parked, and in a slot it has a next beat. -/
structure Resumed (c w at_ : Nat) (s t : State) : Prop where
  device : OneCore c s t
  bytes : SameBytes s t
  task : t.task c w = { s.task c w with park := .run }
  slot : ∀ i, (s.core c).slotOf w = some i → t.slot c i = { s.slot c i with nextAt := at_ }
  lines : ∀ d base, (t.core d).line? base = (s.core d).line? base

theorem State.line_modTask (s : State) (c w : Nat) (f : Task → Task) (d base : Nat) :
    ((s.modTask c w f).core d).line? base = (s.core d).line? base := by
  rw [State.core_modTask]
  split
  next h => rw [h]; rfl
  next => rfl

theorem State.line_modSlot (s : State) (c i : Nat) (f : Slot → Slot) (d base : Nat) :
    ((s.modSlot c i f).core d).line? base = (s.core d).line? base := by
  rw [State.core_modSlot]
  split
  next h => rw [h]; rfl
  next => rfl

theorem State.goesOn_resumed (s : State) (c w at_ : Nat) : Resumed c w at_ s (match (s.core c).slotOf w with
    | some i => (s.modTask c w (fun t => { t with park := .run })).modSlot c i (fun sl => { sl with nextAt := at_ })
    | none => s.modTask c w (fun t => { t with park := .run })) := by
  cases hslot : (s.core c).slotOf w with
  | none => exact ⟨.modTask s c w _, s.sameBytes_modTask c w _, s.task_modTask_same c w _, fun i hi => absurd (hslot.symm.trans hi) (by simp), fun d b => s.line_modTask c w _ d b⟩
  | some j =>
    refine ⟨(OneCore.modTask s c w _).trans (.modSlot _ c j _), (s.sameBytes_modTask c w _).trans (State.sameBytes_modSlot _ c j _), ?_,
      fun i hi => ?_, fun d b => (State.line_modSlot _ c j _ d b).trans (s.line_modTask c w _ d b)⟩
    · rw [State.task_modSlot, State.task_modTask_same]
    · obtain rfl : j = i := Option.some.inj (hslot.symm.trans hi)
      rw [State.slot_modSlot_same, State.slot_modTask]

theorem TextOnly.slotOf {s t : State} (h : TextOnly s t) (c w : Nat) : (t.core c).slotOf w = (s.core c).slotOf w := by
  unfold Core.slotOf
  exact congrArg (List.find? · _) (funext fun i => by rw [show (t.core c).slot i = (s.core c).slot i from h.slot c i])

theorem exec_serviceResume_resumed {s : State} {c w cause a : Nat} {e : Word} (h : (s.task c w).park = .service cause a e) :
    ∃ t, exec (.serviceResume c w) s = .next t ∧ Resumed c w (s.cycle + 16) (s.textServed (s.core c).world a cause) t := by
  have hon := (s.textServed (s.core c).world a cause).goesOn_resumed c w (s.cycle + 16)
  rw [(s.textServed_textOnly (s.core c).world a cause).slotOf] at hon
  exact ⟨_, exec_serviceResume h, hon⟩

/-! ## The service escalates (R110, R111) -/

theorem exec_serviceEscalate_trap {s : State} {c w cause a : Nat} {e : Word} (h : (s.task c w).park = .service cause a e) (hc : cause ≠ 0x13) :
    exec (.serviceEscalate c w) s = .next (s.deliver c w (s.escalated (s.core c).world a)) := by
  show execServiceEscalate c w s = _
  simp only [execServiceEscalate, h, if_neg hc]

theorem exec_serviceEscalate_end {s : State} {c w a : Nat} {e : Word} (h : (s.task c w).park = .service 0x13 a e) :
    exec (.serviceEscalate c w) s = .next (s.endAnywhere c w 0x13 0) := by
  show execServiceEscalate c w s = _
  simp only [execServiceEscalate, h]
  rfl

theorem State.staysIn_none {s : State} {c w : Nat} (h : ∀ i, (s.core c).slotOf w = some i → (s.slot c i).switching ≠ none) :
    s.staysIn c w = none := by
  rw [State.staysIn, Option.filter_eq_none_iff]
  intro i hi hsw
  exact h i hi (Option.isNone_iff_eq_none.mp hsw)

theorem State.staysIn_some {s : State} {c w i : Nat} (h : (s.core c).slotOf w = some i) (hsw : (s.slot c i).switching = none) :
    s.staysIn c w = some i := by
  rw [State.staysIn, h, Option.filter_some, hsw]
  rfl

/-- A task that is being ended: what its slot, its record and the queues of its core lose is of that core alone. -/
theorem OneCore.quitSlot (s : State) (c i w first : Nat) : OneCore c s (s.quitSlot c i w first) := by
  have hleave : ∀ inc : Option (Nat × Nat), OneCore c s (s.leaveWith c i 6 first inc) := fun inc => by
    cases inc with
    | none => rw [State.leaveWith, State.switchOut]; exact .modSlot s c i _
    | some pw => rw [State.leaveWith, State.switchOut]; exact (ReadyOnly.leaveReady s c pw.2).device.trans (.modSlot _ c i _)
  unfold State.quitSlot
  split
  · exact .modSlot s c i _
  · rw [State.leaveSlot]; exact hleave _

/-- The end of a task that is no gang's member is reported to its world, and beyond its core nothing else changes (R110). -/
theorem State.endAnywhere_report (s : State) (c w cause sub : Nat) (h : (s.task c w).gang = none) :
    (s.endAnywhere c w cause sub).reports = s.reports ++ [.taskEnd (s.core c).world c w cause sub] ∧
      (s.endAnywhere c w cause sub).mem = s.mem := by
  have hreport : ∀ u : State, u.cores = s.cores → u.reportEnd c w cause sub 0 = u.report (.taskEnd (s.core c).world c w cause sub) := by
    intro u hu
    have hcore : u.core c = s.core c := congrArg (fun m => AMap.get Core.reset m c) hu
    have hg : (u.task c w).gang = none := by rw [State.task, hcore]; exact h
    simp only [State.reportEnd, hg, hcore]
  have hone : ∀ {u t : State}, u.reports = s.reports → u.mem = s.mem → OneCore c (u.report (.taskEnd (s.core c).world c w cause sub)) t →
      t.reports = s.reports ++ [.taskEnd (s.core c).world c w cause sub] ∧ t.mem = s.mem := by
    intro u t hrep hmem hu
    exact ⟨by rw [hu.1]; exact congrArg (· ++ _) hrep, by rw [hu.1]; exact hmem⟩
  unfold State.endAnywhere
  split
  next i hi =>
    refine hone (u := s.actAs c i) rfl rfl ?_
    rw [State.endTask, hreport (s.actAs c i) rfl]
    exact ((OneCore.modTask _ c w _).trans (.modCore _ c _)).trans (.quitSlot _ c i w _)
  next =>
    refine hone (u := s) rfl rfl ?_
    rw [State.endOut, hreport s rfl]
    exact (((ReadyOnly.leaveReady _ c w).device.trans (.setTstate _ c w 6)).trans (.modTask _ c w _)).trans (.modCore _ c _)

/-! ## A late trap is taken on entry (R107) -/

theorem exec_trapEntry_takes {s : State} {c j w : Nat} {x : Trap} (hws : (s.slot c j).ws = some w) (hlate : (s.task c w).lateTrap = some x) :
    exec (.trapEntry c j) s = .next (((({ s with actCore := c, actSlot := j } : State).modTask c w
      (fun k => { k with park := .run, lateTrap := none })).takeTrap x).goAt (beatAt j s.cycle + 32)) := by
  have hcur : (s.actAs c j).curWs = w := by
    show (s.slot c j).ws.getD 0 = w
    rw [hws]; rfl
  have htask : (s.actAs c j).curTask.lateTrap = some x := by
    show ((s.actAs c j).task c (s.actAs c j).curWs).lateTrap = _
    rw [hcur]; exact hlate
  show execTrapEntry c j s = _
  simp only [execTrapEntry, show (s.actAs c j).curSlot.ws = some w from hws, htask]
  rw [State.modCurTask, hcur]
  rfl

theorem exec_trapEntry_none {s : State} {c j w : Nat} (hws : (s.slot c j).ws = some w) (hlate : (s.task c w).lateTrap = none) :
    exec (.trapEntry c j) s = .next s := by
  have hcur : (s.actAs c j).curWs = w := by
    show (s.slot c j).ws.getD 0 = w
    rw [hws]; rfl
  have htask : (s.actAs c j).curTask.lateTrap = none := by
    show ((s.actAs c j).task c (s.actAs c j).curWs).lateTrap = _
    rw [hcur]; exact hlate
  show execTrapEntry c j s = _
  simp only [execTrapEntry, show (s.actAs c j).curSlot.ws = some w from hws, htask]

end Sys2Proof.Machine
end

section
/-! O32: switches and the service's answers. -/

namespace Sys2Proof.Machine

theorem curWs_acting {s : State} {c j w : Nat} (h : (s.slot c j).ws = some w) : (s.actAs c j).curWs = w := by
  show (s.slot c j).ws.getD 0 = w
  rw [h]; rfl

/-- The facts about a task that a trap's entry reads, of a thread whose wait has just ended. -/
theorem handler_modTask {s : State} {c j w : Nat} (hws : (s.slot c j).ws = some w) (f : Task → Task) {cause : Nat} {vec : Word} {hv : Nat}
    (hf : (f (s.task c w)).vector cause = (s.task c w).vector cause) (hnd : s.hnd c w = 0)
    (hvec : (s.task c w).vector cause = (vec, hv)) (hne : vec ≠ 0) (x : Trap) (hx : x.cause = cause) :
    HandlerEntered ((s.actAs c j).modTask c w f) (((s.actAs c j).modTask c w f).takeTrap x) x vec hv := by
  have hcur : ((s.actAs c j).modTask c w f).curWs = w := by
    rw [State.curWs, State.curSlot]
    exact (congrArg (fun sl : Slot => sl.ws.getD 0) (State.slot_modTask (s.actAs c j) c w f c j)).trans (curWs_acting hws)
  refine State.takeTrap_handlerEntered _ x vec hv ?_ ?_ hne
  · rw [hcur, State.hnd]
    exact (congrArg (fun n => bitsOf n 30 2) ((State.sameBytes_modTask (s.actAs c j) c w f).sNum c _ 8)).trans hnd
  · rw [hx, State.curTask, hcur]
    exact (congrArg (fun k : Task => k.vector cause) (State.task_modTask_same (s.actAs c j) c w f)).trans (hf.trans hvec)

/-- A switch that is due: what leaves, and what enters (R46). -/
theorem switchComplete_both {s : State} {c j w st v : Nat} (hws : (s.slot c j).ws = some w) (hst : st < 7) (hvw : v ≠ w)
    (hend : (s.task c v).tstate ≠ 6) (hok : s.recordOk c v = true) :
    let l := (s.leave1 c j w st).unswitched c j
    let t := l.enter1 c j v
    ThreadsOnly c s l ∧ Left c j w st (s.finalState c w st) s (s.leave1 c j w st) ∧ (∀ a, a / 1024 = w → t.spadByte c a = (s.leave1 c j w st).spadByte c a) ∧
      (∀ a, a / 1024 = v → a % 1024 ≠ 0x18A → a % 1024 ≠ 0x18B → l.spadByte c a = s.spadByte c a) ∧
      Entered c j v l t ∧ (t.slot c j).nextAt = beatAt j s.cycle := by
  intro l t
  have hleft := s.leave1_left c j w st hws (by omega)
  have hthreads : ThreadsOnly c s l := hleft.threads.trans (.unswitched _ c j)
  have hbytes : ∀ x a, l.spadByte x a = (s.leave1 c j w st).spadByte x a := fun x a => (State.sameBytes_modSlot _ c j _).2 x a
  have hown : ∀ a, a / 1024 = v → a % 1024 ≠ 0x18A → a % 1024 ≠ 0x18B → l.spadByte c a = s.spadByte c a := fun a ha h1 h2 =>
    (hbytes c a).trans (hleft.bytes c a (by omega))
  have htask : l.task c v = s.task c v := by
    rw [← hleft.others v hvw, show l = (s.leave1 c j w st).unswitched c j from rfl, State.unswitched, State.task_modSlot]
  obtain ⟨hin, hnext⟩ := l.enter1_entered c j v (by rw [htask]; exact hend) ((State.recordOk_congr hown).trans hok)
  refine ⟨hthreads, hleft, fun a ha => (hin.bytes c a fun hx => ?_).trans (hbytes c a), hown, hin, by rw [hnext, hthreads.device.cycle]⟩
  have := hx.2
  simp only [wsOff] at this
  omega

/-- A switch that is due, of a slot that was empty (R46, R48). -/
theorem enter_unswitched {s : State} {c j w : Nat} (hend : (s.task c w).tstate ≠ 6) (hok : s.recordOk c w = true) :
    Entered c j w (s.unswitched c j) ((s.unswitched c j).enter1 c j w) ∧ (((s.unswitched c j).enter1 c j w).slot c j).nextAt = beatAt j s.cycle := by
  have htask : (s.unswitched c j).task c w = s.task c w := by rw [State.unswitched, State.task_modSlot]
  exact (s.unswitched c j).enter1_entered c j w (by rw [htask]; exact hend)
    ((State.recordOk_congr fun a _ _ _ => (s.sameBytes_modSlot c j _).2 c a).trans hok)

/-- A wait that the end of a quantum breaks off with TSTATE 5 (R36, R49, R111). -/
def Park.broken (p : Park) : Prop :=
  p = .settle ∨ (∃ h n, p = .cbFill h n ∨ p = .cbFree h n) ∨ (∃ n, p = .maWait n) ∨ ∃ q a e, p = .service q a e

/-- A wait through which a task keeps its slot (R36, R49). -/
def Park.keepsSlot (p : Park) : Prop := (∃ n, p = .memory n ∨ p = .line n ∨ p = .gbar n) ∨ ∃ n a, p = .answered n a

theorem State.parkYields_broken (s : State) (c : Nat) {p : Park} (h : p.broken) : s.parkYields c p = true := by
  rcases h with rfl | ⟨_, _, rfl | rfl⟩ | ⟨_, rfl⟩ | ⟨_, _, _, rfl⟩ <;> rfl

theorem State.parkYields_keepsSlot (s : State) (c : Nat) {p : Park} (h : p.keepsSlot) : s.parkYields c p = false := by
  rcases h with ⟨_, rfl | rfl | rfl⟩ | ⟨_, _, rfl⟩ <;> rfl

theorem Park.broken.away {p : Park} (h : p.broken) : p ≠ .run ∧ ∀ id, p ≠ .home id := by
  rcases h with rfl | ⟨_, _, rfl | rfl⟩ | ⟨_, rfl⟩ | ⟨_, _, _, rfl⟩ <;> exact ⟨Park.noConfusion, fun _ => Park.noConfusion⟩

theorem State.keeps_quantum {s : State} {c w : Nat} (h : (s.tqNow c).toNat = 0 ∨ (s.core c).readyBy s.cycle = none ∨ (s.task c w).park.keepsSlot ∨
    s.stopping c = true ∨ ∃ p x, (s.core c).readyBy s.cycle = some (p, x) ∧ (s.task c w).prio.toNat < p) : ¬s.quantumSwitch c w := by
  rintro ⟨p, x, hdue, htq, hpr, hyields, hstop⟩
  rcases h with h | h | h | h | ⟨p', x', h, hlt⟩
  · exact htq h
  · rw [hdue] at h; cases h
  · rw [s.parkYields_keepsSlot c h] at hyields; cases hyields
  · rw [hstop] at h; cases h
  · obtain ⟨rfl, rfl⟩ := Prod.mk.inj (Option.some.inj (hdue.symm.trans h))
    omega

/-- The end of a quantum (R49), of a task that runs or waits. -/
theorem quantumExpiry_ends {s : State} {c j w : Nat} (hws : (s.slot c j).ws = some w) (hsw : (s.slot c j).switching = none)
    (hq : (s.task c w).qrem = 0) : ∃ t, exec (.quantumExpiry c j) s = .next t ∧ (t.task c w).qrem = (s.tqNow c).toNat ∧
      (¬s.quantumSwitch c w → t.slot c j = s.slot c j ∧ OneCore c s t) ∧
      (∀ q x, (s.core c).readyBy s.cycle = some (q, x) → (s.tqNow c).toNat ≠ 0 → q ≤ (s.task c w).prio.toNat → s.stopping c = false → ∀ st : Nat,
        ((s.task c w).park = .run ∧ st = 0) ∨ ((s.task c w).park.broken ∧ st = 5) →
        ∃ y, (t.slot c j).switching = some y ∧ y.outgoing = some (w, st) ∧ y.incoming = some x) := by
  by_cases hswitch : s.quantumSwitch c w
  · refine ⟨_, exec_quantumExpiry_switch hws hsw hq hswitch, (State.qrem_preempt _ c j w).trans (s.qrem_requantum c w),
      fun hno => absurd hswitch hno, fun q x hdue htq hpr hstop st hst => ?_⟩
    have hpark : ((s.requantum c w).task c w).park = (s.task c w).park := by rw [State.requantum, State.task_modTask_same]
    have haway : (∀ id, (s.task c w).park ≠ .home id) ∧ (if (s.task c w).park = .run then 0 else 5) = st := by
      rcases hst with ⟨h, rfl⟩ | ⟨h, rfl⟩
      · exact ⟨fun id hid => Park.noConfusion (h.symm.trans hid), if_pos h⟩
      · exact ⟨h.away.2, if_neg h.away.1⟩
    obtain ⟨y, hy, hout, hin⟩ := (s.requantum c w).preempt_switching c j w (fun id => hpark ▸ haway.1 id)
      ((s.readyBy_requantum c w _).trans hdue)
    refine ⟨y, hy, hout.trans ?_, hin⟩
    rw [State.requantum, State.slot_modTask, hws, Option.map_some, ← State.requantum, hpark, haway.2]
  · refine ⟨_, exec_quantumExpiry_stays hws hsw hq hswitch, s.qrem_requantum c w,
      fun _ => ⟨by rw [State.requantum, State.slot_modTask], .modTask s c w _⟩,
      fun q x hdue htq hpr hstop st hst => absurd ⟨q, x, hdue, htq, hpr, ?_, hstop⟩ hswitch⟩
    rcases hst with ⟨h, -⟩ | ⟨h, -⟩
    · rw [h]; rfl
    · exact s.parkYields_broken c h

/-- A task that waits for nothing of the service is left alone (R111). -/
theorem service_leaves {s : State} {c w : Nat} (hservice : ∀ cause a e, (s.task c w).park ≠ .service cause a e)
    (hnest : ∀ id, (s.task c w).park ≠ .nest id) (hdecl : ∀ t d f b q, (s.task c w).park ≠ .bdDecl t d f b q) :
    exec (.serviceResume c w) s = .next s ∧ exec (.serviceEscalate c w) s = .next s := by
  constructor
  · show execServiceResume c w s = _
    unfold execServiceResume
    split
    next h => exact absurd h (hservice _ _ _)
    next h => exact absurd h (hnest _)
    next h => exact absurd h (hdecl _ _ _ _ _)
    next => rfl
  · show execServiceEscalate c w s = _
    unfold execServiceEscalate
    split
    next h => exact absurd h (hservice _ _ _)
    next h => exact absurd h (hnest _)
    next h => exact absurd h (hdecl _ _ _ _ _)
    next => rfl

/-- An escalated page fault of a task in its slot is its late trap (R107, R111). -/
theorem exec_serviceEscalate_staying {s : State} {c w i cause a : Nat} {e : Word} (hk : (s.task c w).park = .service cause a e) (hc : cause ≠ 0x13)
    (hi : (s.core c).slotOf w = some i) (hsw : (s.slot c i).switching = none) : exec (.serviceEscalate c w) s =
      .next (((s.actAs c i).modTask c w (fun k => { k with park := .run })).takeLateTrap (s.escalated (s.core c).world a)) := by
  obtain ⟨-, hws, -⟩ := Core.slotOf_spec hi
  rw [exec_serviceEscalate_trap hk hc, State.deliver, State.staysIn_some hi hsw]
  show Host.Outcome.next ((((s.actAs c i).modTask c (s.actAs c i).curWs _).takeLateTrap _)) = _
  rw [curWs_acting hws]

/-- Settles O32: a leaving workspace by what `State.leave1` writes, an entering one by what `State.enter1` reads, and the service by the state its answer acts on. -/
theorem switchesAndServiceAnswersFollowR46ToR50AndR111 : Obligations.SwitchesAndServiceAnswersFollowR46ToR50AndR111 := by
  unfold Obligations.SwitchesAndServiceAnswersFollowR46ToR50AndR111
  constructor
  · intro s c j sl due
    refine ⟨?_, exec_emptySlotFill_stays, ?_, exec_switchComplete_none, ?_, ?_⟩
    · intro hempty hbeat p w hdue
      have hready := ReadyOnly.leaveReady s c w
      refine ⟨_, exec_emptySlotFill_fills hempty hbeat hdue, hready.device.trans (.modSlot _ c j _), ?_, fun q hq => ?_⟩
      · rw [State.slot_modSlot_same, hready.slot]
      · rw [State.readyList_modSlot, s.readyList_leaveReady c w hq]
    · intro w hws hsw hq tq p waits held
      obtain ⟨t, hexec, hqrem, hstays, hswitches⟩ := quantumExpiry_ends hws hsw hq
      exact ⟨t, hexec, hqrem, fun hno => hstays (State.keeps_quantum hno), hswitches⟩
    · intro y hy hearly
      exact exec_switchComplete_early hy hearly
    · intro y hy hdone hfree left entered
      refine ⟨?_, ?_, ?_⟩
      · intro w st hout hin hws hst
        have hleft := s.leave1_left c j w st hws (by omega)
        refine ⟨_, exec_switchComplete_out hy hdone hfree hout hin, (hleft.threads.trans (.unswitched _ c j)).device, ?_, ?_,
          hleft.stays ?_ (fun a _ => (State.sameBytes_modSlot _ c j _).2 c a) (State.readyList_unswitched _ c j)⟩
        · rw [State.unswitched, State.slot_modSlot_same, hleft.slot]; rfl
        · rw [State.unswitched, State.slot_modSlot_same]
        · rw [State.unswitched, State.task_modSlot]
      · intro w st v hout hin hws hst hvw hend hok
        obtain ⟨hthreads, hleft, hbytes, hown, hent, hnext⟩ := switchComplete_both hws hst hvw hend hok
        obtain ⟨hqrem, hpc, hregs⟩ := hent.from hthreads hown
        refine ⟨_, exec_switchComplete_both hy hdone hfree hout hin, (hthreads.trans hent.threads).device, ?_, hleft.stays ?_ hbytes fun p => ?_,
          hent.resident, hnext, hent.tstate, hqrem, hpc, hregs⟩
        · rw [hent.switching, State.unswitched, State.slot_modSlot_same]
        · rw [hent.others w (fun h => hvw h.symm), State.unswitched, State.task_modSlot]
        · rw [hent.ready, State.readyList_unswitched]
      · intro w hout hin hend hok
        obtain ⟨hent, hnext⟩ := enter_unswitched hend hok (j := j)
        obtain ⟨hqrem, hpc, hregs⟩ := hent.from (.unswitched s c j) fun a _ _ _ => (s.sameBytes_modSlot c j _).2 c a
        refine ⟨_, exec_switchComplete_in hy hdone hfree hout hin, ((ThreadsOnly.unswitched s c j).trans hent.threads).device, ?_,
          hent.resident, hnext, hent.tstate, hqrem, hpc, hregs⟩
        rw [hent.switching, State.unswitched, State.slot_modSlot_same]
  · intro s c w k quiet
    refine ⟨fun ⟨hservice, hnest, hdecl⟩ => service_leaves hservice hnest hdecl, ?_, ?_, ?_⟩
    · intro cause a e hk x
      refine ⟨?_, ?_, ?_, ?_⟩
      · obtain ⟨t, hexec, ht⟩ := exec_serviceResume_resumed hk
        have htext := s.textServed_textOnly (s.core c).world a cause
        refine ⟨t, hexec, by rw [ht.task, htext.task], fun i hi => ?_, fun hc => ?_, fun hc => ⟨fun q p => ?_, fun q hworld _ b => ?_⟩⟩
        · rw [ht.slot i ((htext.slotOf c w).trans hi), htext.slot]
        · have hsame : s.textServed (s.core c).world a cause = s := if_neg hc
          rw [hsame] at ht
          exact ⟨ht.bytes, ht.device⟩
        · rw [ht.bytes.2, State.spadByte, htext.scratch, State.spadByte]
        · rw [ht.lines, State.textServed, if_pos hc]
          exact State.dropText_line _ _ q b (((s.textIn_textOnly _ a).world q).trans hworld)
      · intro hc hout
        refine ⟨_, exec_serviceEscalate_trap hk hc, ?_, ?_⟩
        · rw [State.deliver, State.staysIn_none hout, State.task_modTask_same]; rfl
        · rw [State.deliver, State.staysIn_none hout]
          exact s.sameBytes_modTask c w _
      · intro hc i vec hv hi hsw hnd hvec hne u
        obtain ⟨-, hws, -⟩ := Core.slotOf_spec hi
        exact ⟨_, handler_modTask hws _ rfl hnd hvec hne x rfl, exec_serviceEscalate_staying hk hc hi hsw⟩
      · rintro rfl hgang
        exact ⟨_, exec_serviceEscalate_end hk, s.endAnywhere_report c w 0x13 0 hgang⟩
    · intro j x vec hv hws hlate hnd hvec hne u
      exact ⟨_, handler_modTask hws _ rfl hnd hvec hne x rfl, exec_trapEntry_takes hws hlate⟩
    · intro j hlate hws
      exact exec_trapEntry_none hws hlate

end Sys2Proof.Machine
end

section
/-! SUPPORT. A write at its home, by whomever it is (R69, R71, R84, R98, R208): bytes and what the memory system keeps of them
change, and nothing of a gang, a queue, a slot or a task. -/

namespace Sys2Proof.Machine

/-- Nothing has changed but bytes, what the memory system keeps, what engines have left open, links, reports and the journal. -/
structure Stored (s t : State) : Prop where
  device : t = { s with
    cores := t.cores, setts := t.setts, home := t.home, l2hts := t.l2hts, llchts := t.llchts, l2 := t.l2, llc := t.llc
    walks := t.walks, journal := t.journal, ovf := t.ovf, coalesce := t.coalesce, freeCount := t.freeCount
    mem := t.mem, poison := t.poison, unsettled := t.unsettled, links := t.links, reports := t.reports, spoils := t.spoils }
  core : ∀ c, t.core c = { s.core c with
    hts := (t.core c).hts, ptsOff := (t.core c).ptsOff, l1 := (t.core c).l1, tlb := (t.core c).tlb, late := (t.core c).late
    scratch := (t.core c).scratch, spoison := (t.core c).spoison, full := (t.core c).full }

theorem Stored.refl (s : State) : Stored s s := ⟨rfl, fun _ => rfl⟩

theorem Stored.trans {s t u : State} (h : Stored s t) (h' : Stored t u) : Stored s u := by
  refine ⟨?_, fun c => by rw [h'.core, h.core]⟩
  have h1 := h.device
  have h2 := h'.device
  rw [h2, h1]

theorem Records.stored {s t : State} (h : Records s t) : Stored s t :=
  ⟨by rw [h.device], fun c => by rw [h.core]⟩

theorem Stored.of_device {s t : State} (hd : t = { s with
    setts := t.setts, home := t.home, l2hts := t.l2hts, llchts := t.llchts, l2 := t.l2, llc := t.llc
    walks := t.walks, journal := t.journal, ovf := t.ovf, coalesce := t.coalesce, freeCount := t.freeCount
    mem := t.mem, poison := t.poison, unsettled := t.unsettled, links := t.links, reports := t.reports, spoils := t.spoils }) : Stored s t := by
  have hc : t.cores = s.cores := by rw [hd]
  refine ⟨?_, fun c => ?_⟩
  · rw [hc]; exact hd
  · have : t.core c = s.core c := by rw [State.core, hc, State.core]
    rw [this]

theorem Stored.modCore (s : State) (c : Nat) (f : Core → Core) (hf : f (s.core c) = { s.core c with
    hts := (f (s.core c)).hts, ptsOff := (f (s.core c)).ptsOff, l1 := (f (s.core c)).l1, tlb := (f (s.core c)).tlb
    late := (f (s.core c)).late, scratch := (f (s.core c)).scratch, spoison := (f (s.core c)).spoison, full := (f (s.core c)).full }) :
    Stored s (s.modCore c f) := by
  refine ⟨rfl, fun d => ?_⟩
  rw [State.core_modCore]
  split
  next h => rw [h]; exact hf
  next => rfl

theorem Stored.foldl {α : Type} (f : State → α → State) (h : ∀ t x, Stored t (f t x)) (l : List α) (s : State) :
    Stored s (l.foldl f s) := List.foldlRecOn _ _ (Stored.refl s) fun t ht x _ => ht.trans (h t x)

/-! ## What such a change leaves -/

section
variable {s t : State} (h : Stored s t)
include h

theorem Stored.cycle : t.cycle = s.cycle := by rw [h.device]
theorem Stored.gangs : t.gangs = s.gangs := by rw [h.device]
theorem Stored.worlds : t.worlds = s.worlds := by rw [h.device]
theorem Stored.queues : t.queues = s.queues := by rw [h.device]
theorem Stored.inflight : t.inflight = s.inflight := by rw [h.device]
theorem Stored.nextId : t.nextId = s.nextId := by rw [h.device]
theorem Stored.inbox : t.inbox = s.inbox := by rw [h.device]
theorem Stored.burrows : t.burrows = s.burrows := by rw [h.device]
theorem Stored.gang (g : Nat) : t.gang g = s.gang g := by rw [State.gang, h.gangs, State.gang]
theorem Stored.queue (q : Nat) : t.queue q = s.queue q := by rw [State.queue, h.queues, State.queue]
theorem Stored.world (w : Nat) : t.world w = s.world w := by rw [State.world, h.worlds, State.world]
theorem Stored.slot (c i : Nat) : t.slot c i = s.slot c i := by rw [State.slot, h.core, State.slot]; rfl
theorem Stored.task (c w : Nat) : t.task c w = s.task c w := by rw [State.task, h.core, State.task]; rfl

end

/-! ## What writes change -/

section
variable (s : State) (w : Nat) (l : Loc)

theorem State.settleAt_stored (n : Nat) : Stored s (s.settleAt l n) := .of_device (by rw [s.settleAt_frame l n])

theorem State.sPut_stored (c off n v : Nat) : Stored s (s.sPut c off n v) := .modCore s c _ rfl

theorem State.memPut_stored (pa : Nat) (bs : List Byte) : Stored s (s.memPut pa bs) := .of_device rfl

theorem State.guardStack_stored (c off n : Nat) : Stored s (s.guardStack c off n) := by
  unfold State.guardStack
  dsimp only
  split
  · refine .foldl _ (fun t i => ?_) _ s
    split
    · exact t.sPut_stored _ _ _ _
    · exact .refl t
  · exact .refl s

theorem State.aliasWrite_stored (pa : Nat) (bs : List Byte) : Stored s (s.aliasWrite w pa bs) := by
  unfold State.aliasWrite
  split
  · exact .refl s
  · exact (s.memPut_stored _ _).trans (State.memPut_stored _ _ _)

theorem State.poke_stored (bs : List Byte) : Stored s (s.poke w l bs) := by
  unfold State.poke
  split
  · exact (Stored.modCore s _ _ rfl).trans (State.guardStack_stored _ _ _ _)
  · split
    · exact s.aliasWrite_stored w _ _
    · exact s.memPut_stored _ _
  · exact .refl s

theorem State.decided_stored (bs : List Byte) : Stored s (s.decided w l bs).1 := by
  unfold State.decided
  split
  · exact (Stored.of_device (t := { s with freeCount := s.freeCount + bs.length }) rfl).trans (State.settleAt_stored _ l _)
  · exact s.settleAt_stored l _

theorem State.pokeBy_stored (bs : List Byte) : Stored s (s.pokeBy w l bs) :=
  (s.decided_stored w l bs).trans (State.poke_stored _ w l _)

theorem State.homeChange_stored (bs : List Byte) (stamp : Nat) : Stored s (s.homeChange w l bs stamp).1 :=
  (((((s.writeHome_records w l stamp).trans (State.cached_records _ w l)).trans (State.soilAt_records _ l)).stored).trans
    (State.pokeBy_stored _ w l bs)).trans (State.raiseHts_records _ l stamp).stored

theorem State.report_stored (r : Report) : Stored s (s.report r) := .of_device rfl

theorem State.claspNow_stored (x : EngCtx) (z stamp : Nat) (f : Clasp → Clasp) {t : State} (h : s.claspNow x z stamp f = some t) : Stored s t := by
  unfold State.claspNow State.claspChange at h
  split at h
  next hdone =>
    split at hdone <;> cases hdone
    cases h
    exact (State.noteTlb_records s _ _ _).stored.trans (State.homeChange_stored _ _ _ _ _)
  next => cases h
  next => cases h; exact s.report_stored _

theorem State.spoilClasp_stored (x : EngCtx) (z stamp : Nat) : Stored s (s.spoilClasp x z stamp) := by
  unfold State.spoilClasp
  cases h : s.claspNow x z stamp Clasp.setE with
  | none => exact .of_device rfl
  | some t => exact s.claspNow_stored x z stamp _ h

end

end Sys2Proof.Machine
end

section
/-! O48, first part: stopping a gang's threads keeps every gang's phase (R114, R115). -/

namespace Sys2Proof.Machine

/-- Every gang is in the phase it was in. -/
def PhasesKept (s t : State) : Prop := ∀ g, (t.gang g).phase = (s.gang g).phase

theorem PhasesKept.refl (s : State) : PhasesKept s s := fun _ => rfl

theorem PhasesKept.trans {s t u : State} (h : PhasesKept s t) (h' : PhasesKept t u) : PhasesKept s u := fun g => (h' g).trans (h g)

theorem PhasesKept.of_gangs {s t : State} (h : t.gangs = s.gangs) : PhasesKept s t := fun g => by rw [State.gang, h, State.gang]

theorem PhasesKept.foldl {α : Type} (f : State → α → State) (h : ∀ t x, PhasesKept t (f t x)) (l : List α) (s : State) :
    PhasesKept s (l.foldl f s) := List.foldlRecOn _ _ (PhasesKept.refl s) fun t ht x _ => ht.trans (h t x)

theorem OneCore.phases {c : Nat} {s t : State} (h : OneCore c s t) : PhasesKept s t := .of_gangs (by rw [h.1])

theorem Stored.phases {s t : State} (h : Stored s t) : PhasesKept s t := .of_gangs h.gangs

theorem Withdrawn.phases {s t : State} (h : Withdrawn s t) : PhasesKept s t := .of_gangs h.gangs

theorem PhasesKept.putGang {s : State} {g : Nat} {x : Gang} (h : x.phase = (s.gang g).phase) : PhasesKept s (s.putGang g x) := by
  intro k
  rw [State.gang_putGang]
  split
  next hk => rw [hk, h]
  next => rfl

/-! ## Switches that are made to complete (R50) -/

theorem OneCore.joinReady (s : State) (c w st : Nat) : OneCore c s (s.joinReady c w st) := by
  have htail : ∀ (u : State) (l : List Nat), OneCore c u (u.linkTail c l w) := fun u l => (ReadyOnly.linkTail u c l w).device
  rw [s.joinReady_eq]
  exact ((((OneCore.setTstate s c w st).trans (.modTask _ c w _)).trans (.sPut _ c _ _ _)).trans (htail _ _)).trans (.modCore _ c _)

theorem OneCore.settleOut (s : State) (c w st : Nat) : OneCore c s (s.settleOut c w st) := by
  unfold State.settleOut
  split
  · exact .joinReady s c w st
  · split
    · exact .joinReady s c w 0
    · exact .setTstate s c w st

theorem OneCore.leave1 (s : State) (c i w st : Nat) : OneCore c s (s.leave1 c i w st) := by
  rw [s.leave1_eq]
  exact (((BytesOnly.writeBack s c i).device.trans (BytesOnly.writeRecord _ c i w st).device).trans (.modSlot _ c i _)).trans (.settleOut _ c w st)

theorem PhasesKept.reportEnd (s : State) (c w cause sub jidx : Nat) : PhasesKept s (s.reportEnd c w cause sub jidx) := by
  unfold State.reportEnd
  split
  · exact .putGang rfl
  · exact .of_gangs rfl

theorem PhasesKept.endOut (s : State) (c w cause sub : Nat) : PhasesKept s (s.endOut c w cause sub) := by
  unfold State.endOut
  exact (PhasesKept.reportEnd s c w cause sub 0).trans
    ((((ReadyOnly.leaveReady _ c w).device.trans (.setTstate _ c w 6)).trans (.modTask _ c w _)).trans (.modCore _ c _)).phases

theorem PhasesKept.enter1 (s : State) (c i w : Nat) : PhasesKept s (s.enter1 c i w) := by
  unfold State.enter1
  split
  · exact .refl s
  · split
    · exact (((s.loadWs_entered c i w).threads.device.trans (.modTask _ c w _)).trans (.modSlot _ c i _)).phases
    · exact .endOut s c w 0x22 0

theorem PhasesKept.forceSwitch (s : State) (c i : Nat) : PhasesKept s (s.forceSwitch c i) := by
  unfold State.forceSwitch
  split
  · exact .refl s
  next x hx =>
    have hout : PhasesKept s (match x.outgoing with
        | some (w, st) => s.leave1 c i w st
        | none => s) := by
      split
      · exact (OneCore.leave1 s c i _ _).phases
      · exact .refl s
    have hin : ∀ u : State, PhasesKept u (match x.incoming with
        | some w => u.enter1 c i w
        | none => u) := fun u => by
      split
      · exact .enter1 u c i _
      · exact .refl u
    exact (hout.trans (OneCore.modSlot _ c i (fun sl => { sl with switching := none })).phases).trans (hin _)

/-! ## Reds that are performed (R217) -/

theorem Request.merge_red {r : Request} {op n v : Nat} (h : r.op = .red op n v) (x : Request) : ∃ v', (r.merge x).op = .red op n v' := by
  unfold Request.merge
  split
  next hr _ => rw [h] at hr; cases hr; exact ⟨_, rfl⟩
  next => exact ⟨v, h⟩

theorem Request.merges_red {op n : Nat} (l : List Request) {r : Request} {v : Nat} (h : r.op = .red op n v) :
    ∃ v', (l.foldl Request.merge r).op = .red op n v' := by
  induction l generalizing r v with
  | nil => exact ⟨v, h⟩
  | cons x l ih =>
    obtain ⟨v', h'⟩ := Request.merge_red h x
    exact ih h'

theorem State.loadedAt_stored (s : State) (w : Nat) (l : Loc) (n : Nat) : Stored s (s.loadedAt w l n) := by
  rw [State.loadedAt]
  refine (Stored.of_device (t := s.took w l n) (by rw [s.took_frame w l n])).trans (.of_device ?_)
  rw [State.observe_frame]

theorem State.perform_red_stored (s : State) (r : Request) {op n v : Nat} (h : r.op = .red op n v) : Stored s (s.perform r).1 := by
  have hunread := (s.noteUnread_records r.loc r.world).stored
  have hchange : ∀ bs, Stored s ((((s.loadedAt r.world r.loc n).homeChange r.world r.loc bs r.stamp).1).dropStale r.core r.loc) := fun bs =>
    ((s.loadedAt_stored r.world r.loc n).trans (State.homeChange_stored _ r.world r.loc _ _)).trans (State.dropStale_records _ _ _).stored
  simp only [State.perform, h]
  split
  all_goals
    split
    · exact hunread
    · exact hchange _

/-- The mesh without a `red` and every one that is merged into it (R89). -/
def State.reduced (s : State) (r : Request) : State := { s with inflight := s.inflight.filter (fun x => !(x.id == r.id || r.merges x)) }

theorem State.performRed_stored (s : State) (r : Request) {op n v : Nat} (h : r.op = .red op n v) : Stored (s.reduced r) (s.performRed r) := by
  obtain ⟨v', hmerged⟩ := Request.merges_red (s.inflight.filter (fun x => x.id != r.id && r.merges x)) h
  refine (State.perform_red_stored (s.reduced r) _ hmerged).trans (.foldl _ (fun t x => ?_) _ _)
  exact ((State.raisePts_records t _ _).trans (State.dropStale_records _ _ _)).stored

theorem PhasesKept.landReds (s : State) (c : Nat) : PhasesKept s (s.landReds c) := by
  unfold State.landReds
  refine List.foldlRecOn _ _ (PhasesKept.refl s) fun t ht r hr => ht.trans ?_
  have hred := (List.mem_filter.mp hr).2
  split
  · rw [Request.isRed, Bool.and_eq_true] at hred
    obtain ⟨-, hred⟩ := hred
    split at hred
    next op n v hop => exact (PhasesKept.of_gangs (t := t.reduced r) rfl).trans (t.performRed_stored r hop).phases
    next => cases hred
  · exact .refl t

/-! ## Threads that are stopped (R115) -/

theorem PhasesKept.endTask (s : State) (c i w cause sub jidx : Nat) : PhasesKept s (s.endTask c i w cause sub jidx) := by
  unfold State.endTask
  exact (PhasesKept.reportEnd s c w cause sub jidx).trans
    (((OneCore.modTask _ c w _).trans (.modCore _ c _)).trans (.quitSlot _ c i w _)).phases

theorem PhasesKept.takeTrap (s : State) (x : Trap) : PhasesKept s (s.takeTrap x) := by
  unfold State.takeTrap
  dsimp only
  split
  · exact .endTask s _ _ _ _ _ _
  · split
    · exact .endTask s _ _ _ _ _ _
    · refine PhasesKept.trans (t := s.writeTrap x (s.curTask.vector x.cause).2) (.of_gangs (by simp [State.writeTrap, State.sPut, State.modCore])) ?_
      exact ((BytesOnly.writeBack _ s.actCore s.actSlot).device.phases.trans (OneCore.modCurTask _ _).phases).trans
        (OneCore.modCurSlot _ _).phases

theorem PhasesKept.takeAnswer (s : State) (a : Answer) (at_ : Nat) : PhasesKept s (s.takeAnswer a at_) := by
  cases ha : a.trap with
  | none => exact (s.takeAnswer_taken a at_ ha).device.phases
  | some x =>
    rw [s.takeAnswer_late a at_ ha, State.takeLateTrap]
    have hraised := (State.raisePts_records s s.actCore a.stamp).stored.phases
    exact ((hraised.trans (OneCore.modCurTask _ _).phases).trans (.takeTrap _ x)).trans (OneCore.modCurSlot _ _).phases

theorem PhasesKept.keepParked (s : State) (c w : Nat) : PhasesKept s (s.keepParked c w) := by
  unfold State.keepParked
  exact (s.withdrawAll_withdrawn c w).phases.trans ((OneCore.modTask _ c w _).trans (.setTstate _ c w 5)).phases

theorem PhasesKept.stopThread (s : State) (c i : Nat) : PhasesKept s (s.stopThread c i) := by
  have hstate : ∀ w, PhasesKept s (s.setTstate c w 5) := fun w => (OneCore.setTstate s c w 5).phases
  have hanswer : ∀ a, PhasesKept s ((s.actAs c i).takeAnswer a s.cycle) := fun a =>
    PhasesKept.trans (t := s.actAs c i) (.of_gangs rfl) (.takeAnswer _ a _)
  unfold State.stopThread
  split
  · exact .refl s
  next w hw =>
    split
    · exact .refl s
    · exact (OneCore.modTask s c w _).phases
    · exact hanswer _
    · exact hanswer _
    · split
      · split
        · exact .refl s
        · exact .of_gangs rfl
      · exact .keepParked s c w
    · exact .refl s
    · exact hstate w
    · exact hstate w
    · exact (hstate w).trans (OneCore.modTask _ c w _).phases
    · split
      · split
        · exact hstate w
        · exact .keepParked s c w
      · exact .keepParked s c w
    · exact .keepParked s c w

theorem PhasesKept.stopThreads (s : State) (c : Nat) : PhasesKept s (s.stopThreads c) :=
  ((PhasesKept.foldl _ (fun t i => .forceSwitch t c i) _ s).trans (.landReds _ c)).trans (.foldl _ (fun t i => .stopThread t c i) _ _)

/-- The first pre-emption call (R115). -/
theorem exec_gangPreempt_stops {s : State} {g : Nat} (h : (s.gang g).phase = 1) :
    ∃ t, exec (.gangPreempt g) s = .next t ∧ (t.gang g).phase = 4 := by
  refine ⟨(s.gang g).cores.foldl (fun s c => s.stopThreads c) (s.putGang g { s.gang g with phase := 4, leaveAt := none }), ?_, ?_⟩
  · show execGangPreempt g s = _
    unfold execGangPreempt
    exact if_pos h
  · rw [PhasesKept.foldl _ (fun t c => .stopThreads t c), State.gang_putGang, if_pos rfl]

end Sys2Proof.Machine
end

section
/-! O48, second part: the release, the retirement and the pre-emption of a gang, core by core (R62, R115, R236). -/

namespace Sys2Proof.Machine

/-! ## One of a list of steps establishes what the others keep -/

theorem foldl_keeps {α β : Type} {f : β → α → β} {l : List α} {s : β} (P : β → Prop) (hs : P s) (h : ∀ t y, y ∈ l → P t → P (f t y)) :
    P (l.foldl f s) := List.foldlRecOn l f hs fun t ht y hy => h t y hy ht

theorem foldl_establishes {α β : Type} {f : β → α → β} {l : List α} {x : α} (hx : x ∈ l) (s : β) (I P : β → Prop) (hs : I s)
    (hI : ∀ t y, y ∈ l → I t → I (f t y)) (hset : ∀ t, I t → P (f t x)) (hkeep : ∀ t y, y ∈ l → P t → P (f t y)) : P (l.foldl f s) := by
  obtain ⟨a, b, rfl⟩ := List.append_of_mem hx
  rw [List.foldl_append, List.foldl_cons]
  have hbefore : I (a.foldl f s) := foldl_keeps I hs fun t y hy => hI t y (List.mem_append_left _ hy)
  exact foldl_keeps P (hset _ hbefore) fun t y hy => hkeep t y (List.mem_append_right _ (List.mem_cons_of_mem _ hy))

theorem foldl_establishes_any {α β : Type} {f : β → α → β} {l : List α} {x : α} (hx : x ∈ l) (s : β) (P : β → Prop)
    (hset : ∀ t, P (f t x)) (hkeep : ∀ t y, y ∈ l → P t → P (f t y)) : P (l.foldl f s) :=
  foldl_establishes hx s (fun _ => True) P trivial (fun _ _ _ _ => trivial) (fun t _ => hset t) hkeep

theorem AMap.mem_of_find {α : Type} {m : AMap α} {k : Nat} {v : α} (h : AMap.find m k = some v) : (k, v) ∈ m := by
  induction m with
  | nil => cases h
  | cons e m ih =>
    obtain ⟨j, w⟩ := e
    by_cases hj : j = k
    · obtain rfl : w = v := Option.some.inj ((if_pos hj).symm.trans h)
      exact hj ▸ List.mem_cons_self
    · exact List.mem_cons_of_mem _ (ih ((if_neg hj).symm.trans h))

/-! ## The release (R62) -/

/-- A member is in its slot, to issue at its own beat of the first rotation after the release reaches its sett. -/
def State.memberIn (t : State) (G : Gang) (i c m : Nat) : Prop :=
  (t.slot c m).ws = some (G.wsb + m) ∧ (t.task c (G.wsb + m)).tstate = 1 ∧
    (t.slot c m).nextAt = (G.releaseAt + 2 * G.hopsOf i) / 16 * 16 + 16 + m

theorem State.releaseMember_in (s : State) (G : Gang) (i c m : Nat) : (s.releaseMember G i c m).memberIn G i c m := by
  have hin := s.loadWs_entered c m (G.wsb + m)
  refine ⟨?_, ?_, ?_⟩
  · rw [State.releaseMember, State.slot_modSlot_same, hin.resident]
  · rw [State.releaseMember, State.task_modSlot, hin.tstate]
  · rw [State.releaseMember, State.slot_modSlot_same]

theorem OneCore.releaseMember (s : State) (G : Gang) (i c m : Nat) : OneCore c s (s.releaseMember G i c m) := by
  rw [State.releaseMember]
  exact (s.loadWs_entered c m (G.wsb + m)).threads.device.trans (.modSlot _ c m _)

theorem State.releaseMember_keeps (s : State) (G : Gang) (j d n : Nat) {i c m : Nat} (h : d ≠ c ∨ n ≠ m) (hin : s.memberIn G i c m) :
    (s.releaseMember G j d n).memberIn G i c m := by
  have hslot : (s.releaseMember G j d n).slot c m = s.slot c m := by
    by_cases hd : c = d
    · subst hd
      have hn : n ≠ m := h.resolve_left fun h => h rfl
      rw [State.releaseMember, State.slot_modSlot, if_neg fun h : c = c ∧ m = n => hn h.2.symm,
        (s.loadWs_entered c n (G.wsb + n)).otherSlots m (Ne.symm hn)]
    · rw [State.slot, (OneCore.releaseMember s G j d n).2 c hd, State.slot]
  have htask : (s.releaseMember G j d n).task c (G.wsb + m) = s.task c (G.wsb + m) := by
    by_cases hd : c = d
    · subst hd
      have hn : n ≠ m := h.resolve_left fun h => h rfl
      rw [State.releaseMember, State.task_modSlot, (s.loadWs_entered c n (G.wsb + n)).others (G.wsb + m) (by omega)]
    · rw [State.task, (OneCore.releaseMember s G j d n).2 c hd, State.task]
  rw [State.memberIn, hslot, htask]
  exact hin

/-- Every member of one core is released. -/
def State.releaseMembers (s : State) (G : Gang) (e : Nat × Nat) : State :=
  (List.range G.n).foldl (fun s m => s.releaseMember G e.2 e.1 m) s

theorem State.releaseMembers_in (s : State) (G : Gang) (i c : Nat) {m : Nat} (hm : m < G.n) : (s.releaseMembers G (c, i)).memberIn G i c m := by
  refine foldl_establishes_any (List.mem_range.mpr hm) s (fun t => t.memberIn G i c m) (fun t => t.releaseMember_in G i c m) fun t n _ ht => ?_
  by_cases hn : n = m
  · rw [hn]; exact t.releaseMember_in G i c m
  · exact t.releaseMember_keeps G i c n (.inr hn) ht

theorem State.releaseMembers_keeps (s : State) (G : Gang) (j d : Nat) {i c m : Nat} (h : d ≠ c) (hin : s.memberIn G i c m) :
    (s.releaseMembers G (d, j)).memberIn G i c m :=
  foldl_keeps (fun t : State => t.memberIn G i c m) hin fun (t : State) n _ ht => t.releaseMember_keeps G j d n (.inl h) ht

theorem mem_zip_range {α : Type} {l : List α} {i : Nat} {c : α} (h : l[i]? = some c) : (c, i) ∈ l.zip (List.range l.length) := by
  obtain ⟨hi, hc⟩ := List.getElem?_eq_some_iff.mp h
  rw [List.mem_iff_getElem?]
  refine ⟨i, ?_⟩
  rw [List.getElem?_zip_eq_some]
  exact ⟨h, by rw [List.getElem?_range hi]⟩

theorem zip_range_getElem {α : Type} {l : List α} {e : α × Nat} (h : e ∈ l.zip (List.range l.length)) : l[e.2]? = some e.1 := by
  obtain ⟨k, hk⟩ := List.mem_iff_getElem?.mp h
  obtain ⟨hc, hi⟩ := List.getElem?_zip_eq_some.mp hk
  obtain ⟨hlt, -⟩ := List.getElem?_eq_some_iff.mp hc
  rw [List.getElem?_range hlt] at hi
  rw [← Option.some.inj hi]
  exact hc

/-- In a list without repetition a place is known by what stands there. -/
theorem nodup_place {l : List Nat} (h : l.Nodup) {i j c : Nat} (hi : l[i]? = some c) (hj : l[j]? = some c) : i = j := by
  obtain ⟨hlt, -⟩ := List.getElem?_eq_some_iff.mp hi
  exact (List.getElem?_inj hlt h).mp (hi.trans hj.symm)

theorem exec_gangRelease_due {s : State} {g : Nat} (h : (s.gang g).phase = 0) (hdue : (s.gang g).releaseAt ≤ s.cycle) :
    exec (.gangRelease g) s = .next ((((s.gang g).cores.zip (List.range (s.gang g).cores.length)).foldl
      (fun t e => t.releaseMembers (s.gang g) e) s).putGang g { s.gang g with phase := 1 }) := by
  show execGangRelease g s = _
  unfold execGangRelease
  exact if_pos ⟨h, hdue⟩

/-- A gang is released (R62): each member is in its slot. -/
theorem gangRelease_releases {s : State} {g : Nat} (h : (s.gang g).phase = 0) (hdue : (s.gang g).releaseAt ≤ s.cycle) (hl : (s.gang g).cores.Nodup) :
    ∃ t, exec (.gangRelease g) s = .next t ∧ (t.gang g).phase = 1 ∧ (t.gang g).cores = (s.gang g).cores ∧
      ∀ i c m, (s.gang g).cores[i]? = some c → m < (s.gang g).n → t.memberIn (s.gang g) i c m := by
  refine ⟨_, exec_gangRelease_due h hdue, by rw [State.gang_putGang_same], by rw [State.gang_putGang_same], fun i c m hc hm => ?_⟩
  refine foldl_establishes_any (mem_zip_range hc) s (fun t => t.memberIn (s.gang g) i c m) (fun t => t.releaseMembers_in _ i c hm) fun t e he ht => ?_
  obtain ⟨d, j⟩ := e
  by_cases hd : d = c
  · subst hd
    obtain rfl : j = i := nodup_place hl (zip_range_getElem he) hc
    exact t.releaseMembers_in _ j d hm
  · exact t.releaseMembers_keeps _ j d hd ht

/-! ## A gang that is over (R386, R394) -/

theorem State.gangOver_cores (s : State) (g : Nat) (info : StatusInfo) : (s.gangOver g info).cores = s.cores := by
  have hsettle : ∀ l, (s.settleBy l).cores = s.cores := fun l => by
    unfold State.settleBy
    split <;> rfl
  unfold State.gangOver
  dsimp only
  split
  · exact hsettle _
  · split
    · exact hsettle _
    · exact hsettle _

theorem State.gangOver_gone (s : State) (g : Nat) (info : StatusInfo) : AMap.find (s.gangOver g info).gangs g = none ∧
    ((s.gang g).translation = false → (s.gang g).item = none → .packetComplete (s.gang g).q (s.gang g).k info ∈ (s.gangOver g info).inbox) := by
  unfold State.gangOver
  refine ⟨?_, fun ht hi => ?_⟩
  · dsimp only
    split
    · exact AMap.find_del_same _ g
    · split
      · exact AMap.find_del_same _ g
      · exact AMap.find_del_same _ g
  · simp only [ht, hi]
    exact List.mem_append_right _ (List.mem_singleton_self _)

theorem State.core_gangOver (s : State) (g : Nat) (info : StatusInfo) (c : Nat) : (s.gangOver g info).core c = s.core c := by
  rw [State.core, s.gangOver_cores, State.core]

/-! ## Retirement (R236) -/

/-- The tasks of a core that sleep or wait for a message. -/
def Core.sleepers (k : Core) : List (Nat × Task) := k.tasks.filter (fun e => e.2.tstate == 2 || e.2.tstate == 3)

/-- The state in which the sleepers and waiters of a core have ended. -/
def State.endSleepers (s : State) (c : Nat) : State := (s.core c).sleepers.foldl (fun s e => s.setTstate c e.1 6) s

theorem State.freeCore_eq (s : State) (c : Nat) : s.freeCore c = (s.endSleepers c).modCore c (fun k => { k with gang := none, tasks := k.tasks.map (fun (e : Nat × Task) => (e.1, { e.2 with gang := none })) }) := rfl

theorem OneCore.foldl {α : Type} {c : Nat} (f : State → α → State) (h : ∀ t x, OneCore c t (f t x)) (l : List α) (s : State) :
    OneCore c s (l.foldl f s) := List.foldlRecOn _ _ (OneCore.refl c s) fun t ht x _ => ht.trans (h t x)

theorem OneCore.freeCore (s : State) (c : Nat) : OneCore c s (s.freeCore c) := by
  rw [s.freeCore_eq]
  exact (OneCore.foldl _ (fun t (e : Nat × Task) => .setTstate t c e.1 6) _ s).trans (.modCore _ c _)

theorem State.tstate_freeCore (s : State) (c w : Nat) : ((s.freeCore c).task c w).tstate = ((s.endSleepers c).task c w).tstate := by
  have hmap : AMap.get Task.reset (((s.endSleepers c).core c).tasks.map fun (e : Nat × Task) => (e.1, { e.2 with gang := none })) w =
      { (s.endSleepers c).task c w with gang := none } := AMap.get_map (fun _ (k : Task) => { k with gang := none }) Task.reset _ w
  rw [s.freeCore_eq, State.task, State.core_modCore_same, Core.task, hmap]

theorem State.task_setTstate (s : State) (c w st v : Nat) : ((s.setTstate c w st).task c v).tstate = if v = w then st else (s.task c v).tstate := by
  split
  next h => rw [h, State.tstate_setTstate]
  next h => rw [State.setTstate, State.task_sPut, State.task_modTask, if_neg fun hc : c = c ∧ v = w => h hc.2]

/-- A task of a core whose sleepers end is in its state still, or has ended. -/
theorem State.tstate_endSleepers (s : State) (c w : Nat) :
    ((s.endSleepers c).task c w).tstate = (s.task c w).tstate ∨ ((s.endSleepers c).task c w).tstate = 6 := by
  refine foldl_keeps (fun t : State => (t.task c w).tstate = (s.task c w).tstate ∨ (t.task c w).tstate = 6) (.inl rfl) fun t e _ ht => ?_
  rw [t.task_setTstate]
  split
  · exact .inr rfl
  · exact ht

theorem State.tstate_endSleepers_sleeping (s : State) (c w : Nat) (h : (s.task c w).tstate = 2 ∨ (s.task c w).tstate = 3) :
    ((s.endSleepers c).task c w).tstate = 6 := by
  have hmem : ∃ k, (w, k) ∈ (s.core c).sleepers := by
    cases hk : AMap.find (s.core c).tasks w with
    | none =>
      have hreset : s.task c w = Task.reset := by rw [State.task, Core.task, AMap.get, hk]; rfl
      rw [hreset] at h
      exact absurd h (by decide)
    | some k =>
      have htask : s.task c w = k := by rw [State.task, Core.task, AMap.get, hk]; rfl
      rw [htask] at h
      exact ⟨k, List.mem_filter.mpr ⟨AMap.mem_of_find hk, by simpa using h⟩⟩
  obtain ⟨k, hk⟩ := hmem
  refine foldl_establishes_any hk s (fun t => (t.task c w).tstate = 6) (fun t => ?_) fun t e _ ht => ?_
  · rw [t.task_setTstate, if_pos rfl]
  · rw [t.task_setTstate, ht, ite_self]

theorem exec_gangRetire_stays {s : State} {g : Nat} (h : s.canRetire g = false) : exec (.gangRetire g) s = .next s := by
  show execGangRetire g s = _
  rw [execGangRetire, h]
  rfl

theorem exec_gangRetire_retires {s : State} {g : Nat} (h : s.canRetire g = true) : exec (.gangRetire g) s =
    .next (((s.gang g).cores.foldl (fun s c => s.freeCore c) s).gangOver g ⟨0, 0, 0, 0⟩) := by
  show execGangRetire g s = _
  rw [execGangRetire, h]
  rfl

/-- A core that a retired gang has left: it is free, and its sleepers and waiters have ended (R236). -/
theorem freeCores_free (s : State) {l : List Nat} {c : Nat} (hc : c ∈ l) : ((l.foldl (fun s c => s.freeCore c) s).core c).gang = none ∧
    ∀ w, ((s.task c w).tstate = 2 ∨ (s.task c w).tstate = 3) → ((l.foldl (fun s c => s.freeCore c) s).task c w).tstate = 6 := by
  have hown : ∀ t : State, ((t.freeCore c).core c).gang = none := fun t => by rw [t.freeCore_eq, State.core_modCore_same]
  have hother : ∀ (t : State) (d : Nat), d ≠ c → (t.freeCore d).core c = t.core c := fun t d hd => (OneCore.freeCore t d).2 c (Ne.symm hd)
  refine ⟨foldl_establishes_any hc s (fun t => (t.core c).gang = none) hown fun t d _ ht => ?_, fun w hw => ?_⟩
  · by_cases hd : d = c
    · rw [hd]; exact hown t
    · rw [hother t d hd]; exact ht
  · have hstep : ∀ (t : State) (d : Nat), ((t.freeCore d).task c w).tstate = (t.task c w).tstate ∨ ((t.freeCore d).task c w).tstate = 6 :=
      fun t d => by
        by_cases hd : d = c
        · rw [hd, t.tstate_freeCore]; exact t.tstate_endSleepers c w
        · rw [State.task, hother t d hd]; exact .inl rfl
    have hended : ∀ (t : State) (d : Nat), (t.task c w).tstate = 6 → ((t.freeCore d).task c w).tstate = 6 := fun t d ht =>
      (hstep t d).elim (fun h => h.trans ht) id
    refine foldl_establishes hc s (fun t => (t.task c w).tstate = (s.task c w).tstate ∨ (t.task c w).tstate = 6)
      (fun t => (t.task c w).tstate = 6) (.inl rfl) (fun t d _ ht => ?_) (fun t ht => ?_) fun t d _ ht => hended t d ht
    · exact (hstep t d).elim (fun h => ht.imp h.trans h.trans) .inr
    · rcases ht with ht | ht
      · rw [t.tstate_freeCore]
        exact t.tstate_endSleepers_sleeping c w (by rw [ht]; exact hw)
      · exact hended t c ht

/-! ## Pre-emption (R115) -/

theorem exec_gangPreempt_other {s : State} {g : Nat} (h1 : (s.gang g).phase ≠ 1) (h4 : (s.gang g).phase ≠ 4) : exec (.gangPreempt g) s = .next s := by
  show execGangPreempt g s = _
  simp only [execGangPreempt]
  rw [if_neg h1, if_neg fun h => h4 h.1]

section
variable {s : State} {g : Nat} (h4 : (s.gang g).phase = 4)
include h4

theorem exec_gangPreempt_undrained (hc : ∃ c ∈ (s.gang g).cores, s.coreDrained c = false) : exec (.gangPreempt g) s = .next s := by
  obtain ⟨c, hc, hbusy⟩ := hc
  show execGangPreempt g s = _
  simp only [execGangPreempt]
  rw [if_neg (by rw [h4]; decide), if_neg]
  rintro ⟨-, hall⟩
  rw [List.all_eq_true.mp hall c hc] at hbusy
  cases hbusy

theorem exec_gangPreempt_waits {n : Nat} (hn : (s.gang g).leaveAt = some n) (hlt : s.cycle < n) : exec (.gangPreempt g) s = .next s := by
  show execGangPreempt g s = _
  simp only [execGangPreempt, hn]
  rw [if_neg (by rw [h4]; decide), if_neg (Nat.not_le.mpr hlt)]
  split <;> rfl

variable (hall : ∀ c ∈ (s.gang g).cores, s.coreDrained c = true)
include hall

theorem exec_gangPreempt_dates (hn : (s.gang g).leaveAt = none) :
    exec (.gangPreempt g) s = .next (s.putGang g { s.gang g with leaveAt := some (s.switchesEnd g) }) := by
  show execGangPreempt g s = _
  simp only [execGangPreempt, hn]
  rw [if_neg (by rw [h4]; decide), if_pos ⟨h4, List.all_eq_true.mpr hall⟩]

theorem exec_gangPreempt_saves {n : Nat} (hn : (s.gang g).leaveAt = some n) (hle : n ≤ s.cycle) :
    exec (.gangPreempt g) s = .next (s.saveGang g) := by
  show execGangPreempt g s = _
  simp only [execGangPreempt, hn]
  rw [if_neg (by rw [h4]; decide), if_pos ⟨h4, List.all_eq_true.mpr hall⟩, if_pos hle]

end

/-- When the switch of a slot's thread is over, in its next 2 or 3 beats (R46). -/
def State.slotEnd (s : State) (c i : Nat) : Nat := beatAt i s.cycle + 16 * (if (s.slot c i).dirtyCount ≤ 16 then 2 else 3)

/-- The later of an end and that of a slot's switch, if the slot holds a workspace. -/
def State.laterEnd (s : State) (c m i : Nat) : Nat := if (s.slot c i).ws.isNone then m else max m (s.slotEnd c i)

theorem State.le_laterEnd (s : State) (c m i : Nat) : m ≤ s.laterEnd c m i := by
  unfold State.laterEnd
  split
  · exact Nat.le_refl m
  · exact Nat.le_max_left _ _

theorem State.slotEnd_le_laterEnd (s : State) (c m : Nat) {i : Nat} (h : (s.slot c i).ws ≠ none) : s.slotEnd c i ≤ s.laterEnd c m i := by
  rw [State.laterEnd, if_neg fun hn => h (Option.isNone_iff_eq_none.mp hn)]
  exact Nat.le_max_right _ _

/-- The latest end of a core's switches and of those before. -/
def State.coreEnd (s : State) (m c : Nat) : Nat := (List.range 16).foldl (fun m i => s.laterEnd c m i) m

theorem State.le_coreEnd (s : State) (c m : Nat) : m ≤ s.coreEnd m c :=
  foldl_keeps (fun x => m ≤ x) (Nat.le_refl m) fun x i _ hx => Nat.le_trans hx (s.le_laterEnd c x i)

theorem State.slotEnd_le_coreEnd (s : State) (c m : Nat) {i : Nat} (hi : i < 16) (h : (s.slot c i).ws ≠ none) : s.slotEnd c i ≤ s.coreEnd m c :=
  foldl_establishes_any (List.mem_range.mpr hi) m (fun x => s.slotEnd c i ≤ x) (fun x => s.slotEnd_le_laterEnd c x h)
    fun x j _ hx => Nat.le_trans hx (s.le_laterEnd c x j)

theorem State.switchesEnd_eq (s : State) (g : Nat) : s.switchesEnd g = (s.gang g).cores.foldl s.coreEnd s.cycle := rfl

/-- The time at which a pre-empted gang leaves is not before the end of any of its slots' switches (R46, R115). -/
theorem State.switchesEnd_bounds (s : State) (g : Nat) : s.cycle ≤ s.switchesEnd g ∧
    ∀ c ∈ (s.gang g).cores, ∀ i, i < 16 → (s.slot c i).ws ≠ none → s.slotEnd c i ≤ s.switchesEnd g := by
  rw [s.switchesEnd_eq]
  refine ⟨foldl_keeps (fun x => s.cycle ≤ x) (Nat.le_refl _) fun x c _ hx => Nat.le_trans hx (s.le_coreEnd c x), fun c hc i hi hws => ?_⟩
  exact foldl_establishes_any hc s.cycle (fun x => s.slotEnd c i ≤ x) (fun x => s.slotEnd_le_coreEnd c x hi hws)
    fun x d _ hx => Nat.le_trans hx (s.le_coreEnd d x)

/-- A core that its pre-empted gang leaves: its scratchpad is settled, its burrow stashed, and nothing of the gang stays (R115). -/
def State.vacateCore (s : State) (g c : Nat) : State := ((s.settleCore c).stashBurrow g c).modCore c (fun k => k.vacated)

theorem State.core_vacateCore (s : State) (g c d : Nat) : (s.vacateCore g c).core d = if d = c then (s.core c).vacated else s.core d := by
  have hcores : ((s.settleCore c).stashBurrow g c).cores = s.cores := by
    have hsettle : (s.settleCore c).cores = s.cores := by rw [State.settleCore, State.settleAt_frame]
    unfold State.stashBurrow
    split
    · exact hsettle
    · exact hsettle
  have hcore : ∀ e, ((s.settleCore c).stashBurrow g c).core e = s.core e := fun e => by rw [State.core, hcores, State.core]
  rw [State.vacateCore, State.core_modCore, hcore, hcore]

theorem vacateCores_vacated (s : State) (g : Nat) {l : List Nat} {c : Nat} (hc : c ∈ l) :
    ∃ k : Core, (l.foldl (fun s c => s.vacateCore g c) s).core c = k.vacated := by
  refine foldl_establishes_any hc s (fun t => ∃ k : Core, t.core c = k.vacated) (fun t => ⟨t.core c, by rw [t.core_vacateCore, if_pos rfl]⟩)
    fun t d _ ⟨k, hk⟩ => ?_
  by_cases hd : c = d
  · exact ⟨t.core d, by rw [t.core_vacateCore, if_pos hd]⟩
  · exact ⟨k, by rw [t.core_vacateCore, if_neg hd, hk]⟩

/-- A pre-empted gang whose array jobs and threads are saved (R115 step 5). -/
def State.leaving (s : State) (g : Nat) : State :=
  (s.gang g).cores.foldl (fun s c => (s.saveSlots c).sendBack c)
    (((s.gang g).cores.zip (List.range (s.gang g).cores.length)).foldl (fun s e => s.saveJob g e.2 e.1) s)

theorem State.saveGang_eq (s : State) (g : Nat) : s.saveGang g =
    (((s.gang g).cores.foldl (fun s c => s.vacateCore g c) (s.leaving g)).keepUnsettled g (s.gang g).cores).putGang g
      { ((s.gang g).cores.foldl (fun s c => s.vacateCore g c) (s.leaving g)).gang g with
        phase := 2, saved := (s.gang g).cores.map (fun c => (s.leaving g).savedCore c) } := by
  simp only [State.saveGang, State.leaving, State.vacateCore]

/-- A saved gang (R115): its cores are in its record, and nothing of it stays on them. -/
theorem State.saveGang_saved (s : State) (g : Nat) : ((s.saveGang g).gang g).phase = 2 ∧
    ((s.saveGang g).gang g).saved.length = (s.gang g).cores.length ∧ ∀ c ∈ (s.gang g).cores, ∃ k : Core, (s.saveGang g).core c = k.vacated := by
  rw [s.saveGang_eq, State.gang_putGang_same]
  exact ⟨rfl, List.length_map _, fun c hc => vacateCores_vacated _ g hc⟩

end Sys2Proof.Machine
end

section
/-! O48, third part: a gang that fails (R114). -/

namespace Sys2Proof.Machine

/-- Of the cores but one, no thread, queue or task has changed; nor has a gang. -/
structure CoreStops (c : Nat) (s t : State) : Prop where
  gangs : t.gangs = s.gangs
  others : ∀ d, d ≠ c → t.core d = { s.core d with
    hts := (t.core d).hts, ptsOff := (t.core d).ptsOff, l1 := (t.core d).l1, tlb := (t.core d).tlb, late := (t.core d).late
    scratch := (t.core d).scratch, spoison := (t.core d).spoison, full := (t.core d).full
    feWait := (t.core d).feWait, clWait := (t.core d).clWait, sendWait := (t.core d).sendWait }

theorem CoreStops.refl (c : Nat) (s : State) : CoreStops c s s := ⟨rfl, fun _ _ => rfl⟩

theorem CoreStops.trans {c : Nat} {s t u : State} (h : CoreStops c s t) (h' : CoreStops c t u) : CoreStops c s u :=
  ⟨h'.gangs.trans h.gangs, fun d hd => by rw [h'.others d hd, h.others d hd]⟩

theorem CoreStops.foldl {α : Type} {c : Nat} (f : State → α → State) (h : ∀ t x, CoreStops c t (f t x)) (l : List α) (s : State) :
    CoreStops c s (l.foldl f s) := foldl_keeps (CoreStops c s) (.refl c s) fun t x _ ht => ht.trans (h t x)

theorem OneCore.stops {c : Nat} {s t : State} (h : OneCore c s t) : CoreStops c s t :=
  ⟨by rw [h.1], fun d hd => by rw [h.2 d hd]⟩

theorem Stored.stops {s t : State} (h : Stored s t) (c : Nat) : CoreStops c s t := ⟨h.gangs, fun d _ => by rw [h.core d]⟩

theorem CoreStops.of_cores {c : Nat} {s t : State} (hc : t.cores = s.cores) (hg : t.gangs = s.gangs) : CoreStops c s t :=
  ⟨hg, fun d _ => by rw [show t.core d = s.core d by rw [State.core, hc, State.core]]⟩

theorem State.withdraw_stops (s : State) (c w : Nat) : CoreStops c s (s.withdraw c w) := by
  let mine : Request → Bool := fun r => r.core == c && r.ws == w
  let u := ((s.core c).clWait.filter mine).foldl (fun (s : State) (r : Request) => s.watch r.loc false) s
  have hu : Records s u := .foldl _ (fun t (r : Request) => t.watch_records r.loc false) _ s
  have hcore : ∀ d, (s.withdraw c w).core d = (u.core d).unwait mine := State.core_map (Core.unwait mine) rfl rfl
  exact (hu.stored.stops c).trans ⟨rfl, fun d _ => by rw [hcore]; rfl⟩

/-! ## What stops on a core (R114) -/

theorem State.stopSlot_bytes (s : State) (c i : Nat) : BytesOnly c s (s.stopSlot c i) := by
  unfold State.stopSlot
  split
  · exact ⟨.refl c s, rfl⟩
  · exact (BytesOnly.writeBack s c i).trans (.writeRecord _ c i _ 6)

/-- A task that ends with its gang. -/
def State.endMember (s : State) (c w : Nat) : State :=
  ((s.withdraw c w).modTask c w (fun t => { t with park := .run, lateTrap := none, resume := none, gang := none })).setTstate c w 6

theorem State.endTasks_eq (s : State) (c : Nat) : s.endTasks c = (s.core c).liveTasks.foldl (fun s w => s.endMember c w) s := rfl

theorem State.tstate_endMember (s : State) (c w v : Nat) :
    ((s.endMember c w).task c v).tstate = if v = w then 6 else (s.task c v).tstate := by
  rw [State.endMember, State.task_setTstate]
  split
  next => rfl
  next h => rw [State.task_modTask, if_neg fun hc : c = c ∧ v = w => h hc.2, (s.withdraw_withdrawn c w).task]

theorem State.endMember_stops (s : State) (c w : Nat) : CoreStops c s (s.endMember c w) :=
  (s.withdraw_stops c w).trans ((OneCore.modTask _ c w _).trans (.setTstate _ c w 6)).stops

/-- No task of the core is live any more. -/
theorem State.endTasks_dead (s : State) (c w : Nat) : liveState ((s.endTasks c).task c w).tstate = false := by
  have hstep : ∀ (t : State) (v : Nat), liveState (t.task c w).tstate = false → liveState ((t.endMember c v).task c w).tstate = false := by
    intro t v ht
    rw [t.tstate_endMember]
    split
    · rfl
    · exact ht
  rw [s.endTasks_eq]
  by_cases hlive : liveState (s.task c w).tstate = true
  · have hmem : w ∈ (s.core c).liveTasks := by
      cases hk : AMap.find (s.core c).tasks w with
      | none =>
        have hreset : s.task c w = Task.reset := by rw [State.task, Core.task, AMap.get, hk]; rfl
        rw [hreset] at hlive
        exact absurd hlive (by decide)
      | some k =>
        have htask : s.task c w = k := by rw [State.task, Core.task, AMap.get, hk]; rfl
        exact List.mem_map.mpr ⟨(w, k), List.mem_filter.mpr ⟨AMap.mem_of_find hk, by rw [← htask]; exact hlive⟩, rfl⟩
    exact foldl_establishes_any hmem s (fun t : State => liveState (t.task c w).tstate = false)
      (fun t => by rw [t.tstate_endMember, if_pos rfl]; rfl) fun t v _ => hstep t v
  · exact foldl_keeps (fun t : State => liveState (t.task c w).tstate = false) (by simpa using hlive) fun t v _ => hstep t v

/-- Bead, matrix and copy commands of a core are gone, and nothing else of its threads has changed. -/
structure Emptied (c : Nat) (s t : State) : Prop where
  stops : CoreStops c s t
  task : ∀ w, t.task c w = s.task c w
  sq : (t.core c).sq = []
  mq : (t.core c).mq = []
  cq : (t.core c).cq = []

theorem State.stopPasses_emptied (s : State) (c : Nat) : CoreStops c s (s.stopPasses c) ∧ (∀ w, (s.stopPasses c).task c w = s.task c w) ∧
    ((s.stopPasses c).core c).sq = [] := by
  let u := ((s.core c).sq.filter (fun q => q.async)).foldl (fun (s : State) q => s.spoilClasp (q.ctx c) q.clasp q.stamp) s
  have hu : Stored s u := .foldl _ (fun t q => t.spoilClasp_stored _ _ _) _ s
  have hcore : (s.stopPasses c).core c = { u.core c with sq := [], visit := none } := State.core_modCore_same u c _
  refine ⟨(hu.stops c).trans (OneCore.modCore u c (fun k => { k with sq := [], visit := none })).stops, fun w => ?_, by rw [hcore]⟩
  rw [State.task, hcore, ← hu.task c w]
  rfl

theorem State.stopMatrix_emptied (s : State) (c : Nat) : CoreStops c s (s.stopMatrix c) ∧
    (s.stopMatrix c).core c = { s.core c with mq := [], jobOpen := false } := by
  unfold State.stopMatrix
  dsimp only
  split
  · refine ⟨CoreStops.trans (t := s.putSett (s.settOf c) _) (.of_cores rfl rfl) (OneCore.modCore _ c _).stops, ?_⟩
    rw [State.core_modCore_same]
    rfl
  · exact ⟨(OneCore.modCore s c _).stops, State.core_modCore_same s c _⟩

theorem State.stopCopies_emptied (s : State) (c : Nat) : CoreStops c s (s.stopCopies c) ∧
    ∃ u, Stored s u ∧ (s.stopCopies c).core c = { u.core c with cq := [] } := by
  let u := ((s.core c).cq.filter (fun q => q.coll.isNone)).foldl (fun (s : State) q => s.spoilClasp q.ctx q.clasp q.stamp) s
  have hu : Stored s u := .foldl _ (fun t q => t.spoilClasp_stored _ _ _) _ s
  let v := u.putSett (s.settOf c) { u.sett (s.settOf c) with places := (u.sett (s.settOf c)).places.filter (fun p => p.2.cmd.core != c || p.2.cmd.coll.isSome) }
  refine ⟨((hu.stops c).trans (t := u) (CoreStops.of_cores (t := v) rfl rfl)).trans (OneCore.modCore v c (fun k => { k with cq := [] })).stops, u, hu, ?_⟩
  exact State.core_modCore_same v c _

theorem State.emptied (s : State) (c : Nat) : Emptied c s (((s.stopPasses c).stopMatrix c).stopCopies c) := by
  obtain ⟨hp, hptask, hsq⟩ := s.stopPasses_emptied c
  obtain ⟨hm, hmcore⟩ := (s.stopPasses c).stopMatrix_emptied c
  obtain ⟨hc, u, hu, hccore⟩ := ((s.stopPasses c).stopMatrix c).stopCopies_emptied c
  refine ⟨(hp.trans hm).trans hc, fun w => ?_, ?_, ?_, by rw [hccore]⟩
  · rw [← hptask w, State.task, hccore]
    show (u.core c).task w = _
    rw [hu.core, hmcore]
    rfl
  · rw [hccore]
    show (u.core c).sq = []
    rw [hu.core, hmcore]
    exact hsq
  · rw [hccore]
    show (u.core c).mq = []
    rw [hu.core, hmcore]

theorem State.stopBurrows_cores (s : State) (c : Nat) : (s.stopBurrows c).cores = s.cores ∧ (s.stopBurrows c).gangs = s.gangs := by
  unfold State.stopBurrows
  exact foldl_keeps (fun t : State => t.cores = s.cores ∧ t.gangs = s.gangs) ⟨rfl, rfl⟩ fun t e _ ht => ht

theorem Core.unwrite_frame (k : Core) (q : NestCmd) : k.unwrite q = { k with scratch := (k.unwrite q).scratch } := by
  unfold Core.unwrite
  split <;> rfl

theorem Core.unwriteAll_frame (l : List NestCmd) (k : Core) :
    l.foldr (fun q k => k.unwrite q) k = { k with scratch := (l.foldr (fun q k => k.unwrite q) k).scratch } := by
  induction l with
  | nil => rfl
  | cons q l ih => rw [List.foldr_cons, Core.unwrite_frame, ih]

/-- Nothing of a gang that has failed goes on at a core. -/
structure Halted (k : Core) : Prop where
  gang : k.gang = none
  vq : k.vq = []
  mq : k.mq = []
  cq : k.cq = []
  sq : k.sq = []
  slots : ∀ i, (k.slot i).ws = none
  tasks : ∀ w, liveState (k.task w).tstate = false

/-- What is left at a core once its nests are taken back and its slots emptied. -/
def Core.halted (k : Core) : Core :=
  { k.vq.foldr (fun q k => k.unwrite q) k with gang := none, slots := [], ready := [], vq := [], held := [] }

theorem Core.halted_halted {k : Core} (hmq : k.mq = []) (hcq : k.cq = []) (hsq : k.sq = []) (hdead : ∀ w, liveState (k.task w).tstate = false) :
    Halted k.halted := by
  rw [Core.halted, Core.unwriteAll_frame]
  exact ⟨rfl, rfl, hmq, hcq, hsq, fun _ => rfl, hdead⟩

/-- The state in which every thread and command of a core has been stopped, but its nests. -/
def State.silenced (s : State) (c : Nat) : State :=
  (((((List.range 16).foldl (fun s i => s.stopSlot c i) s).endTasks c).stopPasses c).stopMatrix c).stopCopies c

theorem State.stopCore_eq (s : State) (c : Nat) : s.stopCore c = ((s.silenced c).stopBurrows c).modCore c Core.halted := rfl

theorem State.silenced_emptied (s : State) (c : Nat) : CoreStops c s (s.silenced c) ∧ (∀ w, liveState ((s.silenced c).task c w).tstate = false) ∧
    ((s.silenced c).core c).sq = [] ∧ ((s.silenced c).core c).mq = [] ∧ ((s.silenced c).core c).cq = [] := by
  let u := (List.range 16).foldl (fun s i => s.stopSlot c i) s
  have hu : CoreStops c s u := .foldl _ (fun t i => (t.stopSlot_bytes c i).device.stops) _ s
  have hends : CoreStops c u (u.endTasks c) := .foldl _ (fun t w => t.endMember_stops c w) _ u
  have hempty := (u.endTasks c).emptied c
  exact ⟨(hu.trans hends).trans hempty.stops, fun w => by rw [State.silenced, hempty.task]; exact u.endTasks_dead c w, hempty.sq, hempty.mq, hempty.cq⟩

theorem State.stopCore_stops (s : State) (c : Nat) : CoreStops c s (s.stopCore c) := by
  obtain ⟨hcores, hgangs⟩ := (s.silenced c).stopBurrows_cores c
  rw [s.stopCore_eq]
  exact ((s.silenced_emptied c).1.trans (.of_cores hcores hgangs)).trans (OneCore.modCore _ c _).stops

theorem State.stopCore_halted (s : State) (c : Nat) : Halted ((s.stopCore c).core c) := by
  obtain ⟨-, hdead, hsq, hmq, hcq⟩ := s.silenced_emptied c
  obtain ⟨hcores, -⟩ := (s.silenced c).stopBurrows_cores c
  have hcore : ((s.silenced c).stopBurrows c).core c = (s.silenced c).core c := by rw [State.core, hcores, State.core]
  rw [s.stopCore_eq, State.core_modCore_same, hcore]
  exact Core.halted_halted hmq hcq hsq hdead

theorem Halted.kept {c d : Nat} {s t : State} (h : CoreStops d s t) (hd : c ≠ d) (hk : Halted (s.core c)) : Halted (t.core c) := by
  obtain ⟨hgang, hvq, hmq, hcq, hsq, hslots, htasks⟩ := hk
  rw [h.others c hd]
  exact ⟨hgang, hvq, hmq, hcq, hsq, hslots, htasks⟩

theorem stopCores_halted (s : State) {l : List Nat} {c : Nat} (hc : c ∈ l) : Halted ((l.foldl (fun s c => s.stopCore c) s).core c) := by
  refine foldl_establishes_any hc s (fun t => Halted (t.core c)) (fun t => t.stopCore_halted c) fun t d _ ht => ?_
  by_cases hd : c = d
  · rw [← hd]; exact t.stopCore_halted c
  · exact ht.kept (t.stopCore_stops d) hd

/-! ## The gang's end (R114) -/

/-- Gang g has lost collectives, and no other thing has changed of any gang. -/
def LosesColls (g : Nat) (s t : State) : Prop := ∀ h, ∃ l, t.gang h = { s.gang h with colls := l } ∧ (h ≠ g → l = (s.gang h).colls)

theorem LosesColls.of_gangs {g : Nat} {s t : State} (h : t.gangs = s.gangs) : LosesColls g s t :=
  fun k => ⟨_, by rw [State.gang, h, State.gang], fun _ => rfl⟩

theorem LosesColls.trans {g : Nat} {s t u : State} (h : LosesColls g s t) (h' : LosesColls g t u) : LosesColls g s u := by
  intro k
  obtain ⟨l, hl, hk⟩ := h k
  obtain ⟨l', hl', hk'⟩ := h' k
  exact ⟨l', by rw [hl', hl], fun hne => by rw [hk' hne, hl]; exact hk hne⟩

theorem LosesColls.foldl {α : Type} {g : Nat} (f : State → α → State) (h : ∀ t x, LosesColls g t (f t x)) (l : List α) (s : State) :
    LosesColls g s (l.foldl f s) := foldl_keeps (LosesColls g s) (.of_gangs rfl) fun t x _ ht => ht.trans (h t x)

theorem State.collOver_loses (s : State) (g : Nat) (x : Coll) : LosesColls g s (s.collOver g x) := by
  let u := x.cmds.foldl (fun (s : State) e => s.modCore e.2.core (fun k => k.freeCopy e.2.id)) s
  let v := (u.gangSetts g).foldl (fun (s : State) n => s.putSett n { s.sett n with
    places := (s.sett n).places.filter (fun p => !((x.cmds.map (fun e => e.2.id)).contains p.2.cmd.id)) }) u
  have hu : u.gangs = s.gangs := foldl_keeps (fun t : State => t.gangs = s.gangs) rfl fun t e _ ht => ht
  have hv : v.gangs = s.gangs := foldl_keeps (fun t : State => t.gangs = s.gangs) hu fun t n _ ht => ht
  refine LosesColls.trans (.of_gangs hv) fun h => ?_
  show ∃ l, (v.putGang g { v.gang g with colls := (v.gang g).colls.filter (fun y => y.m != x.m) }).gang h = _ ∧ _
  rw [State.gang_putGang]
  split
  next hg => exact ⟨_, by rw [hg], fun hne => absurd hg hne⟩
  next => exact ⟨_, rfl, fun _ => rfl⟩

/-- The state in which the collectives of a gang that fails have ended (R114, R298). -/
def State.uncollected (s : State) (g : Nat) : State :=
  (s.gang g).colls.foldl (fun s x => (x.cmds.foldl (fun s e => s.spoilClasp e.2.ctx e.2.clasp e.2.stamp) s).collOver g x) s

theorem State.uncollected_loses (s : State) (g : Nat) : LosesColls g s (s.uncollected g) :=
  .foldl _ (fun t x => LosesColls.trans (.of_gangs (Stored.foldl _ (fun u _ => u.spoilClasp_stored _ _ _) _ t).gangs) (State.collOver_loses _ g x)) _ s

theorem State.stopSaved_cores (s : State) (g : Nat) : (s.stopSaved g).gangs = s.gangs := by
  unfold State.stopSaved
  split <;> rfl

/-- The state in which a gang that fails has stopped, on its cores or where it is saved. -/
def State.stopped (s : State) (g : Nat) : State :=
  if (s.gang g).phase = 2 then ((s.uncollected g).spoilSaved g).stopSaved g else (s.gang g).cores.foldl (fun s c => s.stopCore c) (s.uncollected g)

theorem State.endGang_eq (s : State) (g : Nat) (info : StatusInfo) : s.endGang g info = (s.stopped g).gangOver g info := rfl

theorem State.stopped_loses (s : State) (g : Nat) : LosesColls g s (s.stopped g) := by
  unfold State.stopped
  split
  · refine (s.uncollected_loses g).trans (.of_gangs ?_)
    rw [State.stopSaved_cores]
    exact (Stored.foldl _ (fun t e => .foldl _ (fun u q => u.spoilClasp_stored _ _ _) _ t) _ _).gangs
  · refine (s.uncollected_loses g).trans (.of_gangs ?_)
    exact foldl_keeps (fun t : State => t.gangs = (s.uncollected g).gangs) rfl fun t c _ ht => (t.stopCore_stops c).gangs.trans ht

theorem exec_gangFailure_stays {s : State} {g : Nat} (f : FailInfo) (h : (s.gang g).phase = 3) : exec (.gangFailure g f) s = .next s := by
  show execGangFailure g f s = _
  rw [execGangFailure, if_pos h]

theorem exec_gangFailure_ends {s : State} {g : Nat} (f : FailInfo) (h : (s.gang g).phase ≠ 3) :
    exec (.gangFailure g f) s = .next ((s.stopped g).gangOver g ⟨1, f.cause, f.rank, f.jidx⟩) := by
  show execGangFailure g f s = _
  rw [execGangFailure, if_neg h, State.endGang_eq]

/-- A gang that has failed is gone, its packet knows it, and nothing of it goes on (R114). -/
theorem stopped_over (s : State) (g : Nat) (info : StatusInfo) :
    (AMap.find ((s.stopped g).gangOver g info).gangs g = none ∧ ((s.gang g).translation = false → (s.gang g).item = none →
      .packetComplete (s.gang g).q (s.gang g).k info ∈ ((s.stopped g).gangOver g info).inbox)) ∧
      ((s.gang g).phase ≠ 2 → ∀ c ∈ (s.gang g).cores, Halted (((s.stopped g).gangOver g info).core c)) := by
  obtain ⟨l, hl, -⟩ := s.stopped_loses g g
  refine ⟨?_, fun hp c hc => ?_⟩
  · have := (s.stopped g).gangOver_gone g info
    rw [hl] at this
    exact this
  · rw [State.core_gangOver, State.stopped, if_neg hp]
    exact stopCores_halted _ hc

end Sys2Proof.Machine
end

section
/-! O48, fourth part: a gang resumes on other cores (R116), and the statement. -/

namespace Sys2Proof.Machine

/-! ## Scrubs (R414) -/

theorem State.unreadLines_only (s : State) (c : Nat) (ls : List ILine) : JournalOnly s (s.unreadLines c ls) :=
  foldl_keeps (JournalOnly s) (.refl s) fun t _ _ ht => ht.trans (t.journalEvent_only _ _ _ _ _)

/-- The state in which a core is about to be scrubbed: its scratchpad is settled, its lines are journalled and it owns nothing. -/
def State.unowned (s : State) (c : Nat) : State := ((s.settleCore c).unreadLines c ((s.core c).icache.flatMap (fun x => x.2))).disown c

theorem State.unowned_kept (s : State) (c : Nat) : (s.unowned c).cores = s.cores ∧ (s.unowned c).ptsTicks = s.ptsTicks := by
  have hlines := (s.settleCore c).unreadLines_only c ((s.core c).icache.flatMap (fun x => x.2))
  have hsettle := s.settleAt_frame (.spad c 0) 1048576
  constructor
  · show ((s.settleCore c).unreadLines c _).cores = _
    rw [hlines, State.settleCore, hsettle]
  · show ((s.settleCore c).unreadLines c _).ptsTicks = _
    rw [hlines, State.settleCore, hsettle]

theorem State.scrub_eq (s : State) (c w : Nat) : ∃ n x, s.scrub c w = ((s.unowned c).modCore c (fun k => k.scrubbed w s.cycle)).putSett n x :=
  ⟨_, _, rfl⟩

theorem State.core_scrub (s : State) (c w d : Nat) : (s.scrub c w).core d = if d = c then (s.core c).scrubbed w s.cycle else s.core d := by
  obtain ⟨n, x, h⟩ := s.scrub_eq c w
  have hcore : ∀ e, (s.unowned c).core e = s.core e := fun e => by rw [State.core, (s.unowned_kept c).1, State.core]
  rw [h]
  show ((s.unowned c).modCore c (fun k => k.scrubbed w s.cycle)).core d = _
  rw [State.core_modCore, hcore, hcore]

theorem State.ptsTicks_scrub (s : State) (c w : Nat) : (s.scrub c w).ptsTicks = s.ptsTicks := by
  obtain ⟨n, x, h⟩ := s.scrub_eq c w
  rw [h]
  exact (s.unowned_kept c).2

/-- The state in which a core is of a world. -/
def State.inWorld (s : State) (c w : Nat) : State := if (s.core c).world = w then s else s.scrub c w

theorem State.inWorld_other (s : State) (c w : Nat) {d : Nat} (h : d ≠ c) : (s.inWorld c w).core d = s.core d := by
  unfold State.inWorld
  split
  · rfl
  · rw [s.core_scrub, if_neg h]

theorem State.inWorld_pts (s : State) (c w : Nat) : (s.inWorld c w).ptsTicks = s.ptsTicks ∧ ((s.inWorld c w).core c).ptsOff = (s.core c).ptsOff := by
  unfold State.inWorld
  split
  · exact ⟨rfl, rfl⟩
  · exact ⟨s.ptsTicks_scrub c w, by rw [s.core_scrub, if_pos rfl]; rfl⟩

/-! ## A core that is restored (R116) -/

/-- A saved core on the core that takes its place. -/
def Core.restored (k cur : Core) (w g off at_ : Nat) (old new : List Nat) : Core :=
  { k with
    gang := some g, world := w, ptsOff := off, hts := max k.hts cur.hts, l1 := cur.l1, lmiss := [], icache := cur.icache, ireq := []
    tlb := cur.tlb, hcache := cur.hcache, feWait := cur.feWait, sendWait := cur.sendWait, clWait := cur.clWait, scrubUntil := cur.scrubUntil
    cq := k.cq.map (fun q => q.moved old new)
    slots := k.slots.map (fun e => (e.1, { e.2 with nextAt := beatAt e.1 at_ + 32 })) }

/-- The thread of a slot is loaded from its workspace. -/
def State.reload (s : State) (c i : Nat) : State := match (s.slot c i).ws with
  | some ws => s.loadWs c i ws
  | none => s

/-- A saved core in its new place, its threads not yet loaded. -/
def State.placed (s : State) (w g : Nat) (old new : List Nat) (c : Nat) (k : Core) : State :=
  (s.inWorld c w).putCore c (k.restored ((s.inWorld c w).core c) w g (max ((s.inWorld c w).pts c) k.ptsOff - (s.inWorld c w).ptsTicks)
    (max (s.inWorld c w).cycle ((s.inWorld c w).core c).scrubUntil) old new)

theorem State.restoreCore_eq (s : State) (w g : Nat) (old new : List Nat) (c : Nat) (k : Core) :
    s.restoreCore w g old new c k = (List.range 16).foldl (fun s i => s.reload c i) (s.placed w g old new c k) := rfl

theorem State.reload_threads (s : State) (c i : Nat) : ThreadsOnly c s (s.reload c i) := by
  unfold State.reload
  split
  · exact (s.loadWs_entered c i _).threads
  · exact .refl c s

theorem State.reload_ws (s : State) (c i j : Nat) : ((s.reload c i).slot c j).ws = (s.slot c j).ws := by
  unfold State.reload
  split
  next w hw =>
    by_cases hj : j = i
    · rw [hj, (s.loadWs_entered c i w).resident, hw]
    · rw [(s.loadWs_entered c i w).otherSlots j hj]
  next => rfl

theorem State.reload_running (s : State) (c i w : Nat) (h : (s.task c w).tstate = 1) : ((s.reload c i).task c w).tstate = 1 := by
  unfold State.reload
  split
  next v _ =>
    by_cases hw : w = v
    · rw [hw, (s.loadWs_entered c i v).tstate]
    · rw [(s.loadWs_entered c i v).others w hw]; exact h
  next => exact h

theorem State.reload_runs (s : State) (c i w : Nat) (h : (s.slot c i).ws = some w) : ((s.reload c i).task c w).tstate = 1 := by
  rw [State.reload, h]
  exact (s.loadWs_entered c i w).tstate

theorem Core.restored_ws (k cur : Core) (w g off at_ : Nat) (old new : List Nat) (j : Nat) :
    ((k.restored cur w g off at_ old new).slot j).ws = (k.slot j).ws := by
  have hfind := AMap.find_map (fun i (sl : Slot) => { sl with nextAt := beatAt i at_ + 32 }) k.slots j
  show (AMap.get Slot.reset (k.slots.map fun e => (e.1, { e.2 with nextAt := beatAt e.1 at_ + 32 })) j).ws = (AMap.get Slot.reset k.slots j).ws
  rw [AMap.get, hfind, AMap.get]
  cases AMap.find k.slots j <;> rfl

/-- A gang's core is as it was saved: its array commands, its tensors and its threads, which run again (R116). -/
structure Restored (w g c : Nat) (k : Core) (s t : State) : Prop where
  gang : (t.core c).gang = some g
  world : (t.core c).world = w
  mq : (t.core c).mq = k.mq
  tensors : (t.core c).tensors = k.tensors
  ptsFrom : s.pts c ≤ t.pts c
  ptsSaved : k.ptsOff ≤ t.pts c
  running : ∀ j v, j < 16 → (k.slot j).ws = some v → (t.task c v).tstate = 1

theorem ThreadsOnly.foldl {α : Type} {c : Nat} (f : State → α → State) (h : ∀ t x, ThreadsOnly c t (f t x)) (l : List α) (s : State) :
    ThreadsOnly c s (l.foldl f s) := foldl_keeps (ThreadsOnly c s) (.refl c s) fun t x _ ht => ht.trans (h t x)

theorem State.placed_pts (s : State) (w g : Nat) (old new : List Nat) (c : Nat) (k : Core) :
    (s.placed w g old new c k).pts c = max (s.pts c) k.ptsOff := by
  obtain ⟨hticks, hoff⟩ := s.inWorld_pts c w
  have hpts : (s.inWorld c w).pts c = s.pts c := by rw [State.pts, hticks, hoff, State.pts]
  have hcore : ((s.placed w g old new c k).core c).ptsOff = max ((s.inWorld c w).pts c) k.ptsOff - (s.inWorld c w).ptsTicks := by
    rw [State.placed, State.core_putCore_same]; rfl
  have hle : s.ptsTicks ≤ s.pts c := Nat.le_add_right _ _
  rw [State.pts, hcore, hpts, show (s.placed w g old new c k).ptsTicks = (s.inWorld c w).ptsTicks from rfl, hticks]
  omega

theorem State.restoreCore_restored (s : State) (w g : Nat) (old new : List Nat) (c : Nat) (k : Core) :
    Restored w g c k s (s.restoreCore w g old new c k) := by
  let u := s.placed w g old new c k
  have hcore : u.core c = k.restored ((s.inWorld c w).core c) w g (max ((s.inWorld c w).pts c) k.ptsOff - (s.inWorld c w).ptsTicks)
      (max (s.inWorld c w).cycle ((s.inWorld c w).core c).scrubUntil) old new := State.core_putCore_same _ _ _
  have hws : ∀ j, (u.slot c j).ws = (k.slot j).ws := fun j => by rw [State.slot, hcore]; exact k.restored_ws _ _ _ _ _ _ _ j
  have hload : ThreadsOnly c u ((List.range 16).foldl (fun s i => s.reload c i) u) := .foldl _ (fun t i => t.reload_threads c i) _ u
  have hpts : ((List.range 16).foldl (fun s i => s.reload c i) u).pts c = max (s.pts c) k.ptsOff := by
    rw [← s.placed_pts w g old new c k, State.pts, hload.core, hload.device.1]; rfl
  rw [s.restoreCore_eq]
  refine ⟨?_, ?_, ?_, ?_, ?_, ?_, fun j v hj hv => ?_⟩
  · rw [hload.core]
    show (u.core c).gang = _
    rw [hcore]; rfl
  · rw [hload.core]
    show (u.core c).world = _
    rw [hcore]; rfl
  · rw [hload.core]
    show (u.core c).mq = _
    rw [hcore]; rfl
  · rw [hload.core]
    show (u.core c).tensors = _
    rw [hcore]; rfl
  · rw [hpts]; exact Nat.le_max_left _ _
  · rw [hpts]; exact Nat.le_max_right _ _
  · exact foldl_establishes (List.mem_range.mpr hj) u (fun t : State => (t.slot c j).ws = some v) (fun t => (t.task c v).tstate = 1)
      ((hws j).trans hv) (fun t i _ ht => (t.reload_ws c i j).trans ht) (fun t ht => t.reload_runs c j v ht) fun t i _ ht => t.reload_running c i v ht

theorem State.restoreCore_other (s : State) (w g : Nat) (old new : List Nat) (c : Nat) (k : Core) {d : Nat} (h : d ≠ c) :
    (s.restoreCore w g old new c k).core d = s.core d ∧ (s.restoreCore w g old new c k).ptsTicks = s.ptsTicks := by
  let u := s.placed w g old new c k
  have hload : ThreadsOnly c u ((List.range 16).foldl (fun s i => s.reload c i) u) := .foldl _ (fun t i => t.reload_threads c i) _ u
  rw [s.restoreCore_eq]
  refine ⟨(hload.device.2 d h).trans ?_, ?_⟩
  · exact (State.core_putCore_ne _ _ h).trans (s.inWorld_other c w h)
  · rw [hload.device.1]
    exact (s.inWorld_pts c w).1

theorem Restored.kept {w g c : Nat} {k : Core} {s t u : State} (h : Restored w g c k s t) (hcore : u.core c = t.core c)
    (hticks : u.ptsTicks = t.ptsTicks) : Restored w g c k s u := by
  obtain ⟨hgang, hworld, hmq, htensors, hfrom, hsaved, hrun⟩ := h
  have hpts : u.pts c = t.pts c := by rw [State.pts, hcore, hticks, State.pts]
  refine ⟨by rw [hcore]; exact hgang, by rw [hcore]; exact hworld, by rw [hcore]; exact hmq, by rw [hcore]; exact htensors,
    by rw [hpts]; exact hfrom, by rw [hpts]; exact hsaved, fun j v hj hv => ?_⟩
  rw [State.task, hcore]
  exact hrun j v hj hv

/-- Every saved core is restored on the core of the new rectangle that takes its place (R116). -/
theorem restoreCores_restored (s : State) (w g : Nat) (old l : List Nat) (ks : List Core) (hl : l.Nodup) {i c : Nat} {k : Core}
    (hc : l[i]? = some c) (hk : ks[i]? = some k) :
    Restored w g c k s ((l.zip ks).foldl (fun s e => s.restoreCore w g old l e.1 e.2) s) := by
  have hmem : (c, k) ∈ l.zip ks := List.mem_iff_getElem?.mpr ⟨i, List.getElem?_zip_eq_some.mpr ⟨hc, hk⟩⟩
  have hown : ∀ e ∈ l.zip ks, e.1 = c → e = (c, k) := by
    intro e he hec
    obtain ⟨j, hj⟩ := List.mem_iff_getElem?.mp he
    obtain ⟨hj1, hj2⟩ := List.getElem?_zip_eq_some.mp hj
    obtain rfl : j = i := nodup_place hl (by rw [hj1, hec]) hc
    exact Prod.ext hec (Option.some.inj (hj2.symm.trans hk))
  have hset : ∀ t : State, s.pts c ≤ t.pts c → Restored w g c k s (t.restoreCore w g old l c k) := fun t ht =>
    have h := t.restoreCore_restored w g old l c k
    { h with ptsFrom := Nat.le_trans ht h.ptsFrom }
  refine foldl_establishes hmem s (fun t => s.pts c ≤ t.pts c) (fun t => Restored w g c k s t) (Nat.le_refl _) (fun t e he ht => ?_) hset
    fun t e he ht => ?_
  · by_cases hec : e.1 = c
    · rw [hown e he hec]
      exact (hset t ht).ptsFrom
    · obtain ⟨hcore, hticks⟩ := t.restoreCore_other w g old l e.1 e.2 (Ne.symm hec)
      rw [show (t.restoreCore w g old l e.1 e.2).pts c = t.pts c by rw [State.pts, hcore, hticks, State.pts]]
      exact ht
  · by_cases hec : e.1 = c
    · rw [hown e he hec]
      exact hset t ht.ptsFrom
    · obtain ⟨hcore, hticks⟩ := t.restoreCore_other w g old l e.1 e.2 (Ne.symm hec)
      exact ht.kept hcore hticks

/-! ## Resumption (R116) -/

theorem exec_gangResume_other {s : State} {g : Nat} (gx gy : Nat) (h : (s.gang g).phase ≠ 2) : exec (.gangResume g gx gy) s = .next s := by
  show execGangResume g gx gy s = _
  simp only [execGangResume]
  rw [if_neg h]

section
variable {s : State} {g gx gy : Nat} (h2 : (s.gang g).phase = 2)
include h2

theorem exec_gangResume_nowhere (hl : s.rectCores gx gy (s.gang g).w (s.gang g).h (s.gang g).mask = none) :
    exec (.gangResume g gx gy) s = .next s := by
  show execGangResume g gx gy s = _
  simp only [execGangResume]
  rw [if_pos h2, hl]

variable {l : List Nat} (hl : s.rectCores gx gy (s.gang g).w (s.gang g).h (s.gang g).mask = some l)
include hl

theorem exec_gangResume_held (h : ∃ c ∈ l, (s.core c).gang ≠ none ∨ s.guardHolds c = true) : exec (.gangResume g gx gy) s = .next s := by
  obtain ⟨c, hc, hheld⟩ := h
  show execGangResume g gx gy s = _
  simp only [execGangResume]
  rw [if_pos h2, hl]
  refine if_neg fun hall => ?_
  have hfree := List.all_eq_true.mp hall c hc
  rw [Bool.and_eq_true, State.coreFree, Option.isNone_iff_eq_none, Bool.not_eq_true'] at hfree
  rcases hheld with hgang | hguard
  · exact hgang hfree.1
  · rw [hguard] at hfree; cases hfree.2

theorem exec_gangResume_free (h : ∀ c ∈ l, (s.core c).gang = none ∧ s.guardHolds c = false) :
    exec (.gangResume g gx gy) s = .next (s.resumeGang g gx gy l) := by
  show execGangResume g gx gy s = _
  simp only [execGangResume]
  rw [if_pos h2, hl]
  refine if_pos (List.all_eq_true.mpr fun c hc => ?_)
  obtain ⟨hgang, hguard⟩ := h c hc
  rw [State.coreFree, hgang, hguard]
  rfl

end

theorem State.unstashBurrow_cores (s : State) (g c : Nat) : (s.unstashBurrow g c).cores = s.cores ∧ (s.unstashBurrow g c).ptsTicks = s.ptsTicks := by
  unfold State.unstashBurrow
  split <;> exact ⟨rfl, rfl⟩

/-- The state in which every core of a gang that resumes has been restored. -/
def State.regathered (s : State) (g : Nat) (l : List Nat) : State :=
  (l.zip (s.gang g).saved).foldl (fun t e => t.restoreCore (s.gang g).world g (s.gang g).cores l e.1 e.2) s

theorem State.resumeGang_gang (s : State) (g gx gy : Nat) (l : List Nat) : ((s.resumeGang g gx gy l).gang g).phase = 1 ∧
    ((s.resumeGang g gx gy l).gang g).cores = l ∧ ((s.resumeGang g gx gy l).gang g).gx = gx ∧ ((s.resumeGang g gx gy l).gang g).gy = gy := by
  unfold State.resumeGang
  dsimp only
  rw [State.gang_putGang_same]
  exact ⟨rfl, rfl, rfl, rfl⟩

theorem State.resumeGang_cores (s : State) (g gx gy : Nat) (l : List Nat) : (s.resumeGang g gx gy l).cores = (s.regathered g l).cores ∧
    (s.resumeGang g gx gy l).ptsTicks = (s.regathered g l).ptsTicks := by
  have hstash : ∀ o : Option Nat, ((o.elim (s.regathered g l) (fun c => (s.regathered g l).unstashBurrow g c))).cores = (s.regathered g l).cores ∧
      ((o.elim (s.regathered g l) (fun c => (s.regathered g l).unstashBurrow g c))).ptsTicks = (s.regathered g l).ptsTicks := by
    rintro (_ | c)
    · exact ⟨rfl, rfl⟩
    · exact (s.regathered g l).unstashBurrow_cores g c
  unfold State.resumeGang
  exact hstash l.head?

theorem resumeGang_restored (s : State) (g gx gy : Nat) {l : List Nat} (hl : l.Nodup) {i c : Nat} {k : Core} (hc : l[i]? = some c)
    (hk : (s.gang g).saved[i]? = some k) : Restored (s.gang g).world g c k s (s.resumeGang g gx gy l) := by
  obtain ⟨hcores, hticks⟩ := s.resumeGang_cores g gx gy l
  refine (restoreCores_restored s (s.gang g).world g (s.gang g).cores l (s.gang g).saved hl hc hk).kept ?_ hticks
  rw [State.core, hcores]
  rfl

/-- Settles O48: each event by the state of its cores, one step of the fold over the gang's cores after the other. -/
theorem gangsFollowR62R114R115R116AndR236 : Obligations.GangsFollowR62R114R115R116AndR236 := by
  intro s g G gone
  refine ⟨fun h => ?_, fun h hdue hl _ => gangRelease_releases h hdue hl, fun f => ⟨exec_gangFailure_stays f, fun h => ?_⟩, ?_, ?_,
    exec_gangRetire_stays, fun h => ?_⟩
  · show execGangRelease g s = _
    unfold execGangRelease
    exact if_neg fun hc => h.elim (fun h => h hc.1) (fun h => Nat.not_le.mpr h hc.2)
  · obtain ⟨hgone, hhalted⟩ := stopped_over s g ⟨1, f.cause, f.rank, f.jidx⟩
    refine ⟨_, exec_gangFailure_ends f h, hgone, fun hp c hc => ?_⟩
    obtain ⟨hgang, hvq, hmq, hcq, hsq, hslots, htasks⟩ := hhalted hp c hc
    exact ⟨hgang, hvq, hmq, hcq, hsq, hslots, htasks⟩
  · refine ⟨exec_gangPreempt_other, exec_gangPreempt_stops, exec_gangPreempt_undrained, fun h4 hall hn => ?_,
      fun n h4 hn hlt => exec_gangPreempt_waits h4 hn hlt, fun n h4 hall hn hle => ?_⟩
    · obtain ⟨hcycle, hslots⟩ := s.switchesEnd_bounds g
      exact ⟨_, exec_gangPreempt_dates h4 hall hn, hcycle, hslots⟩
    · obtain ⟨hphase, hsaved, hcores⟩ := s.saveGang_saved g
      refine ⟨_, exec_gangPreempt_saves h4 hall hn hle, hphase, hsaved, fun c hc => ?_⟩
      obtain ⟨k, hk⟩ := hcores c hc
      refine ⟨by rw [hk]; rfl, by rw [hk]; rfl, by rw [hk]; rfl, fun i => ?_, fun w => ?_⟩
      · rw [State.slot, hk]; rfl
      · rw [State.task, hk]; rfl
  · intro gx gy
    refine ⟨exec_gangResume_other gx gy, exec_gangResume_nowhere, fun l h2 hl => ⟨exec_gangResume_held h2 hl, fun hfree => ?_⟩⟩
    obtain ⟨hphase, hcores, hgx, hgy⟩ := s.resumeGang_gang g gx gy l
    refine ⟨_, exec_gangResume_free h2 hl hfree, hphase, hcores, hgx, hgy, fun hnodup _ i c k hc hk => ?_⟩
    obtain ⟨hgang, hworld, hmq, htensors, hfrom, hsaved, hrun⟩ := resumeGang_restored s g gx gy hnodup hc hk
    exact ⟨hgang, hworld, hmq, htensors, hfrom, hsaved, fun j w hj hw _ => hrun j w hj hw⟩
  · refine ⟨_, exec_gangRetire_retires h, ?_, fun c hc => ?_⟩
    · have hgangs : ((s.gang g).cores.foldl (fun s c => s.freeCore c) s).gangs = s.gangs :=
        foldl_keeps (fun t : State => t.gangs = s.gangs) rfl fun t c _ ht => by rw [(OneCore.freeCore t c).1]; exact ht
      have hgone := ((s.gang g).cores.foldl (fun s c => s.freeCore c) s).gangOver_gone g ⟨0, 0, 0, 0⟩
      have hgang : ((s.gang g).cores.foldl (fun s c => s.freeCore c) s).gang g = s.gang g := by rw [State.gang, hgangs]; rfl
      rw [hgang] at hgone
      exact hgone
    · rw [State.core_gangOver]
      obtain ⟨hfree, hended⟩ := freeCores_free s hc
      exact ⟨hfree, fun w hw => by rw [State.task, State.core_gangOver]; exact hended w hw⟩

end Sys2Proof.Machine
end

section
/-! SUPPORT. What accesses of engines, bridges and the front end leave: every queue and the cycle (R83, R382, R390). -/

namespace Sys2Proof.Machine

/-- Every queue is as it was, and the cycle. -/
structure FrontKept (s t : State) : Prop where
  queues : t.queues = s.queues
  cycle : t.cycle = s.cycle

theorem FrontKept.refl (s : State) : FrontKept s s := ⟨rfl, rfl⟩

theorem FrontKept.trans {s t u : State} (h : FrontKept s t) (h' : FrontKept t u) : FrontKept s u :=
  ⟨h'.queues.trans h.queues, h'.cycle.trans h.cycle⟩

theorem Stored.front {s t : State} (h : Stored s t) : FrontKept s t := ⟨h.queues, h.cycle⟩

theorem Records.front {s t : State} (h : Records s t) : FrontKept s t := h.stored.front

theorem FrontKept.queue {s t : State} (h : FrontKept s t) (q : Nat) : t.queue q = s.queue q := by rw [State.queue, h.queues, State.queue]

theorem FrontKept.foldl {α β : Type} (g : β → State) (f : β → α → β) (h : ∀ t x, FrontKept (g t) (g (f t x))) (l : List α) (s : β) :
    FrontKept (g s) (g (l.foldl f s)) := foldl_keeps (fun t => FrontKept (g s) (g t)) (.refl _) fun t x _ ht => ht.trans (h t x)

/-! ## Accesses of engines -/

/-- Accesses that keep every queue and the cycle, where they succeed. -/
def KeepsFront {α : Type} (m : EngM α) : Prop := ∀ e a e', m e = .ok (a, e') → FrontKept e.s e'.s

theorem KeepsFront.pure {α : Type} (a : α) : KeepsFront (pure a : EngM α) := by
  intro e b e' h
  cases h
  exact .refl _

theorem KeepsFront.bind {α β : Type} {m : EngM α} {f : α → EngM β} (hm : KeepsFront m) (hf : ∀ a, KeepsFront (f a)) :
    KeepsFront (m >>= f) := by
  intro e b e' h
  simp only [Bind.bind, StateT.bind, Except.bind] at h
  split at h
  · cases h
  next p hp => exact (hm e p.1 p.2 hp).trans (hf p.1 p.2 b e' h)

theorem KeepsFront.get : KeepsFront (get : EngM Eng) := by
  intro e a e' h
  cases h
  exact .refl _

theorem KeepsFront.modify {f : Eng → Eng} (hf : ∀ e, FrontKept e.s (f e).s) : KeepsFront (modify f : EngM Unit) := by
  intro e a e' h
  cases h
  exact hf e

theorem KeepsFront.mapM {α β : Type} {f : α → EngM β} (hf : ∀ a, KeepsFront (f a)) (l : List α) : KeepsFront (l.mapM f) := by
  induction l with
  | nil => rw [List.mapM_nil]; exact .pure _
  | cons x l ih => rw [List.mapM_cons]; exact .bind (hf x) fun _ => .bind ih fun _ => .pure _

theorem KeepsFront.forM {α : Type} {f : α → EngM Unit} (hf : ∀ a, KeepsFront (f a)) (l : List α) : KeepsFront (l.forM f) := by
  induction l with
  | nil => exact .pure _
  | cons x l ih => exact .bind (hf x) fun _ => ih

theorem engPlace_keeps (x : EngCtx) (va n : Nat) (write : Bool) : KeepsFront (engPlace x va n write) := by
  intro e a e' h
  rw [engPlace] at h
  split at h
  · cases h; exact (e.s.noteTlb_records _ _ _).front
  all_goals cases h

theorem Eng.see_keeps (e : Eng) (x : EngCtx) (l : Loc) (n : Nat) : FrontKept e.s (e.see x l n).2.s := by
  rw [Eng.see]
  split
  · show FrontKept e.s (e.s.took x.world l n)
    rw [e.s.took_frame]
    exact ⟨rfl, rfl⟩
  · exact .refl _

theorem engLease_keeps (e : Eng) (pa : Nat) : FrontKept e.s (engLease e pa).s :=
  ((e.s.recall_records pa).trans (State.putHome_records _ _ _)).front

theorem foldl_engLease_keeps {α : Type} (f : α → Nat) (l : List α) (e : Eng) :
    FrontKept e.s (l.foldl (fun e p => engLease e (f p)) e).s :=
  .foldl Eng.s (fun e p => engLease e (f p)) (fun d p => engLease_keeps d (f p)) l e

theorem engPeek_keeps (x : EngCtx) (fab : FabData) (va n : Nat) (l : Loc) : KeepsFront (engPeek x fab va n l) := by
  intro e a e' h
  unfold engPeek at h
  split at h
  · cases h; exact e.see_keeps x _ n
  · cases h; exact (e.see_keeps x _ n).trans (foldl_engLease_keeps _ _ _)
  · cases h; exact .foldl Eng.s _ (fun d p => foldl_engLease_keeps id _ d) _ e
  · cases h; exact foldl_engLease_keeps _ _ _
  · split at h <;> cases h
    exact .refl _

theorem engRead_keeps (x : EngCtx) (fab : FabData) (va n : Nat) : KeepsFront (engRead x fab va n) :=
  .bind (.mapM (fun _ => .bind (engPlace_keeps _ _ _ _) fun _ => engPeek_keeps _ _ _ _ _) _) fun _ => .pure _

theorem engNum_keeps (x : EngCtx) (fab : FabData) (va n : Nat) : KeepsFront (engNum x fab va n) :=
  .bind (engRead_keeps x fab va n) fun _ => .pure _

theorem State.askFabric_keeps (s : State) (w win off n : Nat) (write : Bool) (v : Nat) : FrontKept s (s.askFabric w win off n write v) := by
  have h := s.sendFlits_linksOnly (s.portOf w win) (Config.flits n)
  constructor
  · show (s.sendFlits _ _).queues = _
    rw [h]
  · show (s.sendFlits _ _).cycle = _
    rw [h]

theorem State.engineWrite_keeps (s : State) (w : Nat) (l : Loc) (bs : List Byte) (stamp : Nat) : FrontKept s (s.engineWrite w l bs stamp) := by
  unfold State.engineWrite
  split
  · exact ((s.poke_stored w _ bs).trans (.modCore _ _ _ rfl)).front
  · exact (((((s.writeHome_records w _ stamp).trans (State.cached_records _ w _)).trans (State.soilAt_records _ _)).stored.trans
      (State.poke_stored _ w _ bs)).trans (State.raiseHts_records _ _ stamp).stored).front
  · exact s.askFabric_keeps _ _ _ _ _ _

theorem engPoke_keeps (x : EngCtx) (fab : FabData) (va : Nat) (bs : List Byte) (l : Loc) : KeepsFront (engPoke x fab va bs l) := by
  intro e a e' h
  unfold engPoke at h
  split at h
  next o off => cases h; exact e.s.engineWrite_keeps x.world (.spad o off) bs e.stamp
  next => cases h; exact .foldl Eng.s _ (fun d p => d.s.engineWrite_keeps x.world (.mem p.1 0) _ d.stamp) _ e
  next mt _ => cases h; exact .foldl Eng.s _ (fun d p => d.s.engineWrite_keeps x.world (.mem p.1 mt) _ d.stamp) _ e
  next =>
    split at h <;> cases h
    exact .refl _

theorem engWrite_keeps (x : EngCtx) (fab : FabData) (va : Nat) (bs : List Byte) : KeepsFront (engWrite x fab va bs) :=
  .bind (.mapM (fun _ => .bind (engPlace_keeps _ _ _ _) fun _ => .pure _) _) fun _ => .forM (fun _ => engPoke_keeps _ _ _ _ _) _

theorem engPut_keeps (id : Nat) (x : EngCtx) (fab : FabData) (va : Nat) (bs : List Byte) : KeepsFront (engPut id x fab va bs) := by
  refine .bind (.mapM (fun _ => .bind (engPlace_keeps _ _ _ _) fun _ => .pure _) _) fun _ => .forM (fun q => .bind (.modify fun e => ?_) fun _ => engPoke_keeps _ _ _ _ _) _
  show FrontKept e.s (e.s.noteEngine _ _ _ _ _)
  rw [State.noteEngine_frame]
  exact ⟨rfl, rfl⟩

/-! ## Copies of a bridge (R294, R295, R401) -/

theorem cpByte_keeps (r : CopyRun) (d : List Byte) (p : CopyPlan) (fuel : Nat) (busy : List (Nat × Nat)) (at_ : Nat × Nat) (now : Byte)
    (x : Eng × List (Nat × Nat × Byte)) : FrontKept x.1.s (cpByte r d p fuel busy at_ now x).2.1.s := by
  induction fuel generalizing busy at_ now x with
  | zero => exact .refl _
  | succ fuel ih =>
    obtain ⟨e, fixed⟩ := x
    unfold cpByte
    split
    · exact .refl _
    · dsimp only
      have hcount : FrontKept e.s { e.s with freeCount := e.s.freeCount + 1 } := ⟨rfl, rfl⟩
      split
      · exact hcount
      · split
        · exact hcount
        · split
          · exact hcount.trans (ih _ _ _ ({ e with s := { e.s with freeCount := e.s.freeCount + 1 } }, fixed))
          · exact hcount

theorem cpBytes_keeps (r : CopyRun) (d : List Byte) (p : CopyPlan) (met : Nat → Bool) (i o : Nat) (bs : List Byte)
    (x : Eng × List (Nat × Nat × Byte)) : FrontKept x.1.s (cpBytes r d p met i o bs x).2.1.s := by
  induction bs generalizing o x with
  | nil => exact .refl _
  | cons b bs ih =>
    rw [cpBytes]
    refine FrontKept.trans ?_ (ih _ _)
    split
    · exact cpByte_keeps r d p _ _ _ _ x
    · exact .refl _

theorem cpTaken_keeps (r : CopyRun) (d : List Byte) (p : CopyPlan) (src : Nat) (bs : List Byte) : KeepsFront (cpTaken r d p src bs) := by
  intro e a e' h
  unfold cpTaken at h
  dsimp only at h
  split at h
  · cases h; exact .refl _
  · cases h; exact cpBytes_keeps r d p _ _ _ bs (e, r.fixed)

theorem indexRead_keeps (r : CopyRun) (d : List Byte) (i : Nat) : KeepsFront (indexRead r d i) := by
  unfold indexRead
  split
  · exact .pure _
  · split
    · exact .pure _
    · exact engNum_keeps _ _ _ _

theorem copyPiece_keeps (r : CopyRun) (d : List Byte) (p : CopyPlan) : KeepsFront (copyPiece r d p) := by
  unfold copyPiece
  refine .bind (indexRead_keeps r d _) fun raw => .bind (engRead_keeps _ _ _ _) fun held => .bind (cpTaken_keeps r d p _ held) fun tk =>
    .bind .get fun e => ?_
  dsimp only
  split
  · refine .bind (.forM (fun x => ?_) _) fun _ => .bind (.forM (fun x => ?_) _) fun _ => .pure _
    · exact .bind (engPlace_keeps _ _ _ _) fun _ => .pure _
    · exact engPut_keeps _ _ _ _ _
  · refine .bind (.forM (fun x => ?_) _) fun _ => .pure _
    exact engPut_keeps _ _ _ _ _
theorem State.copyClasp_keeps (s : State) (c : CopyCmd) (stamp : Nat) (f : Clasp → Clasp) {t : State} (h : s.copyClasp c stamp f = some t) :
    FrontKept s t := by
  rw [State.copyClasp] at h
  split at h
  · cases h; exact .refl s
  · exact (s.claspNow_stored _ _ _ _ h).front

theorem State.copyFail_keeps (s : State) (r : CopyRun) : FrontKept s (s.copyFail r).1 := by
  unfold State.copyFail
  split
  next h => exact s.copyClasp_keeps _ _ _ h
  next => exact .refl s

theorem State.copyFail_bad (s : State) (r : CopyRun) : (s.copyFail r).2.bad = true := by
  unfold State.copyFail
  split <;> rfl

theorem State.copyStop_keeps (s : State) (r : CopyRun) (x : EngStop) : FrontKept s (s.copyStop r x).1 := by
  unfold State.copyStop
  split
  · exact .refl s
  · exact s.askFabric_keeps _ _ _ _ _ _
  · refine FrontKept.trans ?_ (State.copyFail_keeps _ r)
    split
    · exact (s.noteUnread_records _ _).front
    · exact .refl s

theorem State.noteCounted_keeps (s : State) (x : EngCtx) (z id : Nat) : FrontKept s (s.noteCounted x z id) := by
  have hcount : ∀ key exp phc arr, FrontKept s (s.noteCount id key exp phc arr) := fun key exp phc arr => by
    unfold State.noteCount
    split
    · exact .refl s
    · split <;> exact ⟨rfl, rfl⟩
  unfold State.noteCounted
  split
  · exact .refl s
  · split
    · split
      · exact hcount _ _ _ _
      · exact .refl s
    · exact .refl s

theorem State.copyCount_keeps (s : State) (r : CopyRun) : FrontKept s (s.copyCount r).1 := by
  unfold State.copyCount
  split
  next h => exact (s.copyClasp_keeps _ _ _ h).trans (State.noteCounted_keeps _ _ _ _)
  next => exact .refl s

theorem State.copyProducer_keeps (s : State) (r : CopyRun) (d : List Byte) (p : CopyPlan) {x : State × CopyRun}
    (h : s.copyProducer r d p = some x) : FrontKept s x.1 := by
  unfold State.copyProducer at h
  split at h
  · dsimp only at h
    split at h
    · cases h; exact s.copyFail_keeps r
    · split at h
      · cases h
      · cases h; exact ⟨rfl, rfl⟩
  · cases h; exact .refl s

theorem State.copyNext_keeps (s : State) (r : CopyRun) (d : List Byte) (p : CopyPlan) : FrontKept s (s.copyNext r d p).1 := by
  unfold State.copyNext
  split
  next x e h => exact (copyPiece_keeps r d p _ _ _ h).trans (State.copyCount_keeps _ _)
  next => exact s.copyStop_keeps r _

theorem State.copyStep_keeps (s : State) (r : CopyRun) : FrontKept s (s.copyStep r).1 := by
  unfold State.copyStep
  split
  · exact s.copyFail_keeps r
  · split
    · exact s.copyCount_keeps r
    · split
      · split
        next d e h => exact engRead_keeps _ _ _ _ _ _ _ h
        next => exact s.copyStop_keeps r _
      · split
        · exact s.copyFail_keeps r
        · split
          · exact .refl s
          next s1 r1 h =>
            have hp := s.copyProducer_keeps _ _ _ h
            split
            · exact hp
            · split
              · exact hp.trans (State.copyNext_keeps _ _ _ _)
              · exact hp

theorem bridgeSteps_keeps (n : Nat) (s : State) (r : CopyRun) : FrontKept s (bridgeSteps n s r).1 := by
  induction n generalizing s r with
  | zero => exact .refl s
  | succ n ih =>
    rw [bridgeSteps]
    dsimp only
    split
    · exact (s.copyStep_keeps r.bridged).trans (ih _ _)
    · exact .refl s

/-! ## The front end's accesses (R382, R390) -/

section
variable {s t : State} {w va q : Nat}

theorem State.feRun_keeps {α : Type} {m : EngM α} (hm : KeepsFront m) {a : α} (h : s.feRun w va m = .ok (a, t)) : FrontKept s t := by
  rw [State.feRun] at h
  split at h
  next he =>
    cases h
    obtain ⟨hqueues, hcycle⟩ := hm _ _ _ he
    exact ⟨hqueues, hcycle⟩
  next => cases h

theorem State.feRead_keeps {n : Nat} {bs : List Byte} (h : s.feRead w va n = .ok (bs, t)) : FrontKept s t :=
  State.feRun_keeps (engRead_keeps _ _ _ _) h

theorem State.feNum_keeps {v : Nat} (h : s.feNum w va = .ok (v, t)) : FrontKept s t := State.feRun_keeps (engNum_keeps _ _ _ _) h

theorem State.fePut_keeps {v : Nat} (h : s.fePut w va v = .ok t) : FrontKept s t := by
  rw [State.fePut] at h
  split at h
  next he => cases h; exact State.feRun_keeps (engWrite_keeps _ _ _ _) he
  next => cases h

theorem State.qcbPut_keeps {off v : Nat} (h : s.qcbPut q off v = .ok t) : FrontKept s t := State.fePut_keeps h

theorem except_bind_ok {ε α β : Type} {x : Except ε α} {f : α → Except ε β} {b : β} (h : (x >>= f) = .ok b) : ∃ a, x = .ok a ∧ f a = .ok b := by
  cases x with
  | error e => cases h
  | ok a => exact ⟨a, rfl, h⟩

theorem State.readLaunch_keeps {b : LaunchBody} (h : s.readLaunch w va = .ok (b, t)) : FrontKept s t := by
  obtain ⟨⟨d, s1⟩, hread, hrest⟩ := except_bind_ok h
  cases hrest
  exact State.feRead_keeps hread

theorem State.planLaunch_keeps {b : LaunchBody} {item : Option Nat} {r : Option LaunchPlan × State} (h : s.planLaunch w b item = .ok r) :
    FrontKept s r.2 := by
  unfold State.planLaunch at h
  dsimp only at h
  split at h
  · cases h; exact .refl s
  · obtain ⟨⟨a, s1⟩, hread, hrest⟩ := except_bind_ok h
    have hkeep := State.feRead_keeps hread
    dsimp only at hrest
    split at hrest <;> cases hrest <;> exact hkeep

theorem State.stageQ_keeps {x : StageQ} (h : s.stageQ w va = .ok (x, t)) : FrontKept s t := by
  obtain ⟨⟨d, s1⟩, hread, hrest⟩ := except_bind_ok h
  cases hrest
  exact State.feRead_keeps hread

theorem State.payBack_keeps {r : StageRun} (h : s.payBack w r = .ok t) : FrontKept s t := by
  unfold State.payBack at h
  split at h
  · cases h; exact .refl s
  · obtain ⟨⟨o, s1⟩, hread, hput⟩ := except_bind_ok h
    exact (State.stageQ_keeps hread).trans (State.fePut_keeps hput)

theorem State.advanceFreed_keeps {r : StageRun} {i : StageQ} (h : s.advanceFreed w r i = .ok t) : FrontKept s t := by
  unfold State.advanceFreed at h
  dsimp only at h
  split at h
  · cases h; exact .refl s
  · exact State.fePut_keeps h

theorem State.closeOut_keeps {b : StageBody} (h : s.closeOut w b = .ok t) : FrontKept s t := by
  unfold State.closeOut at h
  split at h
  · obtain ⟨⟨x, s1⟩, hread, hput⟩ := except_bind_ok h
    exact (State.feNum_keeps hread).trans (State.fePut_keeps hput)
  · cases h; exact .refl s

theorem State.takeItem_keeps {b : StageBody} {x : Nat} (h : s.takeItem w b x = .ok t) : FrontKept s t := by
  obtain ⟨s1, hfirst, hput⟩ := except_bind_ok h
  refine FrontKept.trans ?_ (State.fePut_keeps hput)
  split at hfirst
  · cases hfirst; exact .refl s
  · obtain ⟨⟨o, s2⟩, hread, hput⟩ := except_bind_ok hfirst
    exact (State.stageQ_keeps hread).trans (State.fePut_keeps hput)

theorem State.stageRunnable_keeps {r : StageRun} {i : Option StageQ} (h : s.stageRunnable q r = .ok (i, t)) : FrontKept s t := by
  unfold State.stageRunnable at h
  dsimp only at h
  split at h
  · cases h; exact .refl s
  · obtain ⟨⟨i1, s1⟩, hread, hrest⟩ := except_bind_ok h
    have hkeep := State.stageQ_keeps hread
    dsimp only at hrest
    split at hrest
    · cases hrest; exact hkeep
    · split at hrest
      · cases hrest; exact hkeep
      · obtain ⟨⟨o, s2⟩, hread2, hrest2⟩ := except_bind_ok hrest
        cases hrest2
        exact hkeep.trans (State.stageQ_keeps hread2)

end

theorem State.unowned_front (s : State) (c : Nat) : FrontKept s (s.unowned c) := by
  have hlines := (s.settleCore c).unreadLines_only c ((s.core c).icache.flatMap (fun x => x.2))
  have hsettle := s.settleAt_frame (.spad c 0) 1048576
  unfold State.unowned
  generalize (s.settleCore c).unreadLines c _ = v at hlines ⊢
  constructor
  · show v.queues = _
    rw [hlines, State.settleCore, hsettle]
  · show v.cycle = _
    rw [hlines, State.settleCore, hsettle]

theorem State.scrub_keeps (s : State) (c w : Nat) : FrontKept s (s.scrub c w) := by
  obtain ⟨n, x, h⟩ := s.scrub_eq c w
  rw [h]
  exact (s.unowned_front c).trans ⟨rfl, rfl⟩

end Sys2Proof.Machine
end

section
/-! SUPPORT. What a launch writes into its members' workspaces (R53, R63, R394). -/

namespace Sys2Proof.Machine

/-- Of one core only bytes of a scratchpad range have changed. -/
structure WritesIn (c lo hi : Nat) (s t : State) : Prop extends BytesOnly c s t where
  num : ∀ a n, a + n ≤ lo ∨ hi ≤ a → t.sNum c a n = s.sNum c a n

section
variable {c lo hi : Nat}

theorem WritesIn.refl (c lo hi : Nat) (s : State) : WritesIn c lo hi s s := ⟨⟨.refl c s, rfl⟩, fun _ _ _ => rfl⟩

theorem WritesIn.trans {s t u : State} (h : WritesIn c lo hi s t) (h' : WritesIn c lo hi t u) : WritesIn c lo hi s u :=
  ⟨h.toBytesOnly.trans h'.toBytesOnly, fun a n ha => (h'.num a n ha).trans (h.num a n ha)⟩

theorem WritesIn.sPut (s : State) {off n : Nat} (v : Nat) (h : lo ≤ off) (h' : off + n ≤ hi) : WritesIn c lo hi s (s.sPut c off n v) :=
  ⟨.sPut s c off n v, fun a k ha => s.sNum_sPut_out c off n v a k (by omega)⟩

theorem WritesIn.foldl {α : Type} (f : State → α → State) (l : List α) (h : ∀ t y, y ∈ l → WritesIn c lo hi t (f t y)) (s : State) :
    WritesIn c lo hi s (l.foldl f s) := foldl_keeps (fun t => WritesIn c lo hi s t) (.refl c lo hi s) fun t y hy ht => ht.trans (h t y hy)

theorem WritesIn.mono {lo' hi' : Nat} {s t : State} (h : WritesIn c lo hi s t) (hl : lo' ≤ lo) (hh : hi ≤ hi') : WritesIn c lo' hi' s t :=
  ⟨h.toBytesOnly, fun a n ha => h.num a n (by omega)⟩

theorem WritesIn.front {s t : State} (h : WritesIn c lo hi s t) : FrontKept s t :=
  ⟨by rw [h.device.1], by rw [h.device.1]⟩

end

/-! ## The parts of a member's workspace -/

/-- The registers that a launch gives a member, with their values (R63, R405). -/
def LaunchPlan.regs (p : LaunchPlan) : List (Nat × Nat) :=
  (List.range 8).map (fun i => (i + 1, (p.args[i]?.getD 0).toNat)) ++ (match p.item with
    | some x => [(9, x)]
    | none => [])

theorem LaunchPlan.mem_regs {p : LaunchPlan} {r v : Nat} (h : (r, v) ∈ p.regs) :
    (∃ i, i < 8 ∧ r = i + 1 ∧ v = (p.args[i]?.getD 0).toNat) ∨ r = 9 := by
  rcases List.mem_append.mp h with h | h
  · obtain ⟨i, hi, he⟩ := List.mem_map.mp h
    cases he
    exact .inl ⟨i, List.mem_range.mp hi, rfl, rfl⟩
  · split at h
    · cases List.mem_singleton.mp h
      exact .inr rfl
    · cases h

theorem LaunchPlan.arg_mem_regs (p : LaunchPlan) {j : Nat} (hj : j < 8) : (j + 1, (p.args[j]?.getD 0).toNat) ∈ p.regs :=
  List.mem_append_left _ (List.mem_map.mpr ⟨j, List.mem_range.mpr hj, rfl⟩)

/-- The registers. -/
def State.memberRegs (s : State) (c ws : Nat) (p : LaunchPlan) : State :=
  p.regs.foldl (fun s r => s.sPut c (wsOff ws (8 * r.1)) 8 r.2) s

/-- The trap record's HND and the task record's first words. -/
def State.memberHead (s : State) (c ws : Nat) (p : LaunchPlan) : State :=
  ((((s.sPut c (wsOff ws 0x100) 8 (insertBits (s.sNum c (wsOff ws 0x100) 8) 30 2 0)).sPut c (wsOff ws 0x170) 8 0).sPut c (wsOff ws 0x180) 8
    p.entry.toNat).sPut c (wsOff ws 0x188) 8 (recWord (BitVec.ofNat 32 (p.regs.foldl (fun m r => m + 2 ^ r.1) 0)) 0xFFFF 1
      (BitVec.ofNat 2 p.prio))).sPut c (wsOff ws 0x190) 8 (p.tq * 2 ^ 32)

/-- The task record's words that start at 0. -/
def State.memberZeros (s : State) (c ws : Nat) : State := (List.range 5).foldl (fun s i => s.sPut c (wsOff ws (0x198 + 8 * i)) 8 0) s

/-- The rank, the stream and the count of draws. -/
def State.memberTail (s : State) (c ws rank : Nat) (p : LaunchPlan) : State :=
  ((s.sPut c (wsOff ws 0x1C0) 8 rank).sPut c (wsOff ws 0x1C8) 8 p.stream.toNat).sPut c (wsOff ws 0x1D0) 8 0

/-- The mailboxes' status words. -/
def State.memberMail (s : State) (c ws : Nat) : State :=
  (List.range 8).foldl (fun s i => s.sPut c (wsOff ws (0x200 + 8 * i)) 1 (s.sNum c (wsOff ws (0x200 + 8 * i)) 1 / 2 * 2)) s

theorem State.memberBytes_eq (s : State) (c ws rank : Nat) (p : LaunchPlan) :
    s.memberBytes c ws rank p = ((((s.memberRegs c ws p).memberHead c ws p).memberZeros c ws).memberTail c ws rank p).memberMail c ws := rfl

section
variable (s : State) (c ws rank : Nat) (p : LaunchPlan)

theorem State.memberRegs_writes : WritesIn c (wsOff ws 0) (wsOff ws 0x50) s (s.memberRegs c ws p) :=
  .foldl _ _ (fun t r hr => by
    obtain ⟨n, v⟩ := r
    have hn : n ≤ 9 := by rcases LaunchPlan.mem_regs hr with ⟨i, hi, rfl, -⟩ | rfl <;> omega
    exact .sPut t v (by simp only [wsOff]; omega) (by simp only [wsOff]; omega)) s

theorem State.memberHead_writes : WritesIn c (wsOff ws 0x100) (wsOff ws 0x198) s (s.memberHead c ws p) := by
  have hput : ∀ (t : State) v off, 0x100 ≤ off → off + 8 ≤ 0x198 → WritesIn c (wsOff ws 0x100) (wsOff ws 0x198) t (t.sPut c (wsOff ws off) 8 v) :=
    fun t v off h h' => .sPut t v (by simp only [wsOff]; omega) (by simp only [wsOff]; omega)
  exact ((((hput _ _ 0x100 (by decide) (by decide)).trans (hput _ _ 0x170 (by decide) (by decide))).trans
    (hput _ _ 0x180 (by decide) (by decide))).trans (hput _ _ 0x188 (by decide) (by decide))).trans (hput _ _ 0x190 (by decide) (by decide))

theorem State.memberZeros_writes : WritesIn c (wsOff ws 0x198) (wsOff ws 0x1C0) s (s.memberZeros c ws) :=
  .foldl _ _ (fun t i hi => by
    have := List.mem_range.mp hi
    exact .sPut t 0 (by simp only [wsOff]; omega) (by simp only [wsOff]; omega)) s

theorem State.memberTail_writes : WritesIn c (wsOff ws 0x1C0) (wsOff ws 0x1D8) s (s.memberTail c ws rank p) := by
  have hput : ∀ (t : State) v off, 0x1C0 ≤ off → off + 8 ≤ 0x1D8 → WritesIn c (wsOff ws 0x1C0) (wsOff ws 0x1D8) t (t.sPut c (wsOff ws off) 8 v) :=
    fun t v off h h' => .sPut t v (by simp only [wsOff]; omega) (by simp only [wsOff]; omega)
  exact ((hput _ _ 0x1C0 (by decide) (by decide)).trans (hput _ _ 0x1C8 (by decide) (by decide))).trans (hput _ _ 0x1D0 (by decide) (by decide))

theorem State.memberMail_writes : WritesIn c (wsOff ws 0x200) (wsOff ws 0x240) s (s.memberMail c ws) :=
  .foldl _ _ (fun t i hi => by
    have := List.mem_range.mp hi
    exact .sPut t _ (by simp only [wsOff]; omega) (by simp only [wsOff]; omega)) s

/-- A member's bytes lie in its workspace. -/
theorem State.memberBytes_writes : WritesIn c (1024 * ws) (1024 * ws + 1024) s (s.memberBytes c ws rank p) := by
  rw [State.memberBytes_eq]
  exact (((((s.memberRegs_writes c ws p).mono (by simp only [wsOff]; omega) (by simp only [wsOff]; omega)).trans
    ((State.memberHead_writes _ c ws p).mono (by simp only [wsOff]; omega) (by simp only [wsOff]; omega))).trans
    ((State.memberZeros_writes _ c ws).mono (by simp only [wsOff]; omega) (by simp only [wsOff]; omega))).trans
    ((State.memberTail_writes _ c ws rank p).mono (by simp only [wsOff]; omega) (by simp only [wsOff]; omega))).trans
    ((State.memberMail_writes _ c ws).mono (by simp only [wsOff]; omega) (by simp only [wsOff]; omega))

/-! ## What the words of a member's workspace hold -/

theorem State.sNum_memberRegs {j : Nat} (hj : j < 8) :
    (s.memberRegs c ws p).sNum c (wsOff ws (8 * (j + 1))) 8 = (p.args[j]?.getD 0).toNat := by
  have hset : ∀ t : State, (t.sPut c (wsOff ws (8 * (j + 1))) 8 (p.args[j]?.getD 0).toNat).sNum c (wsOff ws (8 * (j + 1))) 8 =
      (p.args[j]?.getD 0).toNat := fun t => by
    rw [t.sNum_sPut_same]
    exact Nat.mod_eq_of_lt (p.args[j]?.getD 0).isLt
  refine foldl_establishes_any (p.arg_mem_regs hj) s (fun t : State => t.sNum c (wsOff ws (8 * (j + 1))) 8 = (p.args[j]?.getD 0).toNat) hset
    fun t r hr ht => ?_
  obtain ⟨n, v⟩ := r
  by_cases hn : n = j + 1
  · rcases LaunchPlan.mem_regs hr with ⟨i, -, hi, rfl⟩ | h9
    · obtain rfl : i = j := by omega
      rw [hn]
      exact hset t
    · omega
  · rw [← ht]
    exact t.sNum_sPut_out c _ 8 v _ 8 (by simp only [wsOff]; omega)

theorem State.hnd_memberHead : (s.memberHead c ws p).hnd c ws = 0 := by
  have hnum : (s.memberHead c ws p).sNum c (wsOff ws 0x100) 8 = insertBits (s.sNum c (wsOff ws 0x100) 8) 30 2 0 % 2 ^ (8 * 8) := by
    unfold State.memberHead
    rw [State.sNum_sPut_ws _ c ws _ _ _ (by decide), State.sNum_sPut_ws _ c ws _ _ _ (by decide), State.sNum_sPut_ws _ c ws _ _ _ (by decide),
      State.sNum_sPut_ws _ c ws _ _ _ (by decide), State.sNum_sPut_same]
  rw [State.hnd, hnum, insertBits_eq, bitsOf_eq]
  omega

theorem State.sNum_memberTail_rank : (s.memberTail c ws rank p).sNum c (wsOff ws 0x1C0) 8 = rank % 2 ^ 64 := by
  unfold State.memberTail
  rw [State.sNum_sPut_ws _ c ws _ _ _ (by decide), State.sNum_sPut_ws _ c ws _ _ _ (by decide), State.sNum_sPut_same]

theorem State.sNum_memberTail_draws : (s.memberTail c ws rank p).sNum c (wsOff ws 0x1D0) 8 = 0 := by
  unfold State.memberTail
  rw [State.sNum_sPut_same, Nat.zero_mod]

end

/-- What the bytes of a member's workspace hold after its launch: its arguments, its rank, and no handler and no draw. -/
structure MemberWords (c ws rank : Nat) (p : LaunchPlan) (t : State) : Prop where
  args : ∀ j, j < 8 → t.sNum c (wsOff ws (8 * (j + 1))) 8 = (p.args[j]?.getD 0).toNat
  hnd : t.sNum c (wsOff ws 0x100) 8 / 2 ^ 30 % 2 ^ 2 = 0
  rank : t.sNum c (wsOff ws 0x1C0) 8 = rank % 2 ^ 64
  draws : t.sNum c (wsOff ws 0x1D0) 8 = 0

/-- The words stay while no byte of the workspace changes. -/
theorem MemberWords.keep {c ws rank : Nat} {p : LaunchPlan} {t u : State} (h : MemberWords c ws rank p t)
    (hu : ∀ off, off + 8 ≤ 1024 → u.sNum c (wsOff ws off) 8 = t.sNum c (wsOff ws off) 8) : MemberWords c ws rank p u where
  args j hj := by rw [hu _ (by omega), h.args j hj]
  hnd := by rw [hu _ (by omega), h.hnd]
  rank := by rw [hu _ (by omega), h.rank]
  draws := by rw [hu _ (by omega), h.draws]

theorem State.memberBytes_words (s : State) (c ws rank : Nat) (p : LaunchPlan) : MemberWords c ws rank p (s.memberBytes c ws rank p) := by
  rw [State.memberBytes_eq]
  generalize hr : s.memberRegs c ws p = r
  generalize hh : r.memberHead c ws p = h
  generalize hz : h.memberZeros c ws = z
  generalize ht : z.memberTail c ws rank p = t
  have hhead := r.memberHead_writes c ws p
  have hzero := h.memberZeros_writes c ws
  have htail := z.memberTail_writes c ws rank p
  have hmail := t.memberMail_writes c ws
  rw [hh] at hhead
  rw [hz] at hzero
  rw [ht] at htail
  constructor
  · intro j hj
    rw [hmail.num _ _ (by simp only [wsOff]; omega), htail.num _ _ (by simp only [wsOff]; omega), hzero.num _ _ (by simp only [wsOff]; omega),
      hhead.num _ _ (by simp only [wsOff]; omega), ← hr, s.sNum_memberRegs c ws p hj]
  · have hhnd := r.hnd_memberHead c ws p
    rw [hh, State.hnd, bitsOf_eq] at hhnd
    rw [hmail.num _ _ (by simp only [wsOff]; omega), htail.num _ _ (by simp only [wsOff]; omega), hzero.num _ _ (by simp only [wsOff]; omega), hhnd]
  · rw [hmail.num _ _ (by simp only [wsOff]; omega), ← ht, z.sNum_memberTail_rank]
  · rw [hmail.num _ _ (by simp only [wsOff]; omega), ← ht, z.sNum_memberTail_draws]

end Sys2Proof.Machine
end

section
/-! SUPPORT. How a packet is dispatched (R386 to R388): what stays of its queue while its work is done, and what each outcome of the
work answers. -/

namespace Sys2Proof.Machine

/-- A queue is in the state, the world and the loops it was in, at the same cycle. -/
structure QueueStands (q : Nat) (s t : State) : Prop where
  state : (t.queue q).state = (s.queue q).state
  world : (t.queue q).world = (s.queue q).world
  loops : (t.queue q).loops = (s.queue q).loops
  cycle : t.cycle = s.cycle

theorem QueueStands.refl (q : Nat) (s : State) : QueueStands q s s := ⟨rfl, rfl, rfl, rfl⟩

theorem QueueStands.trans {q : Nat} {s t u : State} (h : QueueStands q s t) (h' : QueueStands q t u) : QueueStands q s u :=
  ⟨h'.state.trans h.state, h'.world.trans h.world, h'.loops.trans h.loops, h'.cycle.trans h.cycle⟩

theorem FrontKept.stands {s t : State} (h : FrontKept s t) (q : Nat) : QueueStands q s t :=
  ⟨by rw [h.queue], by rw [h.queue], by rw [h.queue], h.cycle⟩

theorem State.queue_modQueue_same (s : State) (q : Nat) (f : Queue → Queue) : (s.modQueue q f).queue q = f (s.queue q) :=
  s.queue_putQueue_same q _

/-- A change of a queue that leaves its state, world and loops. -/
theorem QueueStands.modQueue (s : State) (q : Nat) (f : Queue → Queue) (h : (f (s.queue q)).state = (s.queue q).state)
    (hw : (f (s.queue q)).world = (s.queue q).world) (hl : (f (s.queue q)).loops = (s.queue q).loops) :
    QueueStands q s (s.modQueue q f) := by
  constructor
  · rw [s.queue_modQueue_same, h]
  · rw [s.queue_modQueue_same, hw]
  · rw [s.queue_modQueue_same, hl]
  · rfl

theorem QueueStands.modEntry (s : State) (q k : Nat) (f : WEntry → WEntry) : QueueStands q s (s.modQueue q (fun x => x.modEntry k f)) :=
  .modQueue s q _ rfl rfl rfl

theorem QueueStands.finishEntry (s : State) (q k : Nat) (st : StatusInfo) : QueueStands q s (s.finishEntry q k st) := .modEntry s q k _

theorem QueueStands.putStage (s : State) (q k : Nat) (r : StageRun) : QueueStands q s (s.putStage q k r) := .modEntry s q k _

theorem QueueStands.unguard (s : State) (q k : Nat) (f : WEntry → WEntry) :
    QueueStands q s (s.modQueue q (fun x => (x.unguard k).modEntry k f)) := by
  apply QueueStands.modQueue <;> simp only [Queue.modEntry, Queue.unguard] <;> split <;> rfl

theorem QueueStands.noteTurn (s : State) (q : Nat) : QueueStands q s (s.noteTurn q) := by
  unfold State.noteTurn
  constructor
  · rw [State.queue_putQueue_same]
  · rw [State.queue_putQueue_same]
  · rw [State.queue_putQueue_same]
  · rfl

theorem QueueStands.takeEntry {s u : State} {q k : Nat} {h : PktHdr} (ht : s.takeEntry q k h = .ok u) : QueueStands q s u := by
  have hturn := (QueueStands.unguard s q k (fun e => { e with state := .dispatched, isReady := false, readySince := none })).trans (.noteTurn _ q)
  unfold State.takeEntry at ht
  dsimp only at ht
  split at ht
  · exact (hturn.trans (.modQueue _ q _ rfl rfl rfl)).trans ((State.qcbPut_keeps ht).stands q)
  · cases ht; exact hturn

theorem State.noteStuck_running {s : State} {q : Nat} (k : Nat) (h : (s.queue q).state = 1) : s.noteStuck q k = s := if_pos h

/-! ## The outcomes of a packet's work -/

section
variable {s u w : State} {q k : Nat} {h : PktHdr} {e : WEntry} {f : State → Except FeStop State}

/-- A packet that is not ready, or whose queue is stopped, is not dispatched (R386). -/
theorem State.dispatch_idle (hidle : (s.queue q).state ≠ 1 ∨ ∀ e, (s.queue q).entry? k = some e → (s.queue q).ready e = false) :
    s.dispatch q k h f = .next s := by
  unfold State.dispatch
  split
  · rfl
  next e he =>
    refine if_neg fun ⟨hs, hr⟩ => ?_
    rcases hidle with hidle | hidle
    · exact hidle hs
    · rw [hidle e he] at hr
      cases hr

theorem State.feTryFor_ok {r : Except FeStop State} (hr : r = .ok w) (hw : (w.queue q).state = 1) : s.feTryFor q k r = w := by
  rw [hr, State.feTryFor]
  split
  · exact State.noteStuck_running k hw
  · rfl

/-- A try that has to be made again changes nothing (R388). -/
theorem State.feTryFor_again (hs : (s.queue q).state = 1) : s.feTryFor q k (.error .again) = s := by
  rw [State.feTryFor, if_pos hs, State.feTry, State.feStopped, if_neg fun hn => hn hs]
  exact State.noteStuck_running k hs

theorem foldl_scrub_kept (cs : List Nat) (w : Nat) (s : State) : FrontKept s (cs.foldl (fun s c => s.scrub c w) s) :=
  FrontKept.foldl (fun t => t) _ (fun t c => t.scrub_keeps c w) cs s

/-- The queue's world is the same at each of the cores that a launch scrubs. -/
theorem foldl_scrub_world (cs : List Nat) (q w : Nat) {s : State} (h : (s.queue q).world = w) :
    cs.foldl (fun s c => s.scrub c (s.queue q).world) s = cs.foldl (fun s c => s.scrub c w) s := by
  induction cs generalizing s with
  | nil => rfl
  | cons c cs ih =>
    rw [List.foldl_cons, List.foldl_cons, h]
    exact ih (by rw [(s.scrub_keeps c w).queue, h])

theorem State.feTryFor_scrub (hs : (s.queue q).state = 1) (cs : List Nat) :
    s.feTryFor q k (.error (.scrub cs)) = cs.foldl (fun t c => t.scrub c (s.queue q).world) s := by
  rw [State.feTryFor, if_pos hs, State.feTry, State.feStopped, if_neg fun hn => hn hs]
  rw [foldl_scrub_world cs q _ rfl]
  exact State.noteStuck_running k (by rw [(foldl_scrub_kept cs _ s).queue, hs])

/-- A ready packet is taken, and its work decides what is left (R388). -/
theorem State.dispatch_taken (he : (s.queue q).entry? k = some e) (hs : (s.queue q).state = 1) (hr : (s.queue q).ready e = true)
    (hu : s.takeEntry q k h = .ok u) : s.dispatch q k h f = .next ((s.feTryFor q k (f u)).settled q) := by
  unfold State.dispatch
  rw [he]
  dsimp only
  rw [if_pos ⟨hs, hr⟩, hu]
  rfl

theorem State.dispatch_done (he : (s.queue q).entry? k = some e) (hs : (s.queue q).state = 1) (hr : (s.queue q).ready e = true)
    (hu : s.takeEntry q k h = .ok u) (hf : f u = .ok w) (hw : QueueStands q u w) : s.dispatch q k h f = .next (w.settled q) := by
  rw [State.dispatch_taken he hs hr hu, State.feTryFor_ok hf (by rw [hw.state, (QueueStands.takeEntry hu).state, hs])]

end

/-- The work of a packet that may stop: what is left where it does not. -/
theorem Dispatches.of_work {s : State} {i : Instr} {q k : Nat} {h : PktHdr} {f : State → Except FeStop State} {P : State → State → Prop}
    (hexec : exec i s = s.dispatch q k h f) (hdone : ∀ u w, f u = .ok w → QueueStands q u w ∧ P u w)
    (hstop : ∀ u x w, f u = .error x → P u w) : Dispatches s i q k h P := by
  intro e u he hs hr hu
  rw [hexec]
  cases hf : f u with
  | ok w => exact ⟨w, (hdone u w hf).2, State.dispatch_done he hs hr hu hf (hdone u w hf).1⟩
  | error x => exact ⟨_, hstop u x _ hf, State.dispatch_taken he hs hr hu⟩

/-! ## LAUNCH and LAUNCHI (R394, R395) -/

theorem State.takeCore_keeps (s : State) (c w g : Nat) (p : LaunchPlan) : FrontKept s (s.takeCore c w g p) := ⟨rfl, rfl⟩

theorem State.modTask_keeps (s : State) (c w : Nat) (f : Task → Task) : FrontKept s (s.modTask c w f) := ⟨rfl, rfl⟩

theorem State.fillCore_keeps (s : State) (w g i c : Nat) (p : LaunchPlan) : FrontKept s (s.fillCore w g i c p) := by
  unfold State.fillCore
  refine foldl_keeps (fun t : State => FrontKept s t) (s.takeCore_keeps c w g p) fun t m _ ht => ht.trans ?_
  exact ((t.memberBytes_writes c (p.wsb + m) (i * p.n + m) p).front).trans (State.modTask_keeps _ _ _ _)

theorem State.sendImage_keeps (s : State) (ls : List ILine) (c : Nat) : FrontKept s (s.sendImage ls c) := by
  have hlines := s.unreadLines_only c ((s.core c).drivenOut ls)
  unfold State.sendImage
  generalize s.unreadLines c _ = v at hlines ⊢
  exact FrontKept.trans (t := v) ⟨by rw [hlines], by rw [hlines]⟩ ⟨rfl, rfl⟩

theorem State.launch_keeps (s : State) (w q k : Nat) (p : LaunchPlan) (gx gy : Nat) (cores : List Nat) :
    FrontKept s (s.launch w q k p gx gy cores).1 := by
  have hfill : ∀ v, FrontKept s v → FrontKept s ((cores.zip (List.range cores.length)).foldl (fun (t : State) e => t.fillCore w s.nextId e.2 e.1 p) v) :=
    fun v hv => foldl_keeps (fun t : State => FrontKept s t) hv fun t e _ ht => ht.trans (t.fillCore_keeps w s.nextId e.2 e.1 p)
  have hsend : ∀ v, FrontKept s v → FrontKept s (cores.foldl (fun (t : State) c => t.sendImage (s.imageLines (cores.headD 0) p) c) v) :=
    fun v hv => foldl_keeps (fun t : State => FrontKept s t) hv fun t c _ ht => ht.trans (t.sendImage_keeps _ c)
  unfold State.launch
  exact (hsend _ (hfill { s with nextId := s.nextId + 1 } ⟨rfl, rfl⟩)).trans ⟨rfl, rfl⟩

theorem State.placeNow_none {s : State} {q k w : Nat} {p : LaunchPlan} (h : s.placeFor w p (s.heldFor q k) = none) :
    s.placeNow q k w p = .error .again := by
  rw [State.placeNow, h]

section
variable {s : State} {q k w gx gy : Nat} {p : LaunchPlan} {cores : List Nat} (h : s.placeFor w p (s.heldFor q k) = some (gx, gy, cores))
include h

theorem State.placeNow_scrubs (haway : s.toScrub w cores ≠ []) : s.placeNow q k w p = .error (.scrub (s.toScrub w cores)) := by
  rw [State.placeNow, h]
  exact if_pos haway

theorem State.placeNow_scrubbing (haway : s.toScrub w cores = []) (hc : ∃ c ∈ cores, s.cycle < (s.core c).scrubUntil) :
    s.placeNow q k w p = .error .again := by
  have hscrub : s.scrubbing cores = true := List.any_eq_true.mpr (hc.imp fun c hc => ⟨hc.1, decide_eq_true hc.2⟩)
  rw [State.placeNow, h]
  exact (if_neg fun hn => hn haway).trans (if_pos hscrub)

theorem State.placeNow_here (haway : s.toScrub w cores = []) (hc : ∀ c ∈ cores, (s.core c).scrubUntil ≤ s.cycle) :
    s.placeNow q k w p = .ok (gx, gy, cores) := by
  have hscrub : ¬(s.scrubbing cores = true) := fun hs => by
    obtain ⟨c, hcm, hlt⟩ := List.any_eq_true.mp hs
    exact absurd (hc c hcm) (Nat.not_le.mpr (of_decide_eq_true hlt))
  rw [State.placeNow, h]
  exact (if_neg fun hn => hn haway).trans (if_neg hscrub)

end

theorem State.launchFor_stops {s : State} {q k : Nat} {r : Option LaunchPlan × State} {p : LaunchPlan} {x : FeStop} (hp : r.1 = some p)
    (h : r.2.placeNow q k (s.queue q).world p = .error x) : s.launchFor q k r = .error x := by
  simp only [State.launchFor, hp, h]

theorem State.launchFor_launches {s : State} {q k gx gy : Nat} {r : Option LaunchPlan × State} {p : LaunchPlan} {cores : List Nat}
    (hp : r.1 = some p) (h : r.2.placeNow q k (s.queue q).world p = .ok (gx, gy, cores)) :
    s.launchFor q k r = .ok (r.2.launch (s.queue q).world q k p gx gy cores).1 := by
  simp only [State.launchFor, hp, h]

/-- What a launch packet answers once its plan is made, by R394's steps 1 and 2. -/
structure LaunchAnswers (s : State) (q k : Nat) (i : Instr) (r : Option LaunchPlan × State) : Prop where
  rejected : r.1 = none → exec i s = .next ((r.2.finishEntry q k ⟨5, 0, 0, 0⟩).settled q)
  unplaced : ∀ p, r.1 = some p → r.2.placeFor (s.queue q).world p (r.2.heldFor q k) = none → exec i s = .next (s.settled q)
  scrubs : ∀ p gx gy cores, r.1 = some p → r.2.placeFor (s.queue q).world p (r.2.heldFor q k) = some (gx, gy, cores) →
    r.2.toScrub (s.queue q).world cores ≠ [] →
    exec i s = .next (((r.2.toScrub (s.queue q).world cores).foldl (fun s' c => s'.scrub c (s.queue q).world) s).settled q)
  scrubbing : ∀ p gx gy cores, r.1 = some p → r.2.placeFor (s.queue q).world p (r.2.heldFor q k) = some (gx, gy, cores) →
    r.2.toScrub (s.queue q).world cores = [] → (∃ c ∈ cores, s.cycle < (r.2.core c).scrubUntil) → exec i s = .next (s.settled q)
  launched : ∀ p gx gy cores, r.1 = some p → r.2.placeFor (s.queue q).world p (r.2.heldFor q k) = some (gx, gy, cores) →
    r.2.toScrub (s.queue q).world cores = [] → (∀ c ∈ cores, (r.2.core c).scrubUntil ≤ s.cycle) →
    exec i s = .next ((r.2.launch (s.queue q).world q k p gx gy cores).1.settled q)

/-- A launch packet whose work comes to `launchFor` of its plan answers as R394 says. -/
theorem launchAnswers {s u v : State} {q k : Nat} {h : PktHdr} {i : Instr} {e : WEntry} {r : Option LaunchPlan × State}
    {f : State → Except FeStop State} (hexec : exec i s = s.dispatch q k h f) (hf : f u = v.launchFor q k r)
    (he : (s.queue q).entry? k = some e) (hs : (s.queue q).state = 1) (hr : (s.queue q).ready e = true) (hu : s.takeEntry q k h = .ok u)
    (hv : FrontKept u v) (hrv : FrontKept v r.2) : LaunchAnswers s q k i r := by
  have hstands : QueueStands q s v := (QueueStands.takeEntry hu).trans (hv.stands q)
  have hcycle : r.2.cycle = s.cycle := hrv.cycle.trans hstands.cycle
  have hwork : exec i s = .next ((s.feTryFor q k (v.launchFor q k r)).settled q) := by
    rw [hexec, State.dispatch_taken he hs hr hu, hf]
  have hstate : (r.2.queue q).state = 1 := by rw [hrv.queue, hstands.state, hs]
  have hagain : ∀ p, r.1 = some p → r.2.placeNow q k (s.queue q).world p = .error .again → exec i s = .next (s.settled q) := fun p hp hplace => by
    rw [hwork, State.launchFor_stops hp (by rw [hstands.world]; exact hplace), State.feTryFor_again hs]
  constructor
  · intro hnone
    have hfor : v.launchFor q k r = .ok (r.2.finishEntry q k ⟨5, 0, 0, 0⟩) := by rw [State.launchFor, hnone]
    rw [hwork, State.feTryFor_ok hfor (by rw [(QueueStands.finishEntry r.2 q k _).state, hstate])]
  · exact fun p hp hplace => hagain p hp (State.placeNow_none hplace)
  · intro p gx gy cores hp hplace haway
    rw [hwork, State.launchFor_stops hp (by rw [hstands.world]; exact State.placeNow_scrubs hplace haway), State.feTryFor_scrub hs]
  · intro p gx gy cores hp hplace haway hc
    exact hagain p hp (State.placeNow_scrubbing hplace haway (by rw [hcycle]; exact hc))
  · intro p gx gy cores hp hplace haway hc
    have hnow := State.placeNow_here hplace haway (by rw [hcycle]; exact hc)
    have hfor : v.launchFor q k r = .ok (r.2.launch (s.queue q).world q k p gx gy cores).1 := by
      rw [← hstands.world] at hnow ⊢
      exact State.launchFor_launches hp hnow
    rw [hwork, State.feTryFor_ok hfor (by rw [(r.2.launch_keeps _ q k p gx gy cores).queue, hstate])]

end Sys2Proof.Machine
end

section
/-! SUPPORT. What a stage, a bridge and a shootdown packet answer (R392 to R405), and the plan that R394 rejects. -/

namespace Sys2Proof.Machine

/-! ## Rejected plans (R394) -/

/-- What makes step 1 of R394 reject a launch's fields. -/
theorem launchBad_of {x : World} {o : ObjEntry} {w : Nat} {b : LaunchBody}
    (h : o.valid = false ∨ o.owner ≠ w ∨ o.entries.length ≤ b.entry ∨ 1024 < b.wsb + b.nm + 1 ∨ 16 < b.x0 + b.wm + 1 ∨
      16 < b.y0 + b.hm + 1 ∨ x.cquota < (b.wm + 1) * (b.hm + 1) * popCount 8 b.cmask) : launchBad x o w b = true := by
  unfold launchBad
  dsimp only
  rcases h with h | h | h | h | h | h | h <;> simp [h]

theorem State.planLaunch_bad {s : State} {w : Nat} {b : LaunchBody} (item : Option Nat)
    (h : launchBad (s.world w) (AMap.get ObjEntry.reset (s.world w).handles b.handle) w b = true) :
    s.planLaunch w b item = .ok (none, s) := if_pos h

/-! ## Stages (R403 to R405) -/

section
variable {s t : State} {q k : Nat} {r : StageRun}

theorem State.settleStage_stands (h : s.settleStage q k r = .ok t) : QueueStands q s t := by
  obtain ⟨s1, h1, h⟩ := except_bind_ok h
  obtain ⟨⟨i, s2⟩, h2, h⟩ := except_bind_ok h
  obtain ⟨s3, h3, h⟩ := except_bind_ok h
  have hkeep : FrontKept s s3 := ((State.payBack_keeps h1).trans (State.stageQ_keeps h2)).trans (State.advanceFreed_keeps h3)
  have hput := (hkeep.stands q).trans (.putStage s3 q k { r with
    owed := 0, retired := r.retired.filter (fun x => decide (freedAfter r.retired r.retired.length i.freed ≤ x)), seen := (i.prod, i.closed) })
  dsimp only at h
  split at h
  · cases h; exact hput
  · obtain ⟨s5, h5, h⟩ := except_bind_ok h
    cases h
    exact (hput.trans ((State.closeOut_keeps h5).stands q)).trans (.finishEntry s5 q k _)

theorem exec_stage_none (h : (s.queue q).stage? k = none) :
    exec (.stageLaunch q k) s = .next s ∧ exec (.stageQueueObserve q k) s = .next s := by
  constructor
  · show execStageLaunch q k s = _
    rw [execStageLaunch, h]
  · show execStageQueueObserve q k s = _
    rw [execStageQueueObserve, h]

theorem exec_stageQueueObserve_settled (h : (s.queue q).stage? k = some r) (hset : s.settleStage q k r = .ok t) :
    exec (.stageQueueObserve q k) s = .next (t.settled q) := by
  show execStageQueueObserve q k s = _
  rw [execStageQueueObserve, h]
  dsimp only
  rw [hset]
  by_cases hs : (s.queue q).state = 1
  · rw [State.feTryFor_ok rfl (by rw [(State.settleStage_stands hset).state, hs])]
  · rw [State.feTryFor, if_neg hs, State.feTry]

theorem exec_stageLaunch_stopped (h : (s.queue q).stage? k = some r) (hs : (s.queue q).state ≠ 1) : exec (.stageLaunch q k) s = .next s := by
  show execStageLaunch q k s = _
  rw [execStageLaunch, h]
  exact if_neg hs

theorem exec_stageLaunch_running (h : (s.queue q).stage? k = some r) (hs : (s.queue q).state = 1) :
    exec (.stageLaunch q k) s = .next ((s.feTryFor q k (s.launchStage q k r)).settled q) := by
  show execStageLaunch q k s = _
  rw [execStageLaunch, h]
  exact if_pos hs

/-- A changed entry of a queue's window has been changed. -/
theorem State.window_modEntry (s : State) (q k : Nat) (f : WEntry → WEntry) {P : WEntry → Prop} (hf : ∀ e, P (f e)) :
    ∀ y ∈ ((s.modQueue q (fun x => x.modEntry k f)).queue q).window, y.k = k → P y := by
  intro y hy hyk
  rw [s.queue_modQueue_same] at hy
  obtain ⟨e, -, rfl⟩ := List.mem_map.mp hy
  by_cases he : (e.k == k) = true
  · rw [if_pos he]; exact hf e
  · rw [if_neg he] at hyk
    exact absurd (beq_iff_eq.mpr hyk) he

/-- A stage's launch leaves its stage with the gang and the item in it. -/
theorem State.launchStage_launches {i : StageQ} {u v w s4 : State} {c : LaunchBody} {p : LaunchPlan} {gx gy : Nat} {cores : List Nat}
    (hi : s.stageRunnable q r = .ok (some i, u)) (hc : u.readLaunch (s.queue q).world r.body.ldesc = .ok (c, v))
    (hp : v.planLaunch (s.queue q).world c (some i.cons) = .ok (some p, w))
    (hplace : w.placeNow q k (s.queue q).world p = .ok (gx, gy, cores)) (h4 : w.takeItem (s.queue q).world r.body i.cons = .ok s4) :
    ∃ t, s.launchStage q k r = .ok t ∧ QueueStands q s t ∧
      ∀ y ∈ (t.queue q).window, y.k = k → y.stage = some { r with gangs := r.gangs ++ [(s4.nextId, i.cons)] } := by
  have hkeep : FrontKept s s4 := (((State.stageRunnable_keeps hi).trans (State.readLaunch_keeps hc)).trans (State.planLaunch_keeps hp)).trans
    (State.takeItem_keeps h4)
  have hlaunch := ((hkeep.stands q).trans (.noteTurn s4 q)).trans (((s4.noteTurn q).launch_keeps (s.queue q).world q k p gx gy cores).stands q)
  have hmarked := hlaunch.trans (.unguard _ q k (fun e => { e with isReady := false, readySince := none }))
  refine ⟨_, ?_, hmarked.trans (.putStage _ q k { r with gangs := r.gangs ++ [(s4.nextId, i.cons)] }),
    State.window_modEntry _ q k _ (fun _ => rfl)⟩
  simp only [State.launchStage, Bind.bind, Except.bind, hi, hc, hp, hplace, h4]
  rfl

theorem exec_stageLaunch_launches {i : StageQ} {u v w s4 : State} {c : LaunchBody} {p : LaunchPlan} {gx gy : Nat} {cores : List Nat}
    (h : (s.queue q).stage? k = some r) (hs : (s.queue q).state = 1)
    (hi : s.stageRunnable q r = .ok (some i, u)) (hc : u.readLaunch (s.queue q).world r.body.ldesc = .ok (c, v))
    (hp : v.planLaunch (s.queue q).world c (some i.cons) = .ok (some p, w))
    (hplace : w.placeFor (s.queue q).world p (w.heldFor q k) = some (gx, gy, cores))
    (hfree : ∀ c ∈ cores, (w.core c).world = (s.queue q).world ∧ (w.core c).scrubUntil ≤ s.cycle)
    (h4 : w.takeItem (s.queue q).world r.body i.cons = .ok s4) :
    ∃ t : State, exec (.stageLaunch q k) s = .next (t.settled q) ∧
      ∀ y ∈ (t.queue q).window, y.k = k → y.stage = some { r with gangs := r.gangs ++ [(s4.nextId, i.cons)] } := by
  have hkeep : FrontKept s w := ((State.stageRunnable_keeps hi).trans (State.readLaunch_keeps hc)).trans (State.planLaunch_keeps hp)
  have haway : w.toScrub (s.queue q).world cores = [] := List.filter_eq_nil_iff.mpr fun c hc => by simp [(hfree c hc).1]
  have hnow := State.placeNow_here hplace haway fun c hc => by rw [hkeep.cycle]; exact (hfree c hc).2
  obtain ⟨t, ht, hstands, hstage⟩ := State.launchStage_launches hi hc hp hnow h4
  refine ⟨t, ?_, hstage⟩
  rw [exec_stageLaunch_running h hs, State.feTryFor_ok ht (by rw [hstands.state, hs])]

theorem StageRun.over_running {i : StageQ} (h : r.gangs ≠ []) : r.over i = none := if_pos h

theorem StageRun.over_stopped {i : StageQ} {st : StatusInfo} (h : r.gangs = []) (hst : r.stopped = some st) : r.over i = some st := by
  rw [StageRun.over, if_neg fun hn => hn h, hst]

theorem StageRun.over_input {i : StageQ} (h : r.gangs = []) (hst : r.stopped = none) :
    r.over i = if i.closed = true ∧ i.cons = i.prod then some ⟨0, 0, 0, 0⟩ else none := by
  rw [StageRun.over, if_neg fun hn => hn h, hst]

end

/-! ## COPY (R401) -/

/-- Where a bridge's copy stands when it can go no further. -/
def State.bridgeRun (s : State) (r : CopyRun) : State × CopyRun :=
  bridgeSteps (bridgeSteps 2 s r).2.bridgeFuel (bridgeSteps 2 s r).1 (bridgeSteps 2 s r).2

theorem State.bridgeRun_keeps (s : State) (r : CopyRun) : FrontKept s (s.bridgeRun r).1 :=
  (bridgeSteps_keeps 2 s r).trans (bridgeSteps_keeps _ _ _)

section
variable {s : State} {q k : Nat} {r : CopyRun} (h : ((s.queue q).entry? k).bind (fun e => e.copy) = some r)
include h

theorem State.runBridge_over (hover : (s.bridgeRun r).2.over = true) : ∃ u, QueueStands q s u ∧
    s.runBridge q k = u.finishEntry q k ⟨if (s.bridgeRun r).2.bad then 4 else 0, 0, 0, 0⟩ := by
  have hmod := ((s.bridgeRun_keeps r).stands q).trans (.modEntry _ q k (fun e => { e with copy := some (s.bridgeRun r).2 }))
  generalize hm : (s.bridgeRun r).1.modQueue q (fun x => x.modEntry k (fun e => { e with copy := some (s.bridgeRun r).2 })) = m at hmod
  refine ⟨{ m.settleCommand r.cmd.id with feStamp := max m.feStamp (s.bridgeRun r).2.cmd.stamp }, hmod.trans ?_, ?_⟩
  · exact FrontKept.stands ⟨by show (m.settleCommand _).queues = _; unfold State.settleCommand; split <;> rfl,
      by show (m.settleCommand _).cycle = _; unfold State.settleCommand; split <;> rfl⟩ q
  · rw [← hm, State.runBridge, h]
    exact if_pos hover

theorem State.runBridge_goes (hover : (s.bridgeRun r).2.over = false) :
    s.runBridge q k = (s.bridgeRun r).1.modQueue q (fun x => x.modEntry k (fun e => { e with copy := some (s.bridgeRun r).2 })) := by
  rw [State.runBridge, h]
  exact if_neg fun hn => Bool.false_ne_true (hover.symm.trans hn)

end

theorem State.runBridge_stands (s : State) (q k : Nat) : QueueStands q s (s.runBridge q k) := by
  cases h : ((s.queue q).entry? k).bind (fun e => e.copy) with
  | none => rw [State.runBridge, h]; exact .refl q s
  | some r =>
    by_cases hover : (s.bridgeRun r).2.over = true
    · obtain ⟨u, hu, hrun⟩ := State.runBridge_over h hover
      rw [hrun]
      exact hu.trans (.finishEntry u q k _)
    · rw [State.runBridge_goes h (Bool.eq_false_iff.mpr hover)]
      exact ((s.bridgeRun_keeps r).stands q).trans (.modEntry _ q k _)

/-! ## What the packets' work leaves -/

theorem Dispatches.of_always {s : State} {i : Instr} {q k : Nat} {h : PktHdr} {g : State → State} {P : State → State → Prop}
    (hexec : exec i s = s.dispatch q k h (fun u => .ok (g u))) (hstands : ∀ u, QueueStands q u (g u)) (hdone : ∀ u, P u (g u)) :
    Dispatches s i q k h P := .of_work hexec
  (fun u w hf => by cases hf; exact ⟨hstands u, hdone u⟩) fun u x w hf => by cases hf

section
variable (s : State) (q k : Nat) (h : PktHdr)

theorem dispatches_pktStage (b : StageBody) (w' : State) : Dispatches s (.pktStage q k h b) q k h (fun u w =>
    (u.putStage q k ⟨b, [], [], 0, (0, false), none⟩).settleStage q k ⟨b, [], [], 0, (0, false), none⟩ = .ok w' → w = w') := by
  refine Dispatches.of_work (f := fun u => (u.putStage q k ⟨b, [], [], 0, (0, false), none⟩).settleStage q k ⟨b, [], [], 0, (0, false), none⟩) rfl
    (fun u w hf => ⟨(QueueStands.putStage u q k _).trans (State.settleStage_stands hf), fun hw => ?_⟩) fun u x w hf hw => ?_
  · exact Except.ok.inj (hf.symm.trans hw)
  · cases hf.symm.trans hw

/-- A COPY packet's bridge as it starts (R401). -/
def State.startBridge (u : State) (q k desc clasp : Nat) : State :=
  { u with nextId := u.nextId + 1 }.modQueue q (fun x => x.modEntry k (fun e => { e with
    copy := some (CopyRun.of (bridgeCmd u.nextId x.world q k desc clasp u.feStamp)) }))

theorem State.startBridge_stands (u : State) (q k desc clasp : Nat) : QueueStands q u (u.startBridge q k desc clasp) :=
  (FrontKept.stands (s := u) (t := { u with nextId := u.nextId + 1 }) ⟨rfl, rfl⟩ q).trans (QueueStands.modEntry { u with nextId := u.nextId + 1 } q k
    (fun e => { e with copy := some (CopyRun.of (bridgeCmd u.nextId (u.queue q).world q k desc clasp u.feStamp)) }))

theorem dispatches_pktCopy (desc clasp : Nat) :
    Dispatches s (.pktCopy q k h desc clasp) q k h (fun u w => w = (u.startBridge q k desc clasp).runBridge q k) :=
  .of_always (g := fun u => (u.startBridge q k desc clasp).runBridge q k) rfl
    (fun u => (u.startBridge_stands q k desc clasp).trans (State.runBridge_stands _ q k)) fun _ => rfl

theorem dispatches_pktShoot (x : ShootBody) : Dispatches s (.pktShoot q k h x) q k h (fun u w =>
    ((u.world x.world).used = true → w = { u with
      nextId := u.nextId + 1, shoots := u.shoots ++ [⟨u.nextId, x.world, x.va, x.len, x.big, some (q, k)⟩] }) ∧
    ((u.world x.world).used = false → w = u.finishEntry q k ⟨0, 0, 0, 0⟩)) := by
  refine Dispatches.of_work (f := fun u => if (u.world x.world).used then
      .ok { u with nextId := u.nextId + 1, shoots := u.shoots ++ [⟨u.nextId, x.world, x.va, x.len, x.big, some (q, k)⟩] }
    else .ok (u.finishEntry q k ⟨0, 0, 0, 0⟩)) rfl (fun u w hf => ?_) fun u y w hf => ?_
  · split at hf
    next hused => cases hf; exact ⟨FrontKept.stands (s := u) (t := { u with
      nextId := u.nextId + 1, shoots := u.shoots ++ [⟨u.nextId, x.world, x.va, x.len, x.big, some (q, k)⟩] }) ⟨rfl, rfl⟩ q, fun _ => rfl, fun hn => absurd (hused.symm.trans hn) nofun⟩
    next hused => cases hf; exact ⟨.finishEntry u q k _, fun hn => absurd hn hused, fun _ => rfl⟩
  · split at hf <;> cases hf

end

end Sys2Proof.Machine
end

section
/-! SUPPORT. A launch makes its gang, and its members stand in their workspaces (R59, R62, R63, R394). -/

namespace Sys2Proof.Machine

/-- A member of gang g stands in its workspace of a core of world w, with its rank. -/
structure MemberStands (w g c ws rank : Nat) (p : LaunchPlan) (t : State) : Prop where
  gang : (t.core c).gang = some g
  world : (t.core c).world = w
  task : t.task c ws = p.member g
  words : MemberWords c ws rank p t

/-- A member is known by what its core's gang, world, tasks and scratchpad are. -/
theorem MemberStands.of_core {w g c ws rank : Nat} {p : LaunchPlan} {t u : State} (h : MemberStands w g c ws rank p t)
    (hgang : (u.core c).gang = (t.core c).gang) (hworld : (u.core c).world = (t.core c).world) (htask : u.task c ws = t.task c ws)
    (hbytes : (u.core c).scratch = (t.core c).scratch) : MemberStands w g c ws rank p u where
  gang := hgang.trans h.gang
  world := hworld.trans h.world
  task := htask.trans h.task
  words := h.words.keep fun _ _ => State.sNum_congr _ _ hbytes

theorem MemberStands.of_same_core {w g c ws rank : Nat} {p : LaunchPlan} {t u : State} (h : MemberStands w g c ws rank p t)
    (hu : u.core c = t.core c) : MemberStands w g c ws rank p u :=
  h.of_core (by rw [hu]) (by rw [hu]) (by rw [State.task, hu, State.task]) (by rw [hu])

/-! ## One core is filled (R59, R62 step 3) -/

/-- One member's workspace is written and its thread set up. -/
def State.fillMember (s : State) (g i c : Nat) (p : LaunchPlan) (m : Nat) : State :=
  (s.memberBytes c (p.wsb + m) (i * p.n + m) p).modTask c (p.wsb + m) (fun _ => p.member g)

theorem State.fillCore_eq (s : State) (w g i c : Nat) (p : LaunchPlan) :
    s.fillCore w g i c p = (List.range p.n).foldl (fun t m => t.fillMember g i c p m) (s.takeCore c w g p) := rfl

section
variable (s : State) (w g i c : Nat) (p : LaunchPlan)

theorem State.takeCore_gang : ((s.takeCore c w g p).core c).gang = some g := by
  rw [State.takeCore, State.core_modCore_same]

theorem State.takeCore_world : ((s.takeCore c w g p).core c).world = (s.core c).world := by
  rw [State.takeCore, State.core_modCore_same, State.raisePts, State.core_modCore_same]

theorem State.fillMember_core (m : Nat) : ((s.fillMember g i c p m).core c).gang = (s.core c).gang ∧
    ((s.fillMember g i c p m).core c).world = (s.core c).world := by
  have hbytes := (s.memberBytes_writes c (p.wsb + m) (i * p.n + m) p).core
  unfold State.fillMember
  generalize s.memberBytes c (p.wsb + m) (i * p.n + m) p = v at hbytes
  rw [v.core_modTask, if_pos rfl, hbytes]
  exact ⟨rfl, rfl⟩

theorem State.scratch_modTask (x : Nat) (f : Task → Task) : ((s.modTask c x f).core c).scratch = (s.core c).scratch := by
  rw [s.core_modTask, if_pos rfl]
  rfl

theorem State.fillMember_words (m : Nat) : MemberWords c (p.wsb + m) (i * p.n + m) p (s.fillMember g i c p m) :=
  (s.memberBytes_words c (p.wsb + m) (i * p.n + m) p).keep fun _ _ => State.sNum_congr _ _ (State.scratch_modTask _ c _ _)

theorem State.fillMember_stands (m : Nat) (hgang : (s.core c).gang = some g) (hworld : (s.core c).world = w) :
    MemberStands w g c (p.wsb + m) (i * p.n + m) p (s.fillMember g i c p m) where
  gang := (s.fillMember_core g i c p m).1.trans hgang
  world := (s.fillMember_core g i c p m).2.trans hworld
  task := State.task_modTask_same _ _ _ _
  words := s.fillMember_words g i c p m

/-- The set-up of another member of the core leaves a member as it stands. -/
theorem State.fillMember_keeps {m : Nat} (n : Nat) (hn : n ≠ m) (h : MemberStands w g c (p.wsb + m) (i * p.n + m) p s) :
    MemberStands w g c (p.wsb + m) (i * p.n + m) p (s.fillMember g i c p n) where
  gang := (s.fillMember_core g i c p n).1.trans h.gang
  world := (s.fillMember_core g i c p n).2.trans h.world
  task := by
    rw [State.fillMember, State.task_modTask, if_neg fun ⟨_, he⟩ => hn (Nat.add_left_cancel he).symm, (s.memberBytes_writes c _ _ p).task, h.task]
  words := h.words.keep fun off ho => by
    rw [State.fillMember, State.sNum_congr _ _ (State.scratch_modTask _ c _ _)]
    exact (s.memberBytes_writes c _ _ p).num _ 8 (by simp only [wsOff]; omega)

theorem State.fillCore_stands {m : Nat} (hm : m < p.n) (hworld : (s.core c).world = w) :
    MemberStands w g c (p.wsb + m) (i * p.n + m) p (s.fillCore w g i c p) := by
  rw [State.fillCore_eq]
  refine foldl_establishes (List.mem_range.mpr hm) (s.takeCore c w g p) (fun t : State => (t.core c).gang = some g ∧ (t.core c).world = w)
    (MemberStands w g c (p.wsb + m) (i * p.n + m) p) ⟨s.takeCore_gang w g c p, (s.takeCore_world w g c p).trans hworld⟩
    (fun t n _ ht => ?_) (fun t ht => t.fillMember_stands w g i c p m ht.1 ht.2) fun t n _ ht => ?_
  · exact ⟨(t.fillMember_core g i c p n).1.trans ht.1, (t.fillMember_core g i c p n).2.trans ht.2⟩
  · by_cases hn : n = m
    · rw [hn]
      exact t.fillMember_stands w g i c p m ht.gang ht.world
    · exact t.fillMember_keeps w g i c p n hn ht

theorem OneCore.fillCore : OneCore c s (s.fillCore w g i c p) := by
  have htake : OneCore c s (s.takeCore c w g p) := (OneCore.modCore s c _).trans (.modCore _ c _)
  rw [State.fillCore_eq]
  exact htake.trans (.foldl _ (fun t m => ((t.memberBytes_writes c _ _ p).device).trans (.modTask _ c _ _)) _ _)

theorem State.fillCore_world : ((s.fillCore w g i c p).core c).world = (s.core c).world := by
  rw [State.fillCore_eq]
  exact foldl_keeps (fun t : State => (t.core c).world = (s.core c).world) (s.takeCore_world w g c p)
    fun t m _ ht => (t.fillMember_core g i c p m).2.trans ht

end

/-! ## The image reaches the cores (R62 step 2) -/

theorem Core.takeImage_only (k : Core) (ls : List ILine) : k.takeImage ls = { k with icache := (k.takeImage ls).icache } :=
  foldl_keeps (fun x : Core => x = { k with icache := x.icache }) rfl fun x l _ hx => by
    unfold Core.addLine
    rw [hx]

theorem State.core_sendImage (s : State) (ls : List ILine) (c d : Nat) :
    (s.sendImage ls c).core d = if d = c then (s.core c).takeImage ls else s.core d := by
  have hcores : (s.unreadLines c ((s.core c).drivenOut ls)).cores = s.cores := by rw [s.unreadLines_only c _]
  have hcore : ∀ e, (s.unreadLines c ((s.core c).drivenOut ls)).core e = s.core e := fun e => by rw [State.core, hcores, State.core]
  rw [State.sendImage, State.core_modCore, hcore, hcore]

theorem MemberStands.sendImage {w g c ws rank : Nat} {p : LaunchPlan} {t : State} (h : MemberStands w g c ws rank p t) (ls : List ILine)
    (d : Nat) : MemberStands w g c ws rank p (t.sendImage ls d) := by
  have hcore := t.core_sendImage ls d c
  by_cases hd : c = d
  · subst hd
    rw [if_pos rfl, Core.takeImage_only] at hcore
    exact h.of_core (by rw [hcore]) (by rw [hcore]) (by rw [State.task, hcore]; rfl) (by rw [hcore])
  · rw [if_neg hd] at hcore
    exact h.of_same_core hcore

/-! ## The launch (R394) -/

section
variable (s : State) (w q k : Nat) (p : LaunchPlan) (gx gy : Nat) {cores : List Nat}

theorem State.launch_gang : AMap.find (s.launch w q k p gx gy cores).1.gangs s.nextId =
    some (p.gang w q k gx gy cores (s.cycle + launchCycles p.text)) := AMap.find_put_same _ _ _

/-- Every member of a launched gang stands in its workspace. -/
theorem State.launch_stands (hl : cores.Nodup) (hw : ∀ c ∈ cores, (s.core c).world = w) {i c m : Nat} (hc : cores[i]? = some c) (hm : m < p.n) :
    MemberStands w s.nextId c (p.wsb + m) (i * p.n + m) p (s.launch w q k p gx gy cores).1 := by
  have hfill : MemberStands w s.nextId c (p.wsb + m) (i * p.n + m) p
      ((cores.zip (List.range cores.length)).foldl (fun (t : State) e => t.fillCore w s.nextId e.2 e.1 p) { s with nextId := s.nextId + 1 }) := by
    refine foldl_establishes (mem_zip_range hc) { s with nextId := s.nextId + 1 } (fun t : State => (t.core c).world = w)
      (MemberStands w s.nextId c (p.wsb + m) (i * p.n + m) p) (hw c (List.mem_of_getElem? hc)) (fun t e _ ht => ?_)
      (fun t ht => t.fillCore_stands w s.nextId i c p hm ht) fun t e he ht => ?_
    · by_cases hd : c = e.1
      · subst hd; rw [t.fillCore_world, ht]
      · rw [(OneCore.fillCore t w s.nextId e.2 e.1 p).2 c hd, ht]
    · obtain ⟨d, j⟩ := e
      by_cases hd : c = d
      · subst hd
        obtain rfl : j = i := nodup_place hl (zip_range_getElem he) hc
        exact t.fillCore_stands w s.nextId j c p hm ht.world
      · exact ht.of_same_core ((OneCore.fillCore t w s.nextId j d p).2 c hd)
  have hsend := foldl_keeps (f := fun (t : State) d => t.sendImage (s.imageLines (cores.headD 0) p) d) (l := cores)
    (MemberStands w s.nextId c (p.wsb + m) (i * p.n + m) p) hfill fun t d _ ht => ht.sendImage _ d
  unfold State.launch
  exact hsend.of_same_core rfl

end

end Sys2Proof.Machine
end

section
/-! SUPPORT. What holds a shootdown, and what it drops (R121, R402). -/

namespace Sys2Proof.Machine

/-- Whether an access of a world at an address goes through what a shootdown drops. -/
def Shoot.hits (x : Shoot) (w a : Nat) : Prop := w = x.world ∧ x.va ≤ a ∧ a < x.va + x.len

theorem Shoot.hits_iff (x : Shoot) (w a : Nat) : (w == x.world && x.covers a) = true ↔ x.hits w a := by
  simp [Shoot.covers, Shoot.hits]

section
variable {s : State} {x : Shoot} (h : s.shootReady x = true)
include h

theorem State.shootReady_inflight {r : Request} (hr : r ∈ s.inflight) : ¬x.hits r.world r.va := by
  intro hx
  simp only [State.shootReady, Bool.and_eq_true, Bool.not_eq_true'] at h
  obtain ⟨⟨⟨⟨hinflight, -⟩, -⟩, -⟩, -⟩ := h
  exact absurd (List.any_eq_true.mpr ⟨r, hr, (x.hits_iff _ _).mpr hx⟩) (Bool.eq_false_iff.mp hinflight)

/-- At no core does a clasp wait or an answer of a fabric window hold the shootdown. -/
theorem State.shootReady_core {e : Nat × Core} (he : e ∈ s.cores) : (∀ r ∈ e.2.clWait, ¬x.hits r.world r.va) ∧
    ∀ y ∈ e.2.tasks, ∀ win ea op, y.2.park = .fabric win ea op → ¬x.hits e.2.world ea := by
  simp only [State.shootReady, Bool.and_eq_true] at h
  obtain ⟨⟨⟨⟨-, hcores⟩, -⟩, -⟩, -⟩ := h
  have hcore := List.all_eq_true.mp hcores e he
  simp only [Bool.and_eq_true, Bool.not_eq_true'] at hcore
  obtain ⟨⟨hwait, htasks⟩, -⟩ := hcore
  refine ⟨fun r hr hx => ?_, fun y hy win ea op hp hx => ?_⟩
  · exact absurd (List.any_eq_true.mpr ⟨r, hr, (x.hits_iff _ _).mpr hx⟩) (Bool.eq_false_iff.mp hwait)
  · refine absurd (List.any_eq_true.mpr ⟨y, hy, ?_⟩) (Bool.eq_false_iff.mp htasks)
    rw [hp]
    exact (x.hits_iff _ _).mpr hx

end

theorem State.shootReady_blocked {s : State} {x : Shoot} (h : (∃ r ∈ s.inflight, x.hits r.world r.va) ∨
    (∃ e ∈ s.cores, ∃ r ∈ e.2.clWait, x.hits r.world r.va) ∨
    ∃ e ∈ s.cores, ∃ y ∈ e.2.tasks, ∃ win ea op, y.2.park = .fabric win ea op ∧ x.hits e.2.world ea) : s.shootReady x = false := by
  refine Bool.eq_false_iff.mpr fun hready => ?_
  rcases h with ⟨r, hr, hx⟩ | ⟨e, he, r, hr, hx⟩ | ⟨e, he, y, hy, win, ea, op, hp, hx⟩
  · exact State.shootReady_inflight hready hr hx
  · exact (State.shootReady_core hready he).1 r hr hx
  · exact (State.shootReady_core hready he).2 y hy win ea op hp hx

/-! ## What a shootdown drops -/

/-- A core that has dropped a range's lines and translations. -/
def Core.shot (k : Core) (x : Shoot) : Core :=
  { k with
    l1 := k.l1.filter (fun e => !(x.covers (32 * e.1)))
    tlb := k.tlb.filter (fun e => !(e.world == x.world && e.big == x.big && x.covers e.vbase)) }

/-- A core holds no line and no translation of a shootdown's range. -/
structure Core.Clear (k : Core) (x : Shoot) : Prop where
  l1 : ∀ e ∈ k.l1, ¬(x.va ≤ 32 * e.1 ∧ 32 * e.1 < x.va + x.len)
  tlb : ∀ e ∈ k.tlb, e.world = x.world → e.big = x.big → ¬(x.va ≤ e.vbase ∧ e.vbase < x.va + x.len)

theorem Shoot.kept_iff (x : Shoot) (e : TlbEntry) : (!(e.world == x.world && e.big == x.big && x.covers e.vbase)) = true ↔
    (e.world = x.world → e.big = x.big → ¬(x.va ≤ e.vbase ∧ e.vbase < x.va + x.len)) := by
  simp only [Bool.not_eq_true', Bool.and_eq_false_iff, beq_eq_false_iff_ne, Shoot.covers, decide_eq_false_iff_not]
  tauto

theorem Core.shot_clear (k : Core) (x : Shoot) : (k.shot x).Clear x where
  l1 e he := by
    have hcovers := (List.mem_filter.mp he).2
    simp only [Shoot.covers, Bool.not_eq_true', Bool.and_eq_false_iff, decide_eq_false_iff_not] at hcovers
    omega
  tlb e he := (x.kept_iff e).mp (List.mem_filter.mp he).2

section
variable (s : State) (x : Shoot)

theorem State.core_shootCore (c d : Nat) : (s.shootCore x c).core d = if d = c then (s.core c).shot x else s.core d := by
  rw [State.shootCore, State.core_modCore]
  rfl

theorem SameBytes.shootCore (c : Nat) : SameBytes s (s.shootCore x c) := by
  refine ⟨fun _ => rfl, fun d a => ?_⟩
  rw [State.spadByte, s.core_shootCore, State.spadByte]
  split
  next hd => subst hd; rfl
  next => rfl

/-- The cores whose world a shootdown is for. -/
def State.shotCores : List Nat := (s.cores.filter (fun e => e.2.world == x.world)).map (fun e => e.1)

theorem State.core_shootdown (c : Nat) : (s.shootdown x).core c = ((s.shotCores x).foldl (fun t c => t.shootCore x c) s).core c := rfl

theorem SameBytes.shootdown : SameBytes s (s.shootdown x) := by
  have hfold := foldl_keeps (f := fun (t : State) c => t.shootCore x c) (l := s.shotCores x) (SameBytes s) (.refl s)
    fun t c _ ht => ht.trans (.shootCore t x c)
  exact hfold.trans (.of_eq rfl rfl)

/-- No core of the world keeps a line or a translation of the range. -/
theorem State.shootdown_clear (c : Nat) (hw : (s.core c).world = x.world) : ((s.shootdown x).core c).Clear x := by
  have hkeep : ∀ (t : State) d, (t.core c).Clear x → ((t.shootCore x d).core c).Clear x := fun t d ht => by
    rw [t.core_shootCore]
    split
    next hd => exact (t.core d).shot_clear x
    next => exact ht
  rw [s.core_shootdown]
  cases hfind : AMap.find s.cores c with
  | none =>
    have hreset : s.core c = Core.reset := by rw [State.core, AMap.get, hfind]; rfl
    exact foldl_keeps (fun t : State => (t.core c).Clear x) (by rw [hreset]; exact ⟨nofun, nofun⟩) fun t d _ ht => hkeep t d ht
  | some k =>
    have hk : s.core c = k := by rw [State.core, AMap.get, hfind]; rfl
    have hmem : c ∈ s.shotCores x :=
      List.mem_map.mpr ⟨(c, k), List.mem_filter.mpr ⟨AMap.mem_of_find hfind, by rw [← hk]; exact beq_iff_eq.mpr hw⟩, rfl⟩
    refine foldl_establishes_any hmem s (fun t : State => (t.core c).Clear x) (fun t => ?_) fun t d _ ht => hkeep t d ht
    rw [t.core_shootCore, if_pos rfl]
    exact (t.core c).shot_clear x

/-- A sett's translations after a shootdown. -/
def Sett.shot (t : Sett) : Sett := { t with tlb := t.tlb.filter (fun e => !(e.world == x.world && e.big == x.big && x.covers e.vbase)) }

theorem State.shootdown_sett (n : Nat) :
    (s.shootdown x).sett n = Sett.shot x (((s.shotCores x).foldl (fun t c => t.shootCore x c) s).sett n) :=
  AMap.get_map (fun _ t => Sett.shot x t) Sett.reset _ n

theorem State.shootdown_translations (n : Nat) : ∀ e ∈ ((s.shootdown x).sett n).tlb, e.world = x.world → e.big = x.big →
    ¬(x.va ≤ e.vbase ∧ e.vbase < x.va + x.len) := by
  rw [s.shootdown_sett]
  exact fun e he => (x.kept_iff e).mp (List.mem_filter.mp he).2

theorem State.shootdown_shoots : ∀ y ∈ (s.shootdown x).shoots, y.id ≠ x.id :=
  fun _ hy => by simpa using (List.mem_filter.mp hy).2

end

section
variable {s : State} {id : Nat} {x : Shoot}

theorem exec_shootdown_none (h : s.shoots.find? (fun x => x.id == id) = none) : exec (.shootdownComplete id) s = .next s := by
  show execShootdownComplete id s = _
  rw [execShootdownComplete, h]

theorem exec_shootdown_waits (h : s.shoots.find? (fun x => x.id == id) = some x) (hready : s.shootReady x = false) :
    exec (.shootdownComplete id) s = .next s := by
  show execShootdownComplete id s = _
  rw [execShootdownComplete, h]
  exact if_neg fun hn => Bool.false_ne_true (hready.symm.trans hn)

theorem exec_shootdown_packet {q k : Nat} (h : s.shoots.find? (fun x => x.id == id) = some x) (hready : s.shootReady x = true)
    (ho : x.origin = some (q, k)) :
    exec (.shootdownComplete id) s = .next (((s.shootdown x).finishEntry q k ⟨0, 0, 0, 0⟩).settled q) := by
  show execShootdownComplete id s = _
  rw [execShootdownComplete, h]
  refine (if_pos hready).trans ?_
  rw [ho]

theorem exec_shootdown_service (h : s.shoots.find? (fun x => x.id == id) = some x) (hready : s.shootReady x = true)
    (ho : x.origin = none) : exec (.shootdownComplete id) s = .next (s.shootdown x) := by
  show execShootdownComplete id s = _
  rw [execShootdownComplete, h]
  refine (if_pos hready).trans ?_
  rw [ho]

end

end Sys2Proof.Machine
end

section
/-! O50: launches, stages, copies and shootdowns (R394 to R405). -/

namespace Sys2Proof.Machine

section
variable (s : State) (q k : Nat) (h : PktHdr)

/-- A packet that comes to `dispatch` does nothing while it is not ready or its queue is stopped (R386). -/
theorem exec_idle {i : Instr} {f : State → Except FeStop State} (hexec : exec i s = s.dispatch q k h f)
    (hidle : (s.queue q).state ≠ 1 ∨ ∀ e, (s.queue q).entry? k = some e → (s.queue q).ready e = false) : exec i s = .next s :=
  hexec.trans (State.dispatch_idle hidle)

theorem exec_pktLaunch (b : LaunchBody) : exec (.pktLaunch q k h b) s = s.dispatch q k h (fun s1 => do
    let r ← s1.planLaunch (s.queue q).world b none
    s1.launchFor q k r) := rfl

theorem exec_pktLaunchi (desc : Nat) (stride : BitVec 64) : exec (.pktLaunchi q k h desc stride) s = s.dispatch q k h (fun s1 => do
    let (b, s2) ← s1.readLaunch (s.queue q).world ((s.queue q).descAt desc stride)
    let r ← s2.planLaunch (s.queue q).world b none
    s2.launchFor q k r) := rfl

variable {e : WEntry} {u : State} (he : (s.queue q).entry? k = some e) (hs : (s.queue q).state = 1) (hr : (s.queue q).ready e = true)
  (hu : s.takeEntry q k h = .ok u)
include he hs hr hu

theorem pktLaunch_answers {b : LaunchBody} {r : Option LaunchPlan × State} (hp : u.planLaunch (s.queue q).world b none = .ok r) :
    LaunchAnswers s q k (.pktLaunch q k h b) r := by
  refine launchAnswers (v := u) (exec_pktLaunch s q k h b) ?_ he hs hr hu (.refl u) (State.planLaunch_keeps hp)
  simp only [Bind.bind, Except.bind, hp]

theorem pktLaunchi_answers {desc : Nat} {stride : BitVec 64} {b : LaunchBody} {v : State} {r : Option LaunchPlan × State}
    (hread : u.readLaunch (s.queue q).world ((s.queue q).descAt desc stride) = .ok (b, v))
    (hp : v.planLaunch (s.queue q).world b none = .ok r) : LaunchAnswers s q k (.pktLaunchi q k h desc stride) r := by
  refine launchAnswers (v := v) (exec_pktLaunchi s q k h desc stride) ?_ he hs hr hu (State.readLaunch_keeps hread) (State.planLaunch_keeps hp)
  simp only [Bind.bind, Except.bind, hread, hp]

end

/-- A member that stands in its workspace holds what R63 gives it. -/
theorem MemberStands.holds {w g c ws rank : Nat} {p : LaunchPlan} {t : State} (h : MemberStands w g c ws rank p t) :
    (t.core c).gang = some g ∧ (t.core c).world = w ∧ (t.task c ws).pc = p.entry ∧ (t.task c ws).gang = some g ∧
      (t.task c ws).tstate = 1 ∧ t.sNum c (wsOff ws 0x1C0) 8 = rank % 2 ^ 64 ∧ t.drawCount c ws = 0 ∧ t.hnd c ws = 0 ∧
      ∀ j, j < 8 → t.sNum c (wsOff ws (8 * (j + 1))) 8 = (p.args[j]?.getD 0).toNat := by
  refine ⟨h.gang, h.world, ?_, ?_, ?_, h.words.rank, h.words.draws, ?_, h.words.args⟩
  · rw [h.task]; rfl
  · rw [h.task]; rfl
  · rw [h.task]; rfl
  · rw [State.hnd, bitsOf_eq]; exact h.words.hnd

/-- Settles O50: each packet's work is reduced to `dispatch`, which keeps the queue running while the work's own accesses go on; the
launch is a fold over the cores, each of which ends with its members in their workspaces. -/
theorem launchesStagesCopiesAndShootdownsFollowR394ToR405 : Obligations.LaunchesStagesCopiesAndShootdownsFollowR394ToR405 := by
  unfold Obligations.LaunchesStagesCopiesAndShootdownsFollowR394ToR405
  refine ⟨fun s q k h b desc clasp stride sb x => ⟨⟨?_, ?_⟩, ⟨?_, ?_⟩, ?_, ?_, ?_, ?_, ?_, ?_, ?_, ?_, ?_⟩, ?_, ?_, ?_, ?_⟩
  · exact exec_idle s q k h (exec_pktLaunch s q k h b)
  · rintro e u _ _ r he hs hr hu ⟨rfl, rfl⟩ hp
    have hanswers := pktLaunch_answers s q k h he hs hr hu hp
    exact ⟨hanswers.rejected, hanswers.unplaced, fun p gx gy cores hp hplace =>
      ⟨hanswers.scrubs p gx gy cores hp hplace, hanswers.scrubbing p gx gy cores hp hplace, hanswers.launched p gx gy cores hp hplace⟩⟩
  · exact exec_idle s q k h (exec_pktLaunchi s q k h desc stride)
  · intro e u b v r he hs hr hu hread hp
    have hanswers := pktLaunchi_answers s q k h he hs hr hu hread hp
    exact ⟨hanswers.rejected, hanswers.unplaced, fun p gx gy cores hp hplace =>
      ⟨hanswers.scrubs p gx gy cores hp hplace, hanswers.scrubbing p gx gy cores hp hplace, hanswers.launched p gx gy cores hp hplace⟩⟩
  · exact fun hbad => State.planLaunch_bad none (launchBad_of hbad)
  · exact exec_idle s q k h rfl
  · exact exec_idle s q k h rfl
  · exact exec_idle s q k h rfl
  · exact dispatches_pktStage s q k h sb
  · exact dispatches_pktCopy s q k h desc clasp
  · exact dispatches_pktShoot s q k h x
  · exact exec_stage_none
  · intro r hstage
    refine ⟨fun w hw => exec_stageQueueObserve_settled hstage hw, fun hs => exec_stageLaunch_stopped hstage hs, ?_⟩
    intro i u v c p w gx gy cores s4 hs hi hc hp hplace hfree h4
    exact exec_stageLaunch_launches hstage hs hi hc hp hplace hfree h4
  · intro s q k r hcopy
    refine ⟨fun hover => ?_, fun hover => ?_, fun m => State.copyFail_bad _ r⟩
    · obtain ⟨u, -, hrun⟩ := State.runBridge_over hcopy hover
      rw [hrun]
      exact State.window_modEntry u q k _ (fun _ => ⟨rfl, rfl⟩)
    · rw [State.runBridge_goes hcopy hover]
      exact State.window_modEntry _ q k _ (fun _ => rfl)
  · exact fun r i => ⟨fun h => r.over_running h, fun h st hst => r.over_stopped h hst, fun h hst => r.over_input h hst⟩
  · intro s w q k p gx gy cores hl _ hw
    exact ⟨_, s.launch_gang w q k p gx gy, rfl, rfl, rfl, rfl, rfl, fun i c m hc hm => (s.launch_stands w q k p gx gy hl hw hc hm).holds⟩
  · intro s id
    refine ⟨exec_shootdown_none, fun x hx => ⟨fun hblock => exec_shootdown_waits hx (State.shootReady_blocked hblock), fun hready => ?_⟩⟩
    have hid : x.id = id := by simpa using List.find?_some hx
    subst hid
    exact ⟨s.shootdown x, fun q k ho => exec_shootdown_packet hx hready ho, exec_shootdown_service hx hready, s.shootdown_shoots x,
      .shootdown s x, fun c hc => ⟨(s.shootdown_clear x c hc).l1, (s.shootdown_clear x c hc).tlb⟩, s.shootdown_translations x⟩

end Sys2Proof.Machine
end

section
/-! The state after reset (R44, R90, R95, R252, R322, R414, R430). -/

namespace Sys2Proof.Machine

/-- A memory that nothing has written holds zero in every number (log 12). -/
theorem Memory.num_nil (a n : Nat) : Memory.num [] a n = 0 := by
  simp [Memory.num_eq_sum]

/-- Every core after reset is the core after boot's scrub (R414). -/
theorem State.core_reset (c : Nat) : State.reset.core c = Core.reset := rfl

/-- Settles O60: every register of the device is read off the reset state, and what no map of a core lists has its default. -/
theorem resetLeavesNothingRunning : Obligations.ResetLeavesNothingRunning := by
  have hslot : ∀ c i, (State.reset.core c).slot i = Slot.reset := fun _ _ => rfl
  have hfull : ∀ c g, (State.reset.core c).isFull g = false := fun _ _ => rfl
  refine ⟨rfl, rfl, rfl, rfl, rfl, rfl, rfl, rfl, rfl, rfl, rfl, rfl, fun c => ?_, fun c i => ?_, hfull, fun c off n => ?_,
    fun _ => rfl, fun c w => ?_⟩
  · rw [State.core_reset]; rfl
  · rw [State.slot, hslot]; exact ⟨rfl, rfl⟩
  · rw [State.sNum, State.core_reset]; exact Memory.num_nil off n
  · rw [State.core_reset]; rfl

end Sys2Proof.Machine
end

section
/-! SUPPORT. Checked accesses of a thread: where one lands at a scratchpad, what noting its translation leaves, and how it then
acts (R81, R120, R195). -/

namespace Sys2Proof.Machine

/-! ## Places that pass their checks (R67, R195) -/

/-- An answer of the checks that gives no scratchpad place. -/
def Chk.OffCore (k : Chk) : Prop := ∀ o off x, k ≠ .ok (.spad o off) x

theorem Chk.OffCore.trap (t : Trap) : OffCore (.trap t) := fun _ _ _ => Chk.noConfusion
theorem Chk.OffCore.service (cause a : Nat) : OffCore (.service cause a) := fun _ _ _ => Chk.noConfusion
theorem Chk.OffCore.settle : OffCore .settle := fun _ _ _ => Chk.noConfusion
theorem Chk.OffCore.absent : OffCore .absent := fun _ _ _ => Chk.noConfusion

theorem Chk.OffCore.ite {k k' : Chk} {p : Prop} [Decidable p] (h : OffCore k) (h' : OffCore k') : OffCore (if p then k else k') := by
  split <;> assumption

theorem leafLoc_ne_spad (pte : Nat) (big : Bool) (va o off : Nat) : leafLoc pte big va ≠ .spad o off := by
  unfold leafLoc
  dsimp only
  split <;> exact Loc.noConfusion

theorem Chk.OffCore.leaf (pte : Nat) (big : Bool) (va : Nat) (x : Walk) : OffCore (.ok (leafLoc pte big va) x) :=
  fun o off _ h => leafLoc_ne_spad pte big va o off (Chk.ok.inj h).1

/-- A page is one of world memory or of a fabric window, never a scratchpad (R69). -/
theorem State.checkPage_offCore (s : State) (c w ea : Nat) (acc : Acc) : (s.checkPage c w ea acc).OffCore := by
  unfold State.checkPage
  split
  · exact .service _ _
  · exact .service _ _
  · exact .service _ _
  · exact .settle
  · dsimp only
    refine .ite (.trap _) (.ite (.trap _) (.ite (.trap _) (.ite (.trap _) (.ite (.trap _) (.ite (.trap _) (.ite (.trap _) ?_))))))
    split
    · exact .ite .absent (.ite .settle (.ite (.service _ _) (.leaf _ _ _ _)))
    · exact .ite (.leaf _ _ _ _) (.trap _)
    · exact .leaf _ _ _ _

/-- An access that lands at a scratchpad is aligned, needs no translation, and goes by the scratchpads' addresses (R67). -/
theorem State.check_spad {s : State} {c ws ea o off : Nat} {acc : Acc} {x : Walk} (h : s.check c ws ea acc = .ok (.spad o off) x) :
    ea % acc.align = 0 ∧ s.spadOf c ea = some (o, off) ∧ x = .invalid := by
  unfold State.check at h
  dsimp only at h
  split at h
  · cases h
  next halign =>
    refine ⟨not_not.mp halign, ?_⟩
    split at h
    · cases h
    · split at h
      next owner p hspad =>
        repeat' split at h
        all_goals cases h
        · exact ⟨hspad, rfl⟩
        · exact ⟨hspad, rfl⟩
      next =>
        have hoff : ∀ k : Chk, k.OffCore → k ≠ .ok (.spad o off) x := fun k hk => hk o off x
        refine absurd h (hoff _ ?_)
        split
        · exact .ite (.trap _) (.ite (.trap _) (.ite (.trap _) fun _ _ _ hc => nomatch (Chk.ok.inj hc).1))
        · exact .ite (.trap _) (s.checkPage_offCore _ _ _ _)

/-- Scratchpads start at multiples of their size, so a place in one is aligned as its address is (R67). -/
theorem State.spadOf_dvd {s : State} {c ea o off n : Nat} (h : s.spadOf c ea = some (o, off)) (hn : n ∣ 1048576) (ha : n ∣ ea) :
    n ∣ off := by
  unfold State.spadOf at h
  split at h
  · obtain ⟨-, rfl⟩ := Prod.mk.inj (Option.some.inj h)
    exact Nat.dvd_sub ha (hn.trans ⟨0x00FFFFFFFFF00000 / 1048576, by norm_num⟩)
  · split at h
    · obtain ⟨-, rfl⟩ := Prod.mk.inj (Option.some.inj h)
      exact (Nat.dvd_mod_iff hn).mpr ha
    · cases h

theorem sizeBytes_dvd (z : BitVec 2) : sizeBytes z ∣ 8 := Nat.pow_dvd_pow 2 (Nat.le_of_lt_succ z.isLt)

theorem sizeBytes_pos (z : BitVec 2) : 0 < sizeBytes z := Nat.two_pow_pos _

/-- An aligned place of 1, 2, 4 or 8 bytes lies in one 8-byte word. -/
theorem within_word {n off : Nat} (hn : n ∣ 8) (ha : n ∣ off) : off % 8 + n ≤ 8 := by
  have hroom : n ∣ 8 - off % 8 := Nat.dvd_sub hn ((Nat.dvd_mod_iff hn).mpr ha)
  have := Nat.le_of_dvd (by omega) hroom
  omega

/-- A scalar access that lands at a scratchpad lies in one 8-byte word (R194, R195). -/
theorem State.check_spad_within {s : State} {c ws ea o off n kind pc : Nat} {r w : Bool} {x : Walk} (hn : n ∣ 8)
    (h : s.check c ws ea ⟨kind, n, n, r, w, pc⟩ = .ok (.spad o off) x) : off % 8 + n ≤ 8 := by
  obtain ⟨halign, hspad, -⟩ := State.check_spad h
  exact within_word hn (State.spadOf_dvd hspad (hn.trans ⟨131072, rfl⟩) (Nat.dvd_of_mod_eq_zero halign))

/-! ## What the memory system's own records leave of the checks -/

section
variable {s t : State} (h : Records s t)
include h

theorem Records.curWs : t.curWs = s.curWs := h.sameThreads.curWs

theorem Records.mapCore (c n : Nat) : t.mapCore c n = s.mapCore c n := by
  have hgang : (t.core c).gang = (s.core c).gang := by rw [h.core c]
  simp only [State.mapCore, hgang, h.gang]

theorem Records.ownRange (c lo hi : Nat) : t.ownRange c lo hi = s.ownRange c lo hi := by
  simp only [State.ownRange, State.spadOf, h.mapCore]

theorem Records.footHit (c ws off n : Nat) : t.footHit c ws off n = s.footHit c ws off n := by
  have hvq : (t.core c).vq = (s.core c).vq := by rw [h.core c]
  simp only [State.footHit, hvq, h.ownRange]

end

/-- An access whose checks pass, clear of the thread's own nests, acts at its place once its translation is noted (R81). -/
theorem State.access_ok {s u : State} (hu : s.drainReds = u) {ea : Nat} {acc : Acc} {l : Loc} {x : Walk} (f : State → Loc → Walk → State)
    (hok : u.check u.actCore u.curWs ea acc = .ok l x)
    (hfoot : ∀ off, l = .spad u.actCore off → u.footHit u.actCore u.curWs off acc.n = false) :
    s.access ea acc f = .next (f (u.noteTlb u.actCore ea x) l x) := by
  have hrec := u.noteTlb_records u.actCore ea x
  rw [State.access, hu, hok, State.withChk]
  cases l with
  | spad o off =>
    have hclear : ¬(o = u.actCore ∧ u.footHit o u.curWs off acc.n = true) := by
      rintro ⟨rfl, hhit⟩
      rw [hfoot off rfl] at hhit
      exact Bool.false_ne_true hhit
    rw [← hrec.actCore, ← hrec.curWs, ← hrec.footHit] at hclear
    simp only [if_neg hclear]
  | mem pa mt => rfl
  | fabric win off => rfl

/-- The same for an access that lands at the issuing core's own scratchpad. -/
theorem State.access_own {s u : State} (hu : s.drainReds = u) {ea off : Nat} {acc : Acc} {x : Walk} (f : State → Loc → Walk → State)
    (hok : u.check u.actCore u.curWs ea acc = .ok (.spad u.actCore off) x)
    (hfoot : u.footHit u.actCore u.curWs off acc.n = false) :
    s.access ea acc f = .next (f (u.noteTlb u.actCore ea x) (.spad u.actCore off) x) :=
  State.access_ok hu f hok fun _ h => (Loc.spad.inj h).2 ▸ hfoot

end Sys2Proof.Machine
end

section
/-! SUPPORT. Bytes at a place of a scratchpad: what a write leaves there, with the return stack that it guards (R208). -/

namespace Sys2Proof.Machine

/-! ## The return stack (R208) -/

/-- What holds at a state and stays when an entry of a live task's return stack loses its valid bit holds once the stack is
guarded. -/
theorem State.guardStack_keeps {P : State → Prop} (s : State) (c off n : Nat) (h0 : P s)
    (hstep : liveState (s.task c (off / 1024)).tstate = true → ∀ t i v, i < 8 → P t →
      P (t.sPut c (wsOff (off / 1024) (0x200 + 8 * i)) 1 v)) : P (s.guardStack c off n) := by
  rw [State.guardStack]
  dsimp only
  split
  next hmeets =>
    have hlive := ((Bool.and_eq_true _ _).mp hmeets).1
    refine List.foldlRecOn _ _ h0 fun t ht i hi => ?_
    split
    · exact hstep hlive t i _ (List.mem_range.mp hi) ht
    · exact ht
  · exact h0

/-- Guarding a return stack changes no byte but its own. -/
theorem State.guardStack_byte (s : State) (c off n y a : Nat)
    (h : ¬(y = c ∧ wsOff (off / 1024) 0x200 ≤ a ∧ a < wsOff (off / 1024) 0x240)) :
    (s.guardStack c off n).spadByte y a = s.spadByte y a := by
  refine s.guardStack_keeps (P := fun t => t.spadByte y a = s.spadByte y a) c off n rfl fun _ t i v hi ht => ?_
  refine (t.spadByte_sPut c _ 1 v y a fun hin => h ⟨hin.1, ?_⟩).trans ht
  simp only [wsOff] at hin ⊢
  omega

/-- Within an 8-byte word, a range meets just the entry of the return stack that is this word. -/
theorem overlaps_entry {off n i : Nat} (hpos : 0 < n) (hin : off % 8 + n ≤ 8) :
    overlaps off n (wsOff (off / 1024) (0x200 + 8 * i)) 8 = decide (wsOff (off / 1024) (0x200 + 8 * i) = off / 8 * 8) := by
  rw [overlaps, wsOff, Bool.eq_iff_iff]
  simp only [Bool.and_eq_true, decide_eq_true_eq]
  omega

theorem overlaps_stack {off n : Nat} (hpos : 0 < n) (hin : off % 8 + n ≤ 8) :
    overlaps off n (wsOff (off / 1024) 0x200) 64 = decide (0x200 ≤ off % 1024 ∧ off % 1024 < 0x240) := by
  rw [overlaps, wsOff, Bool.eq_iff_iff]
  simp only [Bool.and_eq_true, decide_eq_true_eq]
  omega

/-- A fold whose step acts at one key of a list without repeats acts once. -/
theorem foldl_once {α β : Type} {l : List β} {p : β → Bool} (f : α → β → α) (s : α) {b : β} (hb : b ∈ l) (hd : l.Nodup)
    (hp : ∀ x ∈ l, p x = true ↔ x = b) : l.foldl (fun s x => if p x = true then f s x else s) s = f s b := by
  induction l generalizing s with
  | nil => cases hb
  | cons y l ih =>
    obtain ⟨hy, hl⟩ := List.nodup_cons.mp hd
    rw [List.foldl_cons]
    by_cases hyb : y = b
    · subst hyb
      have hrest : ∀ x ∈ l, p x ≠ true := fun x hx hpx => hy ((hp x (List.mem_cons_of_mem _ hx)).mp hpx ▸ hx)
      rw [if_pos ((hp y List.mem_cons_self).mpr rfl)]
      exact List.foldlRecOn (motive := fun t => t = f s y) l _ rfl fun t ht x hx => by rw [if_neg (hrest x hx), ht]
    · rw [if_neg fun h => hyb ((hp y List.mem_cons_self).mp h)]
      exact ih s ((List.mem_cons.mp hb).resolve_left (Ne.symm hyb)) hl fun x hx => hp x (List.mem_cons_of_mem _ hx)

/-- A write within an 8-byte word clears the valid bit of that word, where it is an entry of a live task's return stack. -/
theorem State.guardStack_word (s : State) {c off n : Nat} (hpos : 0 < n) (hin : off % 8 + n ≤ 8) :
    s.guardStack c off n =
      if liveState (s.task c (off / 1024)).tstate = true ∧ 0x200 ≤ off % 1024 ∧ off % 1024 < 0x240 then
        s.sPut c (off / 8 * 8) 1 (s.sNum c (off / 8 * 8) 1 / 2 * 2)
      else s := by
  rw [State.guardStack]
  simp only [overlaps_stack hpos hin, overlaps_entry hpos hin, Bool.and_eq_true, decide_eq_true_eq]
  refine ite_congr rfl (fun hmeets => ?_) fun _ => rfl
  have hentry : wsOff (off / 1024) (0x200 + 8 * ((off % 1024 - 0x200) / 8)) = off / 8 * 8 := by rw [wsOff]; omega
  have honce := foldl_once (l := List.range 8) (p := fun i => decide (wsOff (off / 1024) (0x200 + 8 * i) = off / 8 * 8))
    (fun t i => t.sPut c (wsOff (off / 1024) (0x200 + 8 * i)) 1 (t.sNum c (wsOff (off / 1024) (0x200 + 8 * i)) 1 / 2 * 2)) s
    (b := (off % 1024 - 0x200) / 8) (List.mem_range.mpr (by omega)) List.nodup_range
    (fun i _ => by rw [decide_eq_true_eq, wsOff]; omega)
  simp only [hentry, decide_eq_true_eq] at honce
  exact honce

/-! ## Writing a place of a scratchpad (R77, R425) -/

/-- Bytes written into a scratchpad, with the errors that they cover gone. -/
def State.spadWritten (s : State) (c off : Nat) (bs : List Byte) : State :=
  s.modCore c (fun k => { k with scratch := Memory.writeN k.scratch off bs, spoison := unpoison k.spoison off bs.length })

theorem State.poke_spad (s : State) (w c off : Nat) (bs : List Byte) :
    s.poke w (.spad c off) bs = (s.spadWritten c off bs).guardStack c off bs.length := rfl

theorem State.task_spadWritten (s : State) (c off : Nat) (bs : List Byte) (y w : Nat) : (s.spadWritten c off bs).task y w = s.task y w :=
  (SameThreads.modCore s c _ rfl rfl).task y w

theorem State.scratch_spadWritten (s : State) (c off : Nat) (bs : List Byte) :
    ((s.spadWritten c off bs).core c).scratch = Memory.writeN (s.core c).scratch off bs := by
  rw [State.spadWritten, State.core_modCore_same]

theorem State.spadWritten_byte_out (s : State) (c off : Nat) (bs : List Byte) (y a : Nat) (h : y = c → a < off ∨ off + bs.length ≤ a) :
    (s.spadWritten c off bs).spadByte y a = s.spadByte y a := by
  rw [State.spadByte, State.spadWritten, State.core_modCore]
  split
  next hy => rw [Memory.read_writeN_out _ _ _ _ (h hy), hy]; rfl
  next => rfl

/-- A byte written at a place stands there, unless it lies in the return stack that the write guards. -/
theorem State.poke_byte (s : State) (w c off : Nat) (bs : List Byte) {j : Nat} (hj : j < bs.length)
    (h : ¬(0x200 ≤ (off + j) % 1024 ∧ (off + j) % 1024 < 0x240)) : (s.poke w (.spad c off) bs).spadByte c (off + j) = bs[j] := by
  rw [State.poke_spad, State.guardStack_byte, State.spadByte, State.scratch_spadWritten, Memory.read_writeN_in _ _ hj]
  rintro ⟨-, hlo, hhi⟩
  simp only [wsOff] at hlo hhi
  omega

theorem State.poke_oneCore (s : State) (w c off : Nat) (bs : List Byte) : OneCore c s (s.poke w (.spad c off) bs) := by
  rw [State.poke_spad]
  exact State.guardStack_keeps _ c off _ (.modCore s c _) fun _ t i v _ ht => ht.trans (.sPut t c _ 1 v)

/-- A write within an 8-byte word changes no byte but the word's. -/
theorem State.poke_within (s : State) (w c off : Nat) (bs : List Byte) (hpos : 0 < bs.length) (hin : off % 8 + bs.length ≤ 8) :
    SpadBytesBut s (s.poke w (.spad c off) bs) c (off / 8 * 8) 8 := by
  refine ⟨fun a => by rw [State.memByte, (s.poke_oneCore w c off bs).mem]; rfl, fun y a ha => ?_⟩
  have hout := s.spadWritten_byte_out c off bs y a (by omega)
  rw [State.poke_spad, State.guardStack_word _ hpos hin]
  split
  · rw [State.spadByte_sPut _ _ _ _ _ _ _ (by omega), hout]
  · exact hout

/-- A number stored inside a longer one replaces the field at its place. -/
theorem Memory.num_putNum_field (m : List Host.Cell) (a k n r v : Nat) :
    Memory.num (Memory.putNum m (a + k) n v) a (k + (n + r)) = insertBits (Memory.num m a (k + (n + r))) (8 * k) (8 * n) v := by
  have hlow : Memory.num (Memory.putNum m (a + k) n v) a k = Memory.num m a k := Memory.num_putNum_out _ _ _ _ _ _ (.inl (Nat.le_refl _))
  have hhigh : Memory.num (Memory.putNum m (a + k) n v) (a + k + n) r = Memory.num m (a + k + n) r :=
    Memory.num_putNum_out _ _ _ _ _ _ (.inr (Nat.le_refl _))
  have hk := Memory.num_lt m a k
  have hn := Memory.num_lt m (a + k) n
  rw [insertBits_eq, Memory.num_split, Memory.num_split _ (a + k), Memory.num_split m a, Memory.num_split m (a + k), hlow, hhigh,
    Memory.num_putNum, Nat.add_mul_mod_self_left, Nat.mod_eq_of_lt hk, Nat.add_mul_div_left _ _ (Nat.two_pow_pos _),
    Nat.div_eq_of_lt hk, Nat.zero_add, Nat.add_mul_div_left _ _ (Nat.two_pow_pos _), Nat.div_eq_of_lt hn]
  ring

/-- Clearing the lowest bit of a number's first byte clears that bit of the number. -/
theorem Memory.num_clearLow (m : List Host.Cell) (a : Nat) :
    Memory.num (Memory.putNum m a 1 (Memory.num m a 1 / 2 * 2)) a 8 = Memory.num m a 8 / 2 * 2 := by
  have hfirst := Memory.num_lt m a 1
  rw [show (8 : Nat) = 1 + 7 from rfl, Memory.num_split, Memory.num_split m a, Memory.num_putNum,
    Memory.num_putNum_out _ _ _ _ _ _ (.inr (Nat.le_refl _))]
  omega

/-- A number stored within an 8-byte word leaves that word as R208 has it. -/
theorem State.poke_word (s : State) {c off n v : Nat} (w : Nat) (hpos : 0 < n) (hin : off % 8 + n ≤ 8) :
    (s.poke w (.spad c off) (bytesOf n v)).sNum c (off / 8 * 8) 8 = s.stored c off n v := by
  have hfield : (s.spadWritten c off (bytesOf n v)).sNum c (off / 8 * 8) 8 = insertBits (s.sNum c (off / 8 * 8) 8) (8 * (off % 8)) (8 * n) v := by
    have := Memory.num_putNum_field (s.core c).scratch (off / 8 * 8) (off % 8) n (8 - off % 8 - n) v
    rw [State.sNum, State.scratch_spadWritten]
    rwa [show off / 8 * 8 + off % 8 = off by omega, show off % 8 + (n + (8 - off % 8 - n)) = 8 by omega] at this
  rw [State.poke_spad, bytesOf_length, State.guardStack_word _ hpos hin, State.task_spadWritten, State.stored]
  split
  · rw [State.sPut_eq, State.sNum, State.core_putCore_same, State.sNum, Memory.num_clearLow, ← hfield]; rfl
  · exact hfield

end Sys2Proof.Machine
end

section
/-! SUPPORT. The bytes of a place that engines have written and nobody has acquired: what a load may take of each, what a
store leaves of each, and what closes them (R84, R98). -/

namespace Sys2Proof.Machine

/-! ## The earlier values of a place -/

theorem Memory.readN_getElem? (m : List Host.Cell) (a : Nat) {n j : Nat} (hj : j < n) :
    (Memory.readN m a n)[j]? = some (Memory.read m (a + j)) := by
  induction n generalizing a j with
  | zero => omega
  | succ n ih =>
    cases j with
    | zero => rfl
    | succ j => rw [Memory.readN, List.getElem?_cons_succ, ih (a + 1) (by omega), Nat.add_right_comm, Nat.add_assoc]

/-- What is open of one byte, at its key: the earlier value where the value that stands is the engine's (R84). -/
def State.openAt (s : State) (k : Nat) (now : Byte) : Option Byte :=
  match s.unsettled.findSome? (fun u => u.at k) with
  | some (old, new) => if new = now then some old else none
  | none => none

section
variable (s : State) (w : Nat) (l : Loc)

theorem State.earlier_eq {n k : Nat} (hk : l.key = some k) :
    s.earlier w l n = (s.peek w l n).zipIdx.map (fun p => s.openAt (k + 2 * p.2) p.1) := by
  simp only [State.earlier, hk]; rfl

theorem State.earlier_getElem? {n k j : Nat} {b : Byte} (hk : l.key = some k) (hb : (s.peek w l n)[j]? = some b) :
    (s.earlier w l n)[j]? = some (s.openAt (k + 2 * j) b) := by
  rw [s.earlier_eq w l hk, List.getElem?_map, List.getElem?_zipIdx, hb, Nat.zero_add]; rfl

theorem State.peek_spad_getElem? (c off : Nat) {n j : Nat} (hj : j < n) :
    (s.peek w (.spad c off) n)[j]? = some (s.spadByte c (off + j)) := Memory.readN_getElem? _ _ hj

theorem State.earlier_spad (c off : Nat) {n j : Nat} (hj : j < n) :
    (s.earlier w (.spad c off) n)[j]? = some (s.openAt (2 * (c * 1048576 + off) + 1 + 2 * j) (s.spadByte c (off + j))) :=
  s.earlier_getElem? w _ rfl (s.peek_spad_getElem? w c off hj)

end

/-! ## What closes the bytes of a place -/

/-- A range that has settled a place says nothing of the place's bytes any more. -/
theorem Unsettled.at_settle (u : Unsettled) (k : Nat) {n j : Nat} (hj : j < n) : (u.settle k n).at (k + 2 * j) = none := by
  rw [Unsettled.at]
  split
  next h =>
    obtain ⟨hpar, hle⟩ := h
    have hkey : (u.settle k n).key = u.key := rfl
    rw [hkey] at hpar hle ⊢
    obtain ⟨i, hi⟩ : ∃ i, k + 2 * j = u.key + 2 * i := ⟨(k + 2 * j - u.key) / 2, by omega⟩
    rw [hi, Nat.add_sub_cancel_left, Nat.mul_div_cancel_left i (by decide : 0 < 2), Unsettled.settle]
    dsimp only
    rw [List.getElem?_map, List.getElem?_zipIdx, Nat.zero_add]
    cases u.bytes[i]? with
    | none => rfl
    | some b => simp only [Option.map_some]; rw [if_pos (by omega)]; rfl
  next => rfl

/-- The bytes of a place are closed: no range says anything of them. -/
def State.closedAt (s : State) (k n : Nat) : Prop := ∀ v ∈ s.unsettled, ∀ j, j < n → v.at (k + 2 * j) = none

section
variable (s : State) (w : Nat) (l : Loc)

theorem State.settleAt_closed (n : Nat) {k : Nat} (hk : l.key = some k) : (s.settleAt l n).closedAt k n := by
  intro v hv j hj
  rw [State.settleAt] at hv
  split at hv
  next hnil => rw [List.isEmpty_iff.mp hnil] at hv; cases hv
  next =>
    simp only [hk] at hv
    obtain ⟨u, -, rfl⟩ := List.mem_map.mp (List.mem_of_mem_filter hv)
    exact u.at_settle k hj

theorem State.openAt_closed {n k j : Nat} (h : s.closedAt k n) (hj : j < n) (b : Byte) : s.openAt (k + 2 * j) b = none := by
  have hnone : s.unsettled.findSome? (fun u => u.at (k + 2 * j)) = none := List.findSome?_eq_none_iff.mpr fun v hv => h v hv j hj
  rw [State.openAt, hnone]

theorem State.peek_length (n : Nat) {k : Nat} (hk : l.key = some k) : (s.peek w l n).length = n := by
  cases l with
  | spad o off => exact Memory.readN_length _ _ _
  | mem pa mt =>
    have hmt : ¬(mt = 1) := fun h => by rw [Loc.key, if_pos h] at hk; cases hk
    rw [State.peek, if_neg hmt]
    exact Memory.readN_length _ _ _
  | fabric win off => exact List.length_replicate

theorem State.earlier_length (n : Nat) {k : Nat} (hk : l.key = some k) : (s.earlier w l n).length = n := by
  rw [s.earlier_eq w l hk, List.length_map, List.length_zipIdx, s.peek_length w l n hk]

/-- Nothing is open at a place whose bytes are closed. -/
theorem State.opened_closed {n k : Nat} (hk : l.key = some k) (h : s.closedAt k n) : s.opened w l n = false := by
  rw [State.opened, s.earlier_eq w l hk, Bool.and_eq_false_iff, List.any_eq_false]
  refine .inr fun x hx => ?_
  obtain ⟨p, hp, rfl⟩ := List.mem_map.mp hx
  have hj := List.snd_lt_of_mem_zipIdx hp
  rw [s.peek_length w l n hk] at hj
  rw [s.openAt_closed h hj]
  exact Bool.false_ne_true

/-! ## What a store leaves (R84) -/

theorem State.decided_closed {bs : List Byte} {k : Nat} (hk : l.key = some k) : (s.decided w l bs).1.closedAt k bs.length := by
  rw [State.decided]
  split
  · exact State.settleAt_closed _ l _ hk
  · exact s.settleAt_closed l _ hk

theorem State.decided_length (bs : List Byte) {k : Nat} (hk : l.key = some k) : (s.decided w l bs).2.length = bs.length := by
  rw [State.decided]
  split
  · simp [s.peek_length w l _ hk, s.earlier_length w l _ hk]
  · rfl

/-- A byte that a store writes is the thread's, or, where it was open, the one that stands. -/
theorem State.decided_byte {bs : List Byte} {j : Nat} {b : Byte} (h : (s.decided w l bs).2[j]? = some b) :
    bs[j]? = some b ∨ (s.peek w l bs.length)[j]? = some b ∧ ∃ y, (s.earlier w l bs.length)[j]? = some (some y) := by
  rw [State.decided] at h
  split at h
  · rw [List.getElem?_map, List.getElem?_zipIdx] at h
    obtain ⟨q, hq, hb⟩ := Option.map_eq_some_iff.mp h
    obtain ⟨r, hr, rfl⟩ := Option.map_eq_some_iff.mp hq
    obtain ⟨hpair, hold⟩ := List.getElem?_zip_eq_some.mp hr
    obtain ⟨hnew, hstands⟩ := List.getElem?_zip_eq_some.mp hpair
    dsimp only at hb
    split at hb
    next hopen =>
      obtain ⟨y, hy⟩ := Option.isSome_iff_exists.mp ((Bool.and_eq_true _ _).mp hopen).1
      exact .inr ⟨hstands.trans (congrArg some hb), y, hold.trans (congrArg some hy)⟩
    next => exact .inl (hnew.trans (congrArg some hb))
  · exact .inl h

end

end Sys2Proof.Machine
end

section
/-! SUPPORT. The acting thread completes after what changes no thread, and what an engine's write leaves open (R84, R148). -/

namespace Sys2Proof.Machine

/-! ## Completing after what changes no thread -/

theorem OneCore.unsettled {c : Nat} {s t : State} (h : OneCore c s t) : t.unsettled = s.unsettled := by rw [h.1]

theorem Stored.sameThreads {s t : State} (h : Stored s t) : SameThreads s t :=
  ⟨by rw [h.device], by rw [h.device], fun c => by rw [h.core c], fun c => by rw [h.core c]⟩

theorem SameThreads.goesOn_of {s t u : State} (h : SameThreads s t) (hc : t.cycle = s.cycle) {n : Nat} (hg : GoesOn t u n) :
    GoesOn s u n where
  pc := by rw [hg.pc, h.npc]
  pastEnd := by rw [hg.pastEnd, h.nextPc?]
  task := by rw [hg.task, h.curTask]
  slot := by rw [hg.slot, h.curSlot, hc]

/-- The acting thread has completed its instruction, with registers written or none, and no other thread has changed. -/
structure ThreadDone (s t : State) (ds : List (BitVec 5)) : Prop where
  regs : SameRegs s t ds
  goesOn : GoesOn s t 1
  others : OtherThreads s t

/-- A thread that completes after what changes no thread. -/
theorem SameThreads.done {s t : State} (h : SameThreads s t) (hc : t.cycle = s.cycle) : ThreadDone s (t.finish 1) [] :=
  ⟨h.sameRegs_finish 1, h.goesOn hc 1, h.otherThreads (t.finish_sameElse 1).1⟩

/-- A thread that writes one register and completes after what changes no thread. -/
theorem SameThreads.done_wr {s t : State} (h : SameThreads s t) (hc : t.cycle = s.cycle) (d : BitVec 5) (v : Word) :
    ThreadDone s ((t.wr d v).finish 1) [d] := by
  refine ⟨fun r hr => ?_, h.goesOn_of hc (t.result_goesOn d v 1), h.otherThreads (t.result_sameElse d v 1).1⟩
  rw [State.rd_finish, State.rd_wr_ne _ _ (by simpa using hr), h.rd]

theorem State.loadedAt_sameBytes (s : State) (w : Nat) (l : Loc) (n : Nat) : SameBytes s (s.loadedAt w l n) := by
  rw [State.loadedAt, State.observe_frame, s.took_frame]
  exact ⟨fun _ => rfl, fun _ _ => rfl⟩

/-! ## The bytes of a number (R3) -/

theorem bytesOf_natOfBytes (bs : List Byte) : bytesOf bs.length (natOfBytes bs) = bs := by
  induction bs with
  | nil => rfl
  | cons b bs ih =>
    have hb := b.isLt
    rw [List.length_cons, natOfBytes, bytesOf, show (b.toNat + 256 * natOfBytes bs) / 256 = natOfBytes bs by omega, ih]
    congr 1
    apply BitVec.eq_of_toNat_eq
    rw [BitVec.toNat_ofNat]
    omega

theorem natOfBytes_lt (bs : List Byte) : natOfBytes bs < 2 ^ (8 * bs.length) := by
  have h := natOfBytes_bytesOf bs.length (natOfBytes bs)
  rw [bytesOf_natOfBytes] at h
  rw [h]
  exact Nat.mod_lt _ (Nat.two_pow_pos _)

theorem natOfBytes_byte (bs : List Byte) {j : Nat} (hj : j < bs.length) :
    bs[j]? = some (BitVec.ofNat 8 (natOfBytes bs / 256 ^ j)) := by
  have h := bytesOf_getElem (n := bs.length) (v := natOfBytes bs) (k := j) (by rwa [bytesOf_length])
  rw [← h, List.getElem?_eq_getElem hj]
  simp only [bytesOf_natOfBytes]

/-! ## What an engine's write leaves open (R84) -/

/-- Some byte of a range that answers for a key is open. -/
theorem Unsettled.live_of_at {u : Unsettled} {k : Nat} {x : Byte × Byte} (h : u.at k = some x) : u.live = true := by
  rw [Unsettled.at] at h
  split at h
  · rw [Option.join_eq_some_iff] at h
    exact List.any_eq_true.mpr ⟨some x, List.mem_of_getElem? h, rfl⟩
  · cases h

section
variable (s : State) (id core w : Nat) (l : Loc)

/-- What an engine that is about to write a place notes of it: each byte that changes, with both values. -/
def State.engineNote (bs : List Byte) (k : Nat) : Unsettled :=
  ⟨id, core, w, k, ((s.peek w l bs.length).zip bs).map (fun p => if p.1 = p.2 then none else some p), none⟩

theorem State.noteEngine_unsettled (bs : List Byte) {k : Nat} (hk : l.key = some k) :
    (s.noteEngine id core w l bs).unsettled = if (s.engineNote id core w l bs k).live then
      s.engineNote id core w l bs k :: (s.settleAt l bs.length).unsettled else (s.settleAt l bs.length).unsettled := by
  rw [State.noteEngine]
  simp only [hk]
  exact apply_ite State.unsettled _ _ _

theorem State.engineNote_at {bs : List Byte} (k : Nat) {j : Nat} {old b : Byte} (hold : (s.peek w l bs.length)[j]? = some old)
    (hb : bs[j]? = some b) : (s.engineNote id core w l bs k).at (k + 2 * j) = if old = b then none else some (old, b) := by
  have hz : ((s.peek w l bs.length).zip bs)[j]? = some (old, b) := List.getElem?_zip_eq_some.mpr ⟨hold, hb⟩
  have hkey : (s.engineNote id core w l bs k).key = k := rfl
  rw [Unsettled.at, hkey, if_pos (by omega), Nat.add_sub_cancel_left, Nat.mul_div_cancel_left j (by decide : 0 < 2),
    State.engineNote, List.getElem?_map, hz]
  rfl

/-- Once an engine is about to write a byte, the byte is open with the value that stands, unless the engine's is the same. -/
theorem State.noteEngine_openAt {bs : List Byte} {k j : Nat} {old b : Byte} (hk : l.key = some k)
    (hold : (s.peek w l bs.length)[j]? = some old) (hb : bs[j]? = some b) :
    (s.noteEngine id core w l bs).openAt (k + 2 * j) b = if b = old then none else some old := by
  have hj : j < bs.length := (List.getElem?_eq_some_iff.mp hb).1
  have hrest : (s.settleAt l bs.length).unsettled.findSome? (fun u => u.at (k + 2 * j)) = none :=
    List.findSome?_eq_none_iff.mpr fun v hv => s.settleAt_closed l _ hk v hv j hj
  have hat := s.engineNote_at id core w l k hold hb
  rw [State.openAt, s.noteEngine_unsettled id core w l bs hk]
  by_cases hsame : b = old
  · rw [if_pos hsame.symm] at hat
    have hnone : (if (s.engineNote id core w l bs k).live then s.engineNote id core w l bs k :: (s.settleAt l bs.length).unsettled
        else (s.settleAt l bs.length).unsettled).findSome? (fun u => u.at (k + 2 * j)) = none := by
      split
      · rw [List.findSome?_cons, hat, hrest]
      · exact hrest
    rw [hnone, if_pos hsame]
  · rw [if_neg (Ne.symm hsame)] at hat
    rw [if_pos (Unsettled.live_of_at hat), List.findSome?_cons, hat, if_neg hsame]
    exact if_pos rfl

theorem State.engineWrite_spad_unsettled (c off : Nat) (bs : List Byte) (stamp : Nat) :
    (s.engineWrite w (.spad c off) bs stamp).unsettled = s.unsettled := by
  rw [State.engineWrite]
  exact ((s.poke_oneCore w c off bs).trans (.modCore _ c _)).unsettled

/-- A byte that an engine writes stands there, outside return stacks (R208). -/
theorem State.engineWrite_byte (c off : Nat) (bs : List Byte) (stamp : Nat) {j : Nat} (hj : j < bs.length)
    (h : ¬(0x200 ≤ (off + j) % 1024 ∧ (off + j) % 1024 < 0x240)) :
    (s.engineWrite w (.spad c off) bs stamp).spadByte c (off + j) = bs[j] := by
  rw [State.engineWrite, (SameBytes.modCore _ c _ rfl).2 c (off + j), s.poke_byte w c off bs hj h]

end

end Sys2Proof.Machine
end

section
/-! SUPPORT. What a request does at the issuing core's own scratchpad: the core's bytes, bits and stamps change, and the thread
completes with its answer or waits there (R96, R214, R221). -/

namespace Sys2Proof.Machine

/-! ## The answer (R34) -/

/-- The registers that an answer writes. -/
def Answer.dests (a : Answer) : List (BitVec 5) := (a.reg.map (fun p => p.1)).toList

section
variable (s : State) (reg : Option (BitVec 5 × Word)) (stamp : Nat)

/-- A thread whose flags are raised by none is as it was. -/
theorem State.curTask_orFlags_zero : (s.orFlags 0).curTask = s.curTask := by
  rw [State.orFlags, State.curTask_modCurTask, show s.curTask.flags ||| 0 = s.curTask.flags from BitVec.or_zero]

theorem State.applyAnswer_ok : s.applyAnswer (answerOk reg stamp) =
    ((match reg with
      | some (d, v) => (s.raisePts s.actCore stamp).wr d v
      | none => s.raisePts s.actCore stamp).orFlags 0).finish 1 := by
  cases reg <;> rfl

theorem State.finish_orFlags_goesOn : GoesOn s ((s.orFlags 0).finish 1) 1 := by
  have hn : (s.orFlags 0).npc = s.npc := State.npc_congr (by rw [s.curTask_orFlags_zero]) (by rw [s.curTask_orFlags_zero])
  have hp : (s.orFlags 0).nextPc? = s.nextPc? := State.nextPc?_congr (by rw [s.curTask_orFlags_zero]) (by rw [s.curTask_orFlags_zero])
  constructor
  · rw [State.curTask_finish, hn]
  · rw [State.curTask_finish, hp]
  · rw [State.curTask_finish, s.curTask_orFlags_zero]
  · rw [State.curSlot_finish, State.orFlags, State.curSlot_modCurTask]; rfl

theorem State.finish_orFlags_sameElse : SameElse s ((s.orFlags 0).finish 1) :=
  (SameElse.modCurTask s _).trans (State.finish_sameElse _ 1) (State.curWs_modCurTask s _)

/-- Once the core's stamp is raised, an answer changes the acting thread alone, and completes its instruction (R34). -/
theorem State.applyAnswer_done :
    let t := s.applyAnswer (answerOk reg stamp)
    SameElse (s.raisePts s.actCore stamp) t ∧ GoesOn (s.raisePts s.actCore stamp) t 1 ∧
      SameRegs s t (answerOk reg stamp).dests ∧ ∀ d v, reg = some (d, v) → t.rd d = v := by
  have hrd : ∀ (p : State) r, ((p.orFlags 0).finish 1).rd r = p.rd r := fun p r => by rw [State.rd_finish, State.orFlags, State.rd_modCurTask]
  rw [s.applyAnswer_ok]
  cases reg with
  | none =>
    refine ⟨State.finish_orFlags_sameElse _, State.finish_orFlags_goesOn _, fun r _ => ?_, fun _ _ h => by cases h⟩
    rw [hrd, State.rd_raisePts]
  | some p =>
    obtain ⟨d, v⟩ := p
    refine ⟨(SameElse.modCurSlot _ _).trans (State.finish_orFlags_sameElse _) (State.curWs_wr _ d v), ?_, fun r hr => ?_, ?_⟩
    · have hg := State.finish_orFlags_goesOn ((s.raisePts s.actCore stamp).wr d v)
      constructor
      · rw [hg.pc, State.npc_wr]
      · rw [hg.pastEnd, State.nextPc?_wr]
      · rw [hg.task, State.curTask_wr]
      · rw [hg.slot, State.curSlot_wr]; rfl
    · have hne : r ≠ d := by simpa [Answer.dests, answerOk] using hr
      rw [hrd, State.rd_wr_ne _ _ hne, State.rd_raisePts]
    · rintro d' v' h
      cases h
      rw [hrd, State.rd_wr_same]

end

/-! ## At the own core (R214) -/

/-- A request of the acting thread is performed at its own core: its number is taken, and of the device only the core's
bytes, granules, stamps and what engines have left open may have changed. -/
structure AtOwn (u w : State) : Prop where
  device : OnlyCore { u with nextId := u.nextId + 1, unsettled := w.unsettled } w
  core : w.cur = { u.cur with
    scratch := w.cur.scratch, spoison := w.cur.spoison, hts := w.cur.hts, ptsOff := w.cur.ptsOff, full := w.cur.full, late := w.cur.late }

section
variable {u w : State} (h : AtOwn u w)
include h

theorem AtOwn.actCore : w.actCore = u.actCore := by rw [h.device.1]
theorem AtOwn.cycle : w.cycle = u.cycle := by rw [h.device.1]

theorem AtOwn.sameThreads : SameThreads u w := by
  have hcore := h.core
  rw [State.cur, State.cur, h.actCore] at hcore
  have hother : ∀ c, c ≠ u.actCore → w.core c = u.core c := h.device.2
  refine ⟨h.actCore, by rw [h.device.1], fun c => ?_, fun c => ?_⟩
  all_goals
    by_cases hc : c = u.actCore
    · rw [hc, hcore]
    · rw [hother c hc]

/-- What changes only such things of the own core, and what engines have left open, is such a step. -/
theorem AtOwn.step {v : State} (hd : OneCore u.actCore { w with unsettled := v.unsettled } v)
    (hk : v.core u.actCore = { w.core u.actCore with
      scratch := (v.core u.actCore).scratch, spoison := (v.core u.actCore).spoison, hts := (v.core u.actCore).hts
      ptsOff := (v.core u.actCore).ptsOff, full := (v.core u.actCore).full, late := (v.core u.actCore).late }) : AtOwn u v := by
  have ha : v.actCore = u.actCore := hd.actCore.trans h.actCore
  have hcore := h.core
  rw [State.cur, h.actCore] at hcore
  refine ⟨⟨?_, fun x hx => (hd.2 x hx).trans (h.device.2 x hx)⟩, ?_⟩
  · have h1 := h.device.1
    have h2 := hd.1
    rw [h2, h1]
  · rw [State.cur, ha, hk, hcore]

theorem AtOwn.modCore {f : Core → Core} (hf : ∀ k, f k = { k with
    scratch := (f k).scratch, spoison := (f k).spoison, hts := (f k).hts, ptsOff := (f k).ptsOff, full := (f k).full, late := (f k).late }) :
    AtOwn u (w.modCore u.actCore f) :=
  h.step (.modCore w u.actCore f) (by rw [State.core_modCore_same]; exact hf _)

theorem AtOwn.opens {l : List Unsettled} : AtOwn u { w with unsettled := l } := h.step (.refl _ _) rfl

theorem AtOwn.raisePts (stamp : Nat) : AtOwn u (w.raisePts u.actCore stamp) := h.modCore fun _ => rfl

theorem AtOwn.settleAt (l : Loc) (n : Nat) : AtOwn u (w.settleAt l n) := by
  rw [w.settleAt_frame l n]; exact h.opens

theorem AtOwn.poke (q off : Nat) (bs : List Byte) : AtOwn u (w.poke q (.spad u.actCore off) bs) := by
  rw [State.poke_spad]
  exact State.guardStack_keeps _ _ _ _ (h.modCore fun _ => rfl) fun _ t i v _ ht => ht.modCore fun _ => rfl

end

/-- The number of a request is taken. -/
def State.numberTaken (s : State) : State := { s with nextId := s.nextId + 1 }

/-- The state in which a request to the own core is performed: its translation noted and its number taken. -/
def State.homeNow (u : State) (ea : Nat) : State := (u.noteTlb u.actCore ea .invalid).numberTaken

theorem AtOwn.homeNow (u : State) (ea : Nat) : AtOwn u (u.homeNow ea) := by
  have hnumber : AtOwn u u.numberTaken := ⟨.refl _ _, rfl⟩
  have hnote : u.noteTlb u.actCore ea .invalid =
      if 2048 ≤ u.actCore then u else u.modCore u.actCore (fun k => { k with late := 0 }) := rfl
  rw [State.homeNow, hnote]
  split
  · exact hnumber
  · exact hnumber.modCore (f := fun k => { k with late := 0 }) fun _ => rfl

/-! ## What an answer at the own core completes -/

theorem State.applyAnswer_sameBytes (s : State) (reg : Option (BitVec 5 × Word)) (stamp : Nat) :
    SameBytes s (s.applyAnswer (answerOk reg stamp)) :=
  (s.sameBytes_raisePts _ _).trans (s.applyAnswer_done reg stamp).1.sameBytes

theorem State.applyAnswer_full (s : State) (reg : Option (BitVec 5 × Word)) (stamp : Nat) :
    (s.applyAnswer (answerOk reg stamp)).cur.full = s.cur.full := by
  have hraised : (s.raisePts s.actCore stamp).cur.full = s.cur.full := by
    rw [State.cur, (s.raisePts_records s.actCore stamp).core]; rfl
  rw [← hraised, (s.applyAnswer_done reg stamp).1.1.core]

/-- An answer to a request that was performed at the own core completes its instruction as the claims have it. -/
theorem AtOwn.done {u w : State} (h : AtOwn u w) (reg : Option (BitVec 5 × Word)) (stamp : Nat) :
    OwnDone u (w.applyAnswer (answerOk reg stamp)) (answerOk reg stamp).dests := by
  obtain ⟨helse, hgoes, hregs, -⟩ := w.applyAnswer_done reg stamp
  have hraised : AtOwn u (w.raisePts w.actCore stamp) := h.actCore ▸ h.raisePts stamp
  have hthreads := hraised.sameThreads
  refine ⟨hthreads.goesOn_of hraised.cycle hgoes, fun r hr => ?_, ?_, hthreads.otherThreads helse.1, ?_⟩
  · rw [hregs r hr, h.sameThreads.rd]
  · have hdev := helse.1.device
    rw [OnlyCore, hraised.actCore] at hdev
    rw [hdev.unsettled]
    exact hraised.device.trans hdev
  · rw [helse.1.core, hraised.core]

/-! ## Full-empty forms at their home (R96, R220) -/

theorem Core.isFull_congr {k k' : Core} (h : k'.full = k.full) (g : Nat) : k'.isFull g = k.isFull g := by
  rw [Core.isFull, h, Core.isFull]

theorem Core.isFull_setFull (k : Core) (g : Nat) (f : Bool) (i : Nat) :
    (k.setFull g f).isFull i = true ↔ if f = true then k.isFull i = true ∨ i = g else k.isFull i = true ∧ i ≠ g := by
  cases f with
  | true =>
    by_cases hg : g ∈ k.full
    · simp only [Core.isFull, Core.setFull, List.contains_iff_mem, if_true, hg]
      exact ⟨.inl, fun h => h.elim id fun e => e ▸ hg⟩
    · simp [Core.isFull, Core.setFull, hg]
  | false => simp [Core.isFull, Core.setFull]

/-- A granule's bit after a full-empty form has acted at its core, whose stamp has risen. -/
def State.granuleTo (s : State) (r : Request) (o off : Nat) (f : Bool) : State :=
  (s.modCore o (fun k => k.setFull (off / 16) f)).raiseHts r.loc r.stamp

/-- What an `ld.fe` leaves: its granule acquired, and empty where the form takes it. -/
def State.feLoaded (s : State) (r : Request) (o off : Nat) (take : Bool) : State :=
  if take then (s.settleAt (.spad o (off / 16 * 16)) 16).granuleTo r o off false else s.settleAt (.spad o (off / 16 * 16)) 16

/-- What a `st.fe` leaves: its bytes where it has any, and its granule's bit. -/
def State.feStored (s : State) (r : Request) (o off mode n v : Nat) : State :=
  (if mode = 2 then s else s.pokeBy r.world (.spad o off) (bytesOf n v)).granuleTo r o off (mode != 2)

section
variable (s : State) (r : Request) {o off : Nat} (hloc : r.loc = .spad o off)
include hloc

theorem State.perform_feLoad_full {take : Bool} {n : Nat} {d : BitVec 5} (hop : r.op = .feLoad take n d)
    (hfull : (s.core o).isFull (off / 16) = true) : ∃ stamp, s.perform r =
      (s.feLoaded r o off take, some (answerOk (some (d, wordOf (natOfBytes (s.peek r.world (.spad o off) n)))) stamp)) := by
  refine ⟨(s.feLoaded r o off take).htsOf (.spad o off), ?_⟩
  simp only [State.perform, hop, hloc, hfull, Bool.not_true, Bool.false_eq_true, if_false, State.feLoaded, State.granuleTo]

theorem State.perform_feLoad_empty {take : Bool} {n : Nat} {d : BitVec 5} (hop : r.op = .feLoad take n d)
    (hempty : (s.core o).isFull (off / 16) = false) : s.perform r = (s, none) := by
  simp only [State.perform, hop, hloc, hempty, Bool.not_false, if_true]

theorem State.perform_feStore_done {mode n v : Nat} (hop : r.op = .feStore mode n v)
    (hcan : mode = 0 → (s.core o).isFull (off / 16) = false) :
    ∃ stamp, s.perform r = (s.feStored r o off mode n v, some (answerOk none stamp)) := by
  have hgo : ¬(mode = 0 ∧ (s.core o).isFull (off / 16) = true) := fun h => by rw [hcan h.1] at h; exact Bool.false_ne_true h.2
  refine ⟨(s.feStored r o off mode n v).htsOf (.spad o off), ?_⟩
  simp only [State.perform, hop, hloc, if_neg hgo, State.feStored, State.granuleTo]

theorem State.perform_feStore_full {n v : Nat} (hop : r.op = .feStore 0 n v) (hfull : (s.core o).isFull (off / 16) = true) :
    s.perform r = (s, none) := by
  simp only [State.perform, hop, hloc, hfull, and_self, if_true]

/-- A full-empty form that waits joins its core's waiters at the tail (R221). -/
theorem State.register_fe (hop : (∃ take n d, r.op = .feLoad take n d) ∨ ∃ mode n v, r.op = .feStore mode n v) :
    s.register r = s.modCore o (fun k => { k with feWait := k.feWait ++ [r] }) := by
  rcases hop with ⟨_, _, _, hop⟩ | ⟨_, _, _, hop⟩ <;> simp only [State.register, hop, hloc]

end

/-! ## Requests of the acting thread (R103, R214) -/

theorem State.applyAnswer_unsettled (s : State) (reg : Option (BitVec 5 × Word)) (stamp : Nat) :
    (s.applyAnswer (answerOk reg stamp)).unsettled = s.unsettled :=
  (s.applyAnswer_done reg stamp).1.1.device.unsettled.trans (OneCore.modCore s s.actCore _).unsettled

section
variable (s : State) {op : ReqOp} {ea off : Nat} {deadline : Option Nat} {p : State}

theorem State.request_own_done {a : Answer}
    (h : s.numberTaken.perform (s.mkReq op ea (.spad s.actCore off) deadline) = (p, some a)) :
    s.request op ea (.spad s.actCore off) deadline = p.applyAnswer a := by
  rw [State.numberTaken] at h
  rw [State.request]
  simp only [beq_self_eq_true, if_true, h]

theorem State.request_own_waits
    (h : s.numberTaken.perform (s.mkReq op ea (.spad s.actCore off) deadline) = (p, none)) :
    s.request op ea (.spad s.actCore off) deadline =
      (p.register (s.mkReq op ea (.spad s.actCore off) deadline)).parkCur (.home (s.mkReq op ea (.spad s.actCore off) deadline).id) := by
  rw [State.numberTaken] at h
  rw [State.request]
  simp only [beq_self_eq_true, if_true, h]

/-- A request to another place than the own core's scratchpad travels there (R103). -/
theorem State.request_away {l : Loc} (h : ∀ q, l ≠ .spad s.actCore q) : s.request op ea l deadline =
    ({ s.numberTaken with inflight := s.inflight ++ [s.mkReq op ea l deadline] }).parkCur (.home (s.mkReq op ea l deadline).id) := by
  cases l with
  | spad o q =>
    have hother : (o == s.actCore) = false := beq_eq_false_iff_ne.mpr fun ho => h q (ho ▸ rfl)
    simp only [State.request, hother, Bool.false_eq_true, if_false]
    rfl
  | mem pa mt => rfl
  | fabric win q => rfl

end

/-- The acting thread's request to its own core. -/
def State.ownReq (u : State) (ea off : Nat) (op : ReqOp) (deadline : Option Nat) : Request :=
  (u.noteTlb u.actCore ea .invalid).mkReq op ea (.spad u.actCore off) deadline

section
variable (u : State) (ea off : Nat) (op : ReqOp) (deadline : Option Nat)

@[simp] theorem State.ownReq_op : (u.ownReq ea off op deadline).op = op := rfl
@[simp] theorem State.ownReq_loc : (u.ownReq ea off op deadline).loc = .spad u.actCore off := rfl
@[simp] theorem State.ownReq_va : (u.ownReq ea off op deadline).va = ea := rfl
@[simp] theorem State.ownReq_deadline : (u.ownReq ea off op deadline).deadline = deadline := rfl
@[simp] theorem State.ownReq_core : (u.ownReq ea off op deadline).core = u.actCore := (u.noteTlb_records _ ea .invalid).actCore
@[simp] theorem State.ownReq_ws : (u.ownReq ea off op deadline).ws = u.curWs := (u.noteTlb_records _ ea .invalid).curWs
@[simp] theorem State.ownReq_world : (u.ownReq ea off op deadline).world = u.cur.world := by
  show (u.noteTlb u.actCore ea .invalid).cur.world = u.cur.world
  rw [State.cur, (u.noteTlb_records _ ea .invalid).core, (u.noteTlb_records _ ea .invalid).actCore, State.cur]

theorem State.homeNow_sameBytes : SameBytes u (u.homeNow ea) := (u.noteTlb_records u.actCore ea .invalid).sameBytes
theorem State.homeNow_unsettled : (u.homeNow ea).unsettled = u.unsettled := by
  show (u.noteTlb u.actCore ea .invalid).unsettled = u.unsettled
  rw [(u.noteTlb_records u.actCore ea .invalid).device]
theorem State.homeNow_full (c : Nat) : ((u.homeNow ea).core c).full = (u.core c).full := by
  show ((u.noteTlb u.actCore ea .invalid).core c).full = _
  rw [(u.noteTlb_records u.actCore ea .invalid).core]
theorem State.homeNow_isFull (c g : Nat) : ((u.homeNow ea).core c).isFull g = (u.core c).isFull g :=
  Core.isFull_congr (u.homeNow_full ea c) g
theorem State.homeNow_feWait (c : Nat) : ((u.homeNow ea).core c).feWait = (u.core c).feWait := by
  show ((u.noteTlb u.actCore ea .invalid).core c).feWait = _
  rw [(u.noteTlb_records u.actCore ea .invalid).core]
theorem State.homeNow_peek (w : Nat) (l : Loc) (n : Nat) : (u.homeNow ea).peek w l n = u.peek w l n :=
  (u.noteTlb_records u.actCore ea .invalid).peek w l n
theorem State.homeNow_opened (w : Nat) (l : Loc) (n : Nat) : (u.homeNow ea).opened w l n = u.opened w l n := by
  simp only [State.opened, State.earlier, u.homeNow_peek, u.homeNow_unsettled]

end

section
variable {s u : State} (hu : s.drainReds = u) {ea off : Nat} {acc : Acc} {op : ReqOp} {deadline : Option Nat}
include hu

/-- A request that is performed at the own core completes with its answer. -/
theorem State.atHome_own_done {x : Walk} {p : State} {a : Answer}
    (hok : u.check u.actCore u.curWs ea acc = .ok (.spad u.actCore off) x) (hfoot : u.footHit u.actCore u.curWs off acc.n = false)
    (hperform : (u.homeNow ea).perform (u.ownReq ea off op deadline) = (p, some a)) :
    s.atHome ea acc op deadline = .next (p.applyAnswer a) := by
  obtain ⟨-, -, rfl⟩ := State.check_spad hok
  have hdone := (u.noteTlb u.actCore ea .invalid).request_own_done (op := op) (ea := ea) (off := off) (deadline := deadline) (p := p) (a := a)
  rw [(u.noteTlb_records u.actCore ea .invalid).actCore] at hdone
  rw [State.atHome, State.access_own hu _ hok hfoot, hdone hperform]

/-- One whose condition does not hold waits there. -/
theorem State.atHome_own_waits {x : Walk} {p : State}
    (hok : u.check u.actCore u.curWs ea acc = .ok (.spad u.actCore off) x) (hfoot : u.footHit u.actCore u.curWs off acc.n = false)
    (hperform : (u.homeNow ea).perform (u.ownReq ea off op deadline) = (p, none)) :
    s.atHome ea acc op deadline =
      .next ((p.register (u.ownReq ea off op deadline)).parkCur (.home (u.ownReq ea off op deadline).id)) := by
  obtain ⟨-, -, rfl⟩ := State.check_spad hok
  have hwaits := (u.noteTlb u.actCore ea .invalid).request_own_waits (op := op) (ea := ea) (off := off) (deadline := deadline) (p := p)
  rw [(u.noteTlb_records u.actCore ea .invalid).actCore] at hwaits
  rw [State.atHome, State.access_own hu _ hok hfoot, hwaits hperform]
  rfl

/-- One to another place travels there (R103). -/
theorem State.atHome_sends {x : Walk} {l : Loc} {i : Instr} (hi : exec i s = s.atHome ea acc op deadline)
    (hok : u.check u.actCore u.curWs ea acc = .ok l x) (haway : ∀ off, l ≠ .spad u.actCore off) :
    Sends (u.noteTlb u.actCore ea x) s i op ea l deadline := by
  refine ⟨_, rfl, ?_⟩
  rw [hi, State.atHome, State.access_ok hu _ hok fun off h => absurd h (haway off), State.request_away]
  · rfl
  · rwa [(u.noteTlb_records u.actCore ea x).actCore]

end

end Sys2Proof.Machine
end

section
/-! Bytes that engines have written and nobody has acquired (R84, R98, R101, R220, R224, R291). -/

namespace Sys2Proof.Machine

/-! ## Loads (R84) -/

theorem State.taken_length (s : State) (w : Nat) (l : Loc) {n k : Nat} {bs : List Byte} (hk : l.key = some k) (hl : bs.length = n) :
    (s.taken w l n bs).length = n := by
  rw [State.taken]
  split
  · simp [hl, s.earlier_length w l n hk]
  · exact hl

theorem State.peekOpen_length (s : State) (w : Nat) (l : Loc) (n : Nat) {k : Nat} (hk : l.key = some k) :
    (s.peekOpen w l n).length = n := s.taken_length w l hk (s.peek_length w l n hk)

/-- Each byte that a load takes of a scratchpad place is the one that stands or an earlier value that is open. -/
theorem State.peekOpen_byte (s : State) (w c off : Nat) {n j : Nat} (hj : j < n) :
    let b : Byte := BitVec.ofNat 8 (natOfBytes (s.peekOpen w (.spad c off) n) / 256 ^ j)
    b = s.spadByte c (off + j) ∨ ((s.earlier w (.spad c off) n)[j]?).join = some b := by
  intro b
  have hbyte : (s.peekOpen w (.spad c off) n)[j]? = some b := natOfBytes_byte _ (by rwa [s.peekOpen_length w _ n rfl])
  rcases s.taken_byte w _ n hbyte with hstands | hopen
  · rw [s.peek_spad_getElem? w c off hj] at hstands
    exact .inl (Option.some.inj hstands).symm
  · rw [hopen]; exact .inr rfl

/-- A load of an own place outside the bank, from the state in which it acts (R194, R196). -/
theorem State.loadFrom_own (s : State) (n : Nat) (d : BitVec 5) (ea off : Nat) (x : Walk) (h : ¬s.inBank off) :
    s.loadFrom n false d none ea (.spad s.actCore off) x = (((s.loadedAt s.cur.world (.spad s.actCore off) n).raisePts s.actCore
      (s.htsOf (.spad s.actCore off))).wr d (wordOf (natOfBytes (s.peekOpen s.cur.world (.spad s.actCore off) n)))).finish 1 := by
  rw [State.inBank] at h
  rw [State.loadFrom, if_pos rfl, if_neg h]
  rfl

/-- What a number of at most 8 loaded bytes reads as in a register. -/
theorem State.peekOpen_word (s : State) (w c off : Nat) {n : Nat} (hn : n ∣ 8) :
    (wordOf (natOfBytes (s.peekOpen w (.spad c off) n))).toNat = natOfBytes (s.peekOpen w (.spad c off) n) ∧
      natOfBytes (s.peekOpen w (.spad c off) n) < 2 ^ (8 * n) := by
  have hlt := natOfBytes_lt (s.peekOpen w (.spad c off) n)
  rw [s.peekOpen_length w _ n rfl] at hlt
  have hword : 2 ^ (8 * n) ≤ 2 ^ 64 := Nat.pow_le_pow_right (by decide) (by have := Nat.le_of_dvd (by decide) hn; omega)
  exact ⟨by rw [wordOf, BitVec.toNat_ofNat]; exact Nat.mod_eq_of_lt (lt_of_lt_of_le hlt hword), hlt⟩

theorem Records.inBank {s t : State} (h : Records s t) (off : Nat) : t.inBank off ↔ s.inBank off := by
  rw [State.inBank, h.curWs, State.inBank]

theorem Records.curWorld {s t : State} (h : Records s t) : t.cur.world = s.cur.world := by
  rw [State.cur, h.core, h.actCore, State.cur]

theorem Records.earlier {s t : State} (h : Records s t) (w : Nat) (l : Loc) (n : Nat) : t.earlier w l n = s.earlier w l n := by
  have hu : t.unsettled = s.unsettled := by rw [h.device]
  simp only [State.earlier, h.peek, hu]

/-! ## Stores (R84) -/

/-- What changes no byte before and after a write changes none but the write's. -/
theorem SpadBytesBut.of_same {s t u v : State} {c off n : Nat} (h : SameBytes s t) (hw : SpadBytesBut t u c off n) (h' : SameBytes u v) :
    SpadBytesBut s v c off n :=
  ⟨fun a => (h'.1 a).trans ((hw.1 a).trans (h.1 a)), fun x a ha => (h'.2 x a).trans ((hw.2 x a ha).trans (h.2 x a))⟩

theorem State.settleAt_sameBytes (s : State) (l : Loc) (n : Nat) : SameBytes s (s.settleAt l n) := by
  rw [s.settleAt_frame l n]
  exact ⟨fun _ => rfl, fun _ _ => rfl⟩

theorem State.decided_sameBytes (s : State) (w : Nat) (l : Loc) (bs : List Byte) : SameBytes s (s.decided w l bs).1 := by
  rw [State.decided]
  split
  · exact .trans ⟨fun _ => rfl, fun _ _ => rfl⟩ (State.settleAt_sameBytes { s with freeCount := s.freeCount + bs.length } l _)
  · exact s.settleAt_sameBytes l _

/-- A store at an own place outside the bank, from the state in which it acts (R194, R196). -/
theorem State.storeTo_own (s : State) (n v ea off : Nat) (x : Walk) (h : ¬s.inBank off) :
    s.storeTo n v none ea (.spad s.actCore off) x =
      ((s.pokeBy s.cur.world (.spad s.actCore off) (bytesOf n v)).raiseHts (.spad s.actCore off) (s.pts s.actCore)).finish 1 := by
  rw [State.inBank] at h
  rw [State.storeTo, if_pos rfl, if_neg h]
  rfl

section
variable (s : State) (w c : Nat) {off n : Nat} (v : Nat) (hin : off % 8 + n ≤ 8)
include hin

/-- A thread's store within an 8-byte word changes no byte but the word's. -/
theorem State.pokeBy_within (hpos : 0 < n) : SpadBytesBut s (s.pokeBy w (.spad c off) (bytesOf n v)) c (off / 8 * 8) 8 := by
  have hlen : (s.decided w (.spad c off) (bytesOf n v)).2.length = n := by rw [s.decided_length w _ _ rfl, bytesOf_length]
  refine .of_same (s.decided_sameBytes w (.spad c off) (bytesOf n v)) (State.poke_within _ w c off _ ?_ ?_) (.refl _) <;> rwa [hlen]

/-- Each byte of a thread's store is the thread's, or, where it was open, the one that stood; return stacks aside (R208). -/
theorem State.pokeBy_byte {j : Nat} (hj : j < n) (hstack : ¬(0x200 ≤ off % 1024 ∧ off % 1024 < 0x240)) :
    let b := (s.pokeBy w (.spad c off) (bytesOf n v)).spadByte c (off + j)
    b = BitVec.ofNat 8 (v / 256 ^ j) ∨ ((s.earlier w (.spad c off) n)[j]?).join ≠ none ∧ b = s.spadByte c (off + j) := by
  have hlen : (s.decided w (.spad c off) (bytesOf n v)).2.length = n := by rw [s.decided_length w _ _ rfl, bytesOf_length]
  have hj' : j < (s.decided w (.spad c off) (bytesOf n v)).2.length := by rwa [hlen]
  have hwritten : (s.pokeBy w (.spad c off) (bytesOf n v)).spadByte c (off + j) = (s.decided w (.spad c off) (bytesOf n v)).2[j] :=
    State.poke_byte _ w c off _ hj' (by omega)
  dsimp only
  rw [hwritten]
  rcases s.decided_byte w _ (List.getElem?_eq_getElem hj') with hthread | ⟨hstands, y, hopen⟩
  · have hbyte := (List.getElem?_eq_some_iff.mp hthread).2
    rw [bytesOf_getElem] at hbyte
    exact .inl hbyte.symm
  · rw [bytesOf_length, s.peek_spad_getElem? w c off hj] at hstands
    rw [bytesOf_length] at hopen
    exact .inr ⟨by rw [hopen]; exact Option.some_ne_none y, (Option.some.inj hstands).symm⟩

end

/-- After a thread's store no byte of its place is open. -/
theorem State.pokeBy_closed (s : State) (w c off n v : Nat) :
    (s.pokeBy w (.spad c off) (bytesOf n v)).closedAt (2 * (c * 1048576 + off) + 1) n := by
  have hclosed := s.decided_closed w (.spad c off) (bs := bytesOf n v) rfl
  rw [bytesOf_length] at hclosed
  rw [State.closedAt, State.pokeBy, (State.poke_oneCore _ w c off _).unsettled]
  exact hclosed

/-! ## The instructions -/

section
variable {s u : State} (hu : s.drainReds = u) {off : Nat} {x : Walk}
include hu

/-- R84: a load of an own place outside the bank completes with the bytes that stand or earlier values that are open. -/
theorem ld_takes (d a : BitVec 5) (z : BitVec 2) (o : BitVec 12)
    (hok : u.check u.actCore u.curWs (s.ea a o) (s.plain (sizeBytes z) true false) = .ok (.spad u.actCore off) x)
    (hfoot : u.footHit u.actCore u.curWs off (sizeBytes z) = false) (hbank : ¬u.inBank off) :
    ∃ t, exec (.ld d a z o) s = .next t ∧ ThreadDone u t [d] ∧ SameBytes u t ∧ (t.rd d).toNat < 2 ^ (8 * sizeBytes z) ∧
      ∀ j, j < sizeBytes z → let b : Byte := BitVec.ofNat 8 ((t.rd d).toNat / 256 ^ j)
        b = u.spadByte u.actCore (off + j) ∨ ((u.earlier u.cur.world (.spad u.actCore off) (sizeBytes z))[j]?).join = some b := by
  obtain ⟨v, hv⟩ : ∃ v, v = u.noteTlb u.actCore (s.ea a o) x := ⟨_, rfl⟩
  have hrec : Records u v := hv ▸ u.noteTlb_records _ _ _
  have hrun : exec (.ld d a z o) s = .next (v.loadFrom (sizeBytes z) false d none (s.ea a o) (.spad v.actCore off) x) := by
    rw [hrec.actCore, hv]
    exact State.access_own hu (fun t l y => t.loadFrom (sizeBytes z) false d none (s.ea a o) l y) hok hfoot
  rw [v.loadFrom_own _ d _ off x (by rwa [hrec.inBank])] at hrun
  have hstored := hrec.stored.trans ((v.loadedAt_stored v.cur.world (.spad v.actCore off) (sizeBytes z)).trans
    (State.raisePts_records _ v.actCore (v.htsOf (.spad v.actCore off))).stored)
  have hbytes := hrec.sameBytes.trans ((v.loadedAt_sameBytes v.cur.world (.spad v.actCore off) (sizeBytes z)).trans
    (State.sameBytes_raisePts _ v.actCore (v.htsOf (.spad v.actCore off))))
  obtain ⟨hword, hlt⟩ := v.peekOpen_word v.cur.world v.actCore off (sizeBytes_dvd z)
  refine ⟨_, hrun, hstored.sameThreads.done_wr hstored.cycle d _, hbytes.trans (State.result_sameElse _ d _ 1).sameBytes, ?_, ?_⟩
  · rw [State.rd_finish, State.rd_wr_same, hword]
    exact hlt
  · intro j hj
    rw [State.rd_finish, State.rd_wr_same, hword]
    have hbyte := v.peekOpen_byte v.cur.world v.actCore off hj
    rw [hrec.earlier, hrec.sameBytes.2, hrec.curWorld, hrec.actCore] at hbyte
    rw [hrec.curWorld, hrec.actCore]
    exact hbyte

/-- R84: a store of an own place outside the bank completes with the thread's bytes, or, where one was open, the one that
stood, and leaves none of them open. -/
theorem st_decides (d a : BitVec 5) (z : BitVec 2) (o : BitVec 12)
    (hok : u.check u.actCore u.curWs (s.ea a o) (s.plain (sizeBytes z) false true) = .ok (.spad u.actCore off) x)
    (hfoot : u.footHit u.actCore u.curWs off (sizeBytes z) = false) (hbank : ¬u.inBank off) :
    ∃ t, exec (.st d a z o) s = .next t ∧ ThreadDone u t [] ∧ SpadBytesBut u t u.actCore (off / 8 * 8) 8 ∧
      t.opened u.cur.world (.spad u.actCore off) (sizeBytes z) = false ∧
      ∀ j, j < sizeBytes z → ¬(0x200 ≤ off % 1024 ∧ off % 1024 < 0x240) →
        let b := t.spadByte u.actCore (off + j)
        b = BitVec.ofNat 8 ((s.rd d).toNat / 256 ^ j) ∨
          ((u.earlier u.cur.world (.spad u.actCore off) (sizeBytes z))[j]?).join ≠ none ∧ b = u.spadByte u.actCore (off + j) := by
  have hin : off % 8 + sizeBytes z ≤ 8 := State.check_spad_within (sizeBytes_dvd z) hok
  obtain ⟨v, hv⟩ : ∃ v, v = u.noteTlb u.actCore (s.ea a o) x := ⟨_, rfl⟩
  have hrec : Records u v := hv ▸ u.noteTlb_records _ _ _
  have hrun : exec (.st d a z o) s = .next (v.storeTo (sizeBytes z) (s.rd d).toNat none (s.ea a o) (.spad v.actCore off) x) := by
    rw [hrec.actCore, hv]
    exact State.access_own hu (fun t l y => t.storeTo (sizeBytes z) (s.rd d).toNat none (s.ea a o) l y) hok hfoot
  rw [v.storeTo_own _ _ _ off x (by rwa [hrec.inBank]), hrec.curWorld, hrec.actCore] at hrun
  obtain ⟨p, hp⟩ : ∃ p, p = v.pokeBy u.cur.world (.spad u.actCore off) (bytesOf (sizeBytes z) (s.rd d).toNat) := ⟨_, rfl⟩
  rw [← hp] at hrun
  have hhts := p.raiseHts_records (.spad u.actCore off) (v.pts u.actCore)
  have hstored : Stored u (p.raiseHts (.spad u.actCore off) (v.pts u.actCore)) :=
    hrec.stored.trans ((hp ▸ v.pokeBy_stored u.cur.world (.spad u.actCore off) _).trans hhts.stored)
  have hafter : SameBytes p _ := hhts.sameBytes.trans (State.finish_sameElse _ 1).sameBytes
  refine ⟨_, hrun, hstored.sameThreads.done hstored.cycle, ?_, ?_, fun j hj hstack => ?_⟩
  · refine .of_same hrec.sameBytes (hp ▸ ?_) hafter
    exact v.pokeBy_within u.cur.world u.actCore _ hin (sizeBytes_pos z)
  · refine State.opened_closed _ u.cur.world (.spad u.actCore off) rfl ?_
    have hclosed := v.pokeBy_closed u.cur.world u.actCore off (sizeBytes z) (s.rd d).toNat
    rw [← hp] at hclosed
    rwa [State.closedAt, (State.finish_sameElse _ 1).1.device.unsettled, State.raiseHts, (OneCore.modCore p u.actCore _).unsettled]
  · have hbyte := v.pokeBy_byte u.cur.world u.actCore (s.rd d).toNat hin hj hstack
    rw [← hp, hrec.earlier, hrec.sameBytes.2] at hbyte
    rw [hafter.2]
    exact hbyte

end
end Sys2Proof.Machine
end

section
/-! An engine's writes, and what `ld.fe`, `cl.test` and `ma.wait` leave open (R84, R98, R101, R220, R224, R291). -/

namespace Sys2Proof.Machine

/-! ## An engine's write -/

/-- What is open of a byte depends on what engines have left open alone. -/
theorem State.openAt_congr {s t : State} (h : t.unsettled = s.unsettled) (k : Nat) (b : Byte) : t.openAt k b = s.openAt k b := by
  rw [State.openAt, h, State.openAt]

/-- R84: an engine's write leaves open every byte that it changes, with the value that the byte had; return stacks aside. -/
theorem State.engineWrite_earlier (s : State) (id core w c off : Nat) {bs : List Byte} (stamp : Nat) {j : Nat} (hj : j < bs.length)
    (hstack : ¬(0x200 ≤ (off + j) % 1024 ∧ (off + j) % 1024 < 0x240)) :
    (((s.noteEngine id core w (.spad c off) bs).engineWrite w (.spad c off) bs stamp).earlier w (.spad c off) bs.length)[j]? =
      some (if bs[j]? = some (s.spadByte c (off + j)) then none else some (s.spadByte c (off + j))) := by
  have hopen := s.noteEngine_openAt id core w (.spad c off) rfl (s.peek_spad_getElem? w c off hj) (List.getElem?_eq_getElem hj)
  rw [State.earlier_spad _ w c off hj, State.engineWrite_byte _ w c off bs stamp hj hstack,
    State.openAt_congr (State.engineWrite_spad_unsettled _ w c off bs stamp), hopen, List.getElem?_eq_getElem hj]
  simp only [Option.some_inj]

/-! ## Clasps (R99, R101) -/

theorem Memory.readN_drop (m : List Host.Cell) (a k n : Nat) : (Memory.readN m a (k + n)).drop k = Memory.readN m (a + k) n := by
  induction k generalizing a with
  | zero => rw [Nat.zero_add]; rfl
  | succ k ih =>
    rw [Nat.add_right_comm, Memory.readN, List.drop_succ_cons, ih, Nat.add_right_comm, Nat.add_assoc]

/-- The last three bytes of a clasp are its PHC (R99). -/
theorem State.peek_phc (s : State) (w c off : Nat) :
    natOfBytes ((s.peek w (.spad c off) 16).drop 13) = s.sNum c (off + 8) 8 / 2 ^ 40 % 2 ^ 24 := by
  rw [State.peek, show 16 = 13 + 3 from rfl, Memory.readN_drop]
  exact Memory.num_inside _ (off + 8) (n := 8) (k := 5) (l := 3) (Nat.le_refl _)

/-- A phase count that is observed closes what was counted into earlier phases, and keeps the rest (R101). -/
theorem State.mem_acquirePhase (s : State) (key phc : Nat) (v : Unsettled) :
    v ∈ (s.acquirePhase key phc).unsettled ↔ v ∈ s.unsettled ∧ ∀ p, v.counted = some (key, some p) → p = phc := by
  rw [State.acquirePhase]
  split
  next hnil => simp [List.isEmpty_iff.mp hnil]
  next =>
    rw [List.mem_filter, and_congr_right_iff]
    intro _
    rcases v.counted with _ | ⟨k, _ | p⟩
    · simp
    · simp
    · by_cases hk : k = key <;> simp [hk]

theorem State.mem_seeClasp (s : State) (w c off : Nat) (v : Unsettled) :
    v ∈ (s.seeClasp w (.spad c off)).unsettled ↔ v ∈ s.unsettled ∧
      ∀ p, v.counted = some (2 * (c * 1048576 + off) + 1, some p) → p = s.sNum c (off + 8) 8 / 2 ^ 40 % 2 ^ 24 := by
  rw [← s.peek_phc w c off, ← State.mem_acquirePhase, State.seeClasp]
  split
  next hnil => rw [State.acquirePhase, if_pos hnil]
  next => rfl

theorem State.perform_clTest (s : State) (r : Request) {o off : Nat} {d : BitVec 5} (hloc : r.loc = .spad o off) (hop : r.op = .clTest d) :
    ∃ reg stamp, s.perform r = (s.seeClasp r.world (.spad o off), some (answerOk reg stamp)) := by
  refine ⟨some (d, (claspOf (s.peek r.world (.spad o off) 16)).result), (s.seeClasp r.world (.spad o off)).htsOf (.spad o off), ?_⟩
  simp only [State.perform, hop, hloc]
  rfl

/-! ## The instructions -/

section
variable {s u : State} (hu : s.drainReds = u) {off : Nat} {x : Walk}
include hu

/-- R98: `ld.fe.keep` of a full granule leaves none of its bytes open. -/
theorem ldFeKeep_closes (d a : BitVec 5) (z : BitVec 2) (o : BitVec 12)
    (hok : u.check u.actCore u.curWs (s.ea a o) (s.syncAcc 4 (sizeBytes z) true false) = .ok (.spad u.actCore off) x)
    (hfoot : u.footHit u.actCore u.curWs off (sizeBytes z) = false) (hfull : u.cur.isFull (off / 16) = true) :
    ∃ t, exec (.ldFeKeep d a z o) s = .next t ∧ t.opened u.cur.world (.spad u.actCore (off / 16 * 16)) 16 = false := by
  obtain ⟨stamp, hperform⟩ := State.perform_feLoad_full (u.homeNow (s.ea a o))
    (u.ownReq (s.ea a o) off (.feLoad false (sizeBytes z) d) s.feDeadline) rfl rfl (by rwa [u.homeNow_isFull])
  refine ⟨_, State.atHome_own_done hu hok hfoot hperform, State.opened_closed _ _ _ rfl ?_⟩
  rw [State.closedAt, State.applyAnswer_unsettled]
  exact State.settleAt_closed _ (.spad u.actCore (off / 16 * 16)) 16 rfl

/-- R101: `cl.test` closes what was counted into earlier phases of its clasp, and nothing else. -/
theorem clTest_acquires (d a : BitVec 5)
    (hok : u.check u.actCore u.curWs (s.rd a).toNat (s.syncAcc 3 16 true false) = .ok (.spad u.actCore off) x)
    (hfoot : u.footHit u.actCore u.curWs off 16 = false) :
    ∃ t, exec (.clTest d a) s = .next t ∧ ∀ v, v ∈ t.unsettled ↔ v ∈ u.unsettled ∧
      ∀ p, v.counted = some (2 * (u.actCore * 1048576 + off) + 1, some p) → p = u.sNum u.actCore (off + 8) 8 / 2 ^ 40 % 2 ^ 24 := by
  obtain ⟨reg, stamp, hperform⟩ := State.perform_clTest (u.homeNow (s.rd a).toNat)
    (u.ownReq (s.rd a).toNat off (.clTest d) none) (o := u.actCore) (off := off) rfl rfl
  refine ⟨_, State.atHome_own_done hu hok hfoot hperform, fun v => ?_⟩
  rw [State.applyAnswer_unsettled, State.mem_seeClasp, u.homeNow_unsettled, (u.homeNow_sameBytes _).sNum]

end

/-- R291: `ma.wait` closes nothing, whether it goes on or waits. -/
theorem maWait_keeps (s : State) (e : EngCmd) : ∃ t, exec (.maWait e) s = .next t ∧ t.unsettled = s.unsettled := by
  have hexec : exec (.maWait e) s = if s.cur.mq.isEmpty then .next (s.finish 1) else .next (s.parkCur (.maWait s.nextId)) := rfl
  rw [hexec]
  split
  · exact ⟨_, rfl, (s.finish_sameElse 1).1.device.unsettled⟩
  · exact ⟨_, rfl, (SameElse.parkCur s _).1.device.unsettled⟩

/-- Settles O27: an engine's note opens each byte that it changes; a load takes of an open byte either value; a store decides
its bytes and closes them; an `ld.fe` closes its granule; an observed clasp closes what earlier phases counted. -/
theorem engineBytesStayOpenUntilTheyAreAcquired : Obligations.EngineBytesStayOpenUntilTheyAreAcquired := by
  intro s w c
  refine ⟨fun id core off stamp j bs hj hstack => s.engineWrite_earlier id core w c off stamp hj hstack,
    fun d a z o off x => ⟨fun hlands hbank => ?_, fun hlands hbank => ?_, fun hlands hfull => ?_⟩,
    fun d a off x hok hfoot => ?_, maWait_keeps s⟩
  · obtain ⟨t, hrun, hdone, hbytes, hlt, htakes⟩ := ld_takes rfl d a z o hlands.1 hlands.2 hbank
    exact ⟨t, hrun, hdone.regs, hdone.goesOn, hbytes, hdone.others, hlt, htakes⟩
  · obtain ⟨t, hrun, hdone, hbytes, hclosed, hdecides⟩ := st_decides rfl d a z o hlands.1 hlands.2 hbank
    exact ⟨t, hrun, hdone.regs, hdone.goesOn, hbytes, hclosed, hdecides⟩
  · exact ldFeKeep_closes rfl d a z o hlands.1 hlands.2 hfull
  · obtain ⟨t, hrun, hmem⟩ := clTest_acquires rfl d a hok hfoot
    exact ⟨t, hrun, fun v hv => ((hmem v).mp hv).2, fun v hv hnot => (hmem v).mpr ⟨hv, fun p hp => absurd hp (hnot p)⟩⟩

end Sys2Proof.Machine
end

section
/-! Full-empty forms at the issuing core's own scratchpad and elsewhere (R95 to R97, R208, R214, R220 to R222). -/

namespace Sys2Proof.Machine

/-! ## What a form leaves of its granule (R95) -/

section
variable {s : State} {r : Request} {o off : Nat} (hloc : r.loc = .spad o off) (f : Bool)
include hloc

theorem State.granuleTo_eq : s.granuleTo r o off f =
    (s.modCore o (fun k => k.setFull (off / 16) f)).modCore o (fun k => { k with hts := max k.hts r.stamp }) := by
  rw [State.granuleTo, hloc]; rfl

theorem State.granuleTo_sameBytes : SameBytes s (s.granuleTo r o off f) := by
  rw [State.granuleTo_eq hloc]
  exact (SameBytes.modCore s o _ rfl).trans (.modCore _ o _ rfl)

theorem State.granuleTo_isFull (g : Nat) : ((s.granuleTo r o off f).core o).isFull g = true ↔
    if f = true then (s.core o).isFull g = true ∨ g = off / 16 else (s.core o).isFull g = true ∧ g ≠ off / 16 := by
  rw [State.granuleTo_eq hloc, State.core_modCore_same, State.core_modCore_same]
  exact Core.isFull_setFull _ _ _ _

end

theorem AtOwn.granuleTo {u w : State} (h : AtOwn u w) {r : Request} {off : Nat} (hloc : r.loc = .spad u.actCore off) (f : Bool) :
    AtOwn u (w.granuleTo r u.actCore off f) := by
  rw [State.granuleTo_eq hloc]
  exact (h.modCore (f := fun k => k.setFull (off / 16) f) fun _ => rfl).modCore fun _ => rfl

/-! ## What the forms leave of the device -/

section
variable {s u w : State} {r : Request} {o off n : Nat}

theorem AtOwn.feLoaded (h : AtOwn u w) (hloc : r.loc = .spad u.actCore off) (take : Bool) : AtOwn u (w.feLoaded r u.actCore off take) := by
  have hsettled := h.settleAt (.spad u.actCore (off / 16 * 16)) 16
  cases take with
  | false => exact hsettled
  | true => exact hsettled.granuleTo hloc false

theorem State.feLoaded_sameBytes (hloc : r.loc = .spad o off) (take : Bool) : SameBytes s (s.feLoaded r o off take) := by
  have hsettled := s.settleAt_sameBytes (.spad o (off / 16 * 16)) 16
  cases take with
  | false => exact hsettled
  | true => exact hsettled.trans (State.granuleTo_sameBytes hloc false)

theorem State.settleAt_core (s : State) (l : Loc) (n c : Nat) : (s.settleAt l n).core c = s.core c := by
  rw [s.settleAt_frame l n]; rfl

theorem State.feKept_full (s : State) (r : Request) (o off : Nat) : ((s.feLoaded r o off false).core o).full = (s.core o).full :=
  congrArg Core.full (s.settleAt_core (.spad o (off / 16 * 16)) 16 o)

theorem State.feTaken_isFull (hloc : r.loc = .spad o off) (g : Nat) :
    ((s.feLoaded r o off true).core o).isFull g = true ↔ (s.core o).isFull g = true ∧ g ≠ off / 16 := by
  have hbits := State.granuleTo_isFull (s := s.settleAt (.spad o (off / 16 * 16)) 16) hloc false g
  rw [State.settleAt_core] at hbits
  exact hbits

/-- Writing bytes of a scratchpad changes no granule's bit (R95). -/
theorem State.poke_full (s : State) (q c off : Nat) (bs : List Byte) :
    ((s.poke q (.spad c off) bs).core c).full = (s.core c).full := by
  rw [State.poke_spad]
  refine State.guardStack_keeps (P := fun t => (t.core c).full = (s.core c).full) _ c off _ ?_ fun _ t i v _ ht => ?_
  · rw [State.spadWritten, State.core_modCore_same]
  · rw [State.sPut_eq, State.core_putCore_same]
    exact ht

theorem AtOwn.feStored (h : AtOwn u w) (hloc : r.loc = .spad u.actCore off) (mode v : Nat)
    (hopen : w.opened r.world (.spad u.actCore off) n = false) : AtOwn u (w.feStored r u.actCore off mode n v) := by
  rw [State.feStored]
  split
  · exact h.granuleTo hloc _
  · rw [State.pokeBy_settled _ _ _ (by rwa [bytesOf_length])]
    exact ((h.settleAt _ _).poke _ _ _).granuleTo hloc _

theorem State.feStored_isFull (hloc : r.loc = .spad o off) (mode v g : Nat) (hopen : s.opened r.world (.spad o off) n = false) :
    ((s.feStored r o off mode n v).core o).isFull g = true ↔
      if (mode != 2) = true then (s.core o).isFull g = true ∨ g = off / 16 else (s.core o).isFull g = true ∧ g ≠ off / 16 := by
  have hwritten : ((if mode = 2 then s else s.pokeBy r.world (.spad o off) (bytesOf n v)).core o).full = (s.core o).full := by
    split
    · rfl
    · rw [State.pokeBy_settled _ _ _ (by rwa [bytesOf_length]), State.poke_full, State.settleAt_core]
  rw [State.feStored, State.granuleTo_isFull hloc, Core.isFull_congr hwritten]

/-- `st.fe.clear` stores nothing (R220). -/
theorem State.feCleared_sameBytes (hloc : r.loc = .spad o off) (v : Nat) : SameBytes s (s.feStored r o off 2 n v) :=
  State.granuleTo_sameBytes hloc _

theorem State.stored_congr (hb : SameBytes s u) (ht : SameThreads s u) (c off n v : Nat) : u.stored c off n v = s.stored c off n v := by
  rw [State.stored, State.stored, hb.sNum, ht.task]

/-- The other `st.fe` forms leave the word of their place as a store does (R220). -/
theorem State.feStored_word (hloc : r.loc = .spad o off) {mode : Nat} (v : Nat) (hmode : mode ≠ 2) (hpos : 0 < n) (hin : off % 8 + n ≤ 8)
    (hopen : s.opened r.world (.spad o off) n = false) : (s.feStored r o off mode n v).sNum o (off / 8 * 8) 8 = s.stored o off n v ∧
      SpadBytesBut s (s.feStored r o off mode n v) o (off / 8 * 8) 8 := by
  have hgranule := State.granuleTo_sameBytes (s := s.pokeBy r.world (.spad o off) (bytesOf n v)) hloc (mode != 2)
  rw [State.feStored, if_neg hmode]
  refine ⟨?_, .of_same (.refl s) (s.pokeBy_within r.world o v hin hpos) hgranule⟩
  rw [hgranule.sNum, State.pokeBy_settled _ _ _ (by rwa [bytesOf_length]), State.poke_word _ r.world hpos hin,
    State.stored_congr (s.settleAt_sameBytes _ _) (s.settleAt_stored _ _).sameThreads]

end

/-! ## The instructions -/

section
variable {s u : State} (hu : s.drainReds = u) {ea off : Nat} {acc : Acc} {op : ReqOp} {deadline : Option Nat} {x : Walk}
  (hok : u.check u.actCore u.curWs ea acc = .ok (.spad u.actCore off) x) (hfoot : u.footHit u.actCore u.curWs off acc.n = false)
include hu hok hfoot

/-- A form that acts at the own core completes, with the core's bytes and bits as it leaves them (R214). -/
theorem State.atHome_own_answer {p : State} (hp : AtOwn u p) {reg : Option (BitVec 5 × Word)}
    (hperform : ∃ stamp, (u.homeNow ea).perform (u.ownReq ea off op deadline) = (p, some (answerOk reg stamp))) :
    ∃ t, s.atHome ea acc op deadline = .next t ∧ OwnDone u t (reg.map (fun q => q.1)).toList ∧ SameBytes p t ∧
      t.cur.full = (p.core u.actCore).full ∧ ∀ d v, reg = some (d, v) → t.rd d = v := by
  obtain ⟨stamp, hperform⟩ := hperform
  refine ⟨_, State.atHome_own_done hu hok hfoot hperform, hp.done reg stamp, p.applyAnswer_sameBytes reg stamp, ?_,
    (p.applyAnswer_done reg stamp).2.2.2⟩
  rw [State.applyAnswer_full, State.cur, hp.actCore]

/-- A form whose granule does not let it act joins the core's waiters at the tail and parks, and changes nothing else (R221). -/
theorem State.atHome_fe_waits (hop : (∃ take n d, op = .feLoad take n d) ∨ ∃ mode n v, op = .feStore mode n v)
    (hperform : (u.homeNow ea).perform (u.ownReq ea off op deadline) = (u.homeNow ea, none)) :
    ∃ t r, s.atHome ea acc op deadline = .next t ∧ t.cur.feWait = u.cur.feWait ++ [r] ∧ r.op = op ∧ r.loc = .spad u.actCore off ∧
      r.va = ea ∧ r.core = u.actCore ∧ r.ws = u.curWs ∧ r.deadline = deadline ∧ t.curTask = { u.curTask with park := .home r.id } ∧
      SameRegs u t [] ∧ SameBytes u t ∧ t.cur.full = u.cur.full ∧ OtherThreads u t := by
  obtain ⟨r, hr⟩ : ∃ r, r = u.ownReq ea off op deadline := ⟨_, rfl⟩
  obtain ⟨w, hw⟩ : ∃ w, w = (u.homeNow ea).modCore u.actCore (fun k => { k with feWait := k.feWait ++ [r] }) := ⟨_, rfl⟩
  have hrun := State.atHome_own_waits hu hok hfoot hperform
  rw [State.register_fe _ _ (u.ownReq_loc ea off op deadline) hop, ← hr, ← hw] at hrun
  have hthreads : SameThreads u w := hw ▸ (AtOwn.homeNow u ea).sameThreads.trans (.modCore (u.homeNow ea) u.actCore _ rfl rfl)
  have hbytes : SameBytes u w := hw ▸ (u.homeNow_sameBytes ea).trans (.modCore (u.homeNow ea) u.actCore _ rfl)
  have hcore : w.cur = { (u.homeNow ea).core u.actCore with feWait := u.cur.feWait ++ [r] } := by
    rw [State.cur, hthreads.actCore, hw, State.core_modCore_same, u.homeNow_feWait]; rfl
  have hpark := SameElse.parkCur w (.home r.id)
  refine ⟨_, r, hrun, ?_, ?_, ?_, ?_, ?_, ?_, ?_, ?_, fun q _ => ?_, hbytes.trans hpark.sameBytes, ?_, hthreads.otherThreads hpark.1⟩
  · rw [hpark.1.core, hcore]
  · rw [hr, State.ownReq_op]
  · rw [hr, State.ownReq_loc]
  · rw [hr, State.ownReq_va]
  · rw [hr, State.ownReq_core]
  · rw [hr, State.ownReq_ws]
  · rw [hr, State.ownReq_deadline]
  · rw [State.curTask_parkCur, hthreads.curTask]
  · rw [State.parkCur, State.rd_modCurTask, hthreads.rd]
  · rw [hpark.1.core, hcore]
    exact u.homeNow_full ea u.actCore

end

/-! ## The forms -/

section
variable {u : State} {off : Nat} (ea n : Nat) (deadline : Option Nat)

/-- An empty granule holds an `ld.fe` back (R96). -/
theorem State.perform_ownFeLoad_empty (take : Bool) (d : BitVec 5) (hempty : u.cur.isFull (off / 16) = false) :
    (u.homeNow ea).perform (u.ownReq ea off (.feLoad take n d) deadline) = (u.homeNow ea, none) :=
  State.perform_feLoad_empty _ _ (u.ownReq_loc ..) (u.ownReq_op ..) (by rwa [u.homeNow_isFull])

/-- A full granule holds a `st.fe.fill` back (R96). -/
theorem State.perform_ownFeFill_full (v : Nat) (hfull : u.cur.isFull (off / 16) = true) :
    (u.homeNow ea).perform (u.ownReq ea off (.feStore 0 n v) deadline) = (u.homeNow ea, none) :=
  State.perform_feStore_full _ _ (u.ownReq_loc ..) (u.ownReq_op ..) (by rwa [u.homeNow_isFull])

end

section
variable {s u : State} (hu : s.drainReds = u) {ea off n : Nat} {acc : Acc} {deadline : Option Nat} {x : Walk}
  (hok : u.check u.actCore u.curWs ea acc = .ok (.spad u.actCore off) x) (hfoot : u.footHit u.actCore u.curWs off acc.n = false)
include hu hok hfoot

/-- R220: `ld.fe` of a full granule completes with the bytes. -/
theorem State.atHome_feLoad_done (take : Bool) (d : BitVec 5) (hfull : u.cur.isFull (off / 16) = true) :
    ∃ t, s.atHome ea acc (.feLoad take n d) deadline = .next t ∧ t.rd d = BitVec.ofNat 64 (u.sNum u.actCore off n) ∧ OwnDone u t [d] ∧
      SameBytes u t ∧ (take = false → t.cur.full = u.cur.full) ∧
      (take = true → ∀ g, t.cur.isFull g = true ↔ u.cur.isFull g = true ∧ g ≠ off / 16) := by
  have hloc := u.ownReq_loc ea off (.feLoad take n d) deadline
  have hperform := State.perform_feLoad_full (u.homeNow ea) _ hloc (u.ownReq_op ..) (by rwa [u.homeNow_isFull])
  rw [u.homeNow_peek] at hperform
  obtain ⟨t, hrun, hdone, hbytes, hbits, hreg⟩ :=
    State.atHome_own_answer hu hok hfoot ((AtOwn.homeNow u ea).feLoaded hloc take) hperform
  refine ⟨t, hrun, hreg d _ rfl, hdone, (u.homeNow_sameBytes ea).trans ((State.feLoaded_sameBytes hloc take).trans hbytes), ?_, ?_⟩
  · rintro rfl
    exact hbits.trans ((State.feKept_full _ _ _ off).trans (u.homeNow_full ea _))
  · rintro rfl g
    have htaken := State.feTaken_isFull (s := u.homeNow ea) hloc g
    rw [u.homeNow_isFull] at htaken
    rwa [Core.isFull_congr hbits]

/-- R220: `st.fe` that its granule lets act completes, with its granule's bit set, or cleared by `st.fe.clear`, which stores
nothing. -/
theorem State.atHome_feStore_done (mode v : Nat) (hcan : mode = 0 → u.cur.isFull (off / 16) = false)
    (hopen : u.opened u.cur.world (.spad u.actCore off) n = false) (hpos : 0 < n) (hin : off % 8 + n ≤ 8) :
    ∃ t, s.atHome ea acc (.feStore mode n v) deadline = .next t ∧ OwnDone u t [] ∧
      (mode ≠ 2 → t.sNum u.actCore (off / 8 * 8) 8 = u.stored u.actCore off n v ∧ SpadBytesBut u t u.actCore (off / 8 * 8) 8) ∧
      (mode = 2 → SameBytes u t) ∧ ∀ g, t.cur.isFull g = true ↔
        if (mode != 2) = true then u.cur.isFull g = true ∨ g = off / 16 else u.cur.isFull g = true ∧ g ≠ off / 16 := by
  have hloc := u.ownReq_loc ea off (.feStore mode n v) deadline
  have hhome := AtOwn.homeNow u ea
  have hopen' : (u.homeNow ea).opened (u.ownReq ea off (.feStore mode n v) deadline).world (.spad u.actCore off) n = false := by
    rw [u.homeNow_opened, u.ownReq_world]
    exact hopen
  have hperform := State.perform_feStore_done (u.homeNow ea) _ hloc (u.ownReq_op ..)
    (fun h => by rw [u.homeNow_isFull]; exact hcan h)
  obtain ⟨t, hrun, hdone, hbytes, hbits, -⟩ := State.atHome_own_answer hu hok hfoot (hhome.feStored hloc mode v hopen') (reg := none) hperform
  refine ⟨t, hrun, hdone, fun hmode => ?_, ?_, fun g => ?_⟩
  · obtain ⟨hword, hrest⟩ := State.feStored_word hloc v hmode hpos hin hopen'
    rw [State.stored_congr (u.homeNow_sameBytes ea) hhome.sameThreads] at hword
    exact ⟨(hbytes.sNum _ _ _).trans hword, .of_same (u.homeNow_sameBytes ea) hrest hbytes⟩
  · rintro rfl
    exact (u.homeNow_sameBytes ea).trans ((State.feCleared_sameBytes hloc v).trans hbytes)
  · have hset := State.feStored_isFull hloc mode v g hopen'
    rw [u.homeNow_isFull] at hset
    rwa [Core.isFull_congr hbits]

end

/-- Settles O25: a form whose granule lets it act is performed at once, the others wait at the core; away from it each travels. -/
theorem fullEmptyFormsFollowR96 : Obligations.FullEmptyFormsFollowR96 := by
  intro s d a z o l x
  refine ⟨fun ⟨hok, hopen, hfoot⟩ => ⟨fun haway => State.atHome_sends rfl rfl hok haway, fun haway => State.atHome_sends rfl rfl hok haway, ?_⟩,
    fun ⟨hok, hopen, hfoot⟩ => ⟨fun haway => State.atHome_sends rfl rfl hok haway, fun haway => State.atHome_sends rfl rfl hok haway,
      fun haway => State.atHome_sends rfl rfl hok haway, ?_⟩⟩
  · rintro off rfl
    refine ⟨fun hfull => ⟨?_, ?_⟩, fun hempty => ⟨?_, ?_⟩⟩
    · obtain ⟨t, hrun, hreg, hdone, hbytes, hkeep, -⟩ := State.atHome_feLoad_done rfl hok (hfoot off rfl) false d hfull
      exact ⟨t, hrun, hreg, hdone, hbytes, hkeep rfl⟩
    · obtain ⟨t, hrun, hreg, hdone, hbytes, -, htake⟩ := State.atHome_feLoad_done rfl hok (hfoot off rfl) true d hfull
      exact ⟨t, hrun, hreg, hdone, hbytes, htake rfl⟩
    · exact State.atHome_fe_waits rfl hok (hfoot off rfl) (.inl ⟨_, _, _, rfl⟩) (State.perform_ownFeLoad_empty _ _ _ false d hempty)
    · exact State.atHome_fe_waits rfl hok (hfoot off rfl) (.inl ⟨_, _, _, rfl⟩) (State.perform_ownFeLoad_empty _ _ _ true d hempty)
  · rintro off rfl
    have hin : off % 8 + sizeBytes z ≤ 8 := State.check_spad_within (sizeBytes_dvd z) hok
    have hdone := fun deadline mode v hcan => State.atHome_feStore_done (deadline := deadline) rfl hok (hfoot off rfl) mode v hcan hopen
      (sizeBytes_pos z) hin
    refine ⟨fun hempty => ?_, fun hfull => ?_, ?_, ?_⟩
    · obtain ⟨t, hrun, hown, hword, -, hbits⟩ := hdone s.feDeadline 0 (lowBytes (sizeBytes z) (s.rd d)) fun _ => hempty
      exact ⟨t, hrun, hword (by decide), hown, hbits⟩
    · exact State.atHome_fe_waits rfl hok (hfoot off rfl) (.inr ⟨_, _, _, rfl⟩) (State.perform_ownFeFill_full _ _ _ _ hfull)
    · obtain ⟨t, hrun, hown, hword, -, hbits⟩ := hdone s.feDeadline 1 (lowBytes (sizeBytes z) (s.rd d)) fun h => by cases h
      exact ⟨t, hrun, hword (by decide), hown, hbits⟩
    · obtain ⟨t, hrun, hown, -, hbytes, hbits⟩ := hdone s.feDeadline 2 0 fun h => by cases h
      exact ⟨t, hrun, hbytes rfl, hown, hbits⟩

end Sys2Proof.Machine
end

section
/-! A task that is ended while a nest of its own that has written its trap record is still queued (R80, R110, R245). -/

namespace Sys2Proof.Machine

/-- `vx.fill` of one i32 element: d at the address in W(1), its value in W(2). -/
def fillOne : Nest := ⟨10, 10, 10, 0, 0, 0, 0, 1, 2, 0, 0, 0, 0, 0, 0, 0, 0, 0, 0, 0, 0, 0, 0, 0, 0, 0, 0, 0, 0, 0, 0, 0, 0, 0, 0, 0, 0, 0⟩

/-- A task of no gang with no handler, running in slot 0: W(1) is the address of its own trap record, W(2) is 5. -/
def standBare : State := { State.reset with
  cores := [(0, { Core.reset with
    slots := [(0, { Slot.reset with ws := some 0, bank := [(1, 0x00FFFFFFFFF00100), (2, 5)], live := 0xFFFFFFFF })]
    tasks := [(0, { Task.reset with tstate := 1 })] })] }

/-- The task has issued the fill, which is detached and still queued, and the fill has made its access, as it does before the
thread's next instruction that has one (R80). -/
def standFilled : State := (standBare.after (execVxFill fillOne standBare)).settleNests 0 0

/-- The task is in no gang, has no handler, and its slot is not switching. -/
theorem standFilled_task : standFilled.curTask.gang = none ∧ standFilled.curTask.trapv = 0 ∧
    standFilled.curSlot.ws = some 0 ∧ standFilled.curSlot.switching = none := by decide +kernel

/-- The fill has written the record's first word. -/
theorem standFilled_record : recordAt standFilled standFilled 0 8 = 5 := by decide +kernel

/-- The end of the task discards the fill as if it had never run (R245), and with it what it wrote. -/
theorem standFilled_record_takeTrap :
    recordAt standFilled (standFilled.takeTrap (trapOf 0x12 1)) 0 8 = 0 := by decide +kernel

theorem exec_swtrap_eq (h l : BitVec 5) (s : State) :
    exec (.swtrap h l) s = .next (s.takeTrap (trapOf 0x12 (h.toNat * 32 + l.toNat))) := rfl

/-- Refutes O11: the trap record does not keep its bytes when `swtrap` ends a task that has no handler, because the task's queued
`vx.fill` had written the record's first word and is discarded with the task. -/
theorem not_trapsFollowR104ToR110 : ¬ Obligations.TrapsFollowR104ToR110 := by
  intro ⟨_, hends⟩
  obtain ⟨hgang, htrapv, -, -⟩ := standFilled_task
  obtain ⟨t, x, hrun, -, -, -, -, hkept, -⟩ := hends standFilled 0 1 (.inr htrapv) hgang
  have ht : t = standFilled.takeTrap (trapOf 0x12 1) := by
    have hsame := hrun.symm.trans (exec_swtrap_eq 0 1 standFilled)
    injection hsame
  rw [ht, standFilled_record_takeTrap, standFilled_record] at hkept
  exact absurd hkept (by decide)

end Sys2Proof.Machine
end

section
/-! The spec's own encoding examples (R109, R174 to R333). -/

namespace Sys2Proof.Machine

/-- Settles O55: each word is a literal, on which its set's decoder evaluates to the instruction beside it. -/
theorem theSpecsWordsDecode : Obligations.TheSpecsWordsDecode := by
  unfold Obligations.TheSpecsWordsDecode
  decide

end Sys2Proof.Machine
end

section
/-! O34, first part: the issue of a nest (R240 to R243, R249, R250). -/

namespace Sys2Proof.Machine

/-- Every `lnest` instruction runs as the nest that its fields name (R165). -/
theorem exec_of_vopOf {i : Instr} {v : Nat} {n : Nest} (h : vopOf i = some (v, n)) (s : State) : exec i s = s.nest v n := by
  cases i <;> simp only [vopOf, reduceCtorEq, Option.some.injEq, Prod.mk.injEq] at h <;> obtain ⟨rfl, rfl⟩ := h <;> rfl

/-! ## The checks (R129, R250) -/

section
variable {s : State} {v : Nat} {n : Nest}

theorem State.nest_sr (h : vopKindOf v = .func ∧ s.drainReds.rmCode n.rm = 5) : s.nest v n = .next (s.drainReds.undef 5) := if_pos h

variable (h : ¬(vopKindOf v = .func ∧ s.drainReds.rmCode n.rm = 5))
include h

theorem State.nest_trap {t : Trap} (ht : s.drainReds.nestCheck v n = some t) : s.nest v n = .next (s.drainReds.takeTrap t) :=
  (if_neg h).trans (by rw [ht])

theorem State.nest_full (ht : s.drainReds.nestCheck v n = none) (hfull : 8 ≤ s.drainReds.cur.vq.length) :
    s.nest v n = .next (s.drainReds.parkCur .vqFull) :=
  (if_neg h).trans (by rw [ht]; exact if_pos hfull)

theorem State.nest_room (ht : s.drainReds.nestCheck v n = none) (hroom : s.drainReds.cur.vq.length < 8) : s.nest v n =
    .next (s.drainReds.enqueueNest { s.drainReds.nestCmd v n with wins := s.drainReds.heldWindows.getD [] }) :=
  (if_neg h).trans (by rw [ht]; exact if_neg (Nat.not_le.mpr hroom))

end

/-! ## Joining the queue (R240) -/

/-- A nest at the queue's tail; the trapped nest that it resumes, if it does, is held no longer (R251). -/
def Core.queueNest (k : Core) (q : NestCmd) (held : Option NestCmd) : Core :=
  { k with vq := k.vq ++ [q], held := k.held.filter (fun x => held.map (fun y => y.id) != some x.id) }

/-- The state in which a nest has joined the queue and its number is taken. -/
def State.withNest (u : State) (q : NestCmd) : State :=
  ({ u with nextId := u.nextId + 1 } : State).modCore u.actCore (fun k => k.queueNest q u.heldNest)

section
variable (u : State) (q : NestCmd)

theorem State.withNest_sameThreads : SameThreads u (u.withNest q) :=
  .trans (t := { u with nextId := u.nextId + 1 }) (.of_cores rfl rfl rfl) (.modCore _ _ _ rfl rfl)

theorem State.withNest_sameBytes : SameBytes u (u.withNest q) :=
  .trans (t := { u with nextId := u.nextId + 1 }) (.of_eq rfl rfl) (.modCore _ _ _ rfl)

theorem State.withNest_vq : (u.withNest q).cur.vq = u.cur.vq ++ [q] := by
  show ((u.withNest q).core u.actCore).vq = _
  rw [State.withNest, State.core_modCore_same]; rfl

/-- A nest that detaches lets its thread go on; the thread of any other parks at it (R242, R243). -/
theorem State.enqueueNest_eq : u.enqueueNest q =
    if u.detaches q = true then (u.withNest { q with attached := false }).finish 1
    else ((u.withNest { q with attached := true }).modCurTask (fun t => { t with resume := none })).parkCur (.nest q.id) := by
  cases h : u.detaches q <;> simp only [State.enqueueNest, h] <;> rfl

/-- What a nest's issue leaves alone, besides its own thread and the queue. -/
structure NestJoins (u t : State) (q : NestCmd) : Prop where
  vq : t.cur.vq = u.cur.vq ++ [q]
  regs : SameRegs u t []
  bytes : SameBytes u t
  others : OtherThreads u t

theorem NestJoins.of_sameElse {u t : State} {q : NestCmd} (h : SameElse (u.withNest q) t) (hregs : ∀ r, t.rd r = (u.withNest q).rd r) :
    NestJoins u t q where
  vq := by rw [h.1.core, State.withNest_vq]
  regs r _ := by rw [hregs, (u.withNest_sameThreads q).rd]
  bytes := (u.withNest_sameBytes q).trans h.sameBytes
  others := (u.withNest_sameThreads q).otherThreads h.1

theorem State.withNest_finish : NestJoins u ((u.withNest q).finish 1) q ∧ GoesOn u ((u.withNest q).finish 1) 1 :=
  ⟨.of_sameElse (State.finish_sameElse _ 1) fun _ => State.rd_finish _ 1 _, (u.withNest_sameThreads q).goesOn rfl 1⟩

theorem State.withNest_parks (id : Nat) :
    let t := ((u.withNest q).modCurTask (fun t => { t with resume := none })).parkCur (.nest id)
    NestJoins u t q ∧ t.curTask = { u.curTask with park := .nest id, resume := none } ∧ t.curSlot = u.curSlot := by
  have hthreads := u.withNest_sameThreads q
  refine ⟨.of_sameElse ((SameElse.modCurTask _ _).trans (.parkCur _ _) (State.curWs_modCurTask _ _)) fun r => ?_, ?_, ?_⟩
  · simp [State.parkCur]
  · simp [hthreads.curTask]
  · simp [State.parkCur, hthreads.curSlot]

end

/-- The conditions under which a nest issues detached (R241). -/
theorem State.detaches_iff (u : State) (q : NestCmd) : u.detaches q = true ↔
    q.ften = 0 ∧ q.rm ≠ 5 ∧ q.vop ≠ 27 ∧ nestHandles q.vop q.n = [] ∧ u.boxesDetach q = true := by
  simp only [State.detaches, Bool.and_eq_true, bne_iff_ne, beq_iff_eq, List.isEmpty_iff, and_assoc]
  rfl

end Sys2Proof.Machine
end

section
/-! O34, second part: the completion of a nest (R240, R242, R243, R251, R253). -/

namespace Sys2Proof.Machine

/-! ## Windows (R253) -/

theorem Core.endWindows_cons (k : Core) (w : Nat × Nat × Nat) (l : List (Nat × Nat × Nat)) : k.endWindows (w :: l) =
    (k.putHandle w.2.1 (if w.1 = 0 then (k.handle w.2.1).endProd w.2.2 else (k.handle w.2.1).endCons w.2.2)).endWindows l := rfl

/-- Completing windows changes handles alone. -/
theorem Core.endWindows_frame (l : List (Nat × Nat × Nat)) (k : Core) : k.endWindows l = { k with handles := (k.endWindows l).handles } := by
  induction l generalizing k with
  | nil => rfl
  | cons w l ih => rw [Core.endWindows_cons, ih]; rfl

/-- Completing windows looks at handles alone. -/
theorem Core.endWindows_congr (l : List (Nat × Nat × Nat)) {k j : Core} (h : j.handles = k.handles) :
    (j.endWindows l).handles = (k.endWindows l).handles := by
  induction l generalizing k j with
  | nil => exact h
  | cons w l ih =>
    rw [Core.endWindows_cons, Core.endWindows_cons]
    apply ih
    simp only [Core.putHandle, Core.handle, h]

/-! ## An attached nest (R242, R251) -/

section
variable (s : State) (c : Nat) (q : NestCmd)

/-- The nest's thread acts, the nest is out of the queue, and its windows have completed. -/
def State.nestFreed : State := ((s.actAs c q.slot).modCore c (fun k => k.freeNest q.id)).modCore c (fun k => k.endWindows q.wins)

theorem State.nestFreed_cur : (s.nestFreed c q).cur = ((s.core c).freeNest q.id).endWindows q.wins := by
  show (s.nestFreed c q).core c = _
  rw [State.nestFreed, State.core_modCore_same, State.core_modCore_same]; rfl

theorem State.nestFreed_sameThreads : SameThreads (s.actAs c q.slot) (s.nestFreed c q) :=
  (SameThreads.modCore _ _ _ rfl rfl).trans (.modCore _ _ _ (by rw [Core.endWindows_frame]) (by rw [Core.endWindows_frame]))

theorem State.nestFreed_sameBytes : SameBytes (s.actAs c q.slot) (s.nestFreed c q) :=
  (SameBytes.modCore _ _ _ rfl).trans (.modCore _ _ _ (by rw [Core.endWindows_frame]))

theorem State.nestFreed_oneCore : OneCore c (s.actAs c q.slot) (s.nestFreed c q) := (OneCore.modCore _ _ _).trans (.modCore _ _ _)

theorem State.endAttached_done : s.endAttached c q none = ((s.nestFreed c q).orFlags q.flags).resumeDone 8 := rfl

/-- The thread of a nest that has ended without a trap goes on: its instruction is complete, with the nest's flags. -/
theorem State.endAttached_goesOn :
    let u := s.actAs c q.slot
    let t := s.endAttached c q none
    t.cur.vq = u.cur.vq.filter (fun x => x.id != q.id) ∧ t.cur.handles = ((s.core c).endWindows q.wins).handles ∧ SameRegs u t [] ∧
      SameBytes u t ∧ OtherThreads u t ∧ OneCore c u t ∧ t.curSlot.nextAt = s.cycle + 8 ∧ t.curTask = { u.curTask with
        park := .run, flags := u.curTask.flags ||| q.flags, pc := u.npc, pastEnd := u.nextPc?.isNone, resume := none } := by
  have hthreads := s.nestFreed_sameThreads c q
  have hone := s.nestFreed_oneCore c q
  have hact : (s.nestFreed c q).actCore = c := hone.actCore
  have helse : SameElse (s.nestFreed c q) (((s.nestFreed c q).orFlags q.flags).resumeDone 8) :=
    (SameElse.modCurTask _ _).trans (State.resumeDone_sameElse _ _) (State.curWs_modCurTask _ _)
  rw [State.endAttached_done]
  refine ⟨?_, ?_, fun r _ => ?_, (s.nestFreed_sameBytes c q).trans helse.sameBytes, hthreads.otherThreads helse.1,
    hone.trans (hact ▸ helse.1.device), State.nextAt_resumeDone _ _, ?_⟩
  · rw [helse.1.core, State.nestFreed_cur, Core.endWindows_frame]; rfl
  · rw [helse.1.core, State.nestFreed_cur]; exact Core.endWindows_congr _ rfl
  · rw [State.rd_resumeDone, State.orFlags, State.rd_modCurTask, hthreads.rd]
  · have hnpc : ((s.nestFreed c q).orFlags q.flags).npc = (s.actAs c q.slot).npc := by
      rw [← hthreads.npc]
      exact State.npc_congr (by simp [State.orFlags]) (by simp [State.orFlags])
    have hnext : ((s.nestFreed c q).orFlags q.flags).nextPc? = (s.actAs c q.slot).nextPc? := by
      rw [← hthreads.nextPc?]
      exact State.nextPc?_congr (by simp [State.orFlags]) (by simp [State.orFlags])
    rw [State.curTask_resumeDone, hnpc, hnext]
    simp [State.orFlags, hthreads.curTask, Task.completed]

end

/-- A window is open while one of its handle that began at its slot is still listed (R253). -/
theorem Core.windowOpen_iff (k : Core) (w : Nat × Nat × Nat) : k.windowOpen w = true ↔
    ∃ e ∈ (if w.1 = 0 then (k.handle w.2.1).prods else (k.handle w.2.1).cons), e.1 = w.2.2 := by
  simp only [Core.windowOpen, List.any_eq_true, beq_iff_eq]

section
variable {s : State} {c : Nat} {q : NestCmd} (hq : s.nestDone c = some q)
include hq

theorem execNestComplete_waits (ha : q.attached = true) (hf : q.finished = some none)
    (hw : ∃ w ∈ q.wins, ((s.core c).endWindows q.wins).windowOpen w = true) :
    execNestComplete c s = .next (s.modCore c (fun k => k.endWindows q.wins)) := by
  rw [execNestComplete, hq]
  simp only [ha, hf, State.core_modCore_same, if_true]
  exact if_pos ⟨trivial, List.any_eq_true.mpr hw⟩

theorem execNestComplete_done (ha : q.attached = true) (hf : q.finished = some none)
    (hw : ∀ w ∈ q.wins, ¬((s.core c).endWindows q.wins).windowOpen w = true) : execNestComplete c s = .next (s.endAttached c q none) := by
  rw [execNestComplete, hq]
  simp only [ha, hf, State.core_modCore_same, if_true]
  refine if_neg fun h => ?_
  obtain ⟨w, hmem, hopen⟩ := List.any_eq_true.mp h.2
  exact hw w hmem hopen

theorem execNestComplete_trap {x : Trap} (ha : q.attached = true) (hf : q.finished = some (some x)) :
    execNestComplete c s = .next (s.endAttached c q (some x)) := by
  rw [execNestComplete, hq]
  simp only [ha, hf, if_true]
  exact if_neg (by simp)

theorem execNestComplete_detached (ha : q.attached = false) : execNestComplete c s = .next (s.endDetached c q) := by
  rw [execNestComplete, hq]
  simp only [ha, Bool.false_eq_true, if_false]

end

/-! ## A detached nest (R243) -/

/-- Late flags have come to a thread's FLAGS: of the core, that task's record and bytes may have changed. -/
structure FlagsCome (s t : State) (c ws : Nat) (fl : Flags) : Prop where
  device : OneCore c s t
  vq : (t.core c).vq = (s.core c).vq
  task : t.task c ws = { s.task c ws with flags := (s.task c ws).flags ||| fl }
  slots : ∀ n, t.slot c n = s.slot c n
  tasks : ∀ w, w ≠ ws → t.task c w = s.task c w

theorem FlagsCome.sPut {s t : State} {c ws : Nat} {fl : Flags} (h : FlagsCome s t c ws fl) (off n v : Nat) :
    FlagsCome s (t.sPut c off n v) c ws fl where
  device := h.device.trans (.sPut _ _ _ _ _)
  vq := by rw [State.sPut, State.core_modCore_same]; exact h.vq
  task := by rw [State.task_sPut, h.task]
  slots n := by rw [State.slot_sPut, h.slots]
  tasks w hw := by rw [State.task_sPut, h.tasks w hw]

theorem FlagsCome.ite {s t u : State} {c ws : Nat} {fl : Flags} {p : Prop} [Decidable p] (h : FlagsCome s t c ws fl)
    (h' : FlagsCome s u c ws fl) : FlagsCome s (if p then t else u) c ws fl := by
  split <;> assumption

theorem State.modTask_flagsCome (s : State) (c ws : Nat) (fl : Flags) :
    FlagsCome s (s.modTask c ws (fun t => { t with flags := t.flags ||| fl })) c ws fl where
  device := .modTask _ _ _ _
  vq := by simp [State.modTask, Core.putTask]
  task := by simp [State.modTask, State.task]
  slots n := by simp [State.modTask, State.slot]
  tasks w hw := by simp [State.modTask, State.task, Core.task_putTask, hw]

theorem State.lateFlags_come (s : State) (c ws : Nat) (fl : Flags) : FlagsCome s (s.lateFlags c ws fl) c ws fl := by
  have htask := s.modTask_flagsCome c ws fl
  rw [State.lateFlags]
  exact .ite (.ite htask (htask.sPut _ _ _)) ((FlagsCome.ite htask (htask.sPut _ _ _)).sPut _ _ _)

end Sys2Proof.Machine
end

section
/-! O34, third part: what the accesses of a nest of one element change and read, in the own scratchpad (R84, R246 to R248). -/

namespace Sys2Proof.Machine

/-! ## What reading for a nest leaves -/

/-- Nothing has changed but the queue's nests, each of which is still there, what the engine has noted, translation times and
timestamps, and what is open of bytes that engines have written. -/
structure NestKept (s t : State) : Prop where
  device : t = { s with cores := t.cores, unsettled := t.unsettled, freeCount := t.freeCount }
  core : ∀ d, t.core d = { s.core d with
    vq := (t.core d).vq, vlast := (t.core d).vlast, nestLog := (t.core d).nestLog, late := (t.core d).late, ptsOff := (t.core d).ptsOff }
  ids : ∀ d, (t.core d).vq.map (fun q => q.id) = (s.core d).vq.map (fun q => q.id)

theorem NestKept.refl (s : State) : NestKept s s := ⟨rfl, fun _ => rfl, fun _ => rfl⟩

theorem NestKept.trans {s t u : State} (h : NestKept s t) (h' : NestKept t u) : NestKept s u := by
  refine ⟨?_, fun d => by rw [h'.core, h.core], fun d => (h'.ids d).trans (h.ids d)⟩
  have h1 := h.device
  have h2 := h'.device
  rw [h2, h1]

theorem NestKept.modCore (s : State) (c : Nat) (f : Core → Core) (hf : f (s.core c) = { s.core c with
    vq := (f (s.core c)).vq, vlast := (f (s.core c)).vlast, nestLog := (f (s.core c)).nestLog, late := (f (s.core c)).late
    ptsOff := (f (s.core c)).ptsOff }) (hids : (f (s.core c)).vq.map (fun q => q.id) = (s.core c).vq.map (fun q => q.id)) :
    NestKept s (s.modCore c f) := by
  refine ⟨rfl, fun d => ?_, fun d => ?_⟩ <;> rw [State.core_modCore] <;> split
  next h => rw [h]; exact hf
  next => rfl
  next h => rw [h]; exact hids
  next => rfl

theorem NestKept.of_device {s t : State} (h : t = { s with unsettled := t.unsettled, freeCount := t.freeCount }) : NestKept s t := by
  have hcores : t.cores = s.cores := by rw [h]
  have hcore : ∀ d, t.core d = s.core d := fun d => by rw [State.core, hcores, State.core]
  exact ⟨by rw [hcores]; exact h, fun d => by rw [hcore], fun d => by rw [hcore]⟩

theorem State.loadedAt_kept (s : State) (w : Nat) (l : Loc) (n : Nat) : NestKept s (s.loadedAt w l n) :=
  .of_device (by rw [State.loadedAt, State.observe_frame, s.took_frame])

section
variable {s t : State} (h : NestKept s t)
include h

theorem NestKept.sameThreads : SameThreads s t :=
  ⟨by rw [h.device], by rw [h.device], fun c => by rw [h.core c], fun c => by rw [h.core c]⟩

theorem NestKept.sameBytes : SameBytes s t :=
  ⟨fun _ => by rw [h.device]; rfl, fun c _ => by rw [State.spadByte, h.core c]; rfl⟩

theorem NestKept.world (d : Nat) : (t.core d).world = (s.core d).world := by rw [h.core d]

theorem NestKept.peek (w c off n : Nat) : t.peek w (.spad c off) n = s.peek w (.spad c off) n := by rw [State.peek, h.core c]; rfl

theorem NestKept.spadOf (c ea : Nat) : t.spadOf c ea = s.spadOf c ea := by
  have hgang : (t.core c).gang = (s.core c).gang := by rw [h.core c]
  have hgangs : ∀ g, t.gang g = s.gang g := fun g => by rw [h.device]; rfl
  simp only [State.spadOf, State.mapCore, hgang, hgangs]

/-- An access that lands at a scratchpad lands there still. -/
theorem NestKept.check {c ws ea o off : Nat} {acc : Acc} {x : Walk} (hok : s.check c ws ea acc = .ok (.spad o off) x) :
    t.check c ws ea acc = .ok (.spad o off) x := by
  obtain ⟨-, hspad, -⟩ := State.check_spad hok
  have hlist : t.coreList = s.coreList := by rw [h.device]; rfl
  have hreg : ∀ d, (t.core d).regHit off acc.n = (s.core d).regHit off acc.n := fun d => by rw [h.core d]; rfl
  have hrecord : ∀ d, (t.core d).recordHit off acc.n = (s.core d).recordHit off acc.n := fun d => by rw [h.core d]; rfl
  have hskip : ∀ d, (t.core d).skipHit off acc.n = (s.core d).skipHit off acc.n := fun d => by rw [h.core d]; rfl
  have hbank : ∀ d, (t.core d).bankErrors ws = (s.core d).bankErrors ws := fun d => by rw [h.core d]; rfl
  have hpoison : ∀ d, (t.core d).spoison = (s.core d).spoison := fun d => by rw [h.core d]
  rw [← hok]
  simp only [State.check, h.spadOf, hspad, h.world, hlist, hreg, hrecord, hskip, hbank, hpoison]

end

/-- The same, and the same bytes are open. -/
structure NestSees (s t : State) : Prop where
  kept : NestKept s t
  unsettled : t.unsettled = s.unsettled
  freeCount : t.freeCount = s.freeCount

theorem NestSees.refl (s : State) : NestSees s s := ⟨.refl s, rfl, rfl⟩

theorem NestSees.trans {s t u : State} (h : NestSees s t) (h' : NestSees t u) : NestSees s u :=
  ⟨h.kept.trans h'.kept, h'.unsettled.trans h.unsettled, h'.freeCount.trans h.freeCount⟩

theorem NestSees.modCore (s : State) (c : Nat) (f : Core → Core) (hf : f (s.core c) = { s.core c with
    vq := (f (s.core c)).vq, vlast := (f (s.core c)).vlast, nestLog := (f (s.core c)).nestLog, late := (f (s.core c)).late
    ptsOff := (f (s.core c)).ptsOff }) (hids : (f (s.core c)).vq.map (fun q => q.id) = (s.core c).vq.map (fun q => q.id)) :
    NestSees s (s.modCore c f) := ⟨.modCore s c f hf hids, rfl, rfl⟩

theorem State.modNestLog_sees (s : State) (c : Nat) (f : NestLog → NestLog) : NestSees s (s.modNestLog c f) := .modCore _ _ _ rfl rfl

theorem NestSees.earlier {s t : State} (h : NestSees s t) (w c off n : Nat) :
    t.earlier w (.spad c off) n = s.earlier w (.spad c off) n := by
  simp only [State.earlier, h.kept.peek, h.unsettled]

theorem NestSees.opened {s t : State} (h : NestSees s t) (w c off n : Nat) : t.opened w (.spad c off) n = s.opened w (.spad c off) n := by
  rw [State.opened, h.earlier, h.unsettled, State.opened]

/-! ## Reads and writes -/

/-- A scratchpad's addresses have 56 bits (R67). -/
theorem State.check_lt {s : State} {c ws ea o off : Nat} {acc : Acc} {x : Walk} (hok : s.check c ws ea acc = .ok (.spad o off) x) :
    ea < 2 ^ 56 := by
  obtain ⟨-, hspad, -⟩ := State.check_spad hok
  unfold State.spadOf at hspad
  split at hspad
  next h => exact h.2
  next =>
    split at hspad
    next h => exact lt_trans h.2 (by norm_num)
    next => cases hspad

section
variable {t : State} {c : Nat} {q : NestCmd} {va off n : Nat}

theorem elemLoc_own {r w : Bool} (hok : t.check c q.ws va ⟨6, n, 1, r, w, q.pc.toNat⟩ = .ok (.spad c off) .invalid) :
    ∃ u, elemLoc c q va n r w t = .ok (.spad c off, u) ∧ NestSees t u := by
  refine ⟨t.noteTlb c va .invalid, ?_, ?_⟩
  · rw [elemLoc, hok]
    simp [State.nestAsks, outsideLine]
  · unfold State.noteTlb
    split
    · exact .refl t
    · exact .modCore _ _ _ rfl rfl

/-- A read takes the place's bytes as a load does (R84), and what it acquires is acquired. -/
theorem elemRead_own (hok : t.check c q.ws va ⟨6, n, 1, true, false, q.pc.toNat⟩ = .ok (.spad c off) .invalid) :
    ∃ u u', elemRead c q va n t = .ok (natOfBytes (u.peekOpen (u.core c).world (.spad c off) n), u') ∧ NestSees t u ∧
      NestSees (u.loadedAt (u.core c).world (.spad c off) n) u' := by
  obtain ⟨u, hloc, hsees⟩ := elemLoc_own hok
  refine ⟨u, (u.loadedAt (u.core c).world (.spad c off) n).raisePts c (u.htsOf (.spad c off)), ?_, hsees, .modCore _ _ _ rfl rfl⟩
  simp only [elemRead, bind, StateT.bind, Except.bind, hloc]
  rfl

/-- Where a nest has one result element, no other writes what it reads or has written what it writes (R248). -/
theorem nearResults_one (h1 : nestResults q.n = 1) (s : State) (a : Nat) : s.nearResults c q a = false := by
  simp [State.nearResults, h1]

theorem pickBytes_one (h1 : nestResults q.n = 1) (pick : Nat → Byte → State → Byte × State) (a : Nat) (bs : List Byte) (s : State) :
    pickBytes pick c q a bs s = (bs, s) := by
  induction bs generalizing a s with
  | nil => rfl
  | cons b bs ih => simp [pickBytes, State.openByte, nearResults_one h1, ih]

theorem elemFetch_one {u : State} {v : Nat} (h1 : nestResults q.n = 1) (at_ fuel : Nat) (busy : List Nat)
    (h : elemRead c q va n t = .ok (v, u)) (hv : v < 2 ^ (8 * n)) : elemFetch c at_ fuel busy q va n t = .ok (v, u) := by
  unfold elemFetch
  rw [h]
  simp only [pickBytes_one h1, natOfBytes_bytesOf, Nat.mod_eq_of_lt hv]

theorem settledBytes_one (h1 : nestResults q.n = 1) (v : Nat) (l : Loc) : settledBytes c q va n v l t = (v, t) := by
  rw [settledBytes]
  simp [nearResults_one h1]

theorem State.keepOld_sees (l : Loc) : NestSees t (t.keepOld c q va n l) := by
  rw [State.keepOld]
  split
  · exact .modCore _ _ _ rfl rfl
  · exact .refl t

theorem elemWrite_own (h1 : nestResults q.n = 1) (v : Nat)
    (hok : t.check c q.ws va ⟨6, n, 1, false, true, q.pc.toNat⟩ = .ok (.spad c off) .invalid) :
    ∃ u stamp, elemWrite c q va n v t = .ok ((), (u.pokeBy (u.core c).world (.spad c off) (bytesOf n v)).raiseHts (.spad c off) stamp) ∧
      NestSees t u := by
  obtain ⟨u, hloc, hsees⟩ := elemLoc_own hok
  refine ⟨u.keepOld c q va n (.spad c off), (u.keepOld c q va n (.spad c off)).pts c, ?_, hsees.trans (State.keepOld_sees _)⟩
  simp only [elemWrite, hloc, settledBytes_one h1, elemPoke]

end

/-! ## Operands (R246, R247) -/

theorem codeSize_dvd (x : BitVec 4) : codeSize x ∣ 8 := by revert x; decide

theorem codeSize_pos (x : BitVec 4) : 0 < codeSize x := by revert x; decide

theorem digits_zero (n : Nest) (ls : List Nat) : ∀ p ∈ digits n ls 0, p.2 = 0 := by
  induction ls with
  | nil => intro p hp; cases hp
  | cons l ls ih =>
    intro p hp
    rw [digits, List.mem_cons, Nat.zero_mod, Nat.zero_div] at hp
    rcases hp with rfl | hp
    · rfl
    · exact ih p hp

theorem nestOff_zero (n : Nest) (w : Nat) (ls : List Nat) : nestOff n w (digits n ls 0) = 0 := by
  rw [nestOff]
  refine List.foldlRecOn (motive := fun o => o = 0) _ _ rfl fun o ho p hp => ?_
  rw [ho, digits_zero n ls p hp]
  simp

/-- The base of operand 0 d, 1 a, 2 b. -/
def NestCmd.base (q : NestCmd) (w : Nat) : Nat := if w = 0 then q.based else if w = 1 then q.basea else q.baseb

theorem elemVa_base {k : Core} {q : NestCmd} {w : Nat} (hcb : nestCb q.n w = false) (hlt : q.base w < 2 ^ 56) (z : Int) :
    elemVa k q w (z * 0) = q.base w := by
  have hva : elemVa k q w (z * 0) = wrapInt ((q.base w : Int) + z * 0) 64 := by simp [elemVa, hcb, NestCmd.base]
  rw [hva, wrapInt, mul_zero, add_zero, ← Int.natCast_mod, Int.toNat_natCast]
  exact Nat.mod_eq_of_lt (lt_trans hlt (by norm_num))

/-- Operand w of a nest of one result element lies at an offset of the own scratchpad, where its access passes the checks. -/
structure OwnOperand (s : State) (c : Nat) (q : NestCmd) (w off : Nat) (r wr : Bool) : Prop where
  check : s.check c q.ws (q.base w) ⟨6, codeSize (nestTy q.n w), 1, r, wr, q.pc.toNat⟩ = .ok (.spad c off) .invalid
  one : nestResults q.n = 1
  scalar : nestTy q.n w ≠ 6
  noHandle : nestCb q.n w = false

theorem OwnOperand.kept {s t : State} {c : Nat} {q : NestCmd} {w off : Nat} {r wr : Bool} (h : OwnOperand s c q w off r wr)
    (hk : NestKept s t) : OwnOperand t c q w off r wr := ⟨hk.check h.check, h.one, h.scalar, h.noHandle⟩

section
variable {t : State} {c : Nat} {q : NestCmd} {off : Nat}

theorem elemGet_own {w : Nat} (h : OwnOperand t c q w off true false) (at_ fuel : Nat) (busy : List Nat) :
    let n := codeSize (nestTy q.n w)
    ∃ u u', elemGet (elemFetch c at_ fuel busy) c q w 0 t = .ok (natOfBytes (u.peekOpen (u.core c).world (.spad c off) n), u') ∧
      NestSees t u ∧ NestSees (u.loadedAt (u.core c).world (.spad c off) n) u' := by
  intro n
  obtain ⟨u, u', hread, hsees⟩ := elemRead_own h.check
  refine ⟨u, u', ?_, hsees⟩
  have hlt := natOfBytes_lt (u.peekOpen (u.core c).world (.spad c off) n)
  rw [State.peekOpen_length _ _ _ _ rfl] at hlt
  have hscalar : ¬nestTy q.n w = 6#4 := h.scalar
  have hget : elemGet (elemFetch c at_ fuel busy) c q w 0 t =
      elemFetch c at_ fuel busy q (elemVa (t.core c) q w ((n : Int) * 0)) n t := by
    simp only [elemGet, bind, StateT.bind, Except.bind, get, getThe, MonadStateOf.get, StateT.get, pure, Except.pure, if_neg hscalar, n]
  rw [hget, elemVa_base h.noHandle (State.check_lt h.check), elemFetch_one h.one at_ fuel busy hread hlt]

theorem elemPut_own (h : OwnOperand t c q 0 off false true) (v : Nat) :
    ∃ u stamp, elemPut c q 0 v t =
      .ok ((), (u.pokeBy (u.core c).world (.spad c off) (bytesOf (codeSize q.n.td) v)).raiseHts (.spad c off) stamp) ∧ NestSees t u := by
  have hput : elemPut c q 0 v t = elemWrite c q (elemVa (t.core c) q 0 ((codeSize q.n.td : Int) * 0)) (codeSize q.n.td) v t := by
    simp only [elemPut, bind, StateT.bind, Except.bind, get, getThe, MonadStateOf.get, StateT.get, pure, Except.pure]
  rw [hput, elemVa_base h.noHandle (State.check_lt h.check)]
  exact elemWrite_own h.one v h.check

end

end Sys2Proof.Machine
end

section
/-! O34, fourth part: a nest of one element starts and runs (R240, R246, R251, R260 to R266). -/

namespace Sys2Proof.Machine

/-! ## The element (R246) -/

/-- A nest whose vop computes one result from the operands at its element, without a draw. -/
structure PlainVop (q : NestCmd) : Prop where
  rm : q.rm ≠ 5
  noReduce : (vopKindOf q.vop).reduces = false
  noCompare : vopKindOf q.vop ≠ .cmpK
  noQuant : vopKindOf q.vop ≠ .quantK
  noGather : vopKindOf q.vop ≠ .gatherK
  noFunc : vopKindOf q.vop ≠ .func

/-- Whether a vop reads its d. -/
def readsD (v : Nat) : Bool := decide (vopKindOf v = .fmaK ∨ vopKindOf v = .selK)

/-- The read of an operand that a vop may not have. -/
def getIf (p : Bool) (f : Fetch) (c : Nat) (q : NestCmd) (w : Nat) : EM Nat := if p then elemGet f c q w 0 else pure 0

/-- Whether an element divides an integer by zero (R262). -/
def divZero (q : NestCmd) (b : Nat) : Bool := q.vop == 9 && tyIsInt (nestType q.n 0) && b == 0

/-- The trap of an element that raises flags, if it has one (R138, R262). -/
def elementTrap (q : NestCmd) (fl : Flags) (dz : Bool) : Option Trap :=
  if dz && q.ften.getLsbD 5 then some (trapOf 0x0A 0x20)
  else if fl &&& q.ften.setWidth 5 != 0#5 then some (trapOf 0x0A fl.toNat)
  else none

theorem arithStop_eq (q : NestCmd) (fl : Flags) (dz : Bool) (t : State) : arithStop q fl dz t =
    match elementTrap q fl dz with
    | some x => .error (.trap x)
    | none => .ok ((), t) := by
  rw [arithStop, elementTrap]
  split
  · rfl
  · split <;> rfl

theorem rmodeOfCode_ne_sr {r : Nat} (h : r ≠ 5) : (rmodeOfCode r).getD .rne ≠ .sr := by
  match r with
  | 0 | 1 | 2 | 3 | 4 => decide
  | 5 => exact absurd rfl h
  | n + 6 => exact fun h => by cases h

/-- The result of an element from its operands, and what follows it. -/
def finishElement (c : Nat) (q : NestCmd) (dz : Bool) (r : Nat × Flags) : EM (Flags × Nat) := do
  arithStop q r.2 dz
  elemPut c q 0 r.1
  pure (r.2, 0)

/-- The operands are read in the order b, a, d. -/
theorem elementOf_plain (f : Fetch) (c ahead : Nat) {q : NestCmd} (h : PlainVop q) (t : State) : elementOf f c ahead q false 0 t = (do
    let b ← getIf (vopKindOf q.vop).readsB f c q 2
    let a ← getIf (vopKindOf q.vop).readsA f c q 1
    let d ← getIf (readsD q.vop) f c q 0
    finishElement c q (divZero q b) (vopResult q ((rmodeOfCode q.rm).getD .rne) 0 0 a b d)) t := by
  have hrm : decide ((rmodeOfCode q.rm).getD .rne = .sr) = false := decide_eq_false (rmodeOfCode_ne_sr h.rm)
  unfold elementOf
  simp only [nestOff_zero, getIf, finishElement, divZero, readsD, Bool.false_eq_true, if_false, h.noReduce, h.noGather, h.noFunc, add_zero,
    decide_eq_true_eq]
  simp only [bind, StateT.bind, Except.bind, get, getThe, MonadStateOf.get, StateT.get, pure, Except.pure, StateT.pure, hrm,
    Bool.false_and, Bool.false_eq_true, if_false, zero_ne_one]
  by_cases hb : (vopKindOf q.vop).readsB = true <;> by_cases ha : (vopKindOf q.vop).readsA = true <;>
    by_cases hd : vopKindOf q.vop = VKind.fmaK ∨ vopKindOf q.vop = VKind.selK <;>
    simp only [hb, ha, hd, if_true, if_false, Bool.false_eq_true] <;> rfl

/-! ## The run (R240, R246) -/

/-- A nest of one unmasked element that has not run. -/
structure OneElement (q : NestCmd) : Prop where
  one : nestResults q.n = 1
  first : q.first = 0
  unmasked : q.n.me = 0
  noStop : q.maskStop = none

/-- What a nest of one element has come to, when its element has ended this way from the state s. -/
def NestRun.ofElement (c : Nat) (q : NestCmd) (s : State) : Except ElemStop ((Flags × Nat) × State) → NestRun
  | .ok ((fl, nd), t) => ⟨t.takeDraws c q.ws nd, q.reach 1 fl, none⟩
  | .error x => ⟨s, q, some x⟩

/-- Running it is working out its element, from a state that its own notes alone tell from the one before. -/
theorem runNest_one (c : Nat) {q : NestCmd} (h : PlainVop q) (h1 : OneElement q) (t : State) : ∃ u, NestSees t u ∧
    runNest c q t = NestRun.ofElement c q u (elementOf (elemFetch c 0 1 [unitAt q 0]) c 0 q false 0 u) := by
  have hmask : q.masking = false := by simp [NestCmd.masking, h1.unmasked]
  have hoff : maskedOff q 0 = false := by simp [maskedOff, h1.unmasked]
  have hrun : runNest c q t = runUnits (stepNest c) 2 q (t.modNestLog c (fun g => { g with whole := t.runsOut c q })) := by
    rw [runNest, h1.one]
    simp [hmask]
  obtain ⟨v, hv⟩ : ∃ v, v = t.modNestLog c (fun g => { g with whole := t.runsOut c q }) := ⟨_, rfl⟩
  obtain ⟨u, hu⟩ : ∃ u, u = v.modNestLog c (fun g => { g with chosen := g.chosen.filter (fun e => decide (unitAt q 0 ≤ e.1)), gets := 0 }) :=
    ⟨_, rfl⟩
  have hstep : stepNest c q v = unitOf (elemFetch c 0 1 [unitAt q 0]) c 0 q u := by rw [stepNest, h1.first, h1.one, hu]
  have hunit : unitOf (elemFetch c 0 1 [unitAt q 0]) c 0 q u =
      NestRun.ofElement c q u (elementOf (elemFetch c 0 1 [unitAt q 0]) c 0 q false 0 u) := by
    simp only [unitOf, h1.first, h1.noStop, Option.filter_none, h.noCompare, h.noQuant, if_false, hoff]
    cases elementOf (elemFetch c 0 1 [unitAt q 0]) c 0 q false 0 u <;> rfl
  refine ⟨u, hu ▸ hv ▸ (State.modNestLog_sees _ _ _).trans (State.modNestLog_sees _ _ _), ?_⟩
  rw [hrun, ← hv, runUnits, if_neg (by rw [h1.one, h1.first]; decide), hstep, hunit]
  cases elementOf (elemFetch c 0 1 [unitAt q 0]) c 0 q false 0 u with
  | error x => rfl
  | ok p => exact if_pos h1.one.le

/-! ## The start (R240, R253) -/

theorem Core.putNest_ids (k : Core) (q : NestCmd) : (k.putNest q).vq.map (fun x => x.id) = k.vq.map (fun x => x.id) := by
  rw [Core.putNest, List.map_map]
  refine List.map_congr_left fun x _ => ?_
  rw [Function.comp]
  split
  next h => exact (beq_iff_eq.mp h).symm
  next => rfl

theorem Core.mem_putNest {k : Core} {q : NestCmd} (h : q.id ∈ k.vq.map (fun x => x.id)) : q ∈ (k.putNest q).vq := by
  obtain ⟨x, hx, hid⟩ := List.mem_map.mp h
  exact List.mem_map.mpr ⟨x, hx, by simp [hid]⟩

/-- A nest as its engine has started it. -/
def State.begun (s : State) (q : NestCmd) : NestCmd := { q with started := true, start := s.cycle, fault := none }

/-- A nest that names no handle starts with no window, and nothing is acquired for it. -/
theorem startWindows_none {q : NestCmd} (h : nestHandles q.vop q.n = []) (k : Core) : startWindows k q = (k, q) := by
  rw [startWindows, h]
  exact ite_self _

theorem State.acquireWindows_self (s : State) (c : Nat) {old new : NestCmd} (h : new.wins = old.wins) : s.acquireWindows c old new = s := by
  rw [State.acquireWindows, h]
  split
  next hempty => rw [List.isEmpty_iff.mp hempty]; rfl
  next => rfl

theorem execNestStart_begun {s : State} {c : Nat} {q : NestCmd} (hready : s.nestReady c = some q) (hstarted : q.started = false)
    (hran : q.ran = false) (hh : nestHandles q.vop q.n = []) :
    ∃ t, execNestStart c s = (runNest c (s.begun q) t).settle c ∧ NestSees s t := by
  obtain ⟨v, hv⟩ : ∃ v, v = s.modCore c (fun k => { k with nestLog := NestLog.reset }) := ⟨_, rfl⟩
  have htake : s.takeNest c q = (v, { q with started := true, start := s.cycle }) := by rw [State.takeNest, hstarted, hv]; rfl
  have hexec : execNestStart c s = ((s.takeNest c q).1.startNest c (s.takeNest c q).2).settle c := by
    rw [execNestStart, hready]
    show (if q.ran = true then _ else _) = _
    rw [hran]; rfl
  have hstart : v.startNest c { q with started := true, start := s.cycle } =
      let p := startWindows (v.core c) (s.begun q)
      runNest c p.2 (((v.acquireWindows c { q with started := true, start := s.cycle } p.2).modCore c
        (fun _ => { p.1 with vlast := q.slot })).modCore c (fun k => k.putNest p.2)) := rfl
  have hnone : startWindows (v.core c) (s.begun q) = (v.core c, s.begun q) := startWindows_none (q := s.begun q) hh _
  rw [hexec, htake, hstart, hnone]
  dsimp only
  rw [State.acquireWindows_self (old := { q with started := true, start := s.cycle }) (new := s.begun q) v c rfl]
  refine ⟨_, rfl, hv ▸ (NestSees.modCore _ _ _ rfl rfl).trans ((NestSees.modCore _ _ _ rfl rfl).trans (.modCore _ _ _ rfl (Core.putNest_ids _ _)))⟩

/-! ## The element, where no free value picks an earlier byte (R84) -/

/-- No free value picks an earlier byte over the one that stands, or the standing byte over one that is stored (R84; log 1). -/
def StandingBytesTaken : Prop := ∀ n, (Config.freeValue n).getLsbD 0 = false

section
variable (hfree : StandingBytesTaken)
include hfree

theorem State.peekOpen_standing (s : State) (w c off n : Nat) : s.peekOpen w (.spad c off) n = s.peek w (.spad c off) n := by
  have hearlier : (s.earlier w (.spad c off) n).length = n := s.earlier_length w _ n rfl
  have hpeek : (s.peek w (.spad c off) n).length = n := s.peek_length w _ n rfl
  have hbit : ∀ i, (Config.freeValue i).getLsbD 0 = false := hfree
  rw [State.peekOpen, State.taken]
  split
  · simp only [hbit, Bool.false_eq_true, if_false]
    exact List.ext_getElem (by simp [hearlier, hpeek]) fun i _ _ => by simp
  · rfl

theorem State.decided_standing (s : State) (w c off : Nat) (bs : List Byte) : (s.decided w (.spad c off) bs).2 = bs := by
  have hearlier : (s.earlier w (.spad c off) bs.length).length = bs.length := s.earlier_length w _ _ rfl
  have hpeek : (s.peek w (.spad c off) bs.length).length = bs.length := s.peek_length w _ _ rfl
  have hbit : ∀ i, (Config.freeValue i).getLsbD 0 = false := hfree
  rw [State.decided]
  split
  · simp only [hbit, Bool.and_false, Bool.false_eq_true, if_false]
    exact List.ext_getElem (by simp [hearlier, hpeek]) fun i _ _ => by simp
  · rfl

section
variable {s t : State} {c : Nat} {q : NestCmd}

/-- An operand's value, or 0 where the vop does not read it. -/
def operandIf (s : State) (c : Nat) (q : NestCmd) (p : Bool) (w off : Nat) : Nat := if p then s.sNum c off (codeSize (nestTy q.n w)) else 0

theorem getIf_standing {w off : Nat} (h : OwnOperand s c q w off true false) (hk : NestKept s t) (p : Bool) (fuel : Nat) (busy : List Nat) :
    ∃ u, getIf p (elemFetch c 0 fuel busy) c q w t = .ok (operandIf s c q p w off, u) ∧ NestKept s u := by
  cases p with
  | false => exact ⟨t, rfl, hk⟩
  | true =>
    obtain ⟨u, u', hget, hsees, hloaded⟩ := elemGet_own (h.kept hk) 0 fuel busy
    have hkept := hk.trans hsees.kept
    refine ⟨u', ?_, hkept.trans ((u.loadedAt_kept _ _ _).trans hloaded.kept)⟩
    rw [getIf, if_pos rfl, hget, State.peekOpen_standing hfree, hkept.peek]
    rfl

/-- The word around d after its write; no other byte has changed, and every nest is still queued. -/
structure ElementWritten (s t : State) (c off n v : Nat) : Prop where
  word : t.sNum c (off / 8 * 8) 8 = s.stored c off n v
  rest : SpadBytesBut s t c (off / 8 * 8) 8
  ids : (t.core c).vq.map (fun q => q.id) = (s.core c).vq.map (fun q => q.id)

theorem State.pokeBy_written (h : NestKept s t) {off n : Nat} (v stamp w : Nat) (hn : n ∣ 8) (hpos : 0 < n) (ha : off % n = 0) :
    ElementWritten s ((t.pokeBy w (.spad c off) (bytesOf n v)).raiseHts (.spad c off) stamp) c off n v := by
  have hin : off % 8 + n ≤ 8 := within_word hn (Nat.dvd_of_mod_eq_zero ha)
  have hrec := (t.pokeBy w (.spad c off) (bytesOf n v)).raiseHts_records (.spad c off) stamp
  refine ⟨?_, .of_same h.sameBytes (t.pokeBy_within w c v hin hpos) hrec.sameBytes, ?_⟩
  · rw [hrec.sNum, State.pokeBy, State.decided_standing hfree, State.poke_word _ w hpos hin,
      State.stored_congr (h.sameBytes.trans (t.decided_sameBytes w _ _)) (h.sameThreads.trans (t.decided_stored w _ _).sameThreads)]
  · have hvq : ((t.pokeBy w (.spad c off) (bytesOf n v)).core c).vq = (t.core c).vq := by rw [(t.pokeBy_stored w _ _).core c]
    rw [hrec.core c]
    exact (congrArg _ hvq).trans (h.ids c)

/-- The operands a, b and d of a nest, at their offsets. -/
structure OwnOperands (s : State) (c : Nat) (q : NestCmd) (offd offa offb : Nat) : Prop where
  d : OwnOperand s c q 0 offd true false
  dest : OwnOperand s c q 0 offd false true
  a : OwnOperand s c q 1 offa true false
  b : OwnOperand s c q 2 offb true false
  aligned : offd % codeSize q.n.td = 0

/-- The vop's result on the operands as they stand. -/
def elementResult (s : State) (c : Nat) (q : NestCmd) (offd offa offb : Nat) : Nat × Flags :=
  vopResult q ((rmodeOfCode q.rm).getD .rne) 0 0 (operandIf s c q (vopKindOf q.vop).readsA 1 offa)
    (operandIf s c q (vopKindOf q.vop).readsB 2 offb) (operandIf s c q (readsD q.vop) 0 offd)

theorem elementOf_standing {offd offa offb : Nat} (h : PlainVop q) (hop : OwnOperands s c q offd offa offb) (hk : NestKept s t)
    (fuel : Nat) (busy : List Nat) :
    match elementTrap q (elementResult s c q offd offa offb).2 (divZero q (operandIf s c q (vopKindOf q.vop).readsB 2 offb)) with
    | some x => elementOf (elemFetch c 0 fuel busy) c 0 q false 0 t = .error (.trap x)
    | none => ∃ u, elementOf (elemFetch c 0 fuel busy) c 0 q false 0 t = .ok (((elementResult s c q offd offa offb).2, 0), u) ∧
        ElementWritten s u c offd (codeSize q.n.td) (elementResult s c q offd offa offb).1 := by
  obtain ⟨t1, hb, hk1⟩ := getIf_standing hfree hop.b hk (vopKindOf q.vop).readsB fuel busy
  obtain ⟨t2, ha, hk2⟩ := getIf_standing hfree hop.a hk1 (vopKindOf q.vop).readsA fuel busy
  obtain ⟨t3, hd, hk3⟩ := getIf_standing hfree hop.d hk2 (readsD q.vop) fuel busy
  obtain ⟨u, stamp, hput, hsees⟩ := elemPut_own (hop.dest.kept hk3) (elementResult s c q offd offa offb).1
  have hrun : elementOf (elemFetch c 0 fuel busy) c 0 q false 0 t =
      finishElement c q (divZero q (operandIf s c q (vopKindOf q.vop).readsB 2 offb)) (elementResult s c q offd offa offb) t3 := by
    rw [elementOf_plain _ _ _ h]
    simp only [bind, StateT.bind, Except.bind, hb, ha, hd]
    rfl
  have hstop := arithStop_eq q (elementResult s c q offd offa offb).2 (divZero q (operandIf s c q (vopKindOf q.vop).readsB 2 offb)) t3
  rw [hrun]
  split
  next x hx =>
    rw [hx] at hstop
    simp only [finishElement, bind, StateT.bind, Except.bind, hstop]
  next hx =>
    rw [hx] at hstop
    refine ⟨_, ?_, State.pokeBy_written hfree (hk3.trans hsees.kept) _ stamp (u.core c).world (codeSize_dvd _) (codeSize_pos _) hop.aligned⟩
    simp only [finishElement, bind, StateT.bind, Except.bind, hstop, hput]
    rfl

end

end

end Sys2Proof.Machine
end

section
/-! O34, fifth part: the clause on a nest of one element, where no free value picks an earlier byte. -/

namespace Sys2Proof.Machine

/-- A nest in the queue whose one element its engine can start on (R240, R246). -/
structure StartsOne (s : State) (c : Nat) (q : NestCmd) : Prop where
  ready : s.nestReady c = some q
  fresh : q.started = false
  unrun : q.ran = false
  queued : (s.core c).vq.any (fun x => x.id == q.id) = true
  noHandles : nestHandles q.vop q.n = []
  plain : PlainVop (s.begun q)
  one : OneElement (s.begun q)

theorem nestHandles_none {n : Nest} (v : Nat) (hd : n.cbd = 0) (ha : n.cba = 0) (hb : n.cbb = 0) : nestHandles v n = [] := by
  simp [nestHandles, nestCb, hd, ha, hb]

theorem nestCb_none {n : Nest} (hd : n.cbd = 0) (ha : n.cba = 0) (hb : n.cbb = 0) (w : Nat) : nestCb n w = false := by
  simp [nestCb, hd, ha, hb]

theorem nestResults_one {n : Nest} (hext : n.extents = [1, 1, 1, 1, 1]) (hred : n.red = 0) : nestResults n = 1 := by
  have hlevels : nestNr n = [0, 1, 2, 3, 4] := by simp [nestNr, Nest.redAt, hred, List.range_succ]
  rw [nestResults, nestProd, hlevels, hext]
  rfl

/-- The starting nest has run, and the queue holds it as it then is. -/
theorem StartsOne.run {s : State} {c : Nat} {q : NestCmd} (h : StartsOne s c q) : ∃ u, NestSees s u ∧ exec (.nestStart c) s =
    (NestRun.ofElement c (s.begun q) u (elementOf (elemFetch c 0 1 [unitAt q 0]) c 0 (s.begun q) false 0 u)).settle c := by
  obtain ⟨t, hexec, hsees⟩ := execNestStart_begun h.ready h.fresh h.unrun h.noHandles
  obtain ⟨u, hsees', hrun⟩ := runNest_one c h.plain h.one t
  refine ⟨u, hsees.trans hsees', ?_⟩
  show execNestStart c s = _
  rw [hexec, hrun]
  rfl

theorem StartsOne.mem_putNest {s t : State} {c : Nat} {q x : NestCmd} (h : StartsOne s c q)
    (hids : (t.core c).vq.map (fun x => x.id) = (s.core c).vq.map (fun x => x.id)) (hid : x.id = q.id) :
    x ∈ ((t.modCore c (fun k => k.putNest x)).core c).vq := by
  obtain ⟨y, hy, hyid⟩ := List.any_eq_true.mp h.queued
  rw [State.core_modCore_same]
  exact Core.mem_putNest (by rw [hids, hid]; exact List.mem_map.mpr ⟨y, hy, beq_iff_eq.mp hyid⟩)

/-- A nest that has run to its end is put back, finished. -/
theorem NestRun.settle_done (c : Nat) (t : State) (q : NestCmd) : (⟨t, q, none⟩ : NestRun).settle c =
    .next (t.modCore c (fun k => k.putNest ((⟨t, q, none⟩ : NestRun).timed c none))) := rfl

section
variable (hfree : StandingBytesTaken) {s : State} {c : Nat} {q : NestCmd} {offd offa offb : Nat} (h : StartsOne s c q)
  (hop : OwnOperands s c (s.begun q) offd offa offb)
include hfree h hop

/-- Its result stands at d, or it stops with its trap at element 0 and has written nothing (R251). -/
theorem StartsOne.ends :
    match elementTrap (s.begun q) (elementResult s c (s.begun q) offd offa offb).2
      (divZero (s.begun q) (operandIf s c (s.begun q) (vopKindOf (s.begun q).vop).readsB 2 offb)) with
    | some x => ∃ t, exec (.nestStart c) s = .next t ∧ SameBytes s t ∧
        ∃ y ∈ (t.core c).vq, y.id = q.id ∧ y.finished = some (some { x with eidx := some 0 })
    | none => ∃ t, exec (.nestStart c) s = .next t ∧
        t.sNum c (offd / 8 * 8) 8 = s.stored c offd (codeSize q.n.td) (elementResult s c (s.begun q) offd offa offb).1 ∧
        SpadBytesBut s t c (offd / 8 * 8) 8 ∧ ∃ y ∈ (t.core c).vq, y.id = q.id ∧ y.finished = some none ∧
          y.flags = q.flags ||| (elementResult s c (s.begun q) offd offa offb).2 ∧ y.first = 1 := by
  obtain ⟨u, hsees, hexec⟩ := h.run
  have helement := elementOf_standing hfree h.plain hop hsees.kept 1 [unitAt q 0]
  split
  next x hx =>
    rw [hx] at helement
    rw [hexec, helement]
    refine ⟨_, rfl, hsees.kept.sameBytes.trans (.modCore _ _ _ rfl), _, h.mem_putNest (hsees.kept.ids c) rfl, rfl, ?_⟩
    show some (some { x with eidx := some (s.begun q).first }) = _
    rw [h.one.first]
  next hx =>
    rw [hx] at helement
    obtain ⟨t, hrun, hwritten⟩ := helement
    rw [hexec, hrun]
    have hput (x : NestCmd) : SameBytes t (t.modCore c (fun k => k.putNest x)) := .modCore _ _ _ rfl
    exact ⟨_, NestRun.settle_done _ _ _, ((hput _).sNum _ _ _).trans hwritten.word, .of_same (.refl s) hwritten.rest (hput _), _,
      h.mem_putNest hwritten.ids rfl, rfl, rfl, rfl, rfl⟩

end

theorem elementTrap_divZero {s : State} {q : NestCmd} {b : Nat} (fl : Flags)
    (h : q.vop = 9 ∧ tyIsInt (nestType q.n 0) = true ∧ b = 0 ∧ q.ften.getLsbD 5 = true) :
    elementTrap (s.begun q) fl (divZero (s.begun q) b) = some (trapOf 0x0A 0x20) := by
  obtain ⟨hv, hint, hb, hidz⟩ := h
  refine if_pos ?_
  show ((q.vop == 9 && tyIsInt (nestType q.n 0) && b == 0) && q.ften.getLsbD 5) = true
  simp [hv, hint, hb, hidz]

theorem elementTrap_flags {s : State} {q : NestCmd} {b : Nat} (fl : Flags)
    (h : ¬(q.vop = 9 ∧ tyIsInt (nestType q.n 0) = true ∧ b = 0 ∧ q.ften.getLsbD 5 = true)) :
    elementTrap (s.begun q) fl (divZero (s.begun q) b) = if fl &&& q.ften.setWidth 5 = 0#5 then none else some (trapOf 0x0A fl.toNat) := by
  have hnot : ¬((divZero (s.begun q) b && (s.begun q).ften.getLsbD 5) = true) := by
    show ¬(((q.vop == 9 && tyIsInt (nestType q.n 0) && b == 0) && q.ften.getLsbD 5) = true)
    simpa [and_assoc] using h
  rw [elementTrap, if_neg hnot]
  show (if (fl &&& q.ften.setWidth 5 != 0#5) = true then _ else _) = _
  by_cases hfl : fl &&& q.ften.setWidth 5 = 0#5 <;> simp [hfl]

end Sys2Proof.Machine
end

section
/-! O34, sixth part: all its clauses, where no free value picks an earlier byte. -/

namespace Sys2Proof.Machine

/-- An instruction that takes a trap in u enters its handler from there, if it has one. -/
theorem trapsFrom_of_exec {u s : State} {i : Instr} {x : Trap} (h : exec i s = .next (u.takeTrap x)) : TrapsFrom u s i x :=
  fun vec hv h0 hvec hne => ⟨_, h, u.takeTrap_handlerEntered x vec hv h0 hvec hne⟩

theorem elementResult_begun (s : State) (c : Nat) (q : NestCmd) (offd offa offb : Nat) :
    elementResult s c (s.begun q) offd offa offb = elementResult s c q offd offa offb := rfl

theorem operandIf_begun (s : State) (c : Nat) (q : NestCmd) (p : Bool) (w off : Nat) :
    operandIf s c (s.begun q) p w off = operandIf s c q p w off := rfl

/-- The result or the trap of the element, by its flags and its divisor. -/
theorem StartsOne.ends_by (hfree : StandingBytesTaken) {s : State} {c : Nat} {q : NestCmd} {offd offa offb : Nat} (h : StartsOne s c q)
    (hop : OwnOperands s c (s.begun q) offd offa offb) :
    let b := operandIf s c q (vopKindOf q.vop).readsB 2 offb
    let r := elementResult s c q offd offa offb
    let idz := q.vop = 9 ∧ tyIsInt (nestType q.n 0) = true ∧ b = 0 ∧ q.ften.getLsbD 5 = true
    ∃ t, exec (.nestStart c) s = .next t ∧
      (¬idz → r.2 &&& q.ften.setWidth 5 = 0#5 → t.sNum c (offd / 8 * 8) 8 = s.stored c offd (codeSize q.n.td) r.1 ∧
        SpadBytesBut s t c (offd / 8 * 8) 8 ∧
        ∃ x ∈ (t.core c).vq, x.id = q.id ∧ x.finished = some none ∧ x.flags = q.flags ||| r.2 ∧ x.first = 1) ∧
      ((idz ∨ r.2 &&& q.ften.setWidth 5 ≠ 0#5) → SameBytes s t ∧ ∃ x ∈ (t.core c).vq, x.id = q.id ∧
        x.finished = some (some ⟨0x0A, if idz then 0x20 else r.2.toNat, none, some 0⟩)) := by
  intro b r idz
  have hends := h.ends hfree hop
  change match elementTrap (s.begun q) r.2 (divZero (s.begun q) b) with | some x => _ | none => _ at hends
  by_cases hidz : idz
  · rw [elementTrap_divZero _ hidz] at hends
    obtain ⟨t, hexec, hbytes, x, hx, hid, hfin⟩ := hends
    refine ⟨t, hexec, fun hn => absurd hidz hn, fun _ => ⟨hbytes, x, hx, hid, ?_⟩⟩
    rw [if_pos hidz]; exact hfin
  · rw [elementTrap_flags _ hidz] at hends
    by_cases hfl : r.2 &&& q.ften.setWidth 5 = 0#5
    · rw [if_pos hfl] at hends
      obtain ⟨t, hexec, hdone⟩ := hends
      exact ⟨t, hexec, fun _ _ => hdone, fun hstop => (hstop.elim hidz (fun hn => hn hfl)).elim⟩
    · rw [if_neg hfl] at hends
      obtain ⟨t, hexec, hbytes, x, hx, hid, hfin⟩ := hends
      refine ⟨t, hexec, fun _ hn => absurd hn hfl, fun _ => ⟨hbytes, x, hx, hid, ?_⟩⟩
      rw [if_neg hidz]; exact hfin

/-- O34 where no free value picks an earlier byte; only its clause on a nest of one element asks for that. -/
theorem nestsFollow_of_standingBytesTaken (hfree : StandingBytesTaken) : Obligations.NestsFollowR240ToR253 := by
  refine ⟨fun s i v n hvop => ?issue, fun s c => ⟨fun hnone => ?startNothing, ?oneElement, fun hnone => ?completeNothing, ?attached,
    ?trapped, ?detached⟩⟩
  case issue =>
    intro u mode sr det queued
    have hexec := exec_of_vopOf hvop s
    refine ⟨fun hsr => trapsFrom_of_exec (hexec.trans (State.nest_sr hsr)),
      fun hsr x hx => trapsFrom_of_exec (hexec.trans (State.nest_trap hsr hx)),
      fun hsr hok => ⟨fun hfull => hexec.trans (State.nest_full hsr hok hfull), fun hroom => ?_⟩⟩
    have hdet := u.detaches_iff { u.nestCmd v n with wins := u.heldWindows.getD [] }
    rw [hexec, State.nest_room hsr hok hroom, State.enqueueNest_eq]
    by_cases hd : det
    · rw [if_pos (hdet.mpr hd)]
      obtain ⟨hjoins, hgoes⟩ := u.withNest_finish { u.nestCmd v n with wins := u.heldWindows.getD [], attached := false }
      exact ⟨_, _, rfl, hjoins.vq, rfl, rfl, rfl, rfl, rfl, rfl, rfl, rfl, rfl, rfl, rfl, rfl, rfl, rfl, rfl, rfl, hjoins.regs, hjoins.bytes,
        hjoins.others, iff_of_true rfl hd, fun _ => hgoes, fun hn => absurd hd hn⟩
    · rw [if_neg (fun h => hd (hdet.mp h))]
      obtain ⟨hjoins, hparks⟩ := u.withNest_parks { u.nestCmd v n with wins := u.heldWindows.getD [], attached := true } (u.nestCmd v n).id
      exact ⟨_, _, rfl, hjoins.vq, rfl, rfl, rfl, rfl, rfl, rfl, rfl, rfl, rfl, rfl, rfl, rfl, rfl, rfl, rfl, rfl, hjoins.regs, hjoins.bytes,
        hjoins.others, iff_of_false Bool.noConfusion hd, fun h => absurd h hd, fun _ => hparks⟩
  case startNothing =>
    show execNestStart c s = _
    rw [execNestStart, hnone]
  case oneElement =>
    intro q offd offa offb hready hstarted hran hfirst hstop hext hred hme hcd hca hcb hrm hnred hncmp hnquant hngather hnfunc hty size place
      hd hdest ha hb hany _
    have h1 := nestResults_one hext hred
    have hcbs := nestCb_none hcd hca hcb
    have hstarts : StartsOne s c q := ⟨hready, hstarted, hran, hany, nestHandles_none _ hcd hca hcb,
      ⟨hrm, hnred, hncmp, hnquant, hngather, hnfunc⟩, ⟨h1, hfirst, hme, hstop⟩⟩
    have hops : OwnOperands s c (s.begun q) offd offa offb := ⟨⟨hd.1, h1, hty 0 (by decide), hcbs 0⟩, ⟨hdest.1, h1, hty 0 (by decide), hcbs 0⟩,
      ⟨ha.1, h1, hty 1 (by decide), hcbs 1⟩, ⟨hb.1, h1, hty 2 (by decide), hcbs 2⟩, hd.2.1⟩
    intro k a b d r idz
    have hr : elementResult s c q offd offa offb = r := by
      simp only [elementResult, operandIf, readsD, decide_eq_true_eq]
      rfl
    have hends := hstarts.ends_by hfree hops
    rw [hr] at hends
    exact hends
  case completeNothing =>
    show execNestComplete c s = _
    rw [execNestComplete, hnone]
  case attached =>
    intro q hq ha hf k open_ u
    refine ⟨fun ⟨w, hw, hopen⟩ => execNestComplete_waits hq ha hf ⟨w, hw, (k.windowOpen_iff w).mpr hopen⟩, fun hclosed => ?_⟩
    exact ⟨_, execNestComplete_done hq ha hf fun w hw hopen => hclosed w hw ((k.windowOpen_iff w).mp hopen), s.endAttached_goesOn c q⟩
  case trapped =>
    intro q x hq ha hf hw u
    refine lateTraps_of_exec ((execNestComplete_trap hq ha hf).trans ?_)
    rw [State.endAttached, hw]
    rfl
  case detached =>
    intro q hq ha
    have hfree : SameThreads s (s.modCore c (fun k => k.freeNest q.id)) := .modCore _ _ _ rfl rfl
    have hcome := (s.modCore c (fun k => k.freeNest q.id)).lateFlags_come c q.ws q.flags
    refine ⟨_, execNestComplete_detached hq ha, (OneCore.modCore _ _ _).trans hcome.device, ?_, ?_, fun n => ?_, fun w hw => ?_⟩
    · rw [State.endDetached, hcome.vq, State.core_modCore_same]; rfl
    · rw [State.endDetached, hcome.task, hfree.task]
    · rw [State.endDetached, hcome.slots, hfree.slot]
    · rw [State.endDetached, hcome.tasks w hw, hfree.task]

end Sys2Proof.Machine
end

section
/-! O34, last part: its clause on a nest of one element where a free value picks an earlier byte. Two engine writes are noted for
the byte at d, and the newer one, whose value no longer stands, hides the older. The read of a covers the phase count of the clasp
that counted the newer write and so acquires it (R99, R101): the byte at d is open when the result is written, though it was not
when the nest started. -/

namespace Sys2Proof.Machine

/-! ## Open bytes -/

theorem State.loadedAt_device (s : State) (w : Nat) (l : Loc) (n : Nat) : s.loadedAt w l n =
    { s with unsettled := (s.loadedAt w l n).unsettled, freeCount := (s.loadedAt w l n).freeCount } := by
  rw [State.loadedAt, State.observe_frame, s.took_frame]

/-- What a load acquires is told by the bytes that stand and by what is open. -/
theorem State.observe_congr {s t : State} {w c : Nat} (hopen : t.unsettled = s.unsettled)
    (hpeek : ∀ off n, t.peek w (.spad c off) n = s.peek w (.spad c off) n) (off n : Nat) :
    (t.observe w (.spad c off) n).unsettled = (s.observe w (.spad c off) n).unsettled := by
  simp only [State.observe, State.seeClasp, State.acquirePhase, Loc.key, hopen, hpeek, apply_ite State.unsettled]

section
variable {s t : State} (h : NestSees s t)
include h

theorem NestSees.reopened (us : List Unsettled) (n : Nat) :
    NestSees { s with unsettled := us, freeCount := n } { t with unsettled := us, freeCount := n } := by
  refine ⟨⟨?_, h.kept.core, h.kept.ids⟩, rfl, rfl⟩
  rw [h.kept.device]

/-- A load opens and settles the same bytes. -/
theorem NestSees.loadedAt (w c off n : Nat) : NestSees (s.loadedAt w (.spad c off) n) (t.loadedAt w (.spad c off) n) := by
  have htook : (t.took w (.spad c off) n).unsettled = (s.took w (.spad c off) n).unsettled := by
    rw [t.took_frame, s.took_frame]; exact h.unsettled
  have hcount : (t.took w (.spad c off) n).freeCount = (s.took w (.spad c off) n).freeCount := by
    simp only [State.took, h.opened, apply_ite State.freeCount, h.freeCount]
  have hpeek : ∀ a k, (t.took w (.spad c off) n).peek w (.spad c a) k = (s.took w (.spad c off) n).peek w (.spad c a) k := fun a k => by
    rw [t.took_frame, s.took_frame]; exact h.kept.peek w c a k
  have hus : (t.loadedAt w (.spad c off) n).unsettled = (s.loadedAt w (.spad c off) n).unsettled := State.observe_congr htook hpeek off n
  have hfree : (t.loadedAt w (.spad c off) n).freeCount = (s.loadedAt w (.spad c off) n).freeCount := by
    rw [State.loadedAt, State.loadedAt, State.observe_frame, State.observe_frame (s.took _ _ _)]; exact hcount
  rw [s.loadedAt_device, t.loadedAt_device, hus, hfree]
  exact h.reopened _ _

end

/-- An open byte that a store meets stays as it stands where a free value says so (R84; log 1). -/
theorem State.decided_kept {s : State} {w : Nat} {l : Loc} {bs : List Byte} {j : Nat} {b y : Byte} (hopen : s.opened w l bs.length = true)
    (hpeek : (s.peek w l bs.length)[j]? = some b) (hearlier : (s.earlier w l bs.length)[j]? = some (some y)) (hj : j < bs.length)
    (hfree : (Config.freeValue (s.freeCount + j)).getLsbD 0 = true) : (s.decided w l bs).2[j]? = some b := by
  have hzip : ((bs.zip (s.peek w l bs.length)).zip (s.earlier w l bs.length))[j]? = some ((bs[j], b), some y) :=
    List.getElem?_zip_eq_some.mpr ⟨List.getElem?_zip_eq_some.mpr ⟨List.getElem?_eq_getElem hj, hpeek⟩, hearlier⟩
  rw [State.decided, if_pos hopen]
  simp [List.getElem?_map, List.getElem?_zipIdx, hzip, hfree]

/-! ## The state -/

/-- `vx.copy` of one i32 element: d at the address in W(1), a at the address in W(2), and b, which it does not read, in W(3). -/
def copyOne : Nest := ⟨10, 10, 10, 0, 0, 0, 0, 1, 2, 3, 0, 0, 0, 0, 0, 0, 0, 0, 0, 0, 0, 0, 0, 0, 0, 0, 0, 0, 0, 0, 0, 0, 0, 0, 0, 0, 0, 0⟩

/-- A thread's nest of one element from 0x402C, where 7 stands at the end of a clasp, to 0x4000, where two writes are noted. -/
def hiddenThread : State := { State.reset with
  cycle := 64
  unsettled := [⟨2, 1, 0, 2 * 0x4000 + 1, [some (0, 9)], some (2 * 0x4020 + 1, some 1)⟩, ⟨1, 1, 0, 2 * 0x4000 + 1, [some (5, 0)], none⟩]
  cores := [(0, { Core.reset with
    scratch := Memory.writeN [] 0x402C [7]
    slots := [(0, { Slot.reset with
      ws := some 0, bank := [(1, 0x00FFFFFFFFF04000), (2, 0x00FFFFFFFFF0402C), (3, 0x00FFFFFFFFF04010)], live := 0xFFFFFFFF })]
    tasks := [(0, { Task.reset with tstate := 1 })] })] }

/-- Its nest, ready to start. -/
def hiddenCopy : NestCmd := { hiddenThread.nestCmd 0 copyOne with ready := 0 }

/-- The state in which the copy is queued and n free values have been used. -/
def hiddenOpen (n : Nat) : State := { hiddenThread.modCore 0 (fun k => { k with vq := [hiddenCopy] }) with freeCount := n }

/-- The operands of the copy, as they stand where free values have not been used. -/
theorem hiddenOpen_facts : (hiddenOpen 0).nestReady 0 = some hiddenCopy ∧
    (hiddenOpen 0).check 0 0 hiddenCopy.based ⟨6, 4, 1, true, false, hiddenCopy.pc.toNat⟩ = .ok (.spad 0 0x4000) .invalid ∧
    (hiddenOpen 0).check 0 0 hiddenCopy.based ⟨6, 4, 1, false, true, hiddenCopy.pc.toNat⟩ = .ok (.spad 0 0x4000) .invalid ∧
    (hiddenOpen 0).check 0 0 hiddenCopy.basea ⟨6, 4, 1, true, false, hiddenCopy.pc.toNat⟩ = .ok (.spad 0 0x402C) .invalid ∧
    (hiddenOpen 0).check 0 0 hiddenCopy.baseb ⟨6, 4, 1, true, false, hiddenCopy.pc.toNat⟩ = .ok (.spad 0 0x4010) .invalid ∧
    (hiddenOpen 0).opened 0 (.spad 0 0x4000) 4 = false ∧ (hiddenOpen 0).opened 0 (.spad 0 0x4010) 4 = false ∧
    (hiddenOpen 0).opened 0 (.spad 0 0x402C) 4 = false := by
  decide +kernel

/-- What the copy should write, and what is open once it has read its a. -/
theorem hiddenOpen_read : (hiddenOpen 0).sNum 0 0x402C 4 = 7 ∧ (hiddenOpen 0).stored 0 0x4000 4 7 = 7 ∧
    ((hiddenOpen 0).loadedAt 0 (.spad 0 0x402C) 4).opened 0 (.spad 0 0x4000) 4 = true ∧
    (((hiddenOpen 0).loadedAt 0 (.spad 0 0x402C) 4).earlier 0 (.spad 0 0x4000) 4) = [some 5, none, none, none] ∧
    ((hiddenOpen 0).loadedAt 0 (.spad 0 0x402C) 4).peek 0 (.spad 0 0x4000) 4 = [0, 0, 0, 0] := by
  decide +kernel

/-- Free values used up change nothing else. -/
theorem hiddenOpen_kept (n : Nat) : NestKept (hiddenOpen 0) (hiddenOpen n) := .of_device rfl

/-- The copy as it has started. -/
def hiddenBegun : NestCmd := (hiddenOpen 0).begun hiddenCopy

theorem hiddenBegun_plain : PlainVop hiddenBegun := ⟨by decide, by decide, by decide, by decide, by decide, by decide⟩

theorem hiddenBegun_one : OneElement hiddenBegun := ⟨rfl, rfl, rfl, rfl⟩

theorem hiddenOpen_begun (n : Nat) : (hiddenOpen n).begun hiddenCopy = hiddenBegun := rfl

theorem hiddenOpen_starts (n : Nat) : StartsOne (hiddenOpen n) 0 hiddenCopy where
  ready := hiddenOpen_facts.1
  fresh := rfl
  unrun := rfl
  queued := rfl
  noHandles := rfl
  plain := hiddenOpen_begun n ▸ hiddenBegun_plain
  one := hiddenOpen_begun n ▸ hiddenBegun_one

/-- The operands of the copy lie in its own scratchpad. -/
theorem hiddenOpen_operands (n : Nat) : OwnOperands (hiddenOpen n) 0 hiddenBegun 0x4000 0x402C 0x4010 := by
  obtain ⟨-, hd, hdest, ha, hb, -⟩ := hiddenOpen_facts
  have hkept := hiddenOpen_kept n
  exact ⟨⟨hkept.check hd, rfl, by decide, rfl⟩, ⟨hkept.check hdest, rfl, by decide, rfl⟩, ⟨hkept.check ha, rfl, by decide, rfl⟩,
    ⟨hkept.check hb, rfl, by decide, rfl⟩, rfl⟩


/-- What stands at d once a nest that reads a alone has run its element: its write meets the bytes that are open after the read. -/
theorem elementOf_readsA {s : State} {c : Nat} {q : NestCmd} {offd offa offb v : Nat} {fl : Flags} (h : PlainVop q)
    (hop : OwnOperands s c q offd offa offb) (hreadsB : (vopKindOf q.vop).readsB = false) (hreadsA : (vopKindOf q.vop).readsA = true)
    (hreadsD : readsD q.vop = false) (hclosed : s.opened (s.core c).world (.spad c offa) (codeSize (nestTy q.n 1)) = false)
    (hresult : vopResult q ((rmodeOfCode q.rm).getD .rne) 0 0 (s.sNum c offa (codeSize (nestTy q.n 1))) 0 0 = (v, fl))
    (hflags : elementTrap q fl (divZero q 0) = none) {t : State} (hsees : NestSees s t) (fuel : Nat) (busy : List Nat) :
    ∃ u stamp, NestSees (s.loadedAt (s.core c).world (.spad c offa) (codeSize (nestTy q.n 1))) u ∧
      elementOf (elemFetch c 0 fuel busy) c 0 q false 0 t =
        .ok ((fl, 0), (u.pokeBy (s.core c).world (.spad c offd) (bytesOf (codeSize q.n.td) v)).raiseHts (.spad c offd) stamp) := by
  obtain ⟨t1, t2, hget, hsees1, hloaded⟩ := elemGet_own (hop.a.kept hsees.kept) 0 fuel busy
  have hs1 := hsees.trans hsees1
  have hkept2 : NestKept s t2 := hs1.kept.trans ((t1.loadedAt_kept _ _ _).trans hloaded.kept)
  obtain ⟨u, stamp, hput, hsees2⟩ := elemPut_own (hop.dest.kept hkept2) v
  rw [hs1.kept.world] at hget hloaded
  rw [(hkept2.trans hsees2.kept).world] at hput
  have hvalue : natOfBytes (t1.peekOpen (s.core c).world (.spad c offa) (codeSize (nestTy q.n 1))) = s.sNum c offa (codeSize (nestTy q.n 1)) := by
    rw [State.peekOpen_settled _ _ _ _ ((hs1.opened _ _ _ _).trans hclosed), hs1.kept.peek]; rfl
  rw [hvalue] at hget
  have hstop : arithStop q fl (divZero q 0) t2 = .ok ((), t2) := by rw [arithStop_eq, hflags]
  refine ⟨u, stamp, (hs1.loadedAt _ _ _ _).trans (hloaded.trans hsees2), ?_⟩
  rw [elementOf_plain _ _ _ h, hreadsB, hreadsA, hreadsD]
  simp only [getIf, if_true, if_false, Bool.false_eq_true, bind, StateT.bind, Except.bind, pure, StateT.pure, Except.pure, hget, finishElement,
    hresult, hstop, hput]

/-- What the copy works out. -/
theorem hiddenCopy_result (n : Nat) : vopResult hiddenCopy ((rmodeOfCode hiddenCopy.rm).getD .rne) 0 0
    ((hiddenOpen n).sNum 0 0x402C (codeSize (nestTy hiddenCopy.n 1))) 0 0 = (7, 0) := by
  have hvalue : (hiddenOpen n).sNum 0 0x402C (codeSize (nestTy hiddenCopy.n 1)) = 7 := hiddenOpen_read.1
  rw [hvalue]
  decide +kernel

/-- The bytes at d that are open, once the copy has read its a, and the next free value. -/
theorem hiddenOpen_reopens {n : Nat} {u : State} (hsees : NestSees ((hiddenOpen n).loadedAt 0 (.spad 0 0x402C) 4) u) :
    u.opened 0 (.spad 0 0x4000) 4 = true ∧ u.earlier 0 (.spad 0 0x4000) 4 = [some 5, none, none, none] ∧
      u.peek 0 (.spad 0 0x4000) 4 = [0, 0, 0, 0] ∧ u.freeCount = n := by
  obtain ⟨-, -, -, -, -, -, -, hclosed⟩ := hiddenOpen_facts
  obtain ⟨-, -, hopen, hearlier, hpeek⟩ := hiddenOpen_read
  have hclosedn : (hiddenOpen n).opened 0 (.spad 0 0x402C) 4 = false := hclosed
  have hus : ((hiddenOpen n).loadedAt 0 (.spad 0 0x402C) 4).unsettled = ((hiddenOpen 0).loadedAt 0 (.spad 0 0x402C) 4).unsettled := by
    rw [State.loadedAt, State.loadedAt, State.took_settled _ _ _ _ hclosedn, State.took_settled _ _ _ _ hclosed]
    exact State.observe_congr rfl (fun _ _ => rfl) _ _
  have hbytes : u.peek 0 (.spad 0 0x4000) 4 = ((hiddenOpen 0).loadedAt 0 (.spad 0 0x402C) 4).peek 0 (.spad 0 0x4000) 4 := by
    rw [((State.loadedAt_kept _ _ _ _).trans hsees.kept).peek, ((hiddenOpen 0).loadedAt_kept _ _ _).peek]; rfl
  have hus' := hsees.unsettled.trans hus
  have hearlier' : u.earlier 0 (.spad 0 0x4000) 4 = ((hiddenOpen 0).loadedAt 0 (.spad 0 0x402C) 4).earlier 0 (.spad 0 0x4000) 4 := by
    simp only [State.earlier, hbytes, hus']
  refine ⟨?_, hearlier'.trans hearlier, hbytes.trans hpeek, hsees.freeCount.trans ?_⟩
  · rw [← hopen, State.opened, State.opened, hearlier', hus']
  · rw [State.loadedAt_frame _ _ _ _ hclosedn]; rfl

/-- The copy leaves the byte at d as it stands where the next free value is odd. -/
theorem hiddenOpen_keeps {n : Nat} (hodd : (Config.freeValue n).getLsbD 0 = true) :
    ∃ t, exec (.nestStart 0) (hiddenOpen n) = .next t ∧ t.spadByte 0 0x4000 = 0 := by
  obtain ⟨-, -, -, -, -, -, -, hclosed⟩ := hiddenOpen_facts
  obtain ⟨t, hsees, hexec⟩ := (hiddenOpen_starts n).run
  have hsize : codeSize (nestTy hiddenBegun.n 1) = 4 := rfl
  have hworld : ((hiddenOpen n).core 0).world = 0 := rfl
  have hclosedn : (hiddenOpen n).opened 0 (.spad 0 0x402C) 4 = false := hclosed
  obtain ⟨u, stamp, hu, helement⟩ := elementOf_readsA (v := 7) (fl := 0) hiddenBegun_plain (hiddenOpen_operands n) rfl rfl rfl
    (by rw [hsize, hworld]; exact hclosedn) (hiddenCopy_result n) (by decide +kernel) hsees 1 [unitAt hiddenCopy 0]
  obtain ⟨hopen, hearlier, hpeek, hcount⟩ := hiddenOpen_reopens hu
  rw [hexec, hiddenOpen_begun, helement]
  refine ⟨_, NestRun.settle_done _ _ _, ?_⟩
  have hkept : (u.decided 0 (.spad 0 0x4000) (bytesOf 4 7)).2[0]? = some 0 :=
    State.decided_kept (y := 5) hopen (congrArg (fun l : List Byte => l[0]?) hpeek)
      (congrArg (fun l : List (Option Byte) => l[0]?) hearlier) (by decide) (by rw [hcount]; exact hodd)
  have hpoked : (u.pokeBy 0 (.spad 0 0x4000) (bytesOf 4 7)).spadByte 0 0x4000 = 0 := by
    obtain ⟨hlt, hbyte⟩ := List.getElem?_eq_some_iff.mp hkept
    exact (State.poke_byte _ 0 0 0x4000 _ hlt (by decide)).trans hbyte
  have hraised := ((u.pokeBy 0 (.spad 0 0x4000) (bytesOf 4 7)).raiseHts_records (.spad 0 0x4000) stamp).sameBytes
  rw [(SameBytes.modCore _ 0 _ rfl).2 0 0x4000]
  exact (hraised.2 0 0x4000).trans hpoked

/-- Which free values there are decides O34, and the model leaves them open: it holds if no free value is odd, and if one is, the
copy above, which the clause on a nest of one element speaks of, leaves the byte at d as it stood. -/
theorem nestsFollow_iff_standingBytesTaken : Obligations.NestsFollowR240ToR253 ↔ StandingBytesTaken := by
  refine ⟨fun h n => ?_, nestsFollow_of_standingBytesTaken⟩
  by_contra hodd
  obtain ⟨hready, hd, hdest, ha, hb, hdclosed, hbclosed, haclosed⟩ := hiddenOpen_facts
  have hk := hiddenOpen_kept n
  obtain ⟨t, hexec, hdone, -⟩ := (h.2 (hiddenOpen n) 0).2.1 hiddenCopy 0x4000 0x402C 0x4010 hready rfl rfl rfl rfl rfl rfl rfl rfl rfl rfl
    (by decide) (by decide) (by decide) (by decide) (by decide) (by decide) (by decide) ⟨hk.check hd, rfl, hdclosed⟩
    ⟨hk.check hdest, rfl, hdclosed⟩ ⟨hk.check ha, rfl, haclosed⟩ ⟨hk.check hb, rfl, hbclosed⟩ rfl
    (fun x hx _ => List.mem_singleton.mp hx)
  obtain ⟨u, hexec', hkept⟩ := hiddenOpen_keeps (Bool.eq_true_of_not_eq_false hodd)
  obtain rfl : t = u := by
    have hsame := hexec.symm.trans hexec'
    injection hsame
  have hresult := hiddenCopy_result n
  obtain ⟨hword, -⟩ := hdone (fun hidz => absurd hidz.1 (by decide)) (congrArg (fun r : Nat × Flags => r.2 &&& 0#5) hresult)
  have hseven : t.sNum 0 0x4000 8 = 7 :=
    hword.trans ((congrArg (fun r : Nat × Flags => (hiddenOpen n).stored 0 0x4000 4 r.1) hresult).trans hiddenOpen_read.2.1)
  have hbyte : BitVec.ofNat 8 (t.sNum 0 0x4000 8 / 256 ^ 0) = t.spadByte 0 0x4000 := Memory.num_byte _ _ 8 (by decide)
  rw [hkept, hseven] at hbyte
  exact absurd hbyte (by decide)

end Sys2Proof.Machine
end

section
/-! Integer division of the scalar instructions (R135, R182). -/

namespace Sys2Proof.Machine

/-! ## Quotients and remainders -/

@[simp] theorem divSigned_zero (a : Word) : divSigned a 0 = BitVec.allOnes 64 := if_pos rfl
@[simp] theorem divUnsigned_zero (a : Word) : divUnsigned a 0 = BitVec.allOnes 64 := if_pos rfl
@[simp] theorem remSigned_zero (a : Word) : remSigned a 0 = a := if_pos rfl
@[simp] theorem remUnsigned_zero (a : Word) : remUnsigned a 0 = a := if_pos rfl

/-- MIN divided by −1 is the one quotient that does not fit, and it wraps to MIN. -/
theorem divSigned_of_ne_zero (a : Word) {b : Word} (hb : b ≠ 0) :
    divSigned a b = if a = BitVec.intMin 64 ∧ b = BitVec.allOnes 64 then BitVec.intMin 64
      else BitVec.ofInt 64 (a.toInt.tdiv b.toInt) := by
  have hquot : divSigned a b = BitVec.ofInt 64 (a.toInt.tdiv b.toInt) :=
    (if_neg hb).trans (BitVec.eq_of_toInt_eq (by rw [BitVec.toInt_sdiv, BitVec.toInt_ofInt]))
  split
  next hmin =>
    obtain ⟨rfl, rfl⟩ := hmin
    decide
  next => exact hquot

theorem remSigned_of_ne_zero (a : Word) {b : Word} (hb : b ≠ 0) :
    remSigned a b = if a = BitVec.intMin 64 ∧ b = BitVec.allOnes 64 then 0
      else BitVec.ofInt 64 (a.toInt.tmod b.toInt) := by
  have hrem : remSigned a b = BitVec.ofInt 64 (a.toInt.tmod b.toInt) := by
    rw [remSigned, if_neg hb, ← BitVec.toInt_srem, BitVec.ofInt_toInt]
  split
  next hmin =>
    obtain ⟨rfl, rfl⟩ := hmin
    decide
  next => exact hrem

theorem divUnsigned_of_ne_zero (a : Word) {b : Word} (hb : b ≠ 0) :
    divUnsigned a b = BitVec.ofNat 64 (a.toNat / b.toNat) := by
  rw [divUnsigned, if_neg hb, ← BitVec.toNat_udiv, BitVec.ofNat_toNat, BitVec.setWidth_eq]

theorem remUnsigned_of_ne_zero (a : Word) {b : Word} (hb : b ≠ 0) :
    remUnsigned a b = BitVec.ofNat 64 (a.toNat % b.toNat) := by
  rw [remUnsigned, if_neg hb, ← BitVec.toNat_umod, BitVec.ofNat_toNat, BitVec.setWidth_eq]

/-! ## Completing a division -/

section
variable {s : State} {i : Instr} {d : BitVec 5} {divisor v : Word}

/-- A division that does not trap gives its value over four rotations. -/
theorem State.divDone_gives (hexec : exec i s = .next (s.divDone d divisor v)) (hok : divisor = 0 → s.idz = false) :
    Gives s i d v 4 := by
  apply gives_of_exec
  rw [hexec, State.divDone, if_neg]
  rintro ⟨hzero, hidz⟩
  exact Bool.false_ne_true ((hok hzero).symm.trans hidz)

/-- A zero divisor with FTEN.IDZ set traps. -/
theorem State.divDone_traps (hexec : exec i s = .next (s.divDone d divisor v)) (hzero : divisor = 0) (hidz : s.idz = true) :
    Traps s i (trapOf 0x0A 0x20) := fun vec hv hfree hvec hne =>
  ⟨_, by rw [hexec, State.divDone, if_pos ⟨hzero, hidz⟩], s.takeTrap_handlerEntered _ vec hv hfree hvec hne⟩

end

/-! ## The four instructions -/

theorem exec_div (s : State) (d a b : BitVec 5) :
    exec (.div d a b) s = .next (s.divDone d (s.rd b) (divSigned (s.rd a) (s.rd b))) := rfl
theorem exec_divn (s : State) (d a b : BitVec 5) :
    exec (.divn d a b) s = .next (s.divDone d (s.rd b) (divUnsigned (s.rd a) (s.rd b))) := rfl
theorem exec_rem (s : State) (d a b : BitVec 5) :
    exec (.rem d a b) s = .next (s.divDone d (s.rd b) (remSigned (s.rd a) (s.rd b))) := rfl
theorem exec_remn (s : State) (d a b : BitVec 5) :
    exec (.remn d a b) s = .next (s.divDone d (s.rd b) (remUnsigned (s.rd a) (s.rd b))) := rfl

/-- Settles O3: the four instructions complete as `State.divDone` says, with the quotient or remainder of a zero or a nonzero
divisor. -/
theorem divisionFollowsR135 : Obligations.DivisionFollowsR135 := by
  intro s d a b A B
  refine ⟨fun hzero hidz => ?zeroDivisor, fun hne => ?nonzeroDivisor, fun hzero hidz => ?trap⟩
  case zeroDivisor =>
    have hB : s.rd b = 0 := hzero
    have hok : s.rd b = 0 → s.idz = false := fun _ => hidz
    have hdiv := State.divDone_gives (exec_div s d a b) hok
    have hdivn := State.divDone_gives (exec_divn s d a b) hok
    have hrem := State.divDone_gives (exec_rem s d a b) hok
    have hremn := State.divDone_gives (exec_remn s d a b) hok
    rw [hB] at hdiv hdivn hrem hremn
    exact ⟨divSigned_zero A ▸ hdiv, divUnsigned_zero A ▸ hdivn, remSigned_zero A ▸ hrem, remUnsigned_zero A ▸ hremn⟩
  case nonzeroDivisor =>
    have hok : s.rd b = 0 → s.idz = false := fun hzero => absurd hzero hne
    rw [← divSigned_of_ne_zero A hne, ← remSigned_of_ne_zero A hne, ← divUnsigned_of_ne_zero A hne,
      ← remUnsigned_of_ne_zero A hne]
    exact ⟨State.divDone_gives (exec_div s d a b) hok, State.divDone_gives (exec_rem s d a b) hok,
      State.divDone_gives (exec_divn s d a b) hok, State.divDone_gives (exec_remn s d a b) hok⟩
  case trap =>
    exact ⟨State.divDone_traps (exec_div s d a b) hzero hidz, State.divDone_traps (exec_divn s d a b) hzero hidz,
      State.divDone_traps (exec_rem s d a b) hzero hidz, State.divDone_traps (exec_remn s d a b) hzero hidz⟩

end Sys2Proof.Machine
end

section
/-! What a result element of a nest becomes (R134, R135, R261 to R266). -/

namespace Sys2Proof.Machine

/-! ## Patterns and the integers they stand for (R134) -/

/-- A pattern read as signed is the two's complement value of its bit vector. -/
theorem sintOf_eq_toInt (x n : Nat) : sintOf x n = (BitVec.ofNat n x).toInt := by
  rw [sintOf, BitVec.toInt_eq_toNat_cond, BitVec.toNat_ofNat]
  cases n with
  | zero => simp [Nat.mod_one]
  | succ n =>
    simp only [Nat.add_sub_cancel]
    split <;> split <;> omega

theorem wrapInt_eq_toNat (v : Int) (n : Nat) : wrapInt v n = (BitVec.ofInt n v).toNat := (BitVec.toNat_ofInt v).symm

theorem wrapInt_lt (v : Int) (n : Nat) : wrapInt v n < 2 ^ n := wrapInt_eq_toNat v n ▸ BitVec.isLt _

@[simp] theorem ofNat_wrapInt (v : Int) (n : Nat) : BitVec.ofNat n (wrapInt v n) = BitVec.ofInt n v := by
  rw [wrapInt_eq_toNat, BitVec.ofNat_toNat, BitVec.setWidth_eq]

/-- What a wrapped integer reads back as: by the type's signedness, its residue of either kind. -/
theorem intVal_wrapInt (t : Ty) (v : Int) : intVal t (wrapInt v (tyBits t)) =
    if tyIsSigned t then v.bmod (2 ^ tyBits t) else v % ((2 ^ tyBits t : Nat) : Int) := by
  rw [intVal, sintOf_eq_toInt, ofNat_wrapInt, BitVec.toInt_ofInt, Nat.mod_eq_of_lt (wrapInt_lt v _), wrapInt,
    Int.toNat_of_nonneg (Int.emod_nonneg v (by exact_mod_cast (Nat.two_pow_pos _).ne'))]

/-- Wrapping keeps an integer modulo 2^w. -/
theorem intVal_wrapInt_sub_emod (t : Ty) (v : Int) :
    (intVal t (wrapInt v (tyBits t)) - v) % ((2 ^ tyBits t : Nat) : Int) = 0 := by
  rw [intVal_wrapInt]
  split
  · exact Int.emod_eq_emod_iff_emod_sub_eq_zero.mp Int.bmod_emod
  · exact Int.emod_eq_emod_iff_emod_sub_eq_zero.mp (Int.emod_emod _ _)

theorem tyBits_pos (t : Ty) : 0 < tyBits t := by cases t <;> decide

/-- An integer in the type's range is kept by wrapping. -/
theorem intVal_wrapInt_of_range {t : Ty} {v : Int} (hmin : intMin t ≤ v) (hmax : v ≤ intMax t) :
    intVal t (wrapInt v (tyBits t)) = v := by
  have hpow : 2 ^ tyBits t = 2 * 2 ^ (tyBits t - 1) := (mul_pow_sub_one (tyBits_pos t).ne' 2).symm
  rw [intVal_wrapInt]
  rw [intMin] at hmin
  rw [intMax] at hmax
  cases hsigned : tyIsSigned t with
  | true =>
    rw [hsigned, if_pos rfl] at hmin hmax
    rw [if_pos rfl]
    exact Int.bmod_eq_of_le (by omega) (by omega)
  | false =>
    rw [hsigned, if_neg Bool.false_ne_true] at hmin hmax
    rw [if_neg Bool.false_ne_true]
    exact Int.emod_eq_of_lt hmin (by omega)

theorem intMin_le_intMax (t : Ty) : intMin t ≤ intMax t := by cases t <;> decide

/-! ## Exact integer results (R134) -/

/-- A result is the exact integer x: it raises no flag, and its pattern equals x modulo 2^w, or clamped with the saturation
bit. -/
def ExactInt (t : Ty) (sat : Prop) (r : Nat × Flags) (x : Int) : Prop :=
  r.2 = 0 ∧ r.1 < 2 ^ tyBits t ∧ (¬sat → (intVal t r.1 - x) % ((2 ^ tyBits t : Nat) : Int) = 0) ∧
    (sat → intVal t r.1 = max (intMin t) (min (intMax t) x))

theorem exactInt_intResult (t : Ty) (sat : BitVec 1) (x : Int) : ExactInt t (sat = 1) (intResult t (sat == 1#1) x, 0) x := by
  refine ⟨rfl, wrapInt_lt _ _, fun hwrap => ?wraps, fun hsat => ?clamps⟩
  case wraps =>
    rw [intResult, if_neg (by simpa using hwrap)]
    exact intVal_wrapInt_sub_emod t x
  case clamps =>
    rw [intResult, if_pos (by simpa using hsat)]
    exact intVal_wrapInt_of_range (le_max_left _ _) (max_le (intMin_le_intMax t) (min_le_left _ _))

/-! ## Shifts (R263) -/

theorem bitOpVop_shl (w a : Nat) {b : Nat} (hb : b < 2 ^ w) : bitOpVop 18 w w a b = a * 2 ^ (b % w) % 2 ^ w := by
  rw [bitOpVop, Nat.mod_eq_of_lt hb, Nat.shiftLeft_eq]

theorem bitOpVop_shr (w a : Nat) {b : Nat} (hb : b < 2 ^ w) : bitOpVop 19 w w a b = a / 2 ^ (b % w) := by
  rw [bitOpVop, Nat.mod_eq_of_lt hb, Nat.shiftRight_eq_div_pow]

/-- `sra` is the arithmetic shift of the pattern's bit vector. -/
theorem bitOpVop_sra (w a : Nat) {b : Nat} (hb : b < 2 ^ w) :
    bitOpVop 20 w w a b = ((BitVec.ofNat w a).sshiftRight (b % w)).toNat := by
  have hshift : bitOpVop 20 w w a b = wrapInt (sintOf a w / ((2 ^ (b % 2 ^ w % w) : Nat) : Int)) w := rfl
  rw [hshift, Nat.mod_eq_of_lt hb, wrapInt_eq_toNat, sintOf_eq_toInt, ← Int.shiftRight_eq_div_pow, ← BitVec.toInt_sshiftRight,
    BitVec.ofInt_toInt]

/-- The bits of `sra`: each stands k places up, and bit w − 1 fills. -/
theorem testBit_bitOpVop_sra {w a b k : Nat} (hb : b < 2 ^ w) (hk : k < w) :
    (bitOpVop 20 w w a b).testBit k = a.testBit (min (w - 1) (k + b % w)) := by
  rw [bitOpVop_sra w a hb, BitVec.testBit_toNat, BitVec.getLsbD_sshiftRight]
  have hbelow : decide (w ≤ k) = false := decide_eq_false (Nat.not_le.mpr hk)
  rw [hbelow, Bool.not_false, Bool.true_and]
  split
  next hin => rw [BitVec.getLsbD_ofNat, decide_eq_true hin, Bool.true_and, Nat.min_eq_right (by omega), Nat.add_comm]
  next hout =>
    rw [BitVec.msb_eq_getLsbD_last, BitVec.getLsbD_ofNat, decide_eq_true (by omega), Bool.true_and, Nat.min_eq_left (by omega)]

/-! ## Comparisons (R263) -/

/-- Comparisons of integers, by the type's signedness. -/
theorem cmpVop_int {t : Ty} (h : tyIsFloat t = false) (v a b : Nat) :
    cmpVop v t a b = (if v = 12 then decide (intVal t a = intVal t b) else
      if v = 13 then decide (intVal t a < intVal t b) else decide (intVal t a ≤ intVal t b), 0) :=
  if_neg (by rw [h]; exact Bool.false_ne_true)

/-- A NaN makes a float comparison false; the ordered predicates raise NV. -/
theorem cmpVop_unordered {t : Ty} {a b : Nat} (hfloat : tyIsFloat t = true)
    (hnone : compareVal (floatVal t a) (floatVal t b) = none) (v : Nat) :
    cmpVop v t a b = (false, if v = 12 then snanFlag (floatVal t a) ||| snanFlag (floatVal t b) else flagNV) := by
  simp [cmpVop, hfloat, hnone]

/-! ## What `vopResult` does, by groups of vops -/

section
variable {q : NestCmd} (rm : RMode) (dr j a b d : Nat)

theorem vopResult_copy (h : q.vop = 0 ∨ q.vop = 27) : vopResult q rm dr j a b d = (a, 0) := if_pos h

theorem vopResult_fill (h : q.vop = 29) :
    vopResult q rm dr j a b d = (q.fill.toNat % 2 ^ tyBits (nestType q.n 0), 0) := by
  simp [vopResult, h]

theorem vopResult_sel (h : q.vop = 11) : vopResult q rm dr j a b d = (if d ≠ 0 then a else b, 0) := by
  simp [vopResult, h]

theorem vopResult_iota (h : q.vop = 28) (hfloat : tyIsFloat (nestType q.n 0) = false) :
    vopResult q rm dr j a b d = (intResult (nestType q.n 0) (q.n.sat == 1#1) j, 0) := by
  simp [vopResult, h, hfloat]

/-- The bitwise and shift vops. -/
theorem vopResult_bits (h : 15 ≤ q.vop ∧ q.vop ≤ 20) : vopResult q rm dr j a b d =
    (bitOpVop q.vop (tyBits (nestType q.n 0)) (tyBits (nestType q.n 2)) a b, 0) := by
  obtain ⟨hlow, hhigh⟩ := h
  simp (disch := omega) only [vopResult, if_neg]
  exact if_pos ⟨hlow, hhigh⟩

/-- The arithmetic vops: the float forms, a zero divisor of the integer forms, and their exact results. -/
theorem vopResult_arith (h : 1 ≤ q.vop ∧ q.vop ≤ 9) : vopResult q rm dr j a b d =
    if tyIsFloat (nestType q.n 0) then
      floatVop q.vop (nestType q.n 0) (nestType q.n 1) (nestType q.n 2) rm (q.n.sat == 1#1) dr a b d
    else if q.vop = 9 ∧ b = 0 then (2 ^ tyBits (nestType q.n 0) - 1, 0)
    else (intResult (nestType q.n 0) (q.n.sat == 1#1)
      (intOp q.vop (intVal (nestType q.n 0) a) (intVal (nestType q.n 0) b) (intVal (nestType q.n 0) d)), 0) := by
  obtain ⟨hlow, hhigh⟩ := h
  simp (disch := omega) only [vopResult, if_neg]
  rfl

/-- An integer form of an arithmetic vop gives its exact result. -/
theorem vopResult_exact (hint : tyIsFloat (nestType q.n 0) = false) (h : 1 ≤ q.vop ∧ q.vop ≤ 9) (hdiv : q.vop = 9 → b ≠ 0) :
    ExactInt (nestType q.n 0) (q.n.sat = 1) (vopResult q rm dr j a b d)
      (intOp q.vop (intVal (nestType q.n 0) a) (intVal (nestType q.n 0) b) (intVal (nestType q.n 0) d)) := by
  rw [vopResult_arith rm dr j a b d h, hint, if_neg Bool.false_ne_true, if_neg (fun hzero => hdiv hzero.1 hzero.2)]
  exact exactInt_intResult _ _ _

/-- A zero divisor gives all ones (R135). -/
theorem vopResult_div_zero (hint : tyIsFloat (nestType q.n 0) = false) (h : q.vop = 9) :
    vopResult q rm dr j a 0 d = (2 ^ tyBits (nestType q.n 0) - 1, 0) := by
  rw [vopResult_arith rm dr j a 0 d (by omega), hint, if_neg Bool.false_ne_true, if_pos ⟨h, rfl⟩]

/-- A float form of an arithmetic vop. -/
theorem vopResult_float (hfloat : tyIsFloat (nestType q.n 0) = true) (h : 1 ≤ q.vop ∧ q.vop ≤ 9) :
    vopResult q rm dr j a b d =
      floatVop q.vop (nestType q.n 0) (nestType q.n 1) (nestType q.n 2) rm (decide (q.n.sat = 1)) dr a b d := by
  rw [vopResult_arith rm dr j a b d h, hfloat, if_pos rfl]
  rfl

end

theorem tyIsFloat_of_tyIsInt {t : Ty} (h : tyIsInt t = true) : tyIsFloat t = false := by
  revert h
  cases t <;> decide

/-! ## The obligation -/

/-- Settles O33: each group of vops by what `vopResult` comes to for it, and the integer results by how they wrap and clamp. -/
theorem vectorElementsFollowR261ToR266 : Obligations.VectorElementsFollowR261ToR266 := by
  intro q rm dr j a b d td ta w sat r A B isExact
  refine ⟨fun hty _ hb _ => ?integers, fun hfloat => ?floats, vopResult_copy rm dr j a b d, vopResult_fill rm dr j a b d,
    fun h => ?selects, fun hint => ⟨cmpVop_int hint 12 a b, cmpVop_int hint 13 a b, cmpVop_int hint 14 a b⟩,
    fun hfloat hnone => ⟨congrArg Prod.fst (cmpVop_unordered hfloat hnone 12), cmpVop_unordered hfloat hnone 13,
      cmpVop_unordered hfloat hnone 14⟩⟩
  case integers =>
    have hint : tyIsFloat td = false := tyIsFloat_of_tyIsInt hty
    have harith : ∀ v, q.vop = v → 1 ≤ v ∧ v < 9 → isExact (intOp v A B (intVal td d)) := by
      rintro v rfl ⟨hlow, hhigh⟩
      exact vopResult_exact rm dr j a b d hint ⟨hlow, hhigh.le⟩ (fun h9 => absurd h9 hhigh.ne)
    have hbits : ∀ v, q.vop = v → 15 ≤ v ∧ v ≤ 20 → r = (bitOpVop v w (tyBits (nestType q.n 2)) a b, 0) := by
      rintro v rfl hv
      exact vopResult_bits rm dr j a b d hv
    refine ⟨fun h => harith 1 h (by decide), fun h => harith 2 h (by decide), fun h => harith 3 h (by decide),
      fun h => harith 4 h (by decide), fun h => harith 5 h (by decide), fun h => harith 6 h (by decide),
      fun h => harith 7 h (by decide), fun h => harith 8 h (by decide), fun h => ⟨fun hne => ?div, ?divZero⟩, fun h => ?iota,
      fun h => hbits 15 h (by decide), fun h => hbits 16 h (by decide), fun h => hbits 17 h (by decide),
      fun h htb => ?shl, fun h htb => ?shr, fun h htb k hk => ?sra⟩
    case div =>
      have hquot := vopResult_exact rm dr j a b d hint (by omega) (fun _ => hne)
      rw [h] at hquot
      exact hquot
    case divZero =>
      rintro rfl
      exact vopResult_div_zero rm dr j a d hint h
    case iota =>
      have hindex : r = (intResult td (q.n.sat == 1#1) j, 0) := vopResult_iota rm dr j a b d h hint
      have hexact : ExactInt td (q.n.sat = 1) r j := hindex ▸ exactInt_intResult td q.n.sat j
      exact hexact
    case shl => rw [hbits 18 h (by decide), htb, bitOpVop_shl w a hb]
    case shr => rw [hbits 19 h (by decide), htb, bitOpVop_shr w a hb]
    case sra =>
      rw [hbits 20 h (by decide), htb]
      exact testBit_bitOpVop_sra hb hk
  case floats =>
    intro x y
    have hform : ∀ v, q.vop = v → 1 ≤ v ∧ v ≤ 9 → r = floatVop v td ta (nestType q.n 2) rm (decide sat) dr a b d := by
      rintro v rfl hv
      exact vopResult_float rm dr j a b d hfloat hv
    exact ⟨fun h => hform 1 h (by decide), fun h => hform 2 h (by decide), fun h => hform 3 h (by decide),
      fun h => hform 9 h (by decide), fun h => hform 4 h (by decide)⟩
  case selects =>
    have hsel := vopResult_sel rm dr j a b d h
    exact ⟨fun hne => hsel.trans (by rw [if_pos hne]), fun hzero => hsel.trans (by rw [if_neg (not_not.mpr hzero)])⟩

end Sys2Proof.Machine
end

section
/-! The formats of R154 to R156: a word is in a format exactly when its fields are the format's. -/

namespace Sys2Proof.Machine

open Sys2Proof.Laws

/-! ## Bits of a word -/

/-- Bits of a bit field are bits of the word. -/
theorem extractLsb'_of_extractLsb' {k s n : Nat} {w : BitVec k} {x : BitVec n} (h : w.extractLsb' s n = x) (s' n' : Nat)
    (hle : s' + n' ≤ n) : w.extractLsb' (s + s') n' = x.extractLsb' s' n' := by
  subst h
  ext j hj
  simp only [BitVec.getElem_extractLsb', BitVec.getLsbD_extractLsb', show s' + j < n by omega, decide_true, Bool.true_and,
    Nat.add_assoc]

theorem eq_ofNat_of_toNat_eq {n k : Nat} {x : BitVec n} (h : x.toNat = k) : x = BitVec.ofNat n k :=
  (BitVec.toNat_eq_nat.mp h).2

theorem getLsbD_eq_true_iff {k s : Nat} {w : BitVec k} : w.getLsbD s = true ↔ w.extractLsb' s 1 = 1#1 := by
  rw [BitVec.getLsbD_eq_extractLsb', beq_iff_eq]

theorem getLsbD_eq_false_iff {k s : Nat} {w : BitVec k} : w.getLsbD s = false ↔ w.extractLsb' s 1 = 0#1 := by
  have hbit : ∀ b : BitVec 1, (b == 1#1) = false ↔ b = 0#1 := by decide
  rw [BitVec.getLsbD_eq_extractLsb', hbit]

/-- Adjacent bits of a word are a concatenation when each part of them is. -/
theorem extractLsb'_eq_append_iff {k m n s : Nat} {w : BitVec k} {x : BitVec m} {y : BitVec n} :
    w.extractLsb' s (m + n) = x ++ y ↔ w.extractLsb' (s + n) m = x ∧ w.extractLsb' s n = y := by
  rw [← BitVec.extractLsb'_append_extractLsb'_eq_extractLsb' rfl]
  constructor
  · intro h
    have hhi := congrArg (BitVec.extractLsb' n m) h
    have hlo := congrArg (BitVec.extractLsb' 0 n) h
    simp only [BitVec.extractLsb'_append_eq_left, BitVec.extractLsb'_append_eq_right] at hhi hlo
    exact ⟨hhi, hlo⟩
  · rintro ⟨rfl, rfl⟩
    rfl

/-- A word is a concatenation when each part of it is. -/
theorem eq_append_iff {m n : Nat} {w : BitVec (m + n)} {x : BitVec m} {y : BitVec n} :
    w = x ++ y ↔ w.extractLsb' n m = x ∧ w.extractLsb' 0 n = y := by
  have h := extractLsb'_eq_append_iff (s := 0) (w := w) (x := x) (y := y)
  rwa [BitVec.extractLsb'_eq_self, Nat.zero_add] at h

/-! ## The formats (R154): a word in a format, by its fields -/

section
variable {w : IWord} {m : BitVec 6} {d a b : BitVec 5}

theorem major_eq_iff : major w = m.toNat ↔ w.extractLsb' 26 6 = m := BitVec.toNat_inj

theorem eq_encA_iff {fn : BitVec 11} :
    w = encA m d a b fn ↔ major w = m.toNat ∧ fieldD w = d ∧ fieldA w = a ∧ fieldB w = b ∧ fieldFn w = fn := by
  rw [major_eq_iff]
  constructor
  · rintro rfl
    exact ⟨encA_m .., encA_d .., encA_a .., encA_b .., encA_fn ..⟩
  · rintro ⟨rfl, rfl, rfl, rfl, rfl⟩
    exact (encA_fields w).symm

theorem eq_encI_iff {imm : BitVec 16} :
    w = encI m d a imm ↔ major w = m.toNat ∧ fieldD w = d ∧ fieldA w = a ∧ fieldImm w = imm := by
  rw [major_eq_iff]
  constructor
  · rintro rfl
    exact ⟨encI_m .., encI_d .., encI_a .., encI_imm ..⟩
  · rintro ⟨rfl, rfl, rfl, rfl⟩
    exact (encI_fields w).symm

theorem eq_encH_iff {imm : BitVec 20} :
    w = encH m d imm ↔ major w = m.toNat ∧ fieldD w = d ∧ w.getLsbD 20 = false ∧ w.extractLsb' 0 20 = imm := by
  rw [major_eq_iff, getLsbD_eq_false_iff, encH, eq_append_iff (m := 6 + 5 + 1) (n := 20)]
  simp only [extractLsb'_eq_append_iff, and_assoc]
  rfl

theorem eq_encM_iff {sz mode : BitVec 2} {off : BitVec 12} :
    w = encM m d a sz mode off ↔
      major w = m.toNat ∧ fieldD w = d ∧ fieldA w = a ∧ fieldSz w = sz ∧ fieldMode w = mode ∧ fieldLow12 w = off := by
  rw [major_eq_iff]
  constructor
  · rintro rfl
    exact ⟨encM_m .., encM_d .., encM_a .., encM_sz .., encM_mode .., encM_off ..⟩
  · rintro ⟨rfl, rfl, rfl, rfl, rfl, rfl⟩
    exact (encM_fields w).symm

theorem eq_encB_iff {cond : BitVec 4} {disp : BitVec 12} :
    w = encB m d a cond disp ↔
      major w = m.toNat ∧ fieldD w = d ∧ fieldA w = a ∧ w.extractLsb' 12 4 = cond ∧ fieldLow12 w = disp := by
  rw [major_eq_iff]
  constructor
  · rintro rfl
    exact ⟨encB_m .., encB_a .., encB_b .., encB_cond .., encB_disp ..⟩
  · rintro ⟨rfl, rfl, rfl, rfl, rfl⟩
    exact (encB_fields w).symm

theorem eq_encJ_iff {disp : BitVec 26} : w = encJ m disp ↔ major w = m.toNat ∧ w.extractLsb' 0 26 = disp := by
  rw [major_eq_iff]
  constructor
  · rintro rfl
    exact ⟨encJ_m .., encJ_disp ..⟩
  · rintro ⟨rfl, rfl⟩
    exact (encJ_fields w).symm

end

/-! ## The formats of more words (R155, R156) -/

theorem eq_encE_iff {w w1 : IWord} {m : BitVec 6} {sub : BitVec 5} {c : EngCmd} :
    [w, w1] = encE m sub c ↔ major w = m.toNat ∧ fieldD w = sub ∧ engCmd w w1 = c := by
  obtain ⟨x, y, z, f, p⟩ := c
  simp only [encE, eq_append_iff (m := 6 + 5 + 5 + 5 + 5) (n := 6) (w := w), extractLsb'_eq_append_iff, List.cons.injEq,
    BitVec.toNat_inj, major, engCmd, EngCmd.mk.injEq, and_assoc, and_true]
  rfl

theorem eq_encN_iff {w0 w1 w2 w3 w4 w5 w6 w7 : IWord} {vop : BitVec 8} {n : Nest} :
    [w0, w1, w2, w3, w4, w5, w6, w7] = encN vop n ↔
      major w0 = 60 ∧ w0.extractLsb' 18 8 = vop ∧ nestOf w0 w1 w2 w3 w4 w5 w6 w7 = n ∧
      w1.extractLsb' 0 4 = 0#4 ∧ w7.extractLsb' 0 6 = 0#6 := by
  have hmajor : major w0 = 60 ↔ w0.extractLsb' 26 6 = 0x3C#6 := BitVec.toNat_inj (y := 0x3C#6)
  have hx2 : ∀ {x : BitVec 12}, w2.extractLsb' 0 8 ++ w3.extractLsb' 28 4 = x ↔
      w2.extractLsb' 0 8 = x.extractLsb' 4 8 ∧ w3.extractLsb' 28 4 = x.extractLsb' 0 4 := fun {x} => by
    rw [eq_comm, eq_append_iff (m := 8) (n := 4), eq_comm, eq_comm (b := w3.extractLsb' 28 4)]
  obtain ⟨⟩ := n
  simp only [encN, List.cons.injEq, extractLsb'_eq_append_iff,
    eq_append_iff (m := 6 + 8 + 4 + 4 + 4 + 3 + 1 + 1) (n := 1) (w := w0),
    eq_append_iff (m := 5 + 5 + 5 + 5 + 5 + 1 + 1 + 1) (n := 4) (w := w1),
    eq_append_iff (m := 12 + 12) (n := 8) (w := w2), eq_append_iff (m := 4 + 12 + 12 + 2) (n := 2) (w := w3),
    eq_append_iff (m := 8 + 8 + 8) (n := 8) (w := w4), eq_append_iff (m := 8 + 8 + 8) (n := 8) (w := w5),
    eq_append_iff (m := 8 + 8 + 8) (n := 8) (w := w6), eq_append_iff (m := 8 + 8 + 8 + 2) (n := 6) (w := w7)]
  simp only [nestOf, strideByte, Nest.mk.injEq, hmajor, hx2, Nat.reduceAdd, Nat.reduceMul, Nat.reduceSub]
  constructor <;> intro h <;> simp only [h, and_self]

/-! ## The parts of the function field and of the immediate (R159 to R162) -/

section
variable {w : IWord}

theorem fieldFn_alu_iff {hi : BitVec 5} {op : BitVec 6} :
    fieldFn w = hi ++ op ↔ w.extractLsb' 6 5 = hi ∧ w.extractLsb' 0 6 = op :=
  extractLsb'_eq_append_iff (m := 5) (n := 6)

theorem fieldFn_fp_iff {f r : BitVec 3} {op : BitVec 5} :
    fieldFn w = f ++ op ++ r ↔ fieldFmt w = f ∧ w.extractLsb' 3 5 = op ∧ fieldRm w = r := by
  rw [show fieldFn w = w.extractLsb' 0 (3 + 5 + 3) from rfl, extractLsb'_eq_append_iff, extractLsb'_eq_append_iff, and_assoc]
  rfl

theorem fieldFn_fcvt_iff {t u : BitVec 4} {r : BitVec 3} :
    fieldFn w = t ++ u ++ r ↔ w.extractLsb' 7 4 = t ∧ w.extractLsb' 3 4 = u ∧ fieldRm w = r := by
  rw [show fieldFn w = w.extractLsb' 0 (4 + 4 + 3) from rfl, extractLsb'_eq_append_iff, extractLsb'_eq_append_iff, and_assoc]
  rfl

theorem fieldFn_amo_iff {hi : BitVec 5} {z : BitVec 2} {op : BitVec 4} :
    fieldFn w = hi ++ z ++ op ↔ w.extractLsb' 6 5 = hi ∧ w.extractLsb' 4 2 = z ∧ w.extractLsb' 0 4 = op := by
  rw [show fieldFn w = w.extractLsb' 0 (5 + 2 + 4) from rfl, extractLsb'_eq_append_iff, extractLsb'_eq_append_iff, and_assoc]

theorem fieldFn_ulog_iff {hi : BitVec 7} {l : BitVec 4} :
    fieldFn w = hi ++ l ↔ w.extractLsb' 4 7 = hi ∧ w.extractLsb' 0 4 = l :=
  extractLsb'_eq_append_iff (m := 7) (n := 4)

theorem fieldFn_jump_iff {hi : BitVec 9} {op : BitVec 2} :
    fieldFn w = hi ++ op ↔ w.extractLsb' 2 9 = hi ∧ w.extractLsb' 0 2 = op :=
  extractLsb'_eq_append_iff (m := 9) (n := 2)

theorem fieldImm_shift_iff {kind : BitVec 10} {n : BitVec 6} :
    fieldImm w = kind ++ n ↔ w.extractLsb' 6 10 = kind ∧ w.extractLsb' 0 6 = n :=
  extractLsb'_eq_append_iff (m := 10) (n := 6)

theorem fieldImm_low12_iff {hi : BitVec 4} {i : BitVec 12} :
    fieldImm w = hi ++ i ↔ w.extractLsb' 12 4 = hi ∧ fieldLow12 w = i :=
  extractLsb'_eq_append_iff (m := 4) (n := 12)

theorem fieldImm_low4_iff {hi : BitVec 12} {c : BitVec 4} :
    fieldImm w = hi ++ c ↔ w.extractLsb' 4 12 = hi ∧ w.extractLsb' 0 4 = c :=
  extractLsb'_eq_append_iff (m := 12) (n := 4)

end

/-! ## The two directions -/

theorem wellFormed_iff {i : Instr} : wellFormed i = true ↔ undefSub i = 0 := beq_iff_eq

/-- A decode that comes to its last checks answers the instruction when the reserved bits are zero and the operand values
are allowed. -/
theorem finish_eq_ok_iff {r : Bool} {i j : Instr} : finish r i = .ok j ↔ r = true ∧ wellFormed i = true ∧ i = j := by
  rw [wellFormed_iff]
  cases r
  · simp [finish]
  · simp only [finish, Bool.not_true, Bool.false_eq_true, if_false, true_and]
    split <;> simp_all

/-- The words are those of a native instruction whose operand values the spec allows. -/
def IsWords (ws : List IWord) (i : Instr) : Prop := instrSet i = .native ∧ wellFormed i = true ∧ encode i = ws

theorem isWords_of_ok {i j : Instr} {ws : List IWord} (h : Decoded.ok i = .ok j) (hset : instrSet i = .native)
    (hwf : undefSub i = 0) (henc : encode i = ws) : IsWords ws j := by
  cases h
  exact ⟨hset, wellFormed_iff.mpr hwf, henc⟩

theorem isWords_of_finish {r : Bool} {i j : Instr} {ws : List IWord} (h : finish r i = .ok j) (hset : instrSet i = .native)
    (henc : r = true → encode i = ws) : IsWords ws j := by
  obtain ⟨hr, hwf, rfl⟩ := finish_eq_ok_iff.mp h
  exact ⟨hset, hwf, henc hr⟩

/-- For an instruction of one word: the word is the encoder's. -/
theorem encode_eq_singleton {i : Instr} {w w' : IWord} (henc : encode i = [w']) (hw : w = w') : encode i = [w] := hw ▸ henc

end Sys2Proof.Machine
end

section
/-! O56, one way: words that the native decoder takes are the encoding of what it takes them for (R157 to R165). -/

namespace Sys2Proof.Machine

open Sys2Proof.Laws

section
variable {w : IWord} {m : Nat} {i : Instr}

theorem isWords_of_decodeAlu (hm : major w = 1) (h : decodeAlu w = .ok i) : IsWords [w] i := by
  unfold decodeAlu at h
  split at h
  case h_38 => cases h
  all_goals
    rename_i hop
    have hfn := fieldFn_alu_iff.mpr ⟨rfl, eq_ofNat_of_toNat_eq hop⟩
    refine isWords_of_finish h rfl fun hr => encode_eq_singleton rfl (eq_encA_iff.mpr ?_)
    simp only [Bool.and_eq_true, beq_iff_eq] at hr
    simp [hm, hr, hfn]

theorem isWords_of_decodeImm (hm : major w = m) (hlo : 2 ≤ m) (hhi : m ≤ 7) (h : decodeImm m w = .ok i) : IsWords [w] i := by
  unfold decodeImm at h
  split at h
  case h_5 =>
    have himm : fieldImm w = (w.extractLsb' 8 8 ++ w.extractLsb' 6 2) ++ w.extractLsb' 0 6 :=
      fieldImm_shift_iff.mpr ⟨(extractLsb'_eq_append_iff (m := 8) (n := 2)).mpr ⟨rfl, rfl⟩, rfl⟩
    have hlt := (w.extractLsb' 6 2).isLt
    split at h
    case' h_4 h0 h1 h2 => have hkind : (w.extractLsb' 6 2).toNat = 3 := by grind
    all_goals
      rename_i hkind
      refine isWords_of_finish h rfl fun hr => encode_eq_singleton rfl (eq_encI_iff.mpr ⟨hm, rfl, rfl, ?_⟩)
      rw [himm, eq_ofNat_of_toNat_eq hkind, eq_of_beq hr]; rfl
  case h_6 h2 h3 h4 h5 h6 =>
    obtain rfl : m = 7 := by grind
    split at h
    case h_7 => cases h
    all_goals
      rename_i hcc
      refine isWords_of_ok h rfl rfl (encode_eq_singleton rfl (eq_encI_iff.mpr ⟨hm, rfl, rfl, ?_⟩))
      exact fieldImm_low12_iff.mpr ⟨eq_ofNat_of_toNat_eq hcc, rfl⟩
  all_goals exact isWords_of_ok h rfl rfl (encode_eq_singleton rfl (eq_encI_iff.mpr ⟨hm, rfl, rfl, rfl⟩))

theorem isWords_of_decodeFp (hm : major w = m) (hlo : 10 ≤ m) (hhi : m ≤ 12) (h : decodeFp m w = .ok i) : IsWords [w] i := by
  unfold decodeFp at h
  dsimp only at h
  split_ifs at h with h12 h11
  · subst h12
    refine isWords_of_finish h rfl fun hr => encode_eq_singleton rfl (eq_encA_iff.mpr ?_)
    exact ⟨hm, rfl, rfl, by simpa using hr, fieldFn_fcvt_iff.mpr ⟨rfl, rfl, rfl⟩⟩
  · subst h11
    split at h
    case h_4 => cases h
    all_goals
      rename_i hop
      have hfn := fieldFn_fp_iff.mpr ⟨rfl, eq_ofNat_of_toNat_eq hop, rfl⟩
      exact isWords_of_finish h rfl fun _ => encode_eq_singleton rfl (eq_encA_iff.mpr ⟨hm, rfl, rfl, rfl, hfn⟩)
  · obtain rfl : m = 10 := by omega
    split at h
    case h_11 => cases h
    case h_8 hop | h_9 hop =>
      split at h
      any_goals contradiction
      all_goals
        rename_i hrm
        have hfn := fieldFn_fp_iff.mpr ⟨rfl, eq_ofNat_of_toNat_eq hop, eq_ofNat_of_toNat_eq hrm⟩
        exact isWords_of_finish h rfl fun _ => encode_eq_singleton rfl (eq_encA_iff.mpr ⟨hm, rfl, rfl, rfl, hfn⟩)
    all_goals
      rename_i hop
      have hfn := fieldFn_fp_iff.mpr ⟨rfl, eq_ofNat_of_toNat_eq hop, rfl⟩
      refine isWords_of_finish h rfl fun hr => encode_eq_singleton rfl (eq_encA_iff.mpr ?_)
      simp_all

theorem isWords_of_decodeMem (hm : major w = m) (hlo : 16 ≤ m) (hhi : m ≤ 20) (h : decodeMem m w = .ok i) :
    IsWords [w] i := by
  unfold decodeMem at h
  split at h
  case h_5 h16 h17 h18 h19 =>
    obtain rfl : m = 20 := by grind
    dsimp only at h
    split at h
    case h_3 => cases h
    all_goals
      rename_i hmode
      refine isWords_of_finish h rfl fun hr => encode_eq_singleton rfl (eq_encM_iff.mpr ?_)
      simp only [Bool.and_eq_true, beq_iff_eq] at hr
      exact ⟨hm, hr.1, rfl, hr.2, eq_ofNat_of_toNat_eq hmode, rfl⟩
  all_goals
    dsimp only at h
    split at h
    any_goals contradiction
    all_goals
      rename_i hmode
      refine isWords_of_finish h rfl fun hr => encode_eq_singleton rfl (eq_encM_iff.mpr ?_)
      simp [hm, eq_ofNat_of_toNat_eq hmode]
    all_goals exact eq_of_beq hr

theorem isWords_of_decodeAmo (hm : major w = 21) (h : decodeAmo w = .ok i) : IsWords [w] i := by
  unfold decodeAmo at h
  split at h
  case h_12 => cases h
  all_goals
    rename_i hop
    have hfn := fieldFn_amo_iff.mpr ⟨rfl, rfl, eq_ofNat_of_toNat_eq hop⟩
    refine isWords_of_finish h rfl fun hr => encode_eq_singleton rfl (eq_encA_iff.mpr ?_)
    simp only [Bool.and_eq_true, beq_iff_eq] at hr
    simp [hm, hr, hfn]

theorem isWords_of_cas (hm : major w = 22)
    (h : finish (w.extractLsb' 6 5 == 0#5 && w.extractLsb' 0 4 == 0#4)
      (.cas (fieldD w) (fieldA w) (fieldB w) (w.extractLsb' 4 2)) = .ok i) : IsWords [w] i := by
  refine isWords_of_finish h rfl fun hr => encode_eq_singleton rfl (eq_encA_iff.mpr ?_)
  simp only [Bool.and_eq_true, beq_iff_eq] at hr
  exact ⟨hm, rfl, rfl, rfl, fieldFn_amo_iff.mpr ⟨hr.1, rfl, hr.2⟩⟩

theorem isWords_of_decodeRed (hm : major w = 23) (h : decodeRed w = .ok i) : IsWords [w] i := by
  unfold decodeRed at h
  split at h
  case h_9 => cases h
  all_goals
    rename_i hop
    refine isWords_of_finish h rfl fun hr => encode_eq_singleton rfl (eq_encA_iff.mpr ?_)
    simp only [Bool.and_eq_true, beq_iff_eq] at hr
    exact ⟨hm, hr.2, rfl, rfl, fieldFn_amo_iff.mpr ⟨hr.1, rfl, eq_ofNat_of_toNat_eq hop⟩⟩

theorem isWords_of_decodeUlog (hm : major w = 24) (h : decodeUlog w = .ok i) : IsWords [w] i := by
  have hhi : w.extractLsb' 4 7 = w.extractLsb' 9 2 ++ w.extractLsb' 5 4 ++ w.extractLsb' 4 1 := by
    rw [extractLsb'_eq_append_iff (m := 2 + 4) (n := 1), extractLsb'_eq_append_iff]
    exact ⟨⟨rfl, rfl⟩, rfl⟩
  have hfn := fieldFn_ulog_iff.mpr ⟨hhi, rfl⟩
  unfold decodeUlog at h
  dsimp only at h
  split at h
  case isTrue hbit =>
    refine isWords_of_finish h rfl fun hr => encode_eq_singleton rfl (eq_encA_iff.mpr ?_)
    simp only [Bool.and_eq_true, beq_iff_eq, and_assoc] at hr
    obtain ⟨hz, hd, hop, ha, hb⟩ := hr
    rw [hz, eq_ofNat_of_toNat_eq hop, getLsbD_eq_true_iff.mp hbit] at hfn
    exact ⟨hm, hd, ha, hb, hfn⟩
  case isFalse hbit =>
    rw [getLsbD_eq_false_iff.mp (Bool.eq_false_of_not_eq_true hbit)] at hfn
    split at h
    case h_9 => cases h
    all_goals
      rename_i hop
      refine isWords_of_finish h rfl fun hr => encode_eq_singleton rfl (eq_encA_iff.mpr ?_)
      simp only [Bool.and_eq_true, beq_iff_eq] at hr
      rw [hr.1, eq_ofNat_of_toNat_eq hop] at hfn
      exact ⟨hm, hr.2, rfl, rfl, hfn⟩

theorem isWords_of_decodeTransfer (hm : major w = m) (hlo : 32 ≤ m) (hhi : m ≤ 36) (h : decodeTransfer m w = .ok i) :
    IsWords [w] i := by
  unfold decodeTransfer at h
  split at h
  case h_1 =>
    dsimp only at h
    split at h
    case h_9 => cases h
    all_goals
      rename_i hcond
      refine isWords_of_finish h rfl fun hr => encode_eq_singleton rfl (eq_encB_iff.mpr ?_)
      simp [hm, eq_ofNat_of_toNat_eq hcond]
    all_goals exact eq_of_beq hr
  case h_2 | h_3 => exact isWords_of_ok h rfl rfl (encode_eq_singleton rfl (eq_encJ_iff.mpr ⟨hm, rfl⟩))
  case h_4 =>
    dsimp only at h
    split at h
    case h_4 => cases h
    all_goals
      rename_i hop
      refine isWords_of_finish h rfl fun hr => encode_eq_singleton rfl (eq_encA_iff.mpr ?_)
      simp only [Bool.and_eq_true, beq_iff_eq] at hr
      exact ⟨hm, hr.1.1, rfl, hr.1.2, fieldFn_jump_iff.mpr ⟨hr.2, eq_ofNat_of_toNat_eq hop⟩⟩
  case h_5 h32 h33 h34 h35 =>
    obtain rfl : m = 36 := by grind
    exact isWords_of_finish h rfl fun hr => encode_eq_singleton rfl (eq_encI_iff.mpr ⟨hm, eq_of_beq hr, rfl, rfl⟩)

theorem isWords_of_decodeThread (hm : major w = 40) (h : decodeThread w = .ok i) : IsWords [w] i := by
  unfold decodeThread at h
  split at h
  case h_13 => cases h
  all_goals
    rename_i hop
    have hfn := eq_ofNat_of_toNat_eq hop
    refine isWords_of_finish h rfl fun hr => encode_eq_singleton rfl (eq_encA_iff.mpr ?_)
    simp_all

/-- Bit 15 of the immediate tells a write from a read, and the bits from there down to the register's number are zero (R157). -/
theorem isWords_of_decodeRegs (hm : major w = m) (hlo : 41 ≤ m) (hhi : m ≤ 42) (h : decodeRegs m w = .ok i) : IsWords [w] i := by
  have hsel : ∀ {p}, w.extractLsb' 15 1 = p → w.extractLsb' 12 3 = 0#3 → w.extractLsb' 12 4 = p ++ 0#3 :=
    fun hp hz => (extractLsb'_eq_append_iff (m := 1) (n := 3)).mpr ⟨hp, hz⟩
  have hcommon : ∀ {p}, w.extractLsb' 15 1 = p → w.extractLsb' 4 11 = 0#11 → w.extractLsb' 4 12 = p ++ 0#11 :=
    fun hp hz => (extractLsb'_eq_append_iff (m := 1) (n := 11)).mpr ⟨hp, hz⟩
  unfold decodeRegs at h
  dsimp only at h
  split_ifs at h with h41 hput hput
  all_goals
    refine isWords_of_finish h rfl fun hr => encode_eq_singleton rfl (eq_encI_iff.mpr ?_)
    simp only [Bool.and_eq_true, beq_iff_eq] at hr
    obtain ⟨ha, hz⟩ := hr
  · exact ⟨hm.trans h41, rfl, ha, fieldImm_low12_iff.mpr ⟨hsel (getLsbD_eq_true_iff.mp hput) hz, rfl⟩⟩
  · have hread := getLsbD_eq_false_iff.mp (Bool.eq_false_of_not_eq_true hput)
    exact ⟨hm.trans h41, rfl, ha, fieldImm_low12_iff.mpr ⟨hsel hread hz, rfl⟩⟩
  · obtain rfl : m = 42 := by omega
    exact ⟨hm, rfl, ha, fieldImm_low4_iff.mpr ⟨hcommon (getLsbD_eq_true_iff.mp hput) hz, rfl⟩⟩
  · obtain rfl : m = 42 := by omega
    have hread := getLsbD_eq_false_iff.mp (Bool.eq_false_of_not_eq_true hput)
    exact ⟨hm, rfl, ha, fieldImm_low4_iff.mpr ⟨hcommon hread hz, rfl⟩⟩

theorem isWords_of_decodeClaspCb (hm : major w = m) (hmem : m = 43 ∨ m = 51) (h : decodeClaspCb m w = .ok i) : IsWords [w] i := by
  unfold decodeClaspCb at h
  dsimp only at h
  split_ifs at h with h43
  case' pos => subst h43
  case' neg => obtain rfl : m = 51 := by omega
  all_goals
    split at h
    any_goals contradiction
    all_goals
      rename_i hop
      have hfn := eq_ofNat_of_toNat_eq hop
      refine isWords_of_finish h rfl fun hr => encode_eq_singleton rfl (eq_encA_iff.mpr ?_)
      simp_all

theorem isWords_of_decodeEngine {w1 : IWord} (hm : major w = m) (hlo : 48 ≤ m) (hhi : m ≤ 50) (h : decodeEngine m w w1 = .ok i) :
    IsWords [w, w1] i := by
  unfold decodeEngine at h
  split at h
  case' h_3 h48 h49 => obtain rfl : m = 50 := by grind
  all_goals
    dsimp only at h
    split at h
    any_goals contradiction
    all_goals
      rename_i hsub
      exact isWords_of_finish h rfl fun _ => (eq_encE_iff.mpr ⟨hm, eq_ofNat_of_toNat_eq hsub, rfl⟩).symm

theorem isWords_of_lhi (hm : major w = 8) (h : finish (!w.getLsbD 20) (.lhi (fieldD w) (w.extractLsb' 0 20)) = .ok i) :
    IsWords [w] i :=
  isWords_of_finish h rfl fun hr => encode_eq_singleton rfl (eq_encH_iff.mpr ⟨hm, rfl, by simpa using hr, rfl⟩)

theorem isWords_of_phi (hm : major w = 9) (h : finish (!w.getLsbD 20) (.phi (fieldD w) (w.extractLsb' 0 20)) = .ok i) :
    IsWords [w] i :=
  isWords_of_finish h rfl fun hr => encode_eq_singleton rfl (eq_encH_iff.mpr ⟨hm, rfl, by simpa using hr, rfl⟩)

theorem native_encode_of_vopInstr {v : BitVec 8} {n : Nest} (hv : vopInstr v.toNat n = some i) :
    instrSet i = .native ∧ encode i = encN v n := by
  generalize hk : v.toNat = k at hv
  obtain rfl := eq_ofNat_of_toNat_eq hk
  clear hk
  unfold vopInstr at hv
  split at hv
  any_goals contradiction
  all_goals
    cases hv
    exact ⟨rfl, rfl⟩

theorem isWords_of_decodeNest {w1 w2 w3 w4 w5 w6 w7 : IWord} (hm : major w = 60)
    (h : decodeNest [w, w1, w2, w3, w4, w5, w6, w7] = .ok i) : IsWords [w, w1, w2, w3, w4, w5, w6, w7] i := by
  unfold decodeNest at h
  dsimp only at h
  split at h
  case h_1 => cases h
  case h_2 j hv =>
    obtain ⟨hset, henc⟩ := native_encode_of_vopInstr hv
    refine isWords_of_finish h hset fun hr => ?_
    simp only [Bool.and_eq_true, beq_iff_eq] at hr
    exact henc.trans (eq_encN_iff.mpr ⟨hm, rfl, rfl, hr.1, hr.2⟩).symm

end

/-- The number of words after the first, by the first word's major opcode (R153). -/
theorem length_rest {w : IWord} {rest : List IWord} {k : Nat} (hlen : lengthOf w = rest.length + 1) (hm : major w = k) :
    rest.length + 1 = if k = 0x30 ∨ k = 0x31 ∨ k = 0x32 then 2 else if k = 0x3C then 8 else 1 :=
  hlen.symm.trans (lengthOf_of_major hm)

theorem isWords_of_singleton {w : IWord} {rest : List IWord} {i : Instr} {k : Nat} (hlen : lengthOf w = rest.length + 1)
    (hm : major w = k) (h : IsWords [w] i) (hone : k ∉ [0x30, 0x31, 0x32, 0x3C] := by decide) : IsWords (w :: rest) i := by
  have hrest := length_rest hlen hm
  have hnil : rest = [] := by simp_all
  rwa [hnil]

/-- Words that decode are the encoding of what they decode to. -/
theorem isWords_of_decodeNative {w : IWord} {rest : List IWord} {i : Instr} (hlen : lengthOf w = rest.length + 1)
    (h : decodeNative w rest = .ok i) : IsWords (w :: rest) i := by
  unfold decodeNative at h
  split at h
  any_goals contradiction
  case h_2 hm => exact isWords_of_singleton hlen hm (isWords_of_decodeAlu hm h)
  case h_3 hm | h_4 hm | h_5 hm | h_6 hm | h_7 hm | h_8 hm =>
    exact isWords_of_singleton hlen hm (isWords_of_decodeImm hm (by decide) (by decide) h)
  case h_9 hm => exact isWords_of_singleton hlen hm (isWords_of_lhi hm h)
  case h_10 hm => exact isWords_of_singleton hlen hm (isWords_of_phi hm h)
  case h_11 hm | h_12 hm | h_13 hm =>
    exact isWords_of_singleton hlen hm (isWords_of_decodeFp hm (by decide) (by decide) h)
  case h_14 hm | h_15 hm | h_16 hm | h_17 hm | h_18 hm =>
    exact isWords_of_singleton hlen hm (isWords_of_decodeMem hm (by decide) (by decide) h)
  case h_19 hm => exact isWords_of_singleton hlen hm (isWords_of_decodeAmo hm h)
  case h_20 hm => exact isWords_of_singleton hlen hm (isWords_of_cas hm h)
  case h_21 hm => exact isWords_of_singleton hlen hm (isWords_of_decodeRed hm h)
  case h_22 hm => exact isWords_of_singleton hlen hm (isWords_of_decodeUlog hm h)
  case h_23 hm | h_24 hm | h_25 hm | h_26 hm | h_27 hm =>
    exact isWords_of_singleton hlen hm (isWords_of_decodeTransfer hm (by decide) (by decide) h)
  case h_28 hm => exact isWords_of_singleton hlen hm (isWords_of_decodeThread hm h)
  case h_29 hm | h_30 hm => exact isWords_of_singleton hlen hm (isWords_of_decodeRegs hm (by decide) (by decide) h)
  case h_31 hm | h_35 hm => exact isWords_of_singleton hlen hm (isWords_of_decodeClaspCb hm (by decide) h)
  case h_32 hm | h_33 hm | h_34 hm =>
    obtain ⟨w1, rfl⟩ := List.length_eq_one_iff.mp (Nat.succ.inj (length_rest hlen hm))
    exact isWords_of_decodeEngine hm (by decide) (by decide) h
  case h_36 hm =>
    match rest, length_rest hlen hm with
    | [w1, w2, w3, w4, w5, w6, w7], _ => exact isWords_of_decodeNest hm h

end Sys2Proof.Machine
end

section
/-! O56, the other way: every native instruction's encoding is taken for it, as far as the checks on operand values. -/

namespace Sys2Proof.Machine

open Sys2Proof.Laws

/-! ## Decoding by major opcode (R157) -/

section
variable {w : IWord} {m : Nat} {rest : List IWord}

theorem decodeNative_alu (hm : major w = 1) : decodeNative w rest = decodeAlu w := by rw [decodeNative, hm]; rfl

theorem decodeNative_imm (hm : major w = m) (hlo : 2 ≤ m) (hhi : m ≤ 7) : decodeNative w rest = decodeImm m w := by
  rw [decodeNative, hm]
  interval_cases m <;> rfl

theorem decodeNative_lhi (hm : major w = 8) :
    decodeNative w rest = finish (!w.getLsbD 20) (.lhi (fieldD w) (w.extractLsb' 0 20)) := by rw [decodeNative, hm]; rfl

theorem decodeNative_phi (hm : major w = 9) :
    decodeNative w rest = finish (!w.getLsbD 20) (.phi (fieldD w) (w.extractLsb' 0 20)) := by rw [decodeNative, hm]; rfl

theorem decodeNative_fp (hm : major w = m) (hlo : 10 ≤ m) (hhi : m ≤ 12) : decodeNative w rest = decodeFp m w := by
  rw [decodeNative, hm]
  interval_cases m <;> rfl

theorem decodeNative_mem (hm : major w = m) (hlo : 16 ≤ m) (hhi : m ≤ 20) : decodeNative w rest = decodeMem m w := by
  rw [decodeNative, hm]
  interval_cases m <;> rfl

theorem decodeNative_amo (hm : major w = 21) : decodeNative w rest = decodeAmo w := by rw [decodeNative, hm]; rfl

theorem decodeNative_cas (hm : major w = 22) : decodeNative w rest =
    finish (w.extractLsb' 6 5 == 0#5 && w.extractLsb' 0 4 == 0#4)
      (.cas (fieldD w) (fieldA w) (fieldB w) (w.extractLsb' 4 2)) := by
  rw [decodeNative, hm]; rfl

theorem decodeNative_red (hm : major w = 23) : decodeNative w rest = decodeRed w := by rw [decodeNative, hm]; rfl

theorem decodeNative_ulog (hm : major w = 24) : decodeNative w rest = decodeUlog w := by rw [decodeNative, hm]; rfl

theorem decodeNative_transfer (hm : major w = m) (hlo : 32 ≤ m) (hhi : m ≤ 36) :
    decodeNative w rest = decodeTransfer m w := by
  rw [decodeNative, hm]
  interval_cases m <;> rfl

theorem decodeNative_thread (hm : major w = 40) : decodeNative w rest = decodeThread w := by rw [decodeNative, hm]; rfl

theorem decodeNative_regs (hm : major w = m) (hlo : 41 ≤ m) (hhi : m ≤ 42) : decodeNative w rest = decodeRegs m w := by
  rw [decodeNative, hm]
  interval_cases m <;> rfl

theorem decodeNative_claspCb (hm : major w = m) (hmem : m = 43 ∨ m = 51) : decodeNative w rest = decodeClaspCb m w := by
  rw [decodeNative, hm]
  rcases hmem with rfl | rfl <;> rfl

theorem decodeNative_engine {w1 : IWord} (hm : major w = m) (hlo : 48 ≤ m) (hhi : m ≤ 50) :
    decodeNative w [w1] = decodeEngine m w w1 := by
  rw [decodeNative, hm]
  interval_cases m <;> rfl

theorem decodeNative_nest {w1 w2 w3 w4 w5 w6 w7 : IWord} (hm : major w = 60) :
    decodeNative w [w1, w2, w3, w4, w5, w6, w7] = decodeNest [w, w1, w2, w3, w4, w5, w6, w7] := by
  rw [decodeNative, hm]; rfl

end

/-! ## Encodings, format by format -/

/-- The first word of the instruction's encoding fixes its length, and the decoder takes the words for the instruction, as far
as the checks on operand values. -/
def Decodes (i : Instr) : Prop :=
  ∃ w rest, encode i = w :: rest ∧ lengthOf w = rest.length + 1 ∧ decodeNative w rest = finish true i

section
variable {i : Instr} {m : BitVec 6} {d a b : BitVec 5}

section
variable (hone : m ∉ [0x30#6, 0x31#6, 0x32#6, 0x3C#6])
include hone

theorem decodes_of_singleton {w : IWord} (henc : encode i = [w]) (hm : major w = m.toNat)
    (hdec : decodeNative w [] = finish true i) : Decodes i := by
  refine ⟨w, [], henc, ?_, hdec⟩
  rw [lengthOf_of_major hm]
  clear hm
  revert m
  decide

theorem decodes_of_encA {fn : BitVec 11} (henc : encode i = [encA m d a b fn])
    (hdec : ∀ w, major w = m.toNat → fieldD w = d → fieldA w = a → fieldB w = b → fieldFn w = fn →
      decodeNative w [] = finish true i) : Decodes i := by
  obtain ⟨hm, hd, ha, hb, hfn⟩ := eq_encA_iff.mp (rfl : encA m d a b fn = _)
  exact decodes_of_singleton hone henc hm (hdec _ hm hd ha hb hfn)

theorem decodes_of_encI {imm : BitVec 16} (henc : encode i = [encI m d a imm])
    (hdec : ∀ w, major w = m.toNat → fieldD w = d → fieldA w = a → fieldImm w = imm → decodeNative w [] = finish true i) :
    Decodes i := by
  obtain ⟨hm, hd, ha, himm⟩ := eq_encI_iff.mp (rfl : encI m d a imm = _)
  exact decodes_of_singleton hone henc hm (hdec _ hm hd ha himm)

theorem decodes_of_encH {imm : BitVec 20} (henc : encode i = [encH m d imm])
    (hdec : ∀ w, major w = m.toNat → fieldD w = d → w.getLsbD 20 = false → w.extractLsb' 0 20 = imm →
      decodeNative w [] = finish true i) : Decodes i := by
  obtain ⟨hm, hd, hz, himm⟩ := eq_encH_iff.mp (rfl : encH m d imm = _)
  exact decodes_of_singleton hone henc hm (hdec _ hm hd hz himm)

theorem decodes_of_encM {sz mode : BitVec 2} {off : BitVec 12} (henc : encode i = [encM m d a sz mode off])
    (hdec : ∀ w, major w = m.toNat → fieldD w = d → fieldA w = a → fieldSz w = sz → fieldMode w = mode → fieldLow12 w = off →
      decodeNative w [] = finish true i) : Decodes i := by
  obtain ⟨hm, hd, ha, hsz, hmode, hoff⟩ := eq_encM_iff.mp (rfl : encM m d a sz mode off = _)
  exact decodes_of_singleton hone henc hm (hdec _ hm hd ha hsz hmode hoff)

theorem decodes_of_encB {cond : BitVec 4} {disp : BitVec 12} (henc : encode i = [encB m d a cond disp])
    (hdec : ∀ w, major w = m.toNat → fieldD w = d → fieldA w = a → w.extractLsb' 12 4 = cond → fieldLow12 w = disp →
      decodeNative w [] = finish true i) : Decodes i := by
  obtain ⟨hm, hd, ha, hcond, hdisp⟩ := eq_encB_iff.mp (rfl : encB m d a cond disp = _)
  exact decodes_of_singleton hone henc hm (hdec _ hm hd ha hcond hdisp)

theorem decodes_of_encJ {disp : BitVec 26} (henc : encode i = [encJ m disp])
    (hdec : ∀ w, major w = m.toNat → w.extractLsb' 0 26 = disp → decodeNative w [] = finish true i) : Decodes i := by
  obtain ⟨hm, hdisp⟩ := eq_encJ_iff.mp (rfl : encJ m disp = _)
  exact decodes_of_singleton hone henc hm (hdec _ hm hdisp)

end

theorem decodes_of_encE {sub : BitVec 5} {c : EngCmd} (henc : encode i = encE m sub c) (hlo : 48 ≤ m.toNat) (hhi : m.toNat ≤ 50)
    (hdec : ∀ w w1, fieldD w = sub → engCmd w w1 = c → decodeEngine m.toNat w w1 = finish true i) : Decodes i := by
  obtain ⟨hm, hsub, hc⟩ := eq_encE_iff.mp (rfl : encE m sub c = _)
  refine ⟨_, _, henc, ?_, (decodeNative_engine hm hlo hhi).trans (hdec _ _ hsub hc)⟩
  rw [lengthOf_of_major hm, if_pos (by omega)]
  rfl

theorem decodes_of_encN {vop : BitVec 8} {n : Nest} (henc : encode i = encN vop n) (hvop : vopInstr vop.toNat n = some i) :
    Decodes i := by
  obtain ⟨hm, hv, hn, hz1, hz7⟩ := eq_encN_iff.mp (rfl : encN vop n = _)
  refine ⟨_, _, henc, lengthOf_of_major hm, ?_⟩
  rw [decodeNative_nest hm, decodeNest, hv, hn, hvop, hz1, hz7]
  rfl

end

/-! ## Every native instruction, in the groups of the opcode map (R157) -/

/-- In each group the format gives the fields that the group's decoder branches on, and with them the decoder evaluates. -/
theorem decodes_of_native {i : Instr} (hset : instrSet i = .native) : Decodes i := by
  cases i with
  | add d a b | sub d a b | mul d a b | mulh d a b | mulhn d a b | div d a b | divn d a b | rem d a b | remn d a b
  | and d a b | or d a b | xor d a b | andn d a b | shl d a b | shr d a b | sra d a b | rot d a b | min d a b | max d a b
  | minn d a b | maxn d a b | clz d a | ctz d a | popc d a | sel d a b | cmpEq d a b | cmpNe d a b | cmpLt d a b
  | cmpGe d a b | cmpLtn d a b | cmpGen d a b | sxb d a | sxh d a | sxw d a | zxb d a | zxh d a | zxw d a =>
    refine decodes_of_encA (by decide) rfl fun w hm hd ha hb hfn => ?_
    rw [decodeNative_alu hm, decodeAlu, hd, ha, hb, extractLsb'_of_extractLsb' hfn 6 5 (by decide),
      extractLsb'_of_extractLsb' hfn 0 6 (by decide)]
    rfl
  | addi d a i | andi d a i | ori d a i | xori d a i =>
    refine decodes_of_encI (by decide) rfl fun w hm hd ha himm => ?_
    rw [decodeNative_imm hm (by decide) (by decide), decodeImm.eq_def, hd, ha, himm]
    rfl
  | shiShl d a n | shiShr d a n | shiSra d a n | shiRot d a n =>
    refine decodes_of_encI (by decide) rfl fun w hm hd ha himm => ?_
    obtain ⟨hkind, hn⟩ := fieldImm_shift_iff.mp himm
    rw [decodeNative_imm hm (by decide) (by decide), decodeImm.eq_def, hd, ha, hn,
      extractLsb'_of_extractLsb' hkind 2 8 (by decide), extractLsb'_of_extractLsb' hkind 0 2 (by decide)]
    rfl
  | cmpiEq d a i | cmpiNe d a i | cmpiLt d a i | cmpiGe d a i | cmpiLtn d a i | cmpiGen d a i =>
    refine decodes_of_encI (by decide) rfl fun w hm hd ha himm => ?_
    obtain ⟨hcc, hi⟩ := fieldImm_low12_iff.mp himm
    rw [decodeNative_imm hm (by decide) (by decide), decodeImm.eq_def, hd, ha, hcc, hi]
    rfl
  | lhi d i =>
    refine decodes_of_encH (by decide) rfl fun w hm hd hz himm => ?_
    rw [decodeNative_lhi hm, hd, hz, himm]
    rfl
  | phi d i =>
    refine decodes_of_encH (by decide) rfl fun w hm hd hz himm => ?_
    rw [decodeNative_phi hm, hd, hz, himm]
    rfl
  | fadd d a b f r | fsub d a b f r | fmul d a b f r | fdiv d a b f r | fsqrt d a f r | fmin d a b f | fmax d a b f
  | fsgnCopy d a b f | fsgnNeg d a b f | fsgnXor d a b f | fcmpEq d a b f | fcmpLt d a b f | fcmpLe d a b f
  | fcmpUnordered d a b f | fclass d a f | fma d a b f r | fms d a b f r | fnma d a b f r =>
    refine decodes_of_encA (by decide) rfl fun w hm hd ha hb hfn => ?_
    obtain ⟨hf, hop, hr⟩ := fieldFn_fp_iff.mp hfn
    rw [decodeNative_fp hm (by decide) (by decide), decodeFp, hd, ha, hb, hf, hop, hr]
    rfl
  | fcvt d a t u r =>
    refine decodes_of_encA (by decide) rfl fun w hm hd ha hb hfn => ?_
    obtain ⟨ht, hu, hr⟩ := fieldFn_fcvt_iff.mp hfn
    rw [decodeNative_fp hm (by decide) (by decide), decodeFp, hd, ha, hb, ht, hu, hr]
    rfl
  | ld d a z o | ldSx d a z o | ldUp d a z o | st d a z o | stUp d a z o | ldFeKeep d a z o | ldFeTake d a z o
  | stFeFill d a z o | stFePut d a z o | stFeClear a z o | dpref a o | ipref a o =>
    refine decodes_of_encM (by decide) rfl fun w hm hd ha hsz hmode hoff => ?_
    rw [decodeNative_mem hm (by decide) (by decide), decodeMem.eq_def, hd, ha, hsz, hmode, hoff]
    rfl
  | amoAdd d a b z | amoAnd d a b z | amoOr d a b z | amoXor d a b z | amoMin d a b z | amoMax d a b z | amoMinn d a b z
  | amoMaxn d a b z | amoSwap d a b z =>
    refine decodes_of_encA (by decide) rfl fun w hm hd ha hb hfn => ?_
    obtain ⟨hhi, hz, hop⟩ := fieldFn_amo_iff.mp hfn
    rw [decodeNative_amo hm, decodeAmo, hd, ha, hb, hhi, hz, hop]
    rfl
  | amoFaddF32 d a b | amoFaddF64 d a b =>
    refine decodes_of_encA (by decide) rfl fun w hm hd ha hb hfn => ?_
    rw [decodeNative_amo hm, decodeAmo, hd, ha, hb, extractLsb'_of_extractLsb' hfn 6 5 (by decide),
      extractLsb'_of_extractLsb' hfn 4 2 (by decide), extractLsb'_of_extractLsb' hfn 0 4 (by decide)]
    rfl
  | cas d a b z =>
    refine decodes_of_encA (by decide) rfl fun w hm hd ha hb hfn => ?_
    obtain ⟨hhi, hz, hop⟩ := fieldFn_amo_iff.mp hfn
    rw [decodeNative_cas hm, hd, ha, hb, hhi, hz, hop]
    rfl
  | redAdd a b z | redAnd a b z | redOr a b z | redXor a b z | redMin a b z | redMax a b z | redMinn a b z | redMaxn a b z =>
    refine decodes_of_encA (by decide) rfl fun w hm hd ha hb hfn => ?_
    obtain ⟨hhi, hz, hop⟩ := fieldFn_amo_iff.mp hfn
    rw [decodeNative_red hm, decodeRed, hd, ha, hb, hhi, hz, hop]
    rfl
  | ulogAppAddF32 a b l | ulogAppAddF64 a b l | ulogAppAddI32 a b l | ulogAppAddI64 a b l | ulogAppMaxF32 a b l
  | ulogAppMinF32 a b l | ulogAppMaxF64 a b l | ulogAppMinF64 a b l | ulogMerge l =>
    refine decodes_of_encA (by decide) rfl fun w hm hd ha hb hfn => ?_
    obtain ⟨hhi, hl⟩ := fieldFn_ulog_iff.mp hfn
    rw [decodeNative_ulog hm, decodeUlog, hd, ha, hb, hl, BitVec.getLsbD_eq_extractLsb',
      extractLsb'_of_extractLsb' hhi 0 1 (by decide), extractLsb'_of_extractLsb' hhi 1 4 (by decide),
      extractLsb'_of_extractLsb' hhi 5 2 (by decide)]
    rfl
  | brEq a b disp | brNe a b disp | brLt a b disp | brGe a b disp | brLtn a b disp | brGen a b disp | brZ a disp
  | brNz a disp =>
    refine decodes_of_encB (by decide) rfl fun w hm ha hb hcond hdisp => ?_
    rw [decodeNative_transfer hm (by decide) (by decide), decodeTransfer.eq_def, ha, hb, hcond, hdisp]
    rfl
  | jmp disp | call disp =>
    refine decodes_of_encJ (by decide) rfl fun w hm hdisp => ?_
    rw [decodeNative_transfer hm (by decide) (by decide), decodeTransfer.eq_def, hdisp]
    rfl
  | jr a | callr a | ret a =>
    refine decodes_of_encA (by decide) rfl fun w hm hd ha hb hfn => ?_
    rw [decodeNative_transfer hm (by decide) (by decide), decodeTransfer.eq_def, hd, ha, hb,
      extractLsb'_of_extractLsb' hfn 2 9 (by decide), extractLsb'_of_extractLsb' hfn 0 2 (by decide)]
    rfl
  | callx a i =>
    refine decodes_of_encI (by decide) rfl fun w hm hd ha himm => ?_
    rw [decodeNative_transfer hm (by decide) (by decide), decodeTransfer.eq_def, hd, ha, himm]
    rfl
  | yield | sleep | halt | wswap d a | spawn d a b | wake d a | msgSend a b | msgWait | gbar i | swtrap h l | eret | dead a =>
    refine decodes_of_encA (by decide) rfl fun w hm hd ha hb hfn => ?_
    rw [decodeNative_thread hm, decodeThread, hd, ha, hb, hfn]
    rfl
  | gets d s | puts d s =>
    refine decodes_of_encI (by decide) rfl fun w hm hd ha himm => ?_
    obtain ⟨hhi, hs⟩ := fieldImm_low12_iff.mp himm
    rw [decodeNative_regs hm (by decide) (by decide), decodeRegs, hd, ha, hs, BitVec.getLsbD_eq_extractLsb',
      extractLsb'_of_extractLsb' hhi 3 1 (by decide), extractLsb'_of_extractLsb' hhi 0 3 (by decide)]
    rfl
  | getc d c | putc d c =>
    refine decodes_of_encI (by decide) rfl fun w hm hd ha himm => ?_
    obtain ⟨hhi, hc⟩ := fieldImm_low4_iff.mp himm
    rw [decodeNative_regs hm (by decide) (by decide), decodeRegs, hd, ha, hc, BitVec.getLsbD_eq_extractLsb',
      extractLsb'_of_extractLsb' hhi 11 1 (by decide), extractLsb'_of_extractLsb' hhi 0 11 (by decide)]
    rfl
  | clInit a b | clArm a b | clAdd a b | clWait d a b | clTest d a | cbDef d h b | cbFill h b | cbDrain h b | cbWfill h b
  | cbWfree h b | cbStat d h =>
    refine decodes_of_encA (by decide) rfl fun w hm hd ha hb hfn => ?_
    rw [decodeNative_claspCb hm (by decide), decodeClaspCb, hd, ha, hb, hfn]
    rfl
  | maLdst c | maSwap c | maZero c | maStream c | maDrain c | maEnd c | maWait c | dmaCp c | dmaGt c | dmaSc c | dmaColl c
  | bdDecl c | bdPass c | bdWake c | bdStat c | bdFree c =>
    refine decodes_of_encE rfl (by decide) (by decide) fun w w1 hsub hc => ?_
    rw [decodeEngine.eq_def, hsub, hc]
    rfl
  | vxCopy n | vxAdd n | vxSub n | vxMul n | vxFma n | vxMin n | vxMax n | vxAbs n | vxNeg n | vxDiv n | vxCvt n | vxSel n
  | vxCmpeq n | vxCmplt n | vxCmple n | vxAnd n | vxOr n | vxXor n | vxShl n | vxShr n | vxSra n | vxQuant n | vxDequant n
  | vxRsum n | vxRmax n | vxRmin n | vxRargmax n | vxGather n | vxIota n | vxFill n | vxExp n | vxExp2 n | vxExpm1 n
  | vxLog n | vxLog2 n | vxLog1p n | vxSin n | vxCos n | vxSinpi n | vxCospi n | vxTanh n | vxSigmoid n | vxErf n | vxAtan n
  | vxSqrt n | vxRsqrt n | vxRcp n | vxXaExp2 n | vxXaLog2 n | vxXaRcp n | vxXaRsqrt n | vxXaTanh n | vxXaSigmoid n =>
    exact decodes_of_encN rfl rfl
  | _ => cases hset

/-- Settles O56, each way by the decoder's groups: an encoding has the fields that its group's decoder reads, and a word that
a group's decoder takes is put together from those fields and the reserved zeros. -/
theorem nativeEncodingAndDecodingAgree : Obligations.NativeEncodingAndDecodingAgree := by
  refine ⟨fun i hset hwf => ?_, fun w rest i hlen h => isWords_of_decodeNative hlen h⟩
  obtain ⟨w, rest, henc, hlen, hdec⟩ := decodes_of_native hset
  exact ⟨w, rest, henc, hlen, hdec.trans (finish_eq_ok_iff.mpr ⟨rfl, hwf, rfl⟩)⟩

end Sys2Proof.Machine
end
